-- ==== Sys2Proof/Syntax.lean ====
section
/-! DEFINITION. The commands of the GLV6480 block: one constructor for each row of spec/opcode_table.json.

A row of the table is a host command (its parameters as R531 to R549 lay them out, each field a bit vector of the
size in brackets there), a timed action reaching the head of its queue, a tile DSP instruction with the fields of R303
or R304, or an event of the block and its environment (an edge, a completion, the expiry of a time). An event row
carries what the block measures or receives at that event, which no other state determines. -/

namespace Sys2Proof

/-- The part of a command slot that every command has (R502): the mailbox it stands in, SEQ, PLEN, FLAGS and SESSION,
the offset of an indirect parameter block, and whether every byte of the slot that R502 requires to be 0 is 0. -/
structure CmdHdr where
  mb       : Fin 4
  seq      : BitVec 16
  plen     : BitVec 16
  flags    : BitVec 8
  session  : BitVec 8
  indirect : BitVec 32
  padZero  : Bool
  deriving DecidableEq, Repr

/-- One RFFE operation of R533: type, USID, address, byte count, the three bytes of 0 and 16 data bytes. -/
structure RffeOp where
  kind  : BitVec 8
  usid  : BitVec 8
  addr  : BitVec 16
  count : BitVec 8
  rsvd  : BitVec 24
  data  : List (BitVec 8)
  deriving DecidableEq, Repr

/-- The flag bits CJ, NEG and Z of a MAC-class instruction (R303). -/
structure TFlags where
  cj  : Bool
  neg : Bool
  z   : Bool
  deriving DecidableEq, Repr

/-- The addressing fields md, p and m/k (here km) of a load or store (R284, R304). -/
structure AddrMode where
  md : BitVec 2
  p  : Fin 8
  km : BitVec 3
  deriving DecidableEq, Repr

/-- A framed packet arriving from the baseband (R344), with the outcome of its CRC check (R348). -/
structure RxPkt where
  flow    : BitVec 8
  flags   : BitVec 16
  seq     : BitVec 16
  time    : BitVec 48
  aper    : BitVec 8
  fmt     : BitVec 8
  crcOk   : Bool
  payload : List (BitVec 8)
  deriving DecidableEq, Repr

/-- The commands. -/
inductive Instr where
  /-- POWER_UP_VDDIO (R579). VDDIO and the AO supply come within range and the pads take their reset-low states within 100 µs. -/
  | powerUpVddio
  /-- SUPPLY_REMOVED (R585). A rail that RETAIN does not allow to be off is removed, and the device goes to OFF. -/
  | supplyRemoved (rail : Fin 10)
  /-- RESET_N_ASSERT (R481). RESET_N goes low: the current state ends, every pad hold is cleared and HP_WAKE_STATUS is reset. -/
  | resetNAssert
  /-- RESET_N_RELEASE (R497). RESET_N rises: BOOTMODE is sampled and held, device time starts at 0:0 and the ROM starts. -/
  | resetNRelease (bootmode : BitVec 2) (refclk : Bool)
  /-- FIRMWARE_READY (R513). Booted firmware adopts the configuration, sets READY and emits PUPPETEER_UP. -/
  | firmwareReady
  /-- TRIAL_BOOT_TIMEOUT (R517). A trial slot fails to set READY within 300 ms: the ROM boots the other slot and marks the trial slot rejected. -/
  | trialBootTimeout
  /-- WATCHDOG_EXPIRY (R513). The Puppeteer watchdog expires after 100 ms without service, and a restart begins without completing commands. -/
  | watchdogExpiry
  /-- LOCKSTEP_FAULT (R513). The lockstep comparator finds a mismatch: LOCKSTEP is set and a restart begins. -/
  | lockstepFault
  /-- SPI_FRAME (R509). An SPI host-port frame between chip-select edges: its header is decoded, words are read or written, and failures set FRAME_ERR. -/
  | spiFrame (khz : BitVec 16) (bytes : List (BitVec 8)) (bits : Fin 8)
  /-- REGISTER_WRITE (R12). A write to a register that has no row of its own applies the access codes RW, W1C and W1S. -/
  | registerWrite (addr : BitVec 32) (data : BitVec 32)
  /-- RC_REGISTER_READ (R12). A read of an RC field returns its value and then clears it. -/
  | rcRegisterRead (addr : BitVec 32)
  /-- LATCHING_LO_READ (R69). A read of a LO register such as CK_TIME_LO, TL_SYN_FC_LO, BE_SWAP_LO or LK_PRBS_BITS_LO latches the matching HI register. -/
  | latchingLoRead (addr : BitVec 32)
  /-- MB_DOORBELL (R503). A write to HP_MB_CTAIL issues commands, or is ignored and sets RING_ERR when the ring would overflow or the mailbox is link-bound. -/
  | mbDoorbell (mb : Fin 4) (data : BitVec 32)
  /-- HP_MB_CFG_WRITE (R507). A write to HP_MB_CFG rebinds mailboxes to SPI or to the link, only while they are empty; otherwise it sets RING_ERR. -/
  | hpMbCfgWrite (data : BitVec 32)
  /-- HP_EVT_RD_WRITE (R510). A write to HP_EVT_RD releases event ring slots; a value ahead of the write counter is ignored. -/
  | hpEvtRdWrite (data : BitVec 32)
  /-- HP_WAKE_CTL_WRITE (R489). A write to HP_WAKE_CTL sets PIN_EN and TIMER_EN; writing 1 to WAKE is a wake request. -/
  | hpWakeCtlWrite (data : BitVec 32)
  /-- HP_PAD_RELEASE_WRITE (R581). Writing 1 to a bit of HP_PAD_RELEASE releases that pad group to its core level within 100 ns. -/
  | hpPadReleaseWrite (data : BitVec 32)
  /-- DM_RING_LEN_WRITE (R389). A window write to DM_RING_LEN sets LEN and resets HEAD and TAIL when the channel is stopped; otherwise it is ignored and sets RLEN_IGN. -/
  | dmRingLenWrite (ch : Fin 64) (data : BitVec 32)
  /-- DM_RING_PTR_WRITE (R410). A window write to DM_RING_PTR.TAIL advances the ring tail; values at or above LEN are ignored. -/
  | dmRingPtrWrite (ch : Fin 64) (data : BitVec 32)
  /-- SYS_INFO (R531). Command returning identity, revision, firmware version, boot information and the restart count. -/
  | sysInfo (h : CmdHdr)
  /-- FW_STAGE (R516). Command writing one chunk of a firmware image into the slot not in use; the FINAL chunk verifies the image and programs its header last. -/
  | fwStage (h : CmdHdr) (offset : BitVec 32) (length : BitVec 32) (ptr : BitVec 32) (final : BitVec 8)
  /-- FW_RESTART (R517). Command restarting the Puppeteer from a named slot; it completes by PUPPETEER_UP. -/
  | fwRestart (h : CmdHdr) (slot : BitVec 8)
  /-- FW_SLOT_INFO (R531). Command reporting validity, VERSION, SEQ and rejection of each firmware slot. -/
  | fwSlotInfo (h : CmdHdr)
  /-- CK_CONV_SET (R416). Command setting enable, DELAY and trims of converter clock outputs. -/
  | ckConvSet (h : CmdHdr) (tiles : BitVec 8) (en : BitVec 8) (delay : BitVec 16) (trim1 : BitVec 8) (trim2 : BitVec 8) (trim3 : BitVec 8) (trim4 : BitVec 8)
  /-- CK_SYNC_CFG (R421). Command setting the SYNC check period and the drift limit. -/
  | ckSyncCfg (h : CmdHdr) (period : BitVec 64) (limit : BitVec 16)
  /-- CK_LOCKMON_SEL (R428). Command selecting the LOCKMON source. -/
  | ckLockmonSel (h : CmdHdr) (sel : BitVec 8)
  /-- CK_FAULT_ACK (R427). Command acknowledging relocked PLL faults, which ends SUSPECT, mutes and UNLOCKED holds. -/
  | ckFaultAck (h : CmdHdr) (plls : BitVec 16)
  /-- CK_PLL_RELOCK (R425). Command starting a planned relock of one PLL; it completes by CLK_RELOCKED. -/
  | ckPllRelock (h : CmdHdr) (pll : BitVec 8)
  /-- CK_STATUS (R531). Command returning the PLL, safe-clock, SYNC and converter output status. -/
  | ckStatus (h : CmdHdr)
  /-- CK_REF_CFG (R412). Command selecting LNREF or REFCLK as the lane PLL reference, only while every lane is in RAGDOLL. -/
  | ckRefCfg (h : CmdHdr) (source : BitVec 8)
  /-- REFCLK_MISSING_DETECT (R413). REFCLK is found missing against FBOSC: PLLs count as unlocked, safe clocks move to FBOSC and SYNCED is cleared. -/
  | refclkMissingDetect
  /-- REFCLK_RETURN (R413). 1,024 consecutive good REFCLK cycles are counted, REFCLK_RESTORED is emitted and the PLLs relock. -/
  | refclkReturn
  /-- PLL_LOCK_LOSS (R426). A PLL becomes unlocked without a planned relock: the domain moves to its safe clock, the per-PLL consequences start and the FAULT bit is set. -/
  | pllLockLoss (pll : Fin 16)
  /-- PLL_RELOCK_RETRY (R426). A relock attempt that failed is repeated 1 ms later, and RETRIES is counted. -/
  | pllRelockRetry (pll : Fin 16)
  /-- PLL_LOCK_ACQUIRED (R424). A PLL reaches lock, waits 20 µs where required, switches its domain back and emits CLK_RELOCKED. -/
  | pllLockAcquired (pll : Fin 16)
  /-- CONV_DELAY_SLEW_STEP (R417). Every 1,024 ticks a converter output moves its instant one fraction unit toward the new DELAY or trim. -/
  | convDelaySlewStep (t : Fin 8)
  /-- SYNC_EDGE (R418). A rising SYNC edge is sampled on REFCLK and stamped by the TDC. -/
  | syncEdge (frac : BitVec 8) (lowBefore : Bool)
  /-- SYNC_QUALIFIED (R419). Four REFCLK cycles after an edge, the edge is qualified or rejected; a qualified edge with a load armed sets device time, SYNC_COMP and the divider phases. -/
  | syncQualified (highAfter : Bool) (comp : BitVec 7)
  /-- TIME_ARM_SYNC (R42). Command arming a device time load at the next qualified SYNC edge. -/
  | timeArmSync (h : CmdHdr) (value : BitVec 64) (timeout : BitVec 8)
  /-- SYNC_ARM_LAPSE (R42). The armed timeout expires with no qualified edge, and TIME_ARM_SYNC completes ABORTED. -/
  | syncArmLapse
  /-- TIME_GET (R67). Command returning device time, SYNCED and the discipline mode. -/
  | timeGet (h : CmdHdr)
  /-- TIME_DISCIPLINE (R44). Command selecting OFF or MEASURE mode, the epoch and the polarity for TIME_IN, and ending the edge history. -/
  | timeDiscipline (h : CmdHdr) (mode : BitVec 8) (epoch : BitVec 72) (polarity : BitVec 8)
  /-- TIME_IN_PULSE_EDGE (R45). A TIME_IN edge is stamped and tested for acceptance, and updates the phase and frequency errors. -/
  | timeInPulseEdge (stamp : BitVec 72) (falling : Bool)
  /-- PPS_MISSING (R601). Two consecutive expected TIME_IN edges are missing: PPS_LOST is set and TIME_IN_LOST is emitted. -/
  | ppsMissing
  /-- ACT_ENQUEUE (R46). Command validating a timed action and placing it in a tile or device queue. -/
  | actEnqueue (h : CmdHdr) (queue : BitVec 8) (kind : BitVec 8) (time : BitVec 72) (tol : BitVec 32) (window : BitVec 8) (params : List (BitVec 8))
  /-- ACT_CANCEL (R54). Command removing a queued or held action. -/
  | actCancel (h : CmdHdr) (handle : BitVec 16)
  /-- ACT_QUERY (R533). Command reporting the outcome of an action or the state of a queue. -/
  | actQuery (h : CmdHdr) (handle : BitVec 16) (queue : BitVec 8)
  /-- ACTION_TOLERANCE_EXPIRY (R51). An action at the head of a queue, held or reached late, passes its tolerance and is discarded with LATE. -/
  | actionToleranceExpiry (q : Fin 9)
  /-- ACTION_HOLD_RELEASE (R51). The condition holding an action at the head clears, and the action is judged again and taken. -/
  | actionHoldRelease (q : Fin 9)
  /-- RADIO_STATE (R116). Timed action starting a tile's transition to OFF, SLEEP, STANDBY, RX or MONITOR, with an optional dwell. -/
  | radioState (t : Fin 8)
  /-- RETUNE (R123). Timed action moving a tile's synthesiser to a new centre frequency by glide steps or a large relock. -/
  | retune (t : Fin 8)
  /-- TX_BURST (R118). Timed action taken at S′ that drives the TX pattern and moves the tile into TX for a burst. -/
  | txBurst (t : Fin 8)
  /-- PICK_CTL (R105). Timed action setting a pick group's mode to AUTO, FORCE_A or FORCE_B, ending any pick or hold in progress. -/
  | pickCtl (t : Fin 8)
  /-- FEM_LEVELS (R91). Timed action replacing one FEM_CTL pattern. -/
  | femLevels (t : Fin 8)
  /-- CAL_SLOT (R436). Firmware timed action moving a tile into CAL for a calibration slot. -/
  | calSlot (t : Fin 8)
  /-- BANK_SWAP (R179). Timed action taken at the earliest join S: it starts the transitions of joining tiles and changes tile uses at T. -/
  | bankSwap
  /-- SWAP_EFFECTIVE_SAMPLE (R174). At the effective sample s, the banks exchange, the mask applies, narrowband stages restart and packets are cut. -/
  | swapEffectiveSample
  /-- ACQ_ARM (R254). Timed action arming acquisition channels, optionally bound to a window. -/
  | acqArm
  /-- SOFT_TRIGGER (R241). Timed action firing the named trigger units at its effective tick. -/
  | softTrigger
  /-- TRIG_OUT_EDGE (R47). Timed action driving a TRIG_OUT pin owned by ACTION to a level. -/
  | trigOutEdge
  /-- LANE_STATE (R322). Timed action moving lanes to ON, STANDBY or RAGDOLL. -/
  | laneState
  /-- ANALYSER_CFG (R236). Timed action performing APPLY, DENSITY_SWAP or TRACE_RESTART on analyser lanes. -/
  | analyserCfg
  /-- WIN_DEFINE (R57). Command defining a pass window's open, close, tag and maximum length. -/
  | winDefine (h : CmdHdr) (window : BitVec 8) (openMode : BitVec 8) (openVal : BitVec 72) (closeMode : BitVec 8) (closeVal : BitVec 72) (tag : BitVec 32) (maxLen : BitVec 64)
  /-- WIN_MODIFY (R59). Command changing a window's open or close. -/
  | winModify (h : CmdHdr) (window : BitVec 8) (edge : BitVec 8) (time : BitVec 72)
  /-- WIN_DELETE (R60). Command deleting a window, closing an open one at the processing tick. -/
  | winDelete (h : CmdHdr) (window : BitVec 8)
  /-- WIN_QUERY (R532). Command returning a window's state, times, tag and tagged count. -/
  | winQuery (h : CmdHdr) (window : BitVec 8)
  /-- WIN_OPEN_TIME (R57). A window reaches its open time and becomes OPEN. -/
  | winOpenTime (w : Fin 64)
  /-- WIN_CLOSE_TIME (R60). A window reaches its close, by value or timeout, and enters CLOSING; bound actions and channels are dropped. -/
  | winCloseTime (w : Fin 64)
  /-- WIN_CLOSING_END (R60). The tagging horizon after a close elapses, and the window becomes FREE. -/
  | winClosingEnd (w : Fin 64)
  /-- TRIG_IN_EDGE (R242). An edge on TRIG_IN is stamped, filtered by the 16-tick spacing, and fed to windows and trigger units. -/
  | trigInEdge (input : Fin 4) (stamp : BitVec 72) (falling : Bool)
  /-- PATH_SET (R107). Command setting attenuation, driver gain and port of paths. -/
  | pathSet (h : CmdHdr) (paths : BitVec 64) (atten : BitVec 8) (gain : BitVec 8) (port : BitVec 8)
  /-- PATH_GET (R107). Command returning a path's settings and PA_STAT. -/
  | pathGet (h : CmdHdr) (path : BitVec 8)
  /-- FEM_PATTERN_SET (R91). Command loading FEM_CTL patterns, line modes, TX_LEAD, TX_LAG and ORX select lines. -/
  | femPatternSet (h : CmdHdr) (tiles : BitVec 8) (pats : List (BitVec 8)) (od : BitVec 8) (lead : BitVec 16) (lag : BitVec 16) (sel0 : BitVec 8) (sel1 : BitVec 8) (sel2 : BitVec 8)
  /-- RFFE_XFER (R95). Command running a list of RFFE operations on a tile's bus. -/
  | rffeXfer (h : CmdHdr) (tile : BitVec 8) (count : BitVec 8) (ops : List RffeOp)
  /-- RFFE_OPERATION_DONE (R95). An RFFE bus operation completes; a read parity error stops the list. -/
  | rffeOperationDone (t : Fin 8) (parity : Bool) (data : List (BitVec 8))
  /-- RFFE_RETUNE_SEQ (R96). Command storing a tile's RFFE retune write sequence and dividers. -/
  | rffeRetuneSeq (h : CmdHdr) (tile : BitVec 8) (count : BitVec 8) (divWr : BitVec 8) (divRd : BitVec 8) (ops : List RffeOp)
  /-- RFFE_SEQ_OVERRUN (R96). A retune sequence runs past 40 µs, and OVERRUN is counted. -/
  | rffeSeqOverrun (t : Fin 8)
  /-- PREAMBLE_CFG (R97). Command attaching and configuring a tile's preamble detector. -/
  | preambleCfg (h : CmdHdr) (det : BitVec 8) (beam : BitVec 8) (ptr : BitVec 32) (half : BitVec 16) (thr : BitVec 16) (evt : BitVec 8)
  /-- PICK_GROUP_CFG (R100). Command defining a pick group's tiles, home port, bias, hold and enable. -/
  | pickGroupCfg (h : CmdHdr) (group : BitVec 8) (tiles : BitVec 8) (home : BitVec 8) (bias : BitVec 8) (hold : BitVec 32) (enable : BitVec 8)
  /-- ORX_COUPLING_SET (R85). Command recording a path's ORX coupling, route delay, attenuation and settle time. -/
  | orxCouplingSet (h : CmdHdr) (path : BitVec 8) (coupling : BitVec 8) (delay : BitVec 16) (atten : BitVec 8) (settle : BitVec 16)
  /-- RX_SAMPLE (R77). A converter delivers a receive sample; overrange samples are counted and flagged. -/
  | rxSample (p : Fin 64) (i : BitVec 14) (q : BitVec 14)
  /-- PREAMBLE_DETECTION (R98). A detector's correlation reaches its threshold: the detection is stamped, reported, offered as a trigger and may start a pick. -/
  | preambleDetection (t : Fin 8)
  /-- PICK_SWITCH (R101). At t_sw the group's selectors switch to the other port. -/
  | pickSwitch (g : Fin 8)
  /-- PICK_DECISION (R101). After the second half is measured, the group keeps the other port or decides to return home; a pick with too few samples is void. -/
  | pickDecision (g : Fin 8)
  /-- PICK_RETURN_HOME (R101). 8 ticks after a home decision, the selectors return to the home port. -/
  | pickReturnHome (g : Fin 8)
  /-- PICK_HOLD_END (R103). The pick hold expires or the lead tile leaves RX, and the group returns home. -/
  | pickHoldEnd (g : Fin 8)
  /-- ORX_CAPTURE_START (R84). After the select lines settle, an ORX capture starts for the user chosen in R31 order. -/
  | orxCaptureStart (t : Fin 8)
  /-- ORX_CAPTURE_END (R84). An ORX capture completes and the next user is served. -/
  | orxCaptureEnd (t : Fin 8) (words : List (BitVec 32))
  /-- TRANSITION_COMPLETE (R113). A tile transition ends: the new state is reached, its FEM pattern applies and pending sets swap at a burst boundary. -/
  | transitionComplete (t : Fin 8)
  /-- BURST_LENGTH_END (R120). A burst's length or dwell elapses, and the tile starts its transition home. -/
  | burstLengthEnd (t : Fin 8)
  /-- TX_LEAD_START (R118). At T − TX_LEAD the TX pattern is driven. -/
  | txLeadStart (t : Fin 8)
  /-- TX_LAG_END (R121). TX_LAG after the last transmit sample ends, and the STANDBY pattern is driven. -/
  | txLagEnd (t : Fin 8)
  /-- GLIDE_STEP_CONFIRM (R124). The settle detector confirms a glide step, and the next step starts or the retune completes. -/
  | glideStepConfirm (t : Fin 8)
  /-- GLIDE_STEP_OVERBUDGET (R124). A glide step is not confirmed within 5,899 ticks, and OVERBUDGET is counted. -/
  | glideStepOverbudget (t : Fin 8)
  /-- GLIDE_STEP_TIMEOUT (R124). A glide step is still unconfirmed after 44,237 ticks and falls back to a large relock. -/
  | glideStepTimeout (t : Fin 8)
  /-- LARGE_RETUNE_COMPLETE (R125). A large retune or relock completes: the LO phase is set, the tile returns to its state and the CFR pulse is regenerated. -/
  | largeRetuneComplete (t : Fin 8)
  /-- TILE_HOME_SET (R119). Command setting the APERTURE home state of tiles. -/
  | tileHomeSet (h : CmdHdr) (tiles : BitVec 8) (home : BitVec 8)
  /-- TILE_STATE_GET (R131). Command returning TL_STATE, fc, TL_TXHOLD and B of a tile. -/
  | tileStateGet (h : CmdHdr) (tile : BitVec 8)
  /-- TILE_BAND_SET (R71). Command setting a tile's used bandwidth B. -/
  | tileBandSet (h : CmdHdr) (tiles : BitVec 8) (band : BitVec 32)
  /-- CHAN_FRONT_SET (R152). Command setting the receive and transmit front presets. -/
  | chanFrontSet (h : CmdHdr) (dirs : BitVec 8) (rx : BitVec 8) (tx : BitVec 8)
  /-- CHAN_INFO (R157). Command returning group delay, b, rejection and ripple for a preset combination. -/
  | chanInfo (h : CmdHdr) (dir : BitVec 8) (front : BitVec 8) (narrow : BitVec 8) (rate : BitVec 8)
  /-- HK_FILTER_SET (R156). Command selecting the filter preset of the diode or rail channels. -/
  | hkFilterSet (h : CmdHdr) (cls : BitVec 8) (preset : BitVec 8)
  /-- BEAM_CFG (R169). Command writing a beam configuration into the shadow bank. -/
  | beamCfg (h : CmdHdr) (dir : BitVec 8) (beam : BitVec 8) (enable : BitVec 8) (rate : BitVec 8) (preset : BitVec 8) (format : BitVec 8) (flow : BitVec 8) (freq : BitVec 32) (shift : BitVec 8)
  /-- BEAM_WEIGHTS (R164). Command writing beam weights into the shadow bank. -/
  | beamWeights (h : CmdHdr) (dir : BitVec 8) (beam : BitVec 8) (port : BitVec 8) (first : BitVec 8) (count : BitVec 8) (ptr : BitVec 32)
  /-- BEAM_DELAYS (R160). Command writing fractional delays into the shadow bank. -/
  | beamDelays (h : CmdHdr) (dir : BitVec 8) (first : BitVec 8) (count : BitVec 8) (form : BitVec 8) (delays : List (BitVec 16)) (ptr : BitVec 32)
  /-- ELEM_CFG (R172). Command writing the element-mode configuration into the shadow bank. -/
  | elemCfg (h : CmdHdr) (dir : BitVec 8) (mode : BitVec 8) (rate : BitVec 8) (preset : BitVec 8) (format : BitVec 8) (flows : List (BitVec 8)) (txShift : BitVec 8)
  /-- BEAM_BANK_COPY (R170). Command copying the active bank into the shadow bank. -/
  | beamBankCopy (h : CmdHdr) (dirs : BitVec 8)
  /-- BEAM_QUERY (R183). Command returning a bank's beam or element configuration and masks. -/
  | beamQuery (h : CmdHdr) (dir : BitVec 8) (bank : BitVec 8) (beam : BitVec 8)
  /-- BEAM_TX_GRID_SAMPLE (R181). A transmit beam grid sample is needed; missing input is zero-filled and counted. -/
  | beamTxGridSample (b : Fin 32)
  /-- PD_CHAIN_SET (R187). Command inserting or removing the CFR and predistortion stages. -/
  | pdChainSet (h : CmdHdr) (inserted : BitVec 8)
  /-- PD_PATH_SET (R188). Command setting PD_EN, CFR_EN, ADAPT_EN and EVT_SWAP of paths. -/
  | pdPathSet (h : CmdHdr) (paths : BitVec 64) (pdEn : BitVec 8) (cfrEn : BitVec 8) (adaptEn : BitVec 8) (evtSwap : BitVec 8)
  /-- PD_NEIGHBOUR_SET (R195). Command setting a path's neighbour map, effective at the next burst boundary. -/
  | pdNeighbourSet (h : CmdHdr) (path : BitVec 8) (q1 : BitVec 8) (q2 : BitVec 8)
  /-- PD_GATE_SET (R200). Command setting the capture gates and adaptation timing of tiles. -/
  | pdGateSet (h : CmdHdr) (tiles : BitVec 8) (gate : BitVec 8) (cfMin : BitVec 8) (cfMax : BitVec 8) (margin : BitVec 8) (capSkip : BitVec 16) (freeze : BitVec 16) (clear : BitVec 16) (lambda : BitVec 8)
  /-- PD_LIMIT_SET (R202). Command setting the plausibility limits and REJECT_MAX. -/
  | pdLimitSet (h : CmdHdr) (tiles : BitVec 8) (gain : BitVec 8) (phase : BitVec 8) (nmse : BitVec 8) (peak : BitVec 8) (rejectMax : BitVec 8)
  /-- PD_CFR_SET (R194). Command setting the CFR threshold and loading or clearing the pulse. -/
  | pdCfrSet (h : CmdHdr) (tiles : BitVec 8) (thr : BitVec 8) (ptr : BitVec 32)
  /-- PD_COEF_LOAD (R204). Command loading a pending coefficient set and clearing the statistics. -/
  | pdCoefLoad (h : CmdHdr) (path : BitVec 8) (ptr : BitVec 32)
  /-- PD_COEF_READ (R208). Command copying an active or pending coefficient set to mailbox RAM. -/
  | pdCoefRead (h : CmdHdr) (path : BitVec 8) (set : BitVec 8) (ptr : BitVec 32)
  /-- PD_STATUS (R208). Command returning a path's predistortion status and counters. -/
  | pdStatus (h : CmdHdr) (path : BitVec 8)
  /-- ESTIMATION_DONE (R202). The estimator finishes a fit and the plausibility check makes the set pending or rejects it. -/
  | estimationDone (t : Fin 8) (dGain : BitVec 16) (dPhase : BitVec 16) (nmse : BitVec 16) (peak : BitVec 16) (words : List (BitVec 32))
  /-- FREEZE_TIME_EXPIRY (R205). No capture is accepted for FREEZE_TIME, and the path becomes FROZEN. -/
  | freezeTimeExpiry (p : Fin 64)
  /-- STATS_CLEAR_EXPIRY (R206). FROZEN lasts STATS_CLEAR, and the estimator statistics are cleared. -/
  | statsClearExpiry (p : Fin 64)
  /-- AN_LANE_CFG (R211). Command staging a lane's mode, path, size, window, overlap and units. -/
  | anLaneCfg (h : CmdHdr) (lanes : BitVec 16) (mode : BitVec 8) (path : BitVec 8) (port : BitVec 8) (z : BitVec 8) (window : BitVec 8) (overlap : BitVec 8) (units : BitVec 8)
  /-- AN_STITCH_CFG (R223). Command configuring or dissolving the stitch set and returning the member frequencies. -/
  | anStitchCfg (h : CmdHdr) (tiles : BitVec 8) (f0 : BitVec 64) (z : BitVec 8)
  /-- AN_OUTPUT_CFG (R228). Command staging a RAW, MAX, MIN or AVG output to a flow or store segment. -/
  | anOutputCfg (h : CmdHdr) (source : BitVec 8) (output : BitVec 8) (first : BitVec 32) (count : BitVec 32) (period : BitVec 16) (k : BitVec 32) (avgMode : BitVec 8) (inclBlanked : BitVec 8) (maskOvl : BitVec 8) (flow : BitVec 8) (segment : BitVec 8)
  /-- AN_MASK_LOAD (R229). Command staging a frequency mask. -/
  | anMaskLoad (h : CmdHdr) (source : BitVec 8) (mask : BitVec 8) (polarity : BitVec 8) (enterD : BitVec 16) (leaveD : BitVec 16) (evt : BitVec 8) (count : BitVec 16) (ptr : BitVec 32)
  /-- AN_DENSITY_CFG (R233). Command staging the Kaleidoscope range, scale and flow. -/
  | anDensityCfg (h : CmdHdr) (lane : BitVec 8) (b0 : BitVec 32) (c : BitVec 32) (top : BitVec 16) (step : BitVec 8) (flow : BitVec 8)
  /-- AN_DENSITY_SWAP (R234). Command requesting a density bank swap. -/
  | anDensitySwap (h : CmdHdr) (lanes : BitVec 16)
  /-- AN_APPLY (R235). Command bringing staged analyser configuration into force at its processing tick. -/
  | anApply (h : CmdHdr) (lanes : BitVec 16)
  /-- AN_REF_SET (R220). Command setting REF_OFFSET of lanes. -/
  | anRefSet (h : CmdHdr) (lanes : BitVec 16) (offset : BitVec 16)
  /-- AN_STATUS (R238). Command returning a lane's analyser status and counters. -/
  | anStatus (h : CmdHdr) (lane : BitVec 8)
  /-- SPECTRAL_FRAME_END (R215). A lane completes a frame: the spectrum is computed and blanked, outputs fed, masks tested and the Kaleidoscope counted. -/
  | spectralFrameEnd (src : Fin 9)
  /-- TRACE_BLOCK_END (R228). A block of K frames ends, and a MAX, MIN or AVG trace is emitted. -/
  | traceBlockEnd (src : Fin 9) (out : Fin 4)
  /-- DENSITY_SWAP_EFFECT (R234). At the next frame boundary the density banks exchange and the finished bank starts streaming. -/
  | densitySwapEffect (s : Fin 8)
  /-- DENSITY_READOUT_DONE (R234). The finished density bank has streamed out and is cleared. -/
  | densityReadoutDone (s : Fin 8)
  /-- LEVEL_CROSSING (R244). A level detector's power meets its threshold for DWELL samples and fires with an interpolated stamp. -/
  | levelCrossing (lv : Fin 16)
  /-- TRIGGER_FIRING_ARRIVAL (R246). A source firing reaches a trigger unit; A and OR units fire, and channels start records. -/
  | triggerFiringArrival (u : Fin 16)
  /-- TU_PAIR_DECISION (R246). Once the partner's time is Zu in the past, an AND or A_THEN_B unit decides its pairing. -/
  | tuPairDecision (u : Fin 16)
  /-- TRIG_OUT_PULSE_END (R248). A routed TRIG_OUT pulse reaches its width and returns inactive. -/
  | trigOutPulseEnd (pin : Fin 4)
  /-- RECORD_END (R257). A record's last POST sample is written, and the header and reductions are then written. -/
  | recordEnd (c : Fin 16)
  /-- RECORD_REARM (R257). After the header is written, the channel moves to the next slot or becomes DONE and is ready again. -/
  | recordRearm (c : Fin 16)
  /-- AQ_SEGMENT_DEFINE (R250). Command defining a store segment and its slots. -/
  | aqSegmentDefine (h : CmdHdr) (segment : BitVec 8) (base : BitVec 32) (length : BitVec 32) (slots : BitVec 16)
  /-- AQ_SEGMENT_FREE (R250). Command freeing a segment. -/
  | aqSegmentFree (h : CmdHdr) (segment : BitVec 8)
  /-- AQ_CHAN_CFG (R253). Command configuring or unconfiguring an acquisition channel, with admission. -/
  | aqChanCfg (h : CmdHdr) (channel : BitVec 8) (op : BitVec 8) (kind : BitVec 8) (index : BitVec 8) (segment : BitVec 8) (unit : BitVec 8) (pre : BitVec 32) (post : BitVec 32) (format : BitVec 8) (mode : BitVec 8) (reductions : BitVec 8) (bt : BitVec 8) (flow : BitVec 8)
  /-- AQ_TRIG_CFG (R245). Command configuring a trigger unit. -/
  | aqTrigCfg (h : CmdHdr) (unit : BitVec 8) (aCode : BitVec 8) (aIdx : BitVec 8) (bCode : BitVec 8) (bIdx : BitVec 8) (op : BitVec 8) (limit : BitVec 32) (holdoff : BitVec 32) (evt : BitVec 8)
  /-- AQ_LEVEL_CFG (R243). Command configuring a level detector. -/
  | aqLevelCfg (h : CmdHdr) (det : BitVec 8) (kind : BitVec 8) (index : BitVec 8) (w : BitVec 8) (thr : BitVec 16) (hys : BitVec 16) (dir : BitVec 8) (dwell : BitVec 16)
  /-- AQ_TRIGIN_CFG (R242). Command selecting the edges of a TRIG_IN input. -/
  | aqTriginCfg (h : CmdHdr) (input : BitVec 8) (edges : BitVec 8)
  /-- AQ_TRIGOUT_CFG (R248). Command setting a TRIG_OUT pin's owner, route, polarity and width. -/
  | aqTrigoutCfg (h : CmdHdr) (pin : BitVec 8) (owner : BitVec 8) (kind : BitVec 8) (index : BitVec 8) (polarity : BitVec 8) (width : BitVec 16)
  /-- AQ_ARM (R254). Command arming acquisition channels. -/
  | aqArm (h : CmdHdr) (chans : BitVec 16) (window : BitVec 8)
  /-- AQ_DISARM (R258). Command disarming channels and truncating records in progress. -/
  | aqDisarm (h : CmdHdr) (chans : BitVec 16)
  /-- AQ_SOFT_TRIG (R241). Command firing trigger units at its processing tick. -/
  | aqSoftTrig (h : CmdHdr) (units : BitVec 16)
  /-- AQ_RETAIN_SET (R267). Command selecting the store units retained in RETAIN. -/
  | aqRetainSet (h : CmdHdr) (units : BitVec 8)
  /-- AQ_BUDGET_GET (R266). Command returning store reservations and the refresh band. -/
  | aqBudgetGet (h : CmdHdr)
  /-- AQ_STATUS (R268). Command returning a channel's status and counters. -/
  | aqStatus (h : CmdHdr) (channel : BitVec 8)
  /-- NOP (R303). TDSP instruction doing nothing in its slot. -/
  | nop (t : Fin 8) (moveSlot : Bool)
  /-- CMAC (R303). TDSP instruction performing a complex multiply-accumulate. -/
  | cmac (t : Fin 8) (a : Fin 8) (x : Fin 16) (y : Fin 16) (f : TFlags)
  /-- CMAC4 (R303). TDSP instruction performing four complex multiply-accumulates against one coefficient. -/
  | cmac4 (t : Fin 8) (h : Fin 2) (q : Fin 4) (c : Fin 16) (f : TFlags)
  /-- FTAP (R291). TDSP instruction performing one filter tap for four outputs and shifting the window. -/
  | ftap (t : Fin 8) (h : Fin 2) (q : Fin 4) (c : Fin 16) (n : Fin 16) (f : TFlags)
  /-- RMAC2 (R303). TDSP instruction performing two real multiply-accumulates. -/
  | rmac2 (t : Fin 8) (a : Fin 8) (x : Fin 16) (y : Fin 16) (neg : Bool) (z : Bool)
  /-- CPWR (R303). TDSP instruction accumulating complex power. -/
  | cpwr (t : Fin 8) (a : Fin 8) (x : Fin 16) (z : Bool)
  /-- CMPY (R303). TDSP instruction performing a complex multiply into a D register. -/
  | cmpy (t : Fin 8) (d : Fin 16) (x : Fin 16) (y : Fin 16) (cj : Bool)
  /-- CADD (R303). TDSP instruction performing a saturating complex add. -/
  | cadd (t : Fin 8) (d : Fin 16) (x : Fin 16) (y : Fin 16)
  /-- CSUB (R303). TDSP instruction performing a saturating complex subtract. -/
  | csub (t : Fin 8) (d : Fin 16) (x : Fin 16) (y : Fin 16)
  /-- CONJ (R303). TDSP instruction conjugating or negating a register. -/
  | conj (t : Fin 8) (d : Fin 16) (x : Fin 16) (neg : Bool)
  /-- SHRA (R303). TDSP instruction performing a rounded arithmetic right shift of each half. -/
  | shra (t : Fin 8) (d : Fin 16) (x : Fin 16) (k : BitVec 4)
  /-- AND (R303). TDSP instruction performing a 32-bit logical AND. -/
  | and (t : Fin 8) (d : Fin 16) (x : Fin 16) (y : Fin 16)
  /-- OR (R303). TDSP instruction performing a 32-bit logical OR. -/
  | or (t : Fin 8) (d : Fin 16) (x : Fin 16) (y : Fin 16)
  /-- XOR (R303). TDSP instruction performing a 32-bit logical XOR. -/
  | xor (t : Fin 8) (d : Fin 16) (x : Fin 16) (y : Fin 16)
  /-- IADD (R303). TDSP instruction performing a 32-bit add that sets Z and N. -/
  | iadd (t : Fin 8) (d : Fin 16) (x : Fin 16) (y : Fin 16)
  /-- ISUB (R303). TDSP instruction performing a 32-bit subtract that sets Z and N. -/
  | isub (t : Fin 8) (d : Fin 16) (x : Fin 16) (y : Fin 16)
  /-- ICMP (R303). TDSP instruction comparing two registers and setting Z and N. -/
  | icmp (t : Fin 8) (x : Fin 16) (y : Fin 16)
  /-- MVAD (R289). TDSP instruction moving an accumulator to a D register with gain. -/
  | mvad (t : Fin 8) (d : Fin 16) (a : Fin 8)
  /-- MVDA (R289). TDSP instruction moving a D register into an accumulator. -/
  | mvda (t : Fin 8) (a : Fin 8) (d : Fin 16) (sh : BitVec 4)
  /-- ACCADD (R303). TDSP instruction adding or subtracting one accumulator into another. -/
  | accadd (t : Fin 8) (a : Fin 8) (b : Fin 8) (neg : Bool)
  /-- ACCCLR (R303). TDSP instruction clearing the masked accumulators. -/
  | accclr (t : Fin 8) (mask : BitVec 8)
  /-- BFPEND (R290). TDSP instruction closing a block-floating block and updating EXP and LAST. -/
  | bfpend (t : Fin 8)
  /-- LDX (R304). TDSP instruction loading a word from XM. -/
  | ldx (t : Fin 8) (d : Fin 16) (am : AddrMode)
  /-- LDY (R304). TDSP instruction loading a word from YM. -/
  | ldy (t : Fin 8) (d : Fin 16) (am : AddrMode)
  /-- LDXY (R304). TDSP instruction loading from XM and YM at once. -/
  | ldxy (t : Fin 8) (a : Fin 16) (b : Fin 16) (px : Fin 8) (mx : Fin 8) (ux : Bool) (py : Fin 8) (my : Fin 8) (uy : Bool)
  /-- STX (R298). TDSP instruction storing a word to XM through the write buffer. -/
  | stx (t : Fin 8) (s : Fin 16) (am : AddrMode)
  /-- STY (R298). TDSP instruction storing a word to YM through the write buffer. -/
  | sty (t : Fin 8) (s : Fin 16) (am : AddrMode)
  /-- LI (R304). TDSP instruction loading a sign-extended immediate into a register. -/
  | li (t : Fin 8) (code : BitVec 6) (imm : BitVec 18)
  /-- LIH (R304). TDSP instruction loading the high half of a D register. -/
  | lih (t : Fin 8) (d : Fin 16) (imm : BitVec 16)
  /-- MV (R304). TDSP instruction copying one register to another. -/
  | mv (t : Fin 8) (dst : BitVec 6) (src : BitVec 6)
  /-- PADD (R285). TDSP instruction updating a pointer with no memory access. -/
  | padd (t : Fin 8) (p : Fin 8) (form : Bool) (m : Fin 8) (imm : BitVec 18)
  /-- IOR_TIO_DBELL (R300). Kernel read of TIO_DBELL, which clears it and the DOORBELL request. -/
  | iorTioDbell (t : Fin 8) (d : Fin 16)
  /-- IOR_TIO_TIME (R300). Kernel read of TIO_TIME, which latches the high ticks. -/
  | iorTioTime (t : Fin 8) (d : Fin 16) (addr : BitVec 8)
  /-- IOR_TIO_FILL (R397). Kernel read of a queue fill level, which restarts the count of DMA subtractions. -/
  | iorTioFill (t : Fin 8) (d : Fin 16) (k : Fin 2)
  /-- IOW_TIO_FILL (R397). Kernel write of a queue fill level, less the subtractions made since the last access. -/
  | iowTioFill (t : Fin 8) (s : Fin 16) (k : Fin 2)
  /-- IOW_TIO_TIMER (R300). Kernel write of the TIMER interrupt interval. -/
  | iowTioTimer (t : Fin 8) (s : Fin 16) (addr : BitVec 8)
  /-- IOW_TIO_CAP (R301). Kernel request for an ORX capture into an XM bank, accepted or REFUSED. -/
  | iowTioCap (t : Fin 8) (s : Fin 16)
  /-- IEN (R304). TDSP instruction setting or clearing the interrupt enable. -/
  | ien (t : Fin 8) (e : Bool)
  /-- BR (R279). TDSP instruction branching conditionally after two delay slots. -/
  | br (t : Fin 8) (cond : BitVec 3) (target : BitVec 15)
  /-- CALL (R304). TDSP instruction linking and branching. -/
  | call (t : Fin 8) (d : Fin 16) (target : BitVec 15)
  /-- RET (R304). TDSP instruction branching to a linked address. -/
  | ret (t : Fin 8) (s : Fin 16)
  /-- RETI (R296). TDSP instruction returning from an interrupt and setting IE. -/
  | reti (t : Fin 8)
  /-- LOOP (R292). TDSP instruction setting up a hardware loop level. -/
  | loop (t : Fin 8) (lv : Fin 2) (form : Bool) (start : BitVec 4) (stop : BitVec 10) (count : BitVec 10)
  /-- LOOP_RETURN (R292). At the loop end bundle, the loop count is decremented and flow returns or falls through. -/
  | loopReturn (t : Fin 8)
  /-- MVLP (R296). TDSP instruction saving or restoring a loop level in memory. -/
  | mvlp (t : Fin 8) (lv : Fin 2) (restore : Bool) (inY : Bool) (p : Fin 8)
  /-- SYNC (R299). TDSP instruction stalling issue until the write buffer is empty. -/
  | sync (t : Fin 8)
  /-- SYNC_BUFFER_DRAINED (R299). The write buffer empties and a stalled SYNC releases issue. -/
  | syncBufferDrained (t : Fin 8)
  /-- IDLE (R304). TDSP instruction stalling until an interrupt is taken. -/
  | idle (t : Fin 8)
  /-- EVT (R302). TDSP instruction sending a message to the host through the per-tile FIFO. -/
  | evt (t : Fin 8) (s : Fin 16) (code : BitVec 8)
  /-- TDSP_INTERRUPT_ENTRY (R295). A pending enabled interrupt is taken: issue stops, results land, IRET is set and the vector runs. -/
  | tdspInterruptEntry (t : Fin 8)
  /-- TIO_TIMER_EXPIRY (R300). The kernel TIMER interval elapses and raises the TIMER interrupt. -/
  | tioTimerExpiry (t : Fin 8)
  /-- TDSP_LOAD (R307). Command checking a kernel image and starting its copy into a tile. -/
  | tdspLoad (h : CmdHdr) (tile : BitVec 8) (addr : BitVec 32) (start : BitVec 8)
  /-- TDSP_LOAD_COMPLETE (R307). The image copy ends, the estimator resumes and the kernel may start. -/
  | tdspLoadComplete (t : Fin 8)
  /-- TDSP_START (R309). Command starting the loaded kernel at an entry. -/
  | tdspStart (h : CmdHdr) (tile : BitVec 8) (entry : BitVec 16)
  /-- TDSP_STOP (R309). Command stopping the kernel. -/
  | tdspStop (h : CmdHdr) (tile : BitVec 8)
  /-- TDSP_DOORBELL (R311). Command passing a value to a kernel and raising DOORBELL. -/
  | tdspDoorbell (h : CmdHdr) (tile : BitVec 8) (value : BitVec 32)
  /-- TDSP_STATUS (R311). Command returning a TDSP's status and counters. -/
  | tdspStatus (h : CmdHdr) (tile : BitVec 8)
  /-- TDSP_UNLOAD (R311). Command stopping a kernel and freeing its regions. -/
  | tdspUnload (h : CmdHdr) (tile : BitVec 8)
  /-- LK_CFG (R314). Command setting line rate, MIN_LANES, AUTO, MANUAL, start timeout and swing. -/
  | lkCfg (h : CmdHdr) (rate : BitVec 8) (minLanes : BitVec 8) (auto : BitVec 8) (manual : BitVec 8) (timeout : BitVec 16) (swing : BitVec 8)
  /-- LK_START (R323). Command starting bring-up of lanes that are not active. -/
  | lkStart (h : CmdHdr) (lanes : BitVec 16)
  /-- LK_START_TIMEOUT (R323). The start timeout ends LK_START by LINK_UP or ABORTED, and lanes not up are reported. -/
  | lkStartTimeout
  /-- LK_BITSLIP (R324). Command slipping a lane's block boundary in manual mode. -/
  | lkBitslip (h : CmdHdr) (lane : BitVec 8) (count : BitVec 8)
  /-- LK_STATE_SET (R322). Command moving lanes to a power state. -/
  | lkStateSet (h : CmdHdr) (lanes : BitVec 16) (state : BitVec 8)
  /-- LK_LOOP (R328). Command placing inactive lanes in a test loop. -/
  | lkLoop (h : CmdHdr) (lanes : BitVec 16) (loop : BitVec 8)
  /-- LK_PRBS (R329). Command starting or stopping the pattern generator and checker. -/
  | lkPrbs (h : CmdHdr) (lanes : BitVec 16) (gen : BitVec 8) (chk : BitVec 8)
  /-- LK_INJECT (R330). Command injecting bit errors into the generator. -/
  | lkInject (h : CmdHdr) (lanes : BitVec 16) (burst : BitVec 8) (rep : BitVec 8)
  /-- LK_BER_GET (R331). Command returning error and bit counts with the BER bounds. -/
  | lkBerGet (h : CmdHdr) (lane : BitVec 8)
  /-- LK_STATUS (R337). Command returning lane status registers. -/
  | lkStatus (h : CmdHdr) (lane : BitVec 8)
  /-- LK_PRESET_SET (R318). Command setting de-emphasis presets per temperature band. -/
  | lkPresetSet (h : CmdHdr) (lanes : BitVec 16) (p1 : BitVec 8) (p2 : BitVec 8) (p3 : BitVec 8) (p4 : BitVec 8)
  /-- LANE_EXIT_COMPLETE (R321). A lane finishes its exit time from STANDBY or RAGDOLL and continues bring-up. -/
  | laneExitComplete (l : Fin 16)
  /-- CDR_LOCK_ACQUIRED (R323). A lane's CDR locks and initial adaptation ends. -/
  | cdrLockAcquired (l : Fin 16)
  /-- CDR_LOCK_TIMEOUT (R323). A lane's CDR has not locked 1.5 ms after bring-up began, and the lane fails with CDR. -/
  | cdrLockTimeout (l : Fin 16)
  /-- LANE_BLOCK_RECEIVED (R324). A 66-bit block arrives on a lane; sync headers drive the block lock count and the loss of lock. -/
  | laneBlockReceived (l : Fin 16) (hdr : BitVec 2)
  /-- AUTO_SLIP (R324). The firmware issues a slip after an invalid header; a lane fails BLOCK after 198 slips. -/
  | autoSlip (l : Fin 16)
  /-- LANE_LOCK_LOSS_TIMEOUT (R332). Block lock stays lost for 1,967 ticks: the lane becomes DOWN and restriping begins. -/
  | laneLockLossTimeout (l : Fin 16)
  /-- EQ_DENSITY_WINDOW_END (R320). A 4,096-UI window ends, and adaptation freezes or resumes by transition density. -/
  | eqDensityWindowEnd (l : Fin 16) (transitions : BitVec 12)
  /-- MARKER_RECEIVED (R342). An alignment marker arrives: polarity, order and deskew are checked, masks are used and restriping applies. -/
  | markerReceived (l : Fin 16) (payload : BitVec 64) (skew : BitVec 8) (complemented : Bool)
  /-- MARKER_SENT (R316). Every 16,384 blocks the device sends marker rows, updating the active mask and presets. -/
  | markerSent
  /-- IDLE_ROW_SEND (R341). Within every 1,152 rows the sender places an idle row between packets. -/
  | idleRowSend
  /-- TX_IQ_PACKET (R369). A TX_IQ packet arrives and is checked for credit, SEQ and format before its samples enter the buffer. -/
  | txIqPacket (pkt : RxPkt)
  /-- CTRL_CMD_PACKET (R366). A CTRL_CMD arrives in order; its data are written and the slot is placed in the mailbox ring, or the hardware answers it. -/
  | ctrlCmdPacket (pkt : RxPkt)
  /-- MEM_RD_DATA_PACKET (R374). A MEM_RD_DATA portion arrives for an outstanding read. -/
  | memRdDataPacket (pkt : RxPkt)
  /-- ACK_PACKET (R362). An ACK arrives: acknowledged packets and event slots are released, and a NAK or RESET is acted on. -/
  | ackPacket (pkt : RxPkt)
  /-- ACK_SEND (R362). Within 2 µs of accepting, or after 16 accepted reliable packets, the receiver sends an ACK. -/
  | ackSend
  /-- REPLAY_TIMEOUT (R363). The oldest unacknowledged reliable packet waits REPLAY_T, and every outstanding packet is resent. -/
  | replayTimeout
  /-- RELIABLE_HOLD_EXPIRY (R365). An unacknowledged reliable packet waits past RELIABLE_HOLD: the class is flushed, SEQ is reset and an ACK with RESET is sent. -/
  | reliableHoldExpiry
  /-- CREDIT_REPORT (R369). The device sends a flow's LIMIT after B/8 is freed, at binding or restore, or every 10 µs. -/
  | creditReport (f : Fin 64)
  /-- MEM_READ_TIMEOUT (R377). A host read has no complete reply within MEM_TIMEOUT, and its DMA channel fails. -/
  | memReadTimeout (tag : Fin 32)
  /-- STREAM_PACKET_SEND (R359). A sample, spectrum, density or record flow sends a packet once its last unit is formed. -/
  | streamPacketSend (f : Fin 64)
  /-- EVENT_PACKET_SEND (R367). With the event route on, event ring slots are sent as EVENT packets. -/
  | eventPacketSend
  /-- LK_FLOW_CFG (R358). Command setting a flow's priority and LEN_MAX. -/
  | lkFlowCfg (h : CmdHdr) (dir : BitVec 8) (flow : BitVec 8) (prio : BitVec 8) (lenMax : BitVec 16)
  /-- LK_ANIQ_CFG (R358). Command binding a spectral lane's IQ to a flow. -/
  | lkAniqCfg (h : CmdHdr) (lane : BitVec 8) (flow : BitVec 8) (format : BitVec 8)
  /-- LK_FLOW_QUERY (R378). Command returning a flow's source, charge, state, SEQ and LIMIT. -/
  | lkFlowQuery (h : CmdHdr) (dir : BitVec 8) (flow : BitVec 8)
  /-- LK_BUDGET_GET (R378). Command returning link capacity and charges. -/
  | lkBudgetGet (h : CmdHdr) (dir : BitVec 8)
  /-- LK_REL_CFG (R378). Command setting REPLAY_T, RELIABLE_HOLD, MEM_TIMEOUT and the event route. -/
  | lkRelCfg (h : CmdHdr) (replayT : BitVec 32) (holdMs : BitVec 32) (memTo : BitVec 32) (route : BitVec 8)
  /-- DM_CHAN_CFG (R384). Command configuring a DMA channel with admission, or unconfiguring it. -/
  | dmChanCfg (h : CmdHdr) (channel : BitVec 8) (op : BitVec 8) (mode : BitVec 8) (base : BitVec 32) (len : BitVec 16) (burst : BitVec 8) (uses : BitVec 8) (rate : BitVec 16) (paceTile : BitVec 8) (paceQ : BitVec 8) (high : BitVec 16) (low : BitVec 16) (bound : BitVec 8) (evt : BitVec 8)
  /-- DM_START (R544). Command starting or resuming DMA channels. -/
  | dmStart (h : CmdHdr) (chans : BitVec 64) (addr : BitVec 32)
  /-- DM_TAIL (R388). Command advancing a ring channel's TAIL. -/
  | dmTail (h : CmdHdr) (channel : BitVec 8) (tail : BitVec 16)
  /-- CH_STOP (R400). Command stopping channels after the descriptor in progress. -/
  | chStop (h : CmdHdr) (chans : BitVec 64)
  /-- CH_KILL (R401). Command killing channels within 64 ticks and dropping their transfers. -/
  | chKill (h : CmdHdr) (chans : BitVec 64)
  /-- DM_STATUS (R408). Command returning a channel's status. -/
  | dmStatus (h : CmdHdr) (channel : BitVec 8)
  /-- CU_CFG (R405). Command choosing a check unit's CRC. -/
  | cuCfg (h : CmdHdr) (unit : BitVec 8) (crc : BitVec 8)
  /-- CU_STATUS (R408). Command returning a check unit's status, seed and result. -/
  | cuStatus (h : CmdHdr) (unit : BitVec 8)
  /-- DESCRIPTOR_FETCH (R402). A channel fetches its next descriptor and validates it, failing into ERROR on a fetch-time cause. -/
  | descriptorFetch (c : Fin 64)
  /-- DMA_BURST_START (R396). A channel starts a burst once its request is asserted and its rate allows, issuing MEM_WR or MEM_RD_REQ where needed. -/
  | dmaBurstStart (c : Fin 64)
  /-- DMA_BURST_END (R396). A burst ends, its bytes are subtracted from the pacing level and the request is sampled. -/
  | dmaBurstEnd (c : Fin 64)
  /-- DESCRIPTOR_COMPLETE (R398). A descriptor's last write leaves the engine, or its FENCE acknowledgement arrives, and it completes. -/
  | descriptorComplete (c : Fin 64)
  /-- CAL_RUN (R432). Command starting calibrations of given kinds on tiles with a deadline. -/
  | calRun (h : CmdHdr) (kinds : BitVec 8) (tiles : BitVec 8) (deadline : BitVec 72) (count : BitVec 8) (fcs : List (BitVec 64))
  /-- CAL_ABORT (R442). Command ending named calibrations. -/
  | calAbort (h : CmdHdr) (kinds : BitVec 8) (tiles : BitVec 8)
  /-- CAL_GAP_CFG (R437). Command setting the calibration window mask and CLAIM_LIMIT. -/
  | calGapCfg (h : CmdHdr) (windows : BitVec 64) (limit : BitVec 16)
  /-- CAL_REF_CFG (R432). Command setting the reference path and the injection level. -/
  | calRefCfg (h : CmdHdr) (path : BitVec 8) (level : BitVec 8)
  /-- CAL_STORE (R447). Command starting a store of calibration values to flash after the temperature and hold-up checks. -/
  | calStore (h : CmdHdr)
  /-- CAL_HOLDUP_CFG (R448). Command setting the hold-up parameters. -/
  | calHoldupCfg (h : CmdHdr) (cap : BitVec 32) (vmin : BitVec 16) (divider : BitVec 16) (ePage : BitVec 16) (eErase : BitVec 16)
  /-- CAL_FLASH_CFG (R445). Command setting the calibration slot offsets and the write range. -/
  | calFlashCfg (h : CmdHdr) (offA : BitVec 16) (offB : BitVec 16) (rmin : BitVec 8) (rmax : BitVec 8) (ren : BitVec 8)
  /-- CAL_STATUS (R450). Command returning a tile's calibration status. -/
  | calStatus (h : CmdHdr) (tile : BitVec 8)
  /-- CAL_SET_READ (R542). Command copying one temperature point's calibration values to mailbox RAM. -/
  | calSetRead (h : CmdHdr) (kind : BitVec 8) (object : BitVec 8) (point : BitVec 8) (ptr : BitVec 32)
  /-- CAL_PLACEMENT_CHECK (R440). Each millisecond the firmware places calibration slots in gaps, counts missed opportunities and escalates. -/
  | calPlacementCheck (t : Fin 8)
  /-- CAL_CLAIM_START (R441). A claimed slot starts and mutes its path. -/
  | calClaimStart (t : Fin 8)
  /-- CAL_CLAIM_END (R441). A claimed slot ends and unmutes its path. -/
  | calClaimEnd (t : Fin 8)
  /-- CALIBRATION_COMPLETE (R435). A calibration's measurements finish, are checked for plausibility and applied across the temperature points. -/
  | calibrationComplete (t : Fin 8) (kind : Fin 8) (failing : BitVec 16) (tm : BitVec 16) (results : List (BitVec 16 × BitVec 16))
  /-- FLASH_PROGRAM_DONE (R449). A flash page program completes, and the next page of a store, record or image is programmed or the write ends. -/
  | flashProgramDone
  /-- FLASH_ERASE_DONE (R449). A flash sector or slot erase completes, and programming proceeds. -/
  | flashEraseDone
  /-- THERMAL_EVALUATION (R460). Each region's model is updated and compared with its thresholds, and band users follow. -/
  | thermalEvaluation (r : Fin 12) (est : BitVec 16) (powers : List (BitVec 12))
  /-- THERMAL_HALT_ENTRY (R467). Once the shutdown steps finish, the device enters THERMAL_HALT. -/
  | thermalHaltEntry
  /-- SLOW_ROUND (R457). Every 10 ms the diodes correct the model and the rails, process monitors, VHOLD and HK_TRIM are measured. -/
  | slowRound (diodes : List (List (BitVec 12))) (volts : List (List (BitVec 12))) (counts : List (BitVec 16)) (devs : List (BitVec 16)) (vhold : BitVec 16)
  /-- THROTTLE_STEP (R463). At the trip and after each STEP_INTERVAL while still hot, the next throttle step is applied. -/
  | throttleStep
  /-- THROTTLE_REVERT (R464). After release, applied steps are reverted one per STEP_INTERVAL. -/
  | throttleRevert
  /-- HK_MODEL_CFG (R456). Command setting the heatsink model parameters. -/
  | hkModelCfg (h : CmdHdr) (rha : BitVec 16) (ch : BitVec 16) (ta : BitVec 16)
  /-- HK_THROTTLE_CFG (R462). Command setting the throttle step list, interval and TX_DUTY. -/
  | hkThrottleCfg (h : CmdHdr) (steps : List (BitVec 8)) (interval : BitVec 16) (duty : BitVec 8)
  /-- HK_BAND_CFG (R471). Command enabling temperature band selection. -/
  | hkBandCfg (h : CmdHdr) (enable : BitVec 8)
  /-- HK_RESUME (R470). Command leaving THERMAL_HALT after shutdown has released. -/
  | hkResume (h : CmdHdr)
  /-- HK_STATUS (R475). Command returning the thermal and rail status. -/
  | hkStatus (h : CmdHdr)
  /-- HK_READ (R475). Command returning temperatures, power, rails or process values. -/
  | hkRead (h : CmdHdr) (cls : BitVec 8)
  /-- PW_STATE_SET (R484). Command starting entry to DOZE or RETAIN, or a wake to ACTIVE. -/
  | pwStateSet (h : CmdHdr) (target : BitVec 8) (lane : BitVec 8)
  /-- BLOCK_ENTRY_ANSWER (R486). A block agrees or refuses in phase 1 of power-state entry; a refusal resumes the blocks that agreed. -/
  | blockEntryAnswer (block : Fin 15) (ok : Bool)
  /-- BLOCK_ANSWER_TIMEOUT (R484). A block does not answer within 1 ms and counts as refusing with TIMEOUT. -/
  | blockAnswerTimeout
  /-- ENTRY_PHASE2_PROCEED (R487). After the PW_ENTERING acknowledgement or 1 ms, pads are latched and domains powered down. -/
  | entryPhase2Proceed
  /-- PW_PARK (R482). Command parking or unparking tiles. -/
  | pwPark (h : CmdHdr) (tiles : BitVec 8)
  /-- TILE_UNPARK_COMPLETE (R483). An unparked tile's domain is powered, its configuration restored and its pads released. -/
  | tileUnparkComplete (t : Fin 8)
  /-- PW_RETAIN_CFG (R492). Command selecting the SRAM banks retained in RETAIN. -/
  | pwRetainCfg (h : CmdHdr) (banks : BitVec 16)
  /-- PW_WAKE_CFG (R492). Command setting the pin and timer wake sources. -/
  | pwWakeCfg (h : CmdHdr) (pinEn : BitVec 8) (timerEn : BitVec 8) (timer : BitVec 32)
  /-- PW_STATUS (R492). Command returning power status registers. -/
  | pwStatus (h : CmdHdr)
  /-- WAKE_PIN_EDGE (R489). A rising WAKE edge held for 2 AO cycles is a wake request. -/
  | wakePinEdge (heldTwo : Bool)
  /-- SLEEP_TIMER_EXPIRY (R489). HP_SLEEP_TIMER expires with TIMER_EN set, which is a wake request. -/
  | sleepTimerExpiry
  /-- WAKE_STEP_READY (R490). A wake step reports ready and the next starts; after step 4 the clocks switch, group 10 is released and the ROM starts. -/
  | wakeStepReady
  /-- WAKE_STEP_TIMEOUT (R491). A wake step times out; it is retried once, then the wake fails and FAULT_N is asserted. -/
  | wakeStepTimeout
  /-- REG_READ (R548). Command reading register window words. -/
  | regRead (h : CmdHdr) (addr : BitVec 32) (count : BitVec 8)
  /-- REG_WRITE (R548). Command writing register window words. -/
  | regWrite (h : CmdHdr) (addr : BitVec 32) (count : BitVec 8) (words : List (BitVec 32))
  /-- REG_READ_BLOCK (R548). Command copying a register window block to mailbox RAM. -/
  | regReadBlock (h : CmdHdr) (addr : BitVec 32) (bytes : BitVec 16) (ptr : BitVec 32)
  /-- REG_WRITE_BLOCK (R548). Command writing a register window block from mailbox RAM. -/
  | regWriteBlock (h : CmdHdr) (addr : BitVec 32) (bytes : BitVec 16) (ptr : BitVec 32)
  /-- CALBUS_DIAG (R549). Command holding CALBUS for a diagnostic injection. -/
  | calbusDiag (h : CmdHdr) (path : BitVec 8) (mode : BitVec 8) (offset : BitVec 32) (level : BitVec 8) (sinks : BitVec 128) (orx : BitVec 8) (duration : BitVec 32)
  /-- CALBUS_DIAG_END (R549). The diagnostic duration elapses, CALBUS is released and the command completes. -/
  | calbusDiagEnd
  /-- SESSION_OPEN (R557). Command taking a session handle and returning a nonce. -/
  | sessionOpen (h : CmdHdr) (role : BitVec 8)
  /-- SESSION_AUTH (R557). Command opening a session on a correct MAC. -/
  | sessionAuth (h : CmdHdr) (handle : BitVec 8) (mac : List (BitVec 8))
  /-- SESSION_CLOSE (R559). Command ending a session. -/
  | sessionClose (h : CmdHdr) (handle : BitVec 8)
  /-- SESSION_AUTH_TIMEOUT (R557). A handle is not authenticated within 10 s and is freed. -/
  | sessionAuthTimeout (s : Fin 8)
  /-- SESSION_LIFETIME_EXPIRY (R559). A session's lifetime ends. -/
  | sessionLifetimeExpiry (s : Fin 8)
  /-- LOCKOUT_EXPIRY (R558). A role's 60 s SESSION_OPEN lockout ends. -/
  | lockoutExpiry (r : Fin 3)
  /-- KEY_SET (R556). Command writing a new role key record to flash. -/
  | keySet (h : CmdHdr) (role : BitVec 8) (ptr : BitVec 32)
  /-- JOURNAL_READ (R546). Command copying journal entries to mailbox RAM. -/
  | journalRead (h : CmdHdr) (first : BitVec 32) (count : BitVec 8) (ptr : BitVec 32)
  /-- JOURNAL_ERASE (R565). Command erasing the journal and writing entry 0. -/
  | journalErase (h : CmdHdr) (confirm : BitVec 32)
  /-- OTP_KEY_WRITE (R566). Command burning a signing public key into OTP. -/
  | otpKeyWrite (h : CmdHdr) (index : BitVec 8) (ptr : BitVec 32)
  /-- OTP_KEY_REVOKE (R567). Command burning a key's revocation bit. -/
  | otpKeyRevoke (h : CmdHdr) (index : BitVec 8)
  /-- OTP_FLOOR_SET (R567). Command burning a new rollback floor. -/
  | otpFloorSet (h : CmdHdr) (version : BitVec 32)
  /-- OTP_TRIM_WRITE (R568). Command burning a trim group into OTP. -/
  | otpTrimWrite (h : CmdHdr) (group : BitVec 16) (length : BitVec 16) (ptr : BitVec 32)
  /-- JOURNAL_ENTRY_WRITE (R560). A journalled command's entry is formed at its commit or refusal and written before its response. -/
  | journalEntryWrite (mb : Fin 4)
  /-- JOURNAL_BUFFER_DRAIN (R563). Once the write range allows, buffered journal entries and a gap entry are written in order. -/
  | journalBufferDrain
  /-- JTAG_TRST (R582). TRST_N low resets the TAP and selects IDCODE. -/
  | jtagTrst (low : Bool)
  /-- EXTEST (R582). JTAG instruction driving scanned balls from the boundary register. -/
  | extest (cells : BitVec 344)
  /-- SAMPLE_PRELOAD (R582). JTAG instruction sampling and preloading the boundary register. -/
  | samplePreload (cells : BitVec 344)
  /-- IDCODE (R582). JTAG instruction selecting the IDCODE register. -/
  | idcode
  /-- EXTEST_PULSE (R582). JTAG IEEE 1149.6 pulse test instruction on the lanes. -/
  | extestPulse (cells : BitVec 344)
  /-- EXTEST_TRAIN (R582). JTAG IEEE 1149.6 train test instruction on the lanes. -/
  | extestTrain (cells : BitVec 344)
  /-- HIGHZ (R582). JTAG instruction placing scanned outputs at high impedance. -/
  | highz
  /-- CLAMP (R582). JTAG instruction clamping outputs while bypassing. -/
  | clamp
  /-- BYPASS (R582). JTAG instruction selecting the bypass register. -/
  | bypass (code : BitVec 8)
  /-- PRBS_CHECKER_BITS (R329). Received pattern bits reach a lane's PRBS checker, which seeds, declares sync after 64 error-free bits, counts errored bits and drops sync after more than 512 errors in 4,096 bits. -/
  | prbsCheckerBits (l : Fin 16) (bits : List Bool)
  /-- INJECT_REPEAT (R330). In repeat mode, each time 2^r generator bits have elapsed the pattern generator inverts another single bit or burst. -/
  | injectRepeat (l : Fin 16)
  /-- DOZE_WAKE_COMPLETE (R489). A wake from DOZE finishes powering the domains and taking DRAM out of self-refresh, and the device emits PW_WOKE and releases the tile pad groups once patterns are restored. -/
  | dozeWakeComplete
  deriving DecidableEq, Repr

end Sys2Proof
end

