-- ==== Sys2Proof/Decode.lean ====
section
/-! DEFINITION. The words of the commands. spec/opcode_table.json gives no row any bits (every row's "fields" is empty
and none has "fixed"), so no word spells a command: a command enters the block through its queue with its operands
(log 11). -/

namespace Sys2Proof

/-- The command a word spells by the table's bits: none, as the table gives bits to no row. -/
def decodeTableWord (_nbits _w : Nat) : Option Instr := none

end Sys2Proof
end

