-- ==== Sys2Proof/Config.lean ====
section
/-! DEFINITION. What the spec leaves to a part or does not state: constants with no body. A claim about the model holds
whatever they are. Each is named in a row of notes/assumptions. -/

namespace Sys2Proof.Config

/-- How far the interpolated peak of a detector's ρ lies from the alignment with the greatest ρ, in 1/256 tick (R98): by the sample period and
numerator and denominator of ρ before, at and after it. Its use is held to half a period (log 93). -/
opaque peakShift : List Int → Int

/-- The single-precision words of LK_BER_GET for E errors in N bits: 0 the estimate, 1 the lower and 2 the upper bound
(R331 fixes them within 1 % only; log 14). -/
opaque berFloat : Nat → Nat → Nat → BitVec 32

/-- The residual of a synthesiser's output phase at a confirmation (R423), in 1/983,040,000 of a turn, by tile, f_LO and temperature band;
its use is held to ±3° (log 86). -/
opaque loResidual : Nat → Nat → Nat → Int

/-- The VCO sub-band of a tile's synthesiser that an LO frequency in hertz lies in (R422 gives no boundaries; log 16). -/
opaque vcoBand : Nat → Nat → Nat

/-- The NMSE of the active set on an accepted capture (R210), which no rule computes from what the model holds: a fresh
free value for each estimate (log 17). -/
opaque nmse : Nat → BitVec 16

/-- Whether a quantity that falls between two of its units, and whose rounding the spec does not state, takes the upper one:
by its numerator and denominator (log 21). -/
opaque roundUp : Nat → Nat → Bool

/-- The measurement fields of a header while measurements are off (R261, R262; log 22): by free index and field. -/
opaque recUnmeasured : Nat → Nat → BitVec 32

/-- The weight, in 2^−32, with which the filter of CK_PPS_FREQ takes a measurement over m whole seconds (R44). R44 gives the filter's order
and time constant, and no discrete coefficient (log 31). -/
opaque ppsWeight : Nat → Nat

/-- The S and H nodes of a region after a model update, in 1/64 °C (R455): by region and the list of interval in ticks, power in mW, the heatsink's
two parameters, the estimate, the two nodes before and the ambient in 1/16,384 °C. The conductances, capacitances and area weights
are factory values of the part that the spec does not state (log 38). -/
opaque thermalS : Nat → List Int → Int
opaque thermalH : Nat → List Int → Int

/-- What a housekeeping channel's filtered value stands for (R155 gives its scale of 12 bits and not what it measures; log 97): a diode's
temperature in 1/64 °C by region, a rail's voltage in mV by index, and a region's power in mW from the sum and the number of the outputs of its
monitor over an interval. -/
opaque diodeTemp : Nat → BitVec 16 → BitVec 16
opaque railMv : Nat → BitVec 16 → BitVec 16
opaque powerMw : Nat → Nat → Nat → BitVec 16

/-- The factory key of a role that the maker wrote into OTP (R553; log 39). -/
opaque factoryKey : Nat → BitVec 256

/-- The device-unique key's part in the wrapping of a role's key in the key record (R553 states no wrapping; log 40). -/
opaque keyWrap : Nat → BitVec 256

/-- The nonces drawn from the hardware random source, in the order drawn (R557; log 41). -/
opaque nonce : Nat → BitVec 128

/-- Whether an OTP write fails to verify (R568), by free index (log 42). -/
opaque otpFails : Nat → Bool

/-- TDSP_SHARE (R313): a share of the bundles over the last 10 ms, by 0 for the estimator or 1 for the kernel, tile and interval of
10 ms: the model keeps no count of the bundles a tick issues (log 43). -/
opaque tdspShare : Nat → Nat → Nat → BitVec 16

/-- Whether a byte of the burst in flight at CH_KILL has reached its destination (R401), by free index and byte; and the counts that
R401 calls undefined after it, by free index and 0 for DM_BYTES, 1 for DM_DONE_CNT (log 44). -/
opaque killLanded : Nat → Nat → Bool
opaque killCount : Nat → Nat → BitVec 32

/-- The levels that the cells of the boundary register capture and the model does not hold: input balls, control cells, outputs without a
level in the state (R582), by free index (log 46). -/
opaque jtagPins : Nat → BitVec 344

/-- The filter taps of R134 and R137, which R139 gives a width, a gain and a stop band and no values, by filter, preset, rate code and
index: 1 HB1, 2 HB2, 3 HB3, 4 the receive compensation FIR, 5 HB1′, 6 HB2′, 7 HB3′, 8 the transmit compensation FIR (log 47). -/
opaque tap : Nat → Nat → Nat → Nat → BitVec 18

/-- The taps of the fractional-delay filter in units of 2^-17 (R160, R162), by its delay D and index, the newest input first (log 47). -/
opaque fracDelay : Int → Nat → BitVec 20

/-- How far an entry of the rotator's 18-bit tables lies from the nearest value (R166), by phase; its use is held to one unit (log 47). -/
opaque cosTable : BitVec 32 → Int
opaque sinTable : BitVec 32 → Int

/-- The stored window tables but the rectangular one, in units of 2^-17, by code, size and index: R217 gives their figures only (log 88). -/
opaque window : Nat → Nat → Nat → BitVec 18

/-- The noise of the FFT's arithmetic, below −160 dBFS per bin (R219), by bin, component and what names the frame; its use is held to that
(log 88). -/
opaque fftNoise : List Int → Int

/-- Whether the DSP safe clock does not compute a sample, which R426 has delivered as zero, by kind (0 beam, 1 element, 2 tap), index and
time: R426 does not say which samples those are (log 95). -/
opaque safeLost : Nat → Nat → Nat → Bool

/-- A component, 0 I or 1 Q, of a corrected sample (R73, R78), by the path, the port or 2 for transmit, the attenuation or driver gain, the
sample and the calibration values in force: the spec does not state what the corrections compute from them (log 47). -/
opaque correction : Nat → List Int → BitVec 16

/-- A tap of the cancellation pulse made for a used band (R194), and how far a component of a cancellation term (R193) lies from the nearest
value, by the peak, the threshold in tenths of a decibel and the pulse's tap; its use is held to one unit (log 48). -/
opaque cfrPulse : BitVec 32 → Nat → BitVec 32
opaque cfrTerm : Nat → List Int → Int

/-- Whether a component of a basis term at 24-bit precision (R192) takes the upper of the two values about it, from its exact value in units
of 2^−15n and n; and the component where 24 bits do not hold it (log 48). -/
opaque basisUp : Int → Nat → Bool
opaque basisWide : Int → Nat → BitVec 24

/-- A component, 0 I or 1 Q, of a code of the DAC at 3,932.16 Msps (R78), by the phase and the corrected samples about it, newest first: the
spec does not state the interpolation filter (log 96). -/
opaque dacCode : Nat → Nat → List Int → BitVec 14

/-- A value of a lane's equaliser that its adaptation reaches (R319): by free index and its place, 0 the continuous-time one, 1 to 5 the taps.
The spec states no adaptation (log 89). -/
opaque equaliser : Nat → Nat → Int

end Sys2Proof.Config
end

