-- ==== Sys2Proof/Machine/State.lean ====
section
/-! DEFINITION. The state of the GLV6480 as plain data, every register and unit the chapters of spec/ name, and the
state after reset (INVENTORY.md lists each piece with its rule and reset value). A memory is a list of (address, value)
pairs in one canonical form: addresses rising, no entry equal to what an unlisted address reads as. -/

namespace Sys2Proof.Machine

/-- No command of this block stops the machine with a fault: every error of the spec is a status, an event or a counter.
The one constructor is raised by nothing (safe). -/
inductive Fault where
  | none
  deriving DecidableEq, Repr

/-- Refusals. -/
inductive Refusal where
  /-- Raised by the arm of a command that has no meaning yet; none is left (safe). -/
  | notModelled (mnemonic : String)
  deriving DecidableEq, Repr

/-! ### Samples -/

/-- One complex sample as signed codes. -/
abbrev Cplx := Int × Int

/-- A sample in a chain with the flags that its impulse response gathers (R154): bit 0 SETTLE, 1 SUSPECT, 2 SAT; and for the
blanking of R221 bit 3 taken while not in RX, 4 while not in MONITOR, 5 within the settling of the selector, 6 of the attenuator, 7
overrange. -/
structure Smp where
  val : Cplx
  fl  : BitVec 8
  deriving DecidableEq, Repr

/-- A sample with its time in ticks, and its flags as those of Smp. -/
structure TSample where
  time : Nat
  val  : Cplx
  fl   : BitVec 8
  deriving DecidableEq, Repr

/-! ### Device time, timed actions and pass windows (02_timebase_and_pass_windows.md) -/

/-- A full device time of R36 in fraction units: ticks × 256 + fraction, below 2^72. -/
abbrev Time := Nat

/-- Radio states of R111. -/
inductive RState where
  | off | sleep | standby | rx | tx | cal | monitor
  deriving DecidableEq, Repr

/-- Tile uses of R26. -/
inductive TileUse where
  | aperture | stitch | out
  deriving DecidableEq, Repr

/-- Retune modes of R123. -/
inductive RetuneMode where
  | auto | glide | large
  deriving DecidableEq, Repr

/-- Pick modes of R105. -/
inductive PickMode where
  | auto | forceA | forceB
  deriving DecidableEq, Repr

/-- Lane power states (R321). -/
inductive LaneTarget where
  | on | standby | ragdoll
  deriving DecidableEq, Repr

/-- Operations of ANALYSER_CFG (R545). -/
inductive AnOp where
  | apply | densitySwap | traceRestart
  deriving DecidableEq, Repr

/-- The calibration kinds of R432, in the bit order of the kind mask. -/
inductive CalKind where
  | rxIq | txIq | gain | array | loPhase | orx | stitchEq | hkTrim
  deriving DecidableEq, Repr

/-- A timed action of R47 with the kind parameters of R545. -/
inductive Act where
  | radioState (target : RState) (dwell : Nat)
  | retune (fc : Nat) (mode : RetuneMode)
  | txBurst (length : Nat)
  | pickCtl (group : Fin 8) (mode : PickMode)
  | femLevels (index : Nat) (level : BitVec 8)
  | calSlot (length : Nat)
  | bankSwap (dirs : BitVec 2) (usesChange : Bool) (uses : List TileUse)
  | acqArm (mask : BitVec 16) (window : Option (Fin 64))
  | softTrigger (mask : BitVec 16)
  | trigOutEdge (pin : Fin 4) (level : Bool)
  | laneState (mask : BitVec 16) (target : LaneTarget)
  | analyserCfg (mask : BitVec 16) (op : AnOp)
  deriving DecidableEq, Repr

/-- An entry of an action queue (R46, R48, R51, R52). `held` is the reason code of R127 while the head is held,
`heldSince` the tick at which it was first held. -/
structure QAct where
  handle    : BitVec 16
  act       : Act
  time      : Time
  tol       : Nat
  window    : Option (Fin 64)
  held      : Nat := 0
  heldSince : Option Nat := none
  deriving DecidableEq, Repr

/-- Outcome of an action as ACT_QUERY reports it (R533): 2 taken, 3 LATE, 4 ABORTED, 5 cancelled, 7 refused. -/
structure ActOutcome where
  handle : BitVec 16
  state  : BitVec 8
  queue  : BitVec 8
  time   : Time
  deriving DecidableEq, Repr

/-- One action queue with its LATE count (R46, R69). Queue 8 is the device queue. -/
structure ActQueue where
  acts    : List QAct
  lateCnt : BitVec 16
  deriving DecidableEq, Repr

/-- States of a pass window (R55). -/
inductive WinState where
  | free | pending | open | closing
  deriving DecidableEq, Repr

/-- How an open or a close of a window is set (R57). -/
inductive WinEdge where
  | time (t : Time)
  | length (ticks : Nat)
  | edge (input : Fin 4) (falling : Bool) (offset : Nat)
  deriving DecidableEq, Repr

/-- A pass window (R55 to R60). `openT` and `closeT` are the instants once they are known. -/
structure Window where
  state     : WinState
  openMode  : WinEdge
  closeMode : WinEdge
  tag       : BitVec 32
  maxLen    : Nat
  openT     : Option Time
  closeT    : Option Time
  tagged    : BitVec 32
  timeout   : Bool
  empty     : Bool
  deleted   : Bool
  freeAt    : Nat
  deriving DecidableEq, Repr

/-- An armed load of device time (R42). -/
structure ArmedLoad where
  value   : BitVec 64
  lapseAt : Nat
  deriving DecidableEq, Repr

/-- Device time, TIME_IN disciplining and the queues and windows that hang on it. `ticks` stays below 2^64 (R36); `armEnd` is the status
with which the last TIME_ARM_SYNC completed, none while it is armed and before the first (R42). -/
structure TimeBlock where
  ticks       : Nat
  dspRuns     : Bool
  synced      : Bool
  armed       : Option ArmedLoad
  armEnd      : Option (BitVec 8)
  ppsLost     : Bool
  measure     : Bool
  epoch       : Time
  polFalling  : Bool
  edgeEvt     : Bool
  ppsLast     : Option Time
  ppsReported : Bool
  ppsPhase    : BitVec 32
  ppsFreq     : BitVec 32
  ppsRejected : BitVec 16
  ppsAccepted : BitVec 16
  hiLatch     : BitVec 32
  queues      : Vector ActQueue 9
  nextHandle  : BitVec 16
  outcomes    : List ActOutcome
  windows     : Vector Window 64
  horizon     : Nat
  deriving DecidableEq, Repr

/-! ### Transceiver paths and their tile resources (03_transceiver_paths.md) -/

/-- The registers and latched state of one path (R73 to R80, R110). `ctl` is PA_CTL as written, less its reserved
bits. `gainNow` is the driver gain in force, which a PATH_SET changes only between bursts (R79). -/
structure Path where
  ctl        : BitVec 32
  gainNow    : BitVec 7
  portNow    : Bool
  ovl        : Bool
  ovlCnt     : BitVec 32
  claimMute  : Bool
  cbSource   : Bool
  cbInjectA  : Bool
  cbInjectB  : Bool
  loopback   : Bool
  coupling   : Option (BitVec 8)
  routeDelay : BitVec 16
  orxAtten   : BitVec 8
  orxSettle  : BitVec 16
  deriving DecidableEq, Repr

/-- Users of an ORX in the order of R31. -/
inductive OrxUser where
  | none | calibration | predistortion | kernel
  deriving DecidableEq, Repr

/-- The observation receiver of a tile (R82 to R87): requests waiting, the capture being set up or taken; `fed` says that CALBUS feeds it. -/
structure Orx where
  sel      : BitVec 3
  atten    : BitVec 5
  settle   : BitVec 12
  user     : OrxUser
  busy     : Bool
  startAt  : Option Nat
  endAt    : Option Nat
  reqCal   : Option (BitVec 3)
  reqKern  : Option (BitVec 3)
  fed      : Bool
  cnt      : BitVec 32
  deriving DecidableEq, Repr

/-- FEM_CTL patterns and timing of a tile (R89 to R92). -/
structure Fem where
  pats    : Vector (BitVec 8) 10
  cfg     : BitVec 32
  sel     : Vector (Option (Fin 8)) 3
  deriving DecidableEq, Repr

/-- A running RFFE_XFER: the mailbox that waits for it, where its block lies and the operations left (R95). -/
structure RffeRun where
  mb    : Fin 4
  base  : Nat
  count : Nat
  done  : Nat
  deriving DecidableEq, Repr

/-- The RFFE master of a tile (R93 to R96). `listOp` says that an operation of the list is on the bus as the retune sequence
starts; `queue` holds the lists that wait for the bus, oldest first. -/
structure Rffe where
  listOp    : Bool
  divWr     : BitVec 8
  divRd     : BitVec 8
  seq       : List RffeOp
  seqStart  : Option Nat
  seqLeft   : Nat
  seqOver   : Bool
  run       : Option RffeRun
  queue     : List RffeRun
  parity    : BitVec 16
  overrun   : BitVec 16
  deriving DecidableEq, Repr

/-- The preamble detector of a tile (R97 to R99). `line` holds its beam's last samples, newest first, without a gap. -/
structure Detector where
  enabled  : Bool
  beam     : Fin 32
  half     : BitVec 9
  thr      : BitVec 16
  evt      : Bool
  template : List (BitVec 32)
  deadTill : Time
  line     : List TSample
  cnt      : BitVec 32
  busy     : BitVec 32
  deriving DecidableEq, Repr

/-- A pick that runs (R101): the lead tile whose detector it is, the stamp with its window set, ρ, the tick of the first preamble sample,
and C_home as a power over full scale, num / den. -/
structure PickRun where
  lead    : Fin 8
  stamp   : Time
  windows : BitVec 64
  rho     : BitVec 16
  first   : Nat
  num     : Nat
  den     : Nat
  deriving DecidableEq, Repr

/-- Where a pick group stands (R101, R103): before the switch with its instant, after it likewise. -/
inductive PickPhase where
  | idle
  | first (r : PickRun) (switchAt : Nat)
  | second (r : PickRun) (switched : Nat)
  | returning (at_ : Nat)
  | hold (till : Nat)
  deriving DecidableEq, Repr

/-- A pick group (R100 to R105). `latOk` is false while the bound of R102 fails. -/
structure PickGroup where
  tiles   : BitVec 8
  home    : Bool
  bias    : BitVec 5
  hold    : BitVec 24
  enabled : Bool
  mode    : PickMode
  latOk   : Bool
  phase   : PickPhase
  deriving DecidableEq, Repr

/-- Pick counters of a tile (R110). -/
structure PickCnt where
  a     : BitVec 32
  b     : BitVec 32
  abort : BitVec 16
  void  : BitVec 16
  deriving DecidableEq, Repr

/-- CALBUS (R86 to R88): who holds it. -/
inductive CalBusUser where
  | free
  | calibration (tile : Fin 8)
  | diag (mb : Fin 4) (till : Nat)
  deriving DecidableEq, Repr

/-! ### Tile radio states (04_radio_states.md) -/

/-- Kinds of burst (R120). -/
inductive BurstKind where
  | tx | dwell | calSlot
  deriving DecidableEq, Repr

/-- A burst in its state, or on its way into it, with the instants of R120. -/
structure Burst where
  kind    : BurstKind
  handle  : BitVec 16
  startT  : Nat
  endT    : Nat
  muted   : Bool
  deriving DecidableEq, Repr

/-- An ended burst whose BURST_END waits for the state that follows (R121). -/
structure BurstEnding where
  handle    : BitVec 16
  actualEnd : Time
  truncated : Bool
  muted     : Bool
  deriving DecidableEq, Repr

/-- The action whose ACTION_DONE waits for the instant at which its state is in force (R117). -/
structure ActRec where
  handle : BitVec 16
  kind   : BitVec 8
  time   : Time
  deriving DecidableEq, Repr

/-- A transition (R113): the state left, its start, which a TX_BURST taken at S′ may still have ahead (R118), the tick at which
it is in STANDBY where it passes through it (R114), its end, and the action that waits for it. -/
structure Transit where
  left    : RState
  startAt : Nat
  via     : Option Nat
  till    : Nat
  done    : Option ActRec
  deriving DecidableEq, Repr

/-- The output phase of a synthesiser at a tick (R423), in 1/983,040,000 of a turn, so that f_LO in hertz is what it gains a
tick. -/
structure LoRef where
  at_  : Nat
  turn : Nat
  deriving DecidableEq, Repr

/-- Retune in progress (R123 to R125). -/
inductive RetunePhase where
  | none
  | glide (base : Nat) (target : Nat) (stepsLeft : Nat) (stepStart : Nat) (start : Nat) (late : Bool)
  | large (target : Nat) (start : Nat) (till : Nat)
  | lock (start : Nat) (till : Nat)
  deriving DecidableEq, Repr

/-- The radio state machine and synthesiser of a tile. `state` is the target while a transition runs (R133). `leadAt` is the
instant the TX pattern starts, `lagEnd` that at which it ends; `txPat` is true while the TX pattern is driven, false from
the end of TX_LAG to the next state (R89). `next` is the state that the tile starts for as soon as the running transition has
completed (R115, R122). `log` holds the ticks from which each state was in force, none during a transition, newest first, for the
samples that are still in the chains or in a frame (R28, R178); `settles` the intervals of the retunes that ended, likewise (R126).
`lo` is the phase that the last confirmation set, none from the start of a retune or a loss of lock until then (R423). -/
structure Radio where
  state      : RState
  transit    : Option Transit
  use        : TileUse
  apHomeRx   : Bool
  burst      : Option Burst
  ending     : Option BurstEnding
  leadAt     : Option Nat
  lagEnd     : Option Nat
  txPat      : Option Bool
  fc         : Nat
  fcSet      : Bool
  band       : BitVec 32
  retune     : RetunePhase
  next       : Option RState
  log        : List (Nat × Option RState)
  settles    : List (Nat × Nat)
  lo         : Option LoRef
  large      : BitVec 16
  glides     : BitVec 16
  held       : BitVec 16
  discarded  : BitVec 16
  fallback   : BitVec 16
  overbudget : BitVec 16
  settleLast : BitVec 24
  fcHiLatch  : BitVec 32
  deriving DecidableEq, Repr

/-! ### Channelisers and beam engine (05_channelisers.md, 06_beam_engine.md) -/

/-- Registers of a moving-average stage of R140 or R141: four integrators and four combs per component, each modulo
2^48, and the delay line of the compensation FIR, newest first; on receive the times after V of the last inputs that carried SETTLE,
SUSPECT and SAT (R154). -/
structure Narrow where
  accI    : List Nat
  accQ    : List Nat
  comI    : List Nat
  comQ    : List Nat
  fir     : List Cplx
  settle  : Option Int
  suspect : Option Int
  sat     : Option Int
  deriving DecidableEq, Repr

/-- Receive front stages of a path (R134): the index of the next sample on the 1,966.08 Msps grid, the delay lines of HB1, the
fractional-delay filter, HB2 and HB3, newest first, the last output of HB3 with its time after V, the port of each tick's sample,
and the powers of the last 1,024 tap samples (PA_RXPWR). `portWas` and `attWas` are the selector and the attenuator of the tick before,
`portFor` and `attFor` the ticks for which a change of them still settles (R74, R75). -/
structure RxChain where
  count   : Nat
  hb1     : List Smp
  fd      : List Smp
  hb2     : List Smp
  hb3     : List Smp
  out     : Smp
  outAt   : Int
  ports   : List Bool
  portWas : Bool
  portFor : Nat
  attWas  : Nat
  attFor  : Nat
  pwr     : List Nat
  elem    : Narrow
  deriving DecidableEq, Repr

/-- Transmit stages of a path (R137, R186), newest first: delay lines of HB3′, HB2′, the fractional-delay filter and HB1′, the
stream before, between and after the two stages of CFR, and the powers of the last 1,024 samples at the DAC input (PA_TXPWR). `live`
holds tick by tick, newest first, the driver gain with which the path's samples were let out, none where they were not (R79, R182), `fix` is the corrected stream of stage 1 of R78, `dac` the
codes of the DAC at 3,932.16 Msps, of which the newest has index `dacAt` on that grid after V. -/
structure TxChain where
  hb3   : List Cplx
  hb2   : List Cplx
  fd    : List Cplx
  hb1   : List Cplx
  cfr0  : List Cplx
  cfr1  : List Cplx
  cfr2  : List Cplx
  live  : List (Option (BitVec 7))
  fix   : List Cplx
  dac   : List Cplx
  dacAt : Int
  pwr   : List Nat
  elem  : Narrow
  deriving DecidableEq, Repr

/-- Channeliser registers that are not per path (R158) with the housekeeping presets. -/
structure ChanBlock where
  rxPreset    : BitVec 2
  txPreset    : BitVec 2
  railPreset  : BitVec 2
  diodePreset : BitVec 2
  satRx       : Vector (BitVec 32) 64
  satTx       : Vector (BitVec 32) 64
  rx          : Vector RxChain 64
  tx          : Vector TxChain 64
  deriving DecidableEq, Repr

/-- A beam configuration (R169). -/
structure BeamCfg where
  enable : Bool
  rate   : BitVec 3
  preset : BitVec 2
  format : BitVec 2
  flow   : BitVec 6
  freq   : BitVec 32
  shift  : BitVec 3
  deriving DecidableEq, Repr

/-- An element configuration (R168, R172). -/
structure ElemCfg where
  rate   : BitVec 3
  preset : BitVec 2
  format : BitVec 2
  flows  : Vector (BitVec 6) 8
  deriving DecidableEq, Repr

/-- One bank of one direction (R168). Weight words are keyed by their index in the window of R185. -/
structure Bank where
  element : Bool
  delays  : Vector (BitVec 11) 64
  weights : List (Nat × BitVec 32)
  beams   : Vector BeamCfg 32
  txShift : BitVec 3
  elem    : ElemCfg
  deriving DecidableEq, Repr

/-- A TX_IQ sample waiting in the transmit input of a flow: its time, its value or the eight of an element instant, and the
buffer bytes that it frees (R181, R368). -/
structure TxIn where
  time : Nat
  vals : List Cplx
  free : Nat
  deriving DecidableEq, Repr

/-- The bank and mask that were in force before an effective sample (R174): samples with earlier times still use them. `clear` names
the beams, and `elems` whether the element stages, that restart with the first sample from it on; `cut` says that the mask changed there,
where detectors restart (R99), and `halved` whether BEAM_HALVE was in force (R465). -/
structure PastBank where
  till   : Nat
  bank   : Bank
  aper   : BitVec 8
  clear  : BitVec 32
  elems  : Bool
  cut    : Bool
  halved : Bool
  deriving DecidableEq, Repr

/-- One direction of the beam engine: its banks, which physical bank is active, the lock of R170 (the handle of the
swap that holds it), the banks of earlier effective samples, oldest first, the narrowband stages of the beams, and the first times
that they, and the element stages, deliver (R153). -/
structure BeamDir where
  active  : Bank
  shadow  : Bank
  phys    : Bool
  lock    : Option (BitVec 16)
  past    : List PastBank
  sat     : Vector (BitVec 32) 32
  nb      : Vector Narrow 32
  validAt : Vector Nat 32
  elemAt  : Nat
  deriving DecidableEq, Repr

/-- An enqueued BANK_SWAP (R170, R602), begun at its S while it waits for T, or taken and waiting for its effective sample
(R174, R179). `time` is its T, `due` the instant it is taken at once it has begun. The masks name flows of its reservation that a
restripe has shed. -/
structure SwapRun where
  handle   : BitVec 16
  dirs     : BitVec 2
  uses     : Option (List TileUse)
  time     : Nat
  due      : Nat
  begun    : Bool
  joining  : List (Fin 8)
  effAt    : Option Nat
  oldMask  : BitVec 8
  shedRx   : BitVec 64
  shedTx   : BitVec 64
  deriving DecidableEq, Repr

/-- The beam engine (R159 to R185). `staged` holds the inputs that a transmit beam, or a tile in element mode, has taken, with their times
after V, and `outq` what its narrowband stage has put out with its time after V; `txNext` is the first grid sample that its next input may
begin to count for; `rxAt` and `txAt` are the times after V of the last grid samples formed. -/
structure BeamBlock where
  rx      : BeamDir
  tx      : BeamDir
  aper    : BitVec 8
  swapAt  : Nat
  hiLatch : BitVec 32
  swaps   : List SwapRun
  txpSat  : Vector (BitVec 32) 64
  txUfl   : Vector (BitVec 32) 32
  txLate  : Vector (BitVec 32) 32
  uflSeen : BitVec 32
  input   : Vector (List TxIn) 64
  staged  : Vector (List (Int × List Cplx)) 32
  outq    : Vector (List (Int × List Cplx)) 32
  txNext  : Vector Nat 32
  rxAt    : Int
  txAt    : Int
  deriving DecidableEq, Repr

/-! ### Coupled predistortion (07_predistortion.md) -/

/-- Adaptation states of R205. -/
inductive PdState where
  | off | adapting | frozen | paused | halted | excluded
  deriving DecidableEq, Repr

/-- Predistortion registers and sets of one path. Coefficient words are keyed by the index of R190; `past` holds the sets that were
active before, each with the tick until which it was and its neighbours, newest first, for the samples still in the chain (R203). -/
structure PdPath where
  pdEn      : Bool
  cfrEn     : Bool
  adaptEn   : Bool
  evtSwap   : Bool
  nb1       : BitVec 8
  nb2       : BitVec 8
  nbNew     : Option (BitVec 8 × BitVec 8)
  state     : PdState
  consecRej : BitVec 8
  lastRej   : BitVec 4
  active    : List (Nat × BitVec 32)
  pending   : Option (List (Nat × BitVec 32))
  past      : List (Nat × BitVec 8 × BitVec 8 × List (Nat × BitVec 32))
  swaps     : BitVec 16
  accepted  : BitVec 16
  dPower    : BitVec 8
  dCrest    : BitVec 8
  dNeigh    : BitVec 8
  dOvl      : BitVec 8
  dInter    : BitVec 8
  dStale    : BitVec 8
  dReject   : BitVec 8
  nmse      : BitVec 16
  cfrResid  : BitVec 16
  satPd     : BitVec 16
  statsN    : Nat
  lastAcc   : Nat
  frozenAt  : Nat
  deriving DecidableEq, Repr

/-- What a capture keeps of one index of the 1,966.08 Msps grid (R199): u_p, x_p, x_q1 and x_q2. -/
structure CapSample where
  index : Int
  u     : Cplx
  x     : Cplx
  q1    : Cplx
  q2    : Cplx
  deriving DecidableEq, Repr

/-- Predistortion registers of one tile. `cap` holds the samples of the capture in progress, newest first. `stale` marks a running estimate that R204 discards. -/
structure PdTile where
  next      : BitVec 3
  estBusy   : Option (BitVec 3)
  stale     : Bool
  capBusy   : Option (BitVec 3)
  capBroken : Bool
  cap       : List CapSample
  throttle  : Bool
  reload    : Bool
  gate      : BitVec 32
  timing    : BitVec 32
  limit     : BitVec 32
  est       : BitVec 32
  cfr       : BitVec 8
  pulse     : Option (List (BitVec 32))
  pulseFor  : BitVec 32
  regen     : Bool
  deriving DecidableEq, Repr

/-- The predistortion block (R186 to R210). -/
structure PdBlock where
  chain : Bool
  tiles : Vector PdTile 8
  paths : Vector PdPath 64
  deriving DecidableEq, Repr

/-! ### Spectral analysis (08_spectral_analysis.md) -/

/-- Modes of a spectral lane (R211). -/
inductive LaneMode where
  | off | tap | stitch
  deriving DecidableEq, Repr

/-- An output of a lane or of the stitch set (R228): source range, rate, destination. -/
structure AnOutput where
  first   : BitVec 32
  count   : BitVec 32
  period  : BitVec 16
  k       : BitVec 32
  avgLog  : Bool
  inclBl  : Bool
  maskOvl : Bool
  flow    : Option (Fin 64)
  segment : Option (Fin 64)
  deriving DecidableEq, Repr

/-- A frequency mask (R229, R230): breakpoints (index, LOG16 level) and its runs. -/
structure AnMask where
  lower  : Bool
  enterD : BitVec 16
  leaveD : BitVec 16
  evt    : Bool
  points : List (Int × Int)
  deriving DecidableEq, Repr

/-- Kaleidoscope settings (R233); a count C of 0 stands for the default, the whole valid band. -/
structure DensCfg where
  b0   : BitVec 32
  c    : BitVec 32
  top  : BitVec 16
  step : BitVec 8
  flow : BitVec 8
  deriving DecidableEq, Repr

/-- What AN_LANE_CFG stages (R235). -/
structure LaneCfg where
  tap     : Bool
  path    : BitVec 3
  portB   : Bool
  z       : BitVec 4
  window  : BitVec 3
  overlap : BitVec 2
  dbm     : Bool
  deriving DecidableEq, Repr

/-- The configuration of one source: a lane, or the stitch set as source 8. -/
structure AnCfg where
  lane  : LaneCfg
  outs  : Vector (Option AnOutput) 4
  masks : Vector (Option AnMask) 4
  dens  : DensCfg
  deriving DecidableEq, Repr

/-- Where a mask's run stands (R230, R231): entered, run length, the frame before the run and the first of it. -/
structure MaskRun where
  entered : Bool
  run     : Nat
  prev    : Option (Int × Int)
  a       : Option (Int × Int)
  b       : Option (Int × Int)
  enters  : BitVec 32
  deriving DecidableEq, Repr

/-- A trace block being gathered (R228): frames seen, frames included and the bins so far (power means are formed from the
frames' LOG16 values). -/
structure TraceAcc where
  seen  : Nat
  incl  : Nat
  bins  : List (List (BitVec 16))
  start : Nat
  slot  : Nat
  seqNo : Nat
  flags : BitVec 8
  deriving DecidableEq, Repr

/-- One bank of the Kaleidoscope (R233, R234): counters by cell index, frame count, first and last frame times. -/
structure DensBank where
  cells  : List (Nat × BitVec 32)
  frames : BitVec 32
  first  : Nat
  last   : Nat
  flags  : BitVec 8
  deriving DecidableEq, Repr

/-- A source of the analyser with what it is doing (R211 to R240). `last` is the last spectrum and
`lastAt` the time of its first sample (R225); `line` is the lane's input, newest first, as far back as a frame may still need it, and `gains` the attenuation and the port of
its path with the times from which they held (R220); `recent` holds its last spectra with their flags, for the stitch set;
`swapReq` is the frame boundary at which a swap asked for takes effect, `satSeen` that a counter has saturated since the last one (R234);
`old` is the configuration before the last change, with the throttle's codes, the tick of the change and the start of its next frame: those of its
frames that end before the tick are still delivered (R235). -/
structure AnSource where
  cfg       : AnCfg
  staged    : AnCfg
  dirty     : Bool
  throttled : BitVec 2
  refOffset : BitVec 16
  last      : List (BitVec 16)
  lastAt    : Nat
  blankLast : BitVec 5
  frames    : BitVec 32
  blanked   : BitVec 32
  masks     : Vector MaskRun 4
  traces    : Vector TraceAcc 4
  density   : DensBank
  finished  : Option DensBank
  bank      : Bool
  sat       : Bool
  satSeen   : Bool
  swapReq   : Option Nat
  nextFrame : Nat
  line      : List TSample
  gains     : List (Nat × Nat × Bool)
  recent    : List (Nat × List (BitVec 16) × BitVec 8)
  old       : Option (AnCfg × BitVec 2 × Nat × Nat)
  iqFlow    : Option (Fin 64)
  iqFormat  : BitVec 2
  deriving DecidableEq, Repr

/-- The stitch set (R223 to R225). -/
structure Stitch where
  members   : BitVec 8
  f0        : BitVec 64
  z         : BitVec 4
  j         : BitVec 32
  fc        : Vector (BitVec 64) 8
  announced : Bool
  deriving DecidableEq, Repr

/-- The analyser: lanes S0 to S7 and the stitch set as source 8. -/
structure AnBlock where
  src    : Vector AnSource 9
  stitch : Stitch
  deriving DecidableEq, Repr

/-! ### Triggers, records and the acquisition store (09_acquisition.md) -/

/-- A firing of a trigger source on its way to a unit (R241): source code, index, stamp and window set. -/
structure Firing where
  code    : BitVec 8
  index   : BitVec 8
  time    : Time
  windows : BitVec 64
  deriving DecidableEq, Repr

/-- A level detector (R243, R244): its configuration; its last inputs, newest first, whether it is armed, the length of its run with the
samples a and b (time and power sum over W) where the run began, and the qualified runs that have not fired yet. -/
structure LevelDet where
  enabled : Bool
  kind    : BitVec 8
  index   : BitVec 8
  w       : BitVec 8
  thr     : BitVec 16
  hys     : BitVec 16
  falling : Bool
  dwell   : BitVec 16
  line    : List TSample
  armed   : Bool
  run     : Nat
  prev    : Option (Nat × Nat)
  a       : Nat × Nat
  b       : Nat × Nat
  due     : List ((Nat × Nat) × (Nat × Nat))
  deriving DecidableEq, Repr

/-- A trigger unit (R245, R246): configuration, firings on their way, undecided A and B firings, the end of its
holdoff. -/
structure TrigUnit where
  aCode   : BitVec 8
  aIdx    : BitVec 8
  bCode   : BitVec 8
  bIdx    : BitVec 8
  op      : BitVec 8
  limit   : BitVec 32
  holdoff : BitVec 32
  evt     : Bool
  inbox   : List Firing
  as      : List Firing
  bs      : List Firing
  ignore  : Option Time
  cnt     : BitVec 32
  hzn     : Nat
  deriving DecidableEq, Repr

/-- A TRIG_IN input (R242). -/
structure TrigIn where
  edges  : BitVec 2
  last   : Option Time
  closeN : BitVec 8
  deriving DecidableEq, Repr

/-- A TRIG_OUT pin (R248). -/
structure TrigOut where
  route   : Bool
  kind    : BitVec 8
  index   : BitVec 8
  low     : Bool
  width   : BitVec 16
  level   : Bool
  pulse   : Option Nat
  deriving DecidableEq, Repr

/-- A store segment (R250). -/
structure Segment where
  base  : Nat
  len   : Nat
  slots : Nat
  slot  : Nat
  deriving DecidableEq, Repr

/-- Channel states of R270. -/
inductive ChState where
  | idle | configured | armed | recording | rearm | done
  deriving DecidableEq, Repr

/-- The record being formed (R255, R256): its trigger, the times in ticks of its trigger sample and its end, the triggers
that fell inside it, whether it was closed early (R258), the aperture mask, and the dead time before it with what was missed
in it (R257), with its sample period, its rate code and
the stored post-trigger samples in force for it (R253). -/
structure Record where
  trig    : Time
  unit    : Fin 16
  src     : BitVec 8
  windows : BitVec 64
  sample  : Nat
  endT    : Nat
  inrec   : BitVec 32
  inrecT  : Time
  aperCut : Bool
  trunc   : Bool
  aper    : BitVec 8
  dead    : Nat
  missN   : BitVec 32
  missT   : Time
  period  : Nat
  rate    : BitVec 8
  postS   : Nat
  deriving DecidableEq, Repr

/-- An acquisition channel (R252 to R258). `cfgd` says that it holds a configuration and its reservation; `next` is the
state after the re-arm; `armAt` the arm tick, or the first sample after a gap (R258); `newest` the time of the last sample that its
source gave it; `samples` are those of the current slot's ring, newest first, `fill` the count written into it, `fillN` that written into the next slot after the record's end (R257);
`endT` and `deadHdr` the end of the last record and the dead time after it. -/
structure AqChan where
  state    : ChState
  cfgd     : Bool
  kind     : BitVec 8
  index    : BitVec 8
  segment  : Fin 64
  unit     : Fin 16
  pre      : Nat
  post     : Nat
  f12      : Bool
  ring     : Bool
  envelope : Bool
  spectra  : Bool
  meas     : Bool
  bt       : BitVec 8
  stream   : Option (Fin 64)
  cap      : Nat
  guard    : Nat
  postS    : Nat
  armAt    : Nat
  window   : Option (Fin 64)
  closedAt : Option Time
  slot     : Nat
  fill     : Nat
  fillN    : Nat
  recNo    : BitVec 32
  records  : BitVec 32
  missed   : BitVec 32
  short    : BitVec 32
  deadMax  : BitVec 16
  deadLast : BitVec 16
  endT     : Nat
  newest   : Nat
  deadHdr  : Nat
  missN    : BitVec 32
  missT    : Time
  record   : Option Record
  next     : ChState
  recFlags : BitVec 16
  recSlot  : Nat
  lastHdr  : BitVec 32
  samples  : List TSample
  deriving DecidableEq, Repr

/-- The acquisition block and the store (R241 to R270). -/
structure AqBlock where
  levels   : Vector LevelDet 16
  units    : Vector TrigUnit 16
  trigIn   : Vector TrigIn 4
  trigOut  : Vector TrigOut 4
  segments : Vector (Option Segment) 64
  chans    : Vector AqChan 16
  retain   : BitVec 8
  store    : List (Nat × BitVec 8)
  deriving DecidableEq, Repr

/-! ### Tile DSP (10_tile_dsp.md) -/

/-- Kernel states of R313. -/
inductive KState where
  | empty | loaded | running | idle | stopped | fault | loading
  deriving DecidableEq, Repr

/-- Registers of the file of R275 that a result can land in. -/
inductive TReg where
  | d (i : Fin 16)
  | acc (i : Fin 8)
  | p (i : Fin 8)
  | m (i : Fin 8)
  | l (i : Fin 8)
  | b (i : Fin 8)
  | lc (i : Fin 2)
  | ls (i : Fin 2)
  | le (i : Fin 2)
  | scale | status | imask | iret
  | zn
  | sticky
  | bfp
  | ie
  | pc
  deriving DecidableEq, Repr

/-- A result in flight (R279): where it lands, its bits (I then Q for an accumulator), the bundles still to end before
it lands, and whether it comes from the MAC class (R281). The register `zn` stands for Z and N, `sticky` for bits that SAT and
ASAT take, `bfp` for the largest magnitude of R290 (or its clearing), `pc` for a control transfer. -/
structure InFlight where
  reg   : TReg
  val   : Int
  valQ  : Int
  left  : Nat
  mac   : Bool
  deriving DecidableEq, Repr

/-- An entry of the write buffer (R298). -/
structure WrEntry where
  inY  : Bool
  addr : Nat
  val  : BitVec 32
  deriving DecidableEq, Repr

/-- What stalls issue (R283). -/
inductive TStall where
  | none
  | sync
  | idle
  deriving DecidableEq, Repr

/-- A message in the FIFO of R302. -/
structure TMsg where
  code : BitVec 8
  pc   : BitVec 16
  val  : BitVec 32
  seq  : BitVec 16
  deriving DecidableEq, Repr

/-- The kernel image loaded into a tile (R305). -/
structure KImage where
  kid    : BitVec 32
  resUse : Bool
  pmOff  : Nat
  pmLen  : Nat
  entry  : Nat
  claims : BitVec 5
  isr    : List Nat
  deriving DecidableEq, Repr

/-- A load in progress (R307). -/
structure KLoad where
  img   : KImage
  addr  : Nat
  start : Bool
  deriving DecidableEq, Repr

/-- One tile DSP with its kernel's registers, pipeline, memories and I/O registers. -/
structure Tdsp where
  state    : KState
  image    : Option KImage
  load     : Option KLoad
  d        : Vector (BitVec 32) 16
  accI     : Vector (BitVec 40) 8
  accQ     : Vector (BitVec 40) 8
  p        : Vector (BitVec 18) 8
  m        : Vector (BitVec 18) 8
  l        : Vector (BitVec 18) 8
  b        : Vector (BitVec 18) 8
  lc       : Vector (BitVec 17) 2
  ls       : Vector (BitVec 15) 2
  le       : Vector (BitVec 15) 2
  scale    : BitVec 32
  status   : BitVec 32
  imask    : BitVec 5
  iret     : BitVec 15
  pc       : BitVec 15
  flight   : List InFlight
  curC     : List InFlight
  issuedC  : Bool
  loopDue  : Bool
  stall    : TStall
  bfpMax   : Nat
  wbuf     : List WrEntry
  xm       : List (Nat × BitVec 32)
  ym       : List (Nat × BitVec 32)
  pm       : List (Nat × BitVec 32)
  dbell    : BitVec 32
  dbPend   : Bool
  lastDb   : BitVec 32
  timer    : BitVec 32
  timerAt  : Nat
  timeHi   : BitVec 32
  fill     : Vector (BitVec 32) 2
  fillSub  : Vector Nat 2
  capBusy  : Bool
  capDone  : Bool
  capRef   : Bool
  capBank  : BitVec 2
  pend     : BitVec 5
  msgs     : List TMsg
  msgSeq   : BitVec 16
  msgLost  : BitVec 16
  diRun    : Nat
  cause    : BitVec 4
  faultPc  : BitVec 15
  faults   : BitVec 8
  estStops : BitVec 8
  msgDrop  : BitVec 8
  longDi   : BitVec 8
  deriving DecidableEq, Repr

/-! ### Fronthaul lanes (11_lanes.md) and Zenfa Link (12_zenfa_link.md) -/

/-- Roles of a lane (R339). -/
inductive LaneRole where
  | offline | bringup | idle | active | down | test | held
  deriving DecidableEq, Repr

/-- Test loops of R328. -/
inductive LoopKind where
  | none | nes | nep | fe
  deriving DecidableEq, Repr

/-- The pattern generator and checker of a lane with the injection of R330. `window` holds the errors of the current
4,096-bit window and `seed` the bits the checker has seeded from. -/
structure Prbs where
  genEn   : Bool
  genPat  : BitVec 2
  chkEn   : Bool
  chkPat  : BitVec 2
  sync    : Bool
  reached : Bool
  good    : Nat
  seed    : List Bool
  window  : List Bool
  err     : Nat
  bits    : Nat
  hiLatch : BitVec 32
  burst   : BitVec 8
  repeat_ : BitVec 8
  injBits : Nat
  deriving DecidableEq, Repr

/-- One lane (R314 to R339). `eq` holds the values of its equaliser, the continuous-time one and then the five taps (R319); `scr` is the
state of its transmit scrambler (R315). -/
structure Lane where
  role     : LaneRole
  pstate   : LaneTarget
  target   : Option LaneTarget
  started  : Bool
  failRep  : Bool
  exitAt   : Option Nat
  bringAt  : Nat
  eqFrozen : Bool
  inverted : Bool
  logical  : BitVec 4
  skew     : BitVec 8
  deskewed : Bool
  orderOk  : Bool
  polOk    : Bool
  lock     : Bool
  cdr      : Bool
  fail     : BitVec 3
  slips    : BitVec 16
  hdrRun   : BitVec 7
  slipN    : Nat
  slipDue  : Option Nat
  recent   : List Bool
  invHdr   : BitVec 16
  lockLoss : BitVec 8
  downs    : BitVec 8
  freezes  : BitVec 16
  density  : BitVec 12
  lostAt   : Option Nat
  fails    : Nat
  downAt   : List Nat
  loop     : LoopKind
  prbs     : Prbs
  presets  : Vector (BitVec 3) 4
  preset   : BitVec 3
  eq       : List Int
  scr      : BitVec 58
  deriving DecidableEq, Repr

/-- What an LK_START waits for (R323), its timeout instant. -/
structure StartRun where
  mask  : BitVec 16
  till  : Nat
  deriving DecidableEq, Repr

/-- A source bound to a flow (R358, R541). -/
inductive FlowSrc where
  | none
  | beam (b : Fin 32)
  | elem (t : Fin 8)
  | spectrum (src : Fin 9) (out : Fin 4)
  | density (lane : Fin 8)
  | stream (c : Fin 16)
  | laneIq (lane : Fin 8)
  deriving DecidableEq, Repr

/-- A packet of the link (R344): what the model keeps of one sent or received. -/
structure Packet where
  type    : BitVec 8
  flow    : BitVec 8
  flags   : BitVec 16
  seq     : BitVec 16
  time    : BitVec 48
  aper    : BitVec 8
  fmt     : BitVec 8
  payload : List (BitVec 8)
  deriving DecidableEq, Repr

/-- A sample packet that is being filled (R359): its type, FMT, format code, APER, the time of its first sample, the period and the
samples or instants so far, oldest first, with the flags they carry. -/
structure Pend where
  type   : BitVec 8
  fmt    : BitVec 8
  code   : Nat
  elem   : Bool
  aper   : BitVec 8
  time   : Nat
  sub    : List (BitVec 8)
  items  : List (List Cplx)
  flags  : BitVec 8
  deriving DecidableEq, Repr

/-- A receive (device to baseband) flow (R358 to R360). Charges are in units of bit/s. `pend` is the packet being filled, `ready` those
formed and not yet sent; `rebound` is the effective sample of a swap that has bound the flow anew: its count restarts with the first sample from there
on (R176). -/
structure RxFlow where
  src     : FlowSrc
  charge  : Nat
  shed    : Bool
  prio    : BitVec 3
  lenMax  : BitVec 14
  seq     : BitVec 16
  restart : Bool
  pend    : Option Pend
  ready   : List Packet
  rebound : Option Nat
  deriving DecidableEq, Repr

/-- A transmit (baseband to device) flow (R368 to R370). `used` counts the buffer bytes held, `freed` those freed since
the last report, `count` the units received since the last RESTART. -/
structure TxFlow where
  src      : FlowSrc
  charge   : Nat
  shed     : Bool
  prio     : BitVec 3
  lenMax   : BitVec 14
  seq      : BitVec 16
  limit    : BitVec 32
  count    : BitVec 32
  buf      : Nat
  freed    : Nat
  creditAt : Nat
  due      : Bool
  restart  : Bool
  overrun  : BitVec 16
  gap      : BitVec 8
  badfmt   : BitVec 8
  ovrSeen  : Bool
  deriving DecidableEq, Repr

/-- A reliable packet held until it is acknowledged (R361), with the ticks at which it was last and first sent. -/
structure Held where
  pkt   : Packet
  sent  : Nat
  first : Nat
  deriving DecidableEq, Repr

/-- A host read outstanding (R374, R377). -/
structure MemRead where
  tag    : BitVec 8
  chan   : Fin 64
  addr   : BitVec 64
  bytes  : Nat
  got    : List (BitVec 8)
  sent   : Nat
  deriving DecidableEq, Repr

/-- A block as a lane sends it (R315): control or data, and its eight bytes, scrambled. -/
structure Blk where
  ctl   : Bool
  bytes : List (BitVec 8)
  deriving DecidableEq, Repr

/-- The link: lanes, masks, flows, reliable class (R314 to R380). `out` lists the packets handed to the lanes, newest
last; the first `laid` of them stand in `rows`, the rows of blocks that have left, oldest first (R340). `admitUp`
says that the CAPACITY fields no longer show their reset value (R14; log 59). -/
structure LinkBlock where
  lanes     : Vector Lane 16
  rate      : BitVec 2
  minLanes  : BitVec 5
  auto      : Bool
  manual    : Bool
  timeout   : BitVec 16
  swing     : BitVec 8
  active    : BitVec 16
  rxActive  : BitVec 16
  farActive : BitVec 16
  nearGood  : BitVec 16
  farGood   : BitVec 16
  up        : Bool
  start     : List StartRun
  shedCnt   : BitVec 16
  streamLost : BitVec 16
  markAt    : Nat
  idleAt    : Nat
  relSeq    : BitVec 16
  relRx     : BitVec 16
  held      : List Held
  waiting   : List Packet
  replays   : BitVec 16
  naks      : BitVec 16
  nakFor    : Option (BitVec 16)
  ackDue    : Option Nat
  unacked   : Nat
  flushed   : BitVec 32
  crcErr    : BitVec 16
  framing   : BitVec 8
  unexp     : BitVec 8
  evtRoute  : Bool
  replayT   : BitVec 20
  holdMs    : BitVec 32
  memTo     : BitVec 32
  reads     : List MemRead
  memTouts  : BitVec 8
  memFaults : BitVec 8
  memLate   : BitVec 8
  rxFlows   : Vector RxFlow 64
  txFlows   : Vector TxFlow 64
  out       : List Packet
  laid      : Nat
  admitUp   : Bool
  rows      : List (List Blk)
  deriving DecidableEq, Repr

/-! ### DMA engine and check units (13_dma_and_check_units.md) -/

/-- Channel states of R410. -/
inductive DmState where
  | idle | ready | running | wait | stopping | stopped | done | error
  deriving DecidableEq, Repr

/-- A descriptor (R386, R387). -/
structure Desc where
  src   : BitVec 64
  dst   : BitVec 64
  bytes : Nat
  cu    : BitVec 3
  flags : BitVec 32
  next  : BitVec 32
  aux   : BitVec 32
  deriving DecidableEq, Repr

/-- The descriptor in progress: its address, the destination bytes written, the length of the burst under way, the offset in the
source of what it reads, its data once the source has given them, the tick a FENCE began to wait. -/
structure DescRun where
  desc     : Desc
  addr     : Nat
  moved    : Nat
  burst    : Option Nat
  lo       : Nat
  data     : List (BitVec 8)
  fenceAt  : Option Nat
  deriving DecidableEq, Repr

/-- One DMA channel (R381 to R403). -/
structure DmChan where
  state    : DmState
  configured : Bool
  ring     : Bool
  base     : BitVec 32
  len      : BitVec 13
  head     : BitVec 12
  tail     : BitVec 12
  burst    : BitVec 7
  uses     : BitVec 4
  rate     : BitVec 16
  paced    : Bool
  paceT    : Fin 8
  paceQ    : Bool
  high     : BitVec 16
  low      : BitVec 16
  boundT   : Option (Fin 8)
  evtEn    : Bool
  req      : Bool
  cause    : BitVec 4
  countOk  : Bool
  rlenIgn  : Bool
  cu       : Option (Fin 8)
  desc     : BitVec 32
  bytes    : BitVec 32
  doneCnt  : BitVec 32
  fenceMax : BitVec 16
  fenceLast : BitVec 16
  killed   : Bool
  run      : Option DescRun
  nextAt   : Nat
  deriving DecidableEq, Repr

/-- A check unit (R404 to R406). -/
structure CheckUnit where
  crc    : BitVec 2
  owner  : Option (Fin 64)
  reg    : BitVec 32
  seed   : BitVec 32
  result : BitVec 32
  valid  : Bool
  bytes  : BitVec 32
  deriving DecidableEq, Repr

/-- The DMA engine. -/
structure DmaBlock where
  chans : Vector DmChan 64
  units : Vector CheckUnit 8
  deriving DecidableEq, Repr

/-! ### Clocks and SYNC (14_clocks.md) -/

/-- A PLL (R414, R415, R424 to R427): lock, fault awaiting acknowledgement, a relock in progress. `usable` is set at
CLK_RELOCKED. -/
structure Pll where
  lock     : Bool
  fault    : Bool
  relocked : Bool
  attempts : BitVec 16
  planned  : Bool
  busy     : Bool
  retryAt  : Option Nat
  suspect  : Option Nat
  losses   : BitVec 16
  retries  : BitVec 16
  deriving DecidableEq, Repr

/-- A converter clock output (R416, R417). `now` is the sum in force, which slews toward its target. -/
structure ConvOut where
  en    : Bool
  div   : BitVec 2
  delay : BitVec 10
  trim  : Vector (BitVec 8) 4
  now   : Int
  stepAt : Nat
  deriving DecidableEq, Repr

/-- A SYNC edge waiting for its qualification (R418). -/
structure SyncEdge where
  stamp : Time
  tick  : Nat
  lowOk : Bool
  deriving DecidableEq, Repr

/-- The clock block (R411 to R431). -/
structure ClkBlock where
  plls     : Vector Pll 16
  refOk    : Bool
  fbosc    : Bool
  mgmtSafe : Bool
  dspSafe  : Bool
  conv     : Vector ConvOut 8
  syncComp : BitVec 7
  edge     : Option SyncEdge
  loadedV  : Nat
  edges    : BitVec 16
  rejected : BitVec 8
  drift    : Bool
  syncErr  : BitVec 32
  period   : Nat
  limit    : BitVec 16
  lockmon  : BitVec 4
  refSrc   : Bool
  deriving DecidableEq, Repr

/-! ### Calibration (15_calibration.md) -/

/-- A calibration pending on a tile (R440): its deadline, missed opportunities, whether it is overdue, the f_c values of a
STITCH_EQ, and the slots still to do, each its number among those of R432 and the paths it still covers (R441). -/
structure CalPend where
  kind     : CalKind
  deadline : Time
  missed   : BitVec 16
  overdue  : Bool
  fcs      : List (BitVec 64)
  work     : List (Nat × BitVec 8)
  deriving DecidableEq, Repr

/-- A claim in force or announced on a tile (R441). -/
structure Claim where
  kind    : CalKind
  path    : Fin 64
  start   : Nat
  len     : Nat
  running : Bool
  deriving DecidableEq, Repr

/-- A CAL_SLOT placed on a tile's queue or running (R436, R437): the tile whose calibration it serves (another one for the
slot of a reference tile), its handle, its S and the instant the tile is home again. -/
structure CalSlotRun where
  kind   : CalKind
  client : Fin 8
  handle : BitVec 16
  start  : Nat
  stop   : Nat
  deriving DecidableEq, Repr

/-- Calibration state of a tile (R436 to R443, R452). `running` is the handle of the slot that runs; `temp` the model
temperature in 1/64 °C at the last evaluation of its values. -/
structure CalTile where
  pending : List CalPend
  running : Option (BitVec 16)
  placed  : List CalSlotRun
  claim   : Option Claim
  temp    : Int
  ended   : BitVec 16
  done    : BitVec 16
  claims  : BitVec 16
  deriving DecidableEq, Repr

/-- A calibration store in progress (R449): target slot, sectors erased, pages programmed, SEQ, and the values, kinds, time
and highest temperature as they were when it was accepted. -/
structure StoreRun where
  slotB  : Bool
  erased : Nat
  pages  : Nat
  seq    : BitVec 32
  values : List (Nat × Int)
  kinds  : BitVec 8
  time   : Time
  maxT   : BitVec 16
  deriving DecidableEq, Repr

/-- The calibration block. `values` holds the record of R445 as signed
halfwords keyed by their place in it. -/
structure CalBlock where
  tiles    : Vector CalTile 8
  values   : List (Nat × Int)
  tempE    : Int
  bus      : CalBusUser
  gapMask  : BitVec 64
  claimLim : BitVec 16
  refPath  : Fin 64
  level    : BitVec 8
  capUf    : BitVec 32
  capSet   : Bool
  vmin     : BitVec 16
  divider  : BitVec 16
  ePage    : BitVec 16
  eErase   : BitVec 16
  offA     : BitVec 16
  offB     : BitVec 16
  rangeMin : BitVec 8
  rangeMax : BitVec 8
  rangeEn  : Bool
  store    : Option StoreRun
  pagesN   : BitVec 16
  last     : BitVec 8
  factory  : Bool
  slotB    : Bool
  seq      : BitVec 32
  energy   : BitVec 16
  volt     : BitVec 16
  vhold    : BitVec 16
  kinds    : BitVec 8
  deriving DecidableEq, Repr

/-! ### Temperature, voltage and process monitoring (16_thermal.md) -/

/-- One threshold of a region (R460): tripped or not, and the evaluations in a row towards a change. -/
structure Trip where
  tripped : Bool
  run     : Nat
  deriving DecidableEq, Repr

/-- Four-stage moving-average decimator of a housekeeping channel (R155): integrators and combs modulo 2^48, the inputs since its last
output, and that output. -/
structure HkFilter where
  acc : List Nat
  com : List Nat
  n   : Nat
  out : BitVec 16
  deriving DecidableEq, Repr

/-- A region of R19 with its monitors. Nodes are in 1/64 °C; `est` and `diode` are the reported values; `diodeF` and `powerF` filter its diode
and its power monitor. -/
structure Region where
  est      : BitVec 16
  diode    : BitVec 16
  nodeS    : Int
  nodeH    : Int
  seen     : Bool
  pwr      : BitVec 16
  warn     : Trip
  throttle : Trip
  shut     : Trip
  wasShut  : Bool
  bigE     : Nat
  fault    : Bool
  procCnt  : BitVec 16
  procDev  : BitVec 16
  evalAt   : Nat
  diodeF   : HkFilter
  powerF   : HkFilter
  deriving DecidableEq, Repr

/-- States of a rail (R473). -/
inductive RailState where
  | ok | warn | fault
  deriving DecidableEq, Repr

/-- A rail with the rounds in a row towards OK or WARN and towards FAULT. -/
structure Rail where
  state : RailState
  mv    : BitVec 16
  run   : Nat
  runF  : Nat
  filter : HkFilter
  deriving DecidableEq, Repr

/-- The monitoring block. `bias` is in 1/16,384 °C, so that e/256 is exact; `applied` lists the throttle steps in force in the
order applied; `shutAt` is the tick at which the shutdown steps are done. -/
structure HkBlock where
  regions   : Vector Region 12
  rails     : Vector Rail 10
  bias      : Int
  rha       : BitVec 16
  ch        : BitVec 16
  ta        : BitVec 16
  diverge   : BitVec 12
  throttle  : Bool
  warned    : Bool
  order     : List (BitVec 3)
  interval  : BitVec 16
  applied   : List (BitVec 3)
  stepAt    : Nat
  reverting : Bool
  duty      : BitVec 8
  capCnt    : BitVec 32
  txLog     : Vector (List (Nat × Nat)) 8
  halved    : Bool
  shutdown  : Bool
  cut       : BitVec 3
  shutAt    : Nat
  halt      : Bool
  bandSel   : Bool
  tileBand  : Vector (BitVec 2) 8
  linkBand  : BitVec 2
  dramBand  : BitVec 2
  vstat     : BitVec 10
  warns     : BitVec 8
  throttles : BitVec 8
  shutdowns : BitVec 8
  diverges  : BitVec 8
  roundAt   : Nat
  deriving DecidableEq, Repr

/-! ### Power states, pads and JTAG (17_power_states.md, 21_package_and_pins.md) -/

/-- Device states of R479, with the entry and wake sequences beside them. PARK is ACTIVE with a tile parked. -/
inductive DevState where
  | active | doze | retain | off
  deriving DecidableEq, Repr

/-- Where a DOZE or RETAIN entry stands (R484 to R487). `asked` is the position in the order of R484 of the block now
asked, 16 once every block has agreed; `phase2` the tick PW_ENTERING was emitted. -/
structure Entry where
  toRetain : Bool
  ragdoll  : Bool
  asked    : Nat
  since    : Nat
  phase2   : Option Nat
  evtSlot  : BitVec 9
  deriving DecidableEq, Repr

/-- Where a wake stands: step 1 to 4 of R490, 0 from DOZE (R489). -/
structure WakeRun where
  step    : Nat
  retry   : Bool
  source  : BitVec 2
  deriving DecidableEq, Repr

/-- The power block with the AO registers and the pad hold latches. `lanesOn` names the lanes that were ON before DOZE,
`enteredAt` the tick of its entry. -/
structure PwBlock where
  dev       : DevState
  entry     : Option Entry
  wake      : Option WakeRun
  wakeLatch : Option (BitVec 2)
  parked    : BitVec 8
  unparking : BitVec 8
  tileOn    : BitVec 8
  beamOn    : Bool
  anlzOn    : Bool
  acqOn     : Bool
  linkOn    : Bool
  dramSr    : Bool
  refusals  : BitVec 16
  reason    : BitVec 8
  refBlock  : BitVec 5
  retain    : BitVec 9
  wakeCnt   : BitVec 16
  retried   : BitVec 4
  failed    : Bool
  failStep  : BitVec 3
  source    : BitVec 2
  prev      : BitVec 2
  timerEn   : Bool
  pinEn     : Bool
  timer     : BitVec 32
  sleepCnt  : BitVec 32
  slept     : Nat
  lanesOn   : BitVec 16
  enteredAt : Nat
  held      : BitVec 11
  femLatch  : Vector (BitVec 8) 8
  trigLatch : BitVec 4
  lockLatch : Bool
  bank7Ok   : Bool
  vddio     : Bool
  padsReset : Bool
  deriving DecidableEq, Repr

/-- The JTAG TAP (R582): the level of TRST_N, the instruction register, the boundary register as last shifted in, what the data
register that the instruction selects last captured. -/
structure Jtag where
  trstLow  : Bool
  ir       : BitVec 8
  boundary : BitVec 344
  captured : BitVec 344
  deriving DecidableEq, Repr

/-! ### Puppeteer, host port, sessions, journal and OTP (18_puppeteer.md, 20_roles.md) -/

/-- Roles in the ranking of R530. -/
inductive Role where
  | operator | installer | maker
  deriving DecidableEq, Repr

/-- An event slot (R502) as it is written to the event ring. -/
structure EvtSlot where
  code   : BitVec 16
  time   : BitVec 64
  source : BitVec 16
  data   : List (BitVec 8)
  deriving DecidableEq, Repr

/-- A journal entry before it takes an index (R561), or a gap. -/
structure JEntry where
  time    : Time
  flags   : BitVec 8
  role    : BitVec 8
  session : BitVec 8
  source  : BitVec 8
  status  : BitVec 8
  opcode  : BitVec 16
  seq     : BitVec 16
  plen    : BitVec 16
  boot    : BitVec 32
  digest  : List (BitVec 8)
  deriving DecidableEq, Repr

/-- What a command in progress waits for (R504, R505). -/
inductive WaitFor where
  | journal
  | rffe (tile : Fin 8)
  | calbus
  | keySet
  | jErase
  | fwStage
  deriving DecidableEq, Repr

/-- The command in progress in a mailbox: its slot's identity, what it waits for, the answer it will get, the block a
CTRL_RSP carries, its journal entry and the events it has caused (R504 to R506, R513). -/
structure InProgress where
  opcode  : BitVec 16
  seq     : BitVec 16
  irq     : Bool
  rspData : Bool
  waits   : WaitFor
  status  : BitVec 8
  results : List (BitVec 8)
  block   : Option (Nat × Nat)
  entry   : Option JEntry
  events  : List EvtSlot
  session : BitVec 8
  role    : Role
  deriving DecidableEq, Repr

/-- A session handle (R557 to R559). -/
inductive Session where
  | free
  | awaiting (role : Role) (nonce : BitVec 128) (since : Nat)
  | opened (role : Role) (nonce : BitVec 128) (till : Nat)
  deriving DecidableEq, Repr

/-- Flash work of FW_STAGE (R516): the target slot, the next offset, the held first chunk, the pages still to program (flash
address and bytes), whether the chunk in hand is the FINAL one and whether the image has been verified. -/
structure StageRun where
  slotB   : Bool
  next    : Nat
  held    : List (BitVec 8)
  todo    : List (Nat × List (BitVec 8))
  final   : Bool
  checked : Bool
  deriving DecidableEq, Repr

/-- Causes of a Puppeteer boot (R519). -/
inductive BootCause where
  | boot | fwRestart | lockstep | watchdog
  deriving DecidableEq, Repr

/-- A boot of the Puppeteer in progress (R513, R517): its cause, the slot chosen, whether it is on trial, its start. -/
structure BootRun where
  cause    : BootCause
  slotB    : Bool
  trial    : Bool
  fallback : Bool
  start    : Nat
  fromWake : Bool
  deriving DecidableEq, Repr

/-- Flash work under way (R449, R516, R556, R565): a calibration store; a key record for a role in a slot (0 its sector is
being erased, 1 its body programmed, 2 its header); JOURNAL_ERASE with the sectors erased; the erase of a slot with the blocks
erased; the pages of a staged chunk. -/
inductive FlashJob where
  | none
  | calStore
  | keyRecord (slotB : Bool) (bytes : List (BitVec 8)) (role : Nat) (issuer : BitVec 8) (step : Nat)
  | journalErase (sectors : Nat)
  | stageErase (blocks : Nat)
  | stageWrite
  deriving DecidableEq, Repr

/-- An OTP public key slot (R566). -/
structure OtpKey where
  written : Bool
  failed  : Bool
  revoked : Bool
  key     : List (BitVec 8)
  deriving DecidableEq, Repr

/-- The one-time-programmable memory (R566 to R568): key slots, floor words in the order burnt, trim groups. Words of `floor` and
groups of `trim` that failed to verify are none. -/
structure OtpBlock where
  keys  : Vector OtpKey 4
  floor : List (Option (BitVec 32))
  trim  : List (BitVec 16 × Option (List (BitVec 8)))
  deriving DecidableEq, Repr

/-- The management processor, its host port registers and memories, sessions and journal. `jSector` is the journal sector
that is being erased ahead (R562), `jTorn` the JOURNAL_ERASE that power loss cut (R565). -/
structure PupBlock where
  ready     : Bool
  restarting : Bool
  recovery  : Bool
  lockstep  : Bool
  halted    : Bool
  frameErr  : Bool
  ringErr   : Bool
  irq       : BitVec 8
  irqEn     : BitVec 8
  evtWr     : BitVec 9
  evtRd     : BitVec 9
  evtLost   : BitVec 32
  evtUnrep  : Nat
  evtSent   : BitVec 9
  evtAcked  : List (BitVec 16 × BitVec 9 × Nat)
  mbCfg     : BitVec 4
  ctail     : Vector (BitVec 6) 4
  chead     : Vector (BitVec 6) 4
  busy      : Vector (Option InProgress) 4
  inCmd     : Bool
  heldEvts  : List EvtSlot
  restarts  : BitVec 16
  rejected  : BitVec 2
  mode      : BitVec 2
  cause     : BitVec 4
  slotB     : Bool
  fwVer     : BitVec 32
  boot      : Option BootRun
  faultTimes : List Nat
  stage     : Option StageRun
  job       : FlashJob
  fresh     : BitVec 2
  sessions  : Vector Session 8
  nonces    : Nat
  wrongMac  : Vector Nat 3
  lockout   : Vector (Option Nat) 3
  jNext     : BitVec 32
  jSector   : Option Nat
  jTorn     : Option JEntry
  jDropped  : BitVec 16
  jBuf      : List JEntry
  jGap      : Nat
  jBoot     : BitVec 32
  mbRam     : List (Nat × BitVec 8)
  pupMem    : List (Nat × BitVec 8)
  flash     : List (Nat × BitVec 8)
  miso      : List (BitVec 8)
  rdata     : BitVec 32
  deriving DecidableEq, Repr

/-! ### The machine -/

/-- Per-tile front-end resources. -/
structure TileRes where
  fem   : Fem
  orx   : Orx
  rffe  : Rffe
  det   : Detector
  pcnt  : PickCnt
  deriving DecidableEq, Repr

/-- The whole state of the block. `resetN` is the level of RESET_N; `free` indexes the free values of Config. -/
structure State where
  pending : List Instr
  free    : Nat
  resetN  : Bool
  time    : TimeBlock
  pup     : PupBlock
  clk     : ClkBlock
  paths   : Vector Path 64
  res     : Vector TileRes 8
  pick    : Vector PickGroup 8
  radio   : Vector Radio 8
  chan    : ChanBlock
  beam    : BeamBlock
  pd      : PdBlock
  an      : AnBlock
  aq      : AqBlock
  tdsp    : Vector Tdsp 8
  link    : LinkBlock
  dma     : DmaBlock
  cal     : CalBlock
  hk      : HkBlock
  pw      : PwBlock
  jtag    : Jtag
  otp     : OtpBlock
  deriving DecidableEq, Repr

/-! ### The state after reset

Every field at the value of the Reset column of its block; values the spec does not give are those of INVENTORY.md
'## State' and the assumption log. RESET_N is low and the supplies are present (log 3). -/

namespace Reset

def time : TimeBlock where
  ticks := 0
  dspRuns := false
  synced := false
  armed := none
  armEnd := none
  ppsLost := false
  measure := false
  epoch := 0
  polFalling := false
  edgeEvt := false
  ppsLast := none
  ppsReported := false
  ppsPhase := 0
  ppsFreq := 0
  ppsRejected := 0
  ppsAccepted := 0
  hiLatch := 0
  queues := Vector.replicate 9 { acts := [], lateCnt := 0 }
  nextHandle := 0
  outcomes := []
  windows := Vector.replicate 64
    { state := .free, openMode := .time 0, closeMode := .time 0, tag := 0, maxLen := 0, openT := none, closeT := none,
      tagged := 0, timeout := false, empty := false, deleted := false, freeAt := 0 }
  horizon := 2048

def path : Path where
  ctl := 30
  gainNow := 0
  portNow := false
  ovl := false
  ovlCnt := 0
  claimMute := false
  cbSource := false
  cbInjectA := false
  cbInjectB := false
  loopback := false
  coupling := none
  routeDelay := 0
  orxAtten := 0
  orxSettle := 983

def res : TileRes where
  fem := { pats := Vector.replicate 10 0, cfg := (100#32 <<< 19) ||| (200#32 <<< 8), sel := Vector.replicate 3 none }
  orx := { sel := 0, atten := 0, settle := 983, user := .none, busy := false, startAt := none, endAt := none,
           reqCal := none, reqKern := none, fed := false, cnt := 0 }
  rffe := { listOp := false, divWr := 38, divRd := 76, seq := [], seqStart := none, seqLeft := 0, seqOver := false, run := none, queue := [],
            parity := 0, overrun := 0 }
  det := { enabled := false, beam := 0, half := 0, thr := 0x8000, evt := false, template := [], deadTill := 0, line := [], cnt := 0,
           busy := 0 }
  pcnt := { a := 0, b := 0, abort := 0, void := 0 }

def pick : PickGroup where
  tiles := 0
  home := false
  bias := 4
  hold := 983040
  enabled := false
  mode := .auto
  latOk := true
  phase := .idle

def radio : Radio where
  state := .off
  transit := none
  use := .out
  apHomeRx := true
  burst := none
  ending := none
  leadAt := none
  lagEnd := none
  txPat := none
  fc := 0
  fcSet := false
  band := 800000000
  retune := .none
  next := none
  log := []
  settles := []
  lo := none
  large := 0
  glides := 0
  held := 0
  discarded := 0
  fallback := 0
  overbudget := 0
  settleLast := 0
  fcHiLatch := 0

def narrow : Narrow where
  accI := [0, 0, 0, 0]
  accQ := [0, 0, 0, 0]
  comI := [0, 0, 0, 0]
  comQ := [0, 0, 0, 0]
  fir := []
  settle := none
  suspect := none
  sat := none

def rxChain : RxChain where
  count := 0
  hb1 := []
  fd := []
  hb2 := []
  hb3 := []
  out := { val := (0, 0), fl := 0 }
  outAt := -1
  ports := []
  portWas := false
  portFor := 0
  attWas := 30
  attFor := 0
  pwr := []
  elem := narrow

def txChain : TxChain where
  hb3 := []
  hb2 := []
  fd := []
  hb1 := []
  cfr0 := []
  cfr1 := []
  cfr2 := []
  live := []
  fix := []
  dac := []
  dacAt := 0
  pwr := []
  elem := narrow

def chan : ChanBlock where
  rxPreset := 1
  txPreset := 1
  railPreset := 2
  diodePreset := 2
  satRx := Vector.replicate 64 0
  satTx := Vector.replicate 64 0
  rx := Vector.replicate 64 rxChain
  tx := Vector.replicate 64 txChain

/-- Reset value of a beam configuration, the default of BEAM_CFG too (R169). -/
def beamCfg (b : Nat) : BeamCfg where
  enable := false
  rate := 0
  preset := 1
  format := 0
  flow := BitVec.ofNat 6 b
  freq := 0
  shift := 0

def bank : Bank where
  element := false
  delays := Vector.replicate 64 0
  weights := []
  beams := Vector.ofFn (fun b => beamCfg b.val)
  txShift := 0
  elem := { rate := 0, preset := 1, format := 0, flows := Vector.ofFn (fun n => BitVec.ofNat 6 n.val) }

def beamDir : BeamDir where
  active := bank
  shadow := bank
  phys := false
  lock := none
  past := []
  sat := Vector.replicate 32 0
  nb := Vector.replicate 32 narrow
  validAt := Vector.replicate 32 0
  elemAt := 0

def beam : BeamBlock where
  rx := beamDir
  tx := beamDir
  aper := 0
  swapAt := 0
  hiLatch := 0
  swaps := []
  txpSat := Vector.replicate 64 0
  txUfl := Vector.replicate 32 0
  txLate := Vector.replicate 32 0
  uflSeen := 0
  input := Vector.replicate 64 []
  staged := Vector.replicate 32 []
  outq := Vector.replicate 32 []
  txNext := Vector.replicate 32 0
  rxAt := -1
  txAt := -1

def pd : PdBlock where
  chain := false
  tiles := Vector.replicate 8
    { next := 0, estBusy := none, stale := false, capBusy := none, capBroken := false, cap := [], throttle := false,
      reload := false, gate := 0x0A3C0C48, timing := (50#32 <<< 16) ||| 1966#32, limit := 0x081E0A0A,
      est := (128#32 <<< 24) ||| (1000#32 <<< 8) ||| 5#32, cfr := 40, pulse := none, pulseFor := 800000000, regen := false }
  paths := Vector.replicate 64
    { pdEn := false, cfrEn := false, adaptEn := false, evtSwap := false, nb1 := 0xFF, nb2 := 0xFF, nbNew := none,
      state := .off, consecRej := 0, lastRej := 0, active := [(0, 0x2000#32)], pending := none, past := [], swaps := 0,
      accepted := 0, dPower := 0, dCrest := 0, dNeigh := 0, dOvl := 0, dInter := 0, dStale := 0, dReject := 0,
      nmse := 0x8000, cfrResid := 0, satPd := 0, statsN := 0, lastAcc := 0, frozenAt := 0 }

/-- Defaults of the analyser settings of R211 to R235 at the default size N = 1,024, whose valid band is bins −416 to
416 (R213). -/
def anCfg : AnCfg where
  lane := { tap := false, path := 0, portB := false, z := 2, window := 3, overlap := 2, dbm := false }
  outs := Vector.replicate 4 none
  masks := Vector.replicate 4 none
  dens := { b0 := 0, c := 0, top := 0, step := 32, flow := 0xFF }

def densBank : DensBank where
  cells := []
  frames := 0
  first := 0
  last := 0
  flags := 0

def anSource : AnSource where
  cfg := anCfg
  staged := anCfg
  dirty := false
  throttled := 0
  refOffset := 0
  last := []
  lastAt := 0
  blankLast := 0
  frames := 0
  blanked := 0
  masks := Vector.replicate 4 { entered := false, run := 0, prev := none, a := none, b := none, enters := 0 }
  traces := Vector.replicate 4 { seen := 0, incl := 0, bins := [], start := 0, slot := 0, seqNo := 0, flags := 0 }
  density := densBank
  finished := none
  bank := false
  sat := false
  satSeen := false
  swapReq := none
  nextFrame := 0
  line := []
  gains := []
  recent := []
  old := none
  iqFlow := none
  iqFormat := 0

def an : AnBlock where
  src := Vector.replicate 9 anSource
  stitch := { members := 0, f0 := 0, z := 0, j := 0, fc := Vector.replicate 8 0, announced := false }

def aqChan : AqChan where
  state := .idle
  cfgd := false
  kind := 0
  index := 0
  segment := 0
  unit := 0
  pre := 0
  post := 1024
  f12 := false
  ring := false
  envelope := true
  spectra := true
  meas := true
  bt := 10
  stream := none
  cap := 0
  guard := 0
  postS := 0
  armAt := 0
  window := none
  closedAt := none
  slot := 0
  fill := 0
  fillN := 0
  recNo := 0
  records := 0
  missed := 0
  short := 0
  deadMax := 0
  deadLast := 0
  endT := 0
  newest := 0
  deadHdr := 0
  missN := 0
  missT := 0
  record := none
  next := .armed
  recFlags := 0
  recSlot := 0
  lastHdr := 0
  samples := []

def aq : AqBlock where
  levels := Vector.replicate 16
    { enabled := false, kind := 0, index := 0, w := 4, thr := BitVec.ofInt 16 (-1920), hys := 192, falling := false,
      dwell := 1, line := [], armed := false, run := 0, prev := none, a := (0, 0), b := (0, 0), due := [] }
  units := Vector.replicate 16
    { aCode := 0, aIdx := 0, bCode := 0, bIdx := 0, op := 0, limit := 983040, holdoff := 0, evt := false, inbox := [],
      as := [], bs := [], ignore := none, cnt := 0, hzn := 2048 }
  trigIn := Vector.replicate 4 { edges := 0, last := none, closeN := 0 }
  trigOut := Vector.replicate 4
    { route := false, kind := 0, index := 0, low := false, width := 98, level := false, pulse := none }
  segments := Vector.replicate 64 none
  chans := Vector.replicate 16 aqChan
  retain := 0
  store := []

def tdsp : Tdsp where
  state := .empty
  image := none
  load := none
  d := Vector.replicate 16 0
  accI := Vector.replicate 8 0
  accQ := Vector.replicate 8 0
  p := Vector.replicate 8 0
  m := Vector.replicate 8 0
  l := Vector.replicate 8 0
  b := Vector.replicate 8 0
  lc := Vector.replicate 2 0
  ls := Vector.replicate 2 0
  le := Vector.replicate 2 0
  scale := 0
  status := 0
  imask := 0
  iret := 0
  pc := 0
  flight := []
  curC := []
  issuedC := false
  loopDue := false
  stall := .none
  bfpMax := 0
  wbuf := []
  xm := []
  ym := []
  pm := []
  dbell := 0
  dbPend := false
  lastDb := 0
  timer := 0
  timerAt := 0
  timeHi := 0
  fill := Vector.replicate 2 0
  fillSub := Vector.replicate 2 0
  capBusy := false
  capDone := false
  capRef := false
  capBank := 0
  pend := 0
  msgs := []
  msgSeq := 0
  msgLost := 0
  diRun := 0
  cause := 0
  faultPc := 0
  faults := 0
  estStops := 0
  msgDrop := 0
  longDi := 0

def prbs : Prbs where
  genEn := false
  genPat := 0
  chkEn := false
  chkPat := 0
  sync := false
  reached := false
  good := 0
  seed := []
  window := []
  err := 0
  bits := 0
  hiLatch := 0
  burst := 0
  repeat_ := 0
  injBits := 0

def lane : Lane where
  role := .offline
  pstate := .ragdoll
  target := none
  started := false
  failRep := false
  exitAt := none
  bringAt := 0
  eqFrozen := false
  inverted := false
  logical := 0
  skew := 0
  deskewed := false
  orderOk := false
  polOk := false
  lock := false
  cdr := false
  fail := 0
  slips := 0
  hdrRun := 0
  slipN := 0
  slipDue := none
  recent := []
  invHdr := 0
  lockLoss := 0
  downs := 0
  freezes := 0
  density := 0
  lostAt := none
  fails := 0
  downAt := []
  loop := .none
  prbs := prbs
  presets := Vector.replicate 4 3
  preset := 3
  eq := List.replicate 6 0
  scr := 0

def rxFlow : RxFlow where
  src := .none
  charge := 0
  shed := false
  prio := 4
  lenMax := 8192
  seq := 0
  restart := true
  pend := none
  ready := []
  rebound := none

def txFlow : TxFlow where
  src := .none
  charge := 0
  shed := false
  prio := 4
  lenMax := 8192
  seq := 0
  limit := 0
  count := 0
  buf := 0
  freed := 0
  creditAt := 0
  due := false
  restart := true
  overrun := 0
  gap := 0
  badfmt := 0
  ovrSeen := false

def link : LinkBlock where
  lanes := Vector.replicate 16 lane
  rate := 3
  minLanes := 16
  auto := true
  manual := false
  timeout := 100
  swing := 8
  active := 0
  rxActive := 0
  farActive := 0
  nearGood := 0
  farGood := 0
  up := false
  start := []
  shedCnt := 0
  streamLost := 0
  markAt := 0
  idleAt := 0
  relSeq := 0
  relRx := 0
  held := []
  waiting := []
  replays := 0
  naks := 0
  nakFor := none
  ackDue := none
  unacked := 0
  flushed := 0
  crcErr := 0
  framing := 0
  unexp := 0
  evtRoute := true
  replayT := 19661
  holdMs := 10000
  memTo := 983040
  reads := []
  memTouts := 0
  memFaults := 0
  memLate := 0
  rxFlows := Vector.replicate 64 rxFlow
  txFlows := Vector.replicate 64 txFlow
  out := []
  laid := 0
  admitUp := false
  rows := []

def dma : DmaBlock where
  chans := Vector.replicate 64
    { state := .idle, configured := false, ring := false, base := 0, len := 1, head := 0, tail := 0, burst := 16,
      uses := 0, rate := 0, paced := false, paceT := 0, paceQ := false, high := 1024, low := 1023, boundT := none,
      evtEn := false, req := false, cause := 0, countOk := true, rlenIgn := false, cu := none, desc := 0, bytes := 0,
      doneCnt := 0, fenceMax := 0, fenceLast := 0, killed := false, run := none, nextAt := 0 }
  units := Vector.replicate 8
    { crc := 0, owner := none, reg := 0, seed := 0, result := 0, valid := false, bytes := 0 }

def clk : ClkBlock where
  plls := Vector.replicate 16
    { lock := false, fault := false, relocked := false, attempts := 0, planned := false, busy := false,
      retryAt := none, suspect := none, losses := 0, retries := 0 }
  refOk := false
  fbosc := false
  mgmtSafe := true
  dspSafe := true
  conv := Vector.replicate 8 { en := true, div := 0, delay := 0, trim := Vector.replicate 4 0, now := 0, stepAt := 0 }
  syncComp := 0
  edge := none
  loadedV := 0
  edges := 0
  rejected := 0
  drift := false
  syncErr := 0
  period := 0
  limit := 64
  lockmon := 6
  refSrc := false

def cal : CalBlock where
  tiles := Vector.replicate 8
    { pending := [], running := none, placed := [], claim := none, temp := 2560, ended := 0, done := 0, claims := 0 }
  values := []
  tempE := 2560
  bus := .free
  gapMask := BitVec.allOnes 64
  claimLim := 1000
  refPath := 0
  level := BitVec.ofInt 8 (-10)
  capUf := 0
  capSet := false
  vmin := 0
  divider := 0
  ePage := 100
  eErase := 5000
  offA := 0x60
  offB := 0x64
  rangeMin := BitVec.ofInt 8 (-25)
  rangeMax := 95
  rangeEn := true
  store := none
  pagesN := 0
  last := 0
  factory := false
  slotB := false
  seq := 0
  energy := 0
  volt := 0
  vhold := 0
  kinds := 0

def trip : Trip where
  tripped := false
  run := 0

def hkFilter : HkFilter where
  acc := [0, 0, 0, 0]
  com := [0, 0, 0, 0]
  n := 0
  out := 0

def hk : HkBlock where
  regions := Vector.replicate 12
    { est := 0x8000, diode := 0x8000, nodeS := 0, nodeH := 0, seen := false, pwr := 0, warn := trip, throttle := trip,
      shut := trip, wasShut := false, bigE := 0, fault := false, procCnt := 0, procDev := 0, evalAt := 0,
      diodeF := hkFilter, powerF := hkFilter }
  rails := Vector.replicate 10 { state := .ok, mv := 0, run := 0, runF := 0, filter := hkFilter }
  bias := 0
  rha := 500
  ch := 200
  ta := 2560
  diverge := 0
  throttle := false
  warned := false
  order := [1, 2, 3, 4, 5]
  interval := 20
  applied := []
  stepAt := 0
  reverting := false
  duty := 50
  capCnt := 0
  txLog := Vector.replicate 8 []
  halved := false
  shutdown := false
  cut := 0
  shutAt := 0
  halt := false
  bandSel := false
  tileBand := Vector.replicate 8 3
  linkBand := 3
  dramBand := 3
  vstat := 0
  warns := 0
  throttles := 0
  shutdowns := 0
  diverges := 0
  roundAt := 0

def pw : PwBlock where
  dev := .active
  entry := none
  wake := none
  wakeLatch := none
  parked := 0
  unparking := 0
  tileOn := 0xFF
  beamOn := true
  anlzOn := true
  acqOn := true
  linkOn := true
  dramSr := false
  refusals := 0
  reason := 0
  refBlock := 0
  retain := 0
  wakeCnt := 0
  retried := 0
  failed := false
  failStep := 0
  source := 0
  prev := 0
  timerEn := false
  pinEn := true
  timer := 0
  sleepCnt := 0
  slept := 0
  lanesOn := 0
  enteredAt := 0
  held := 0
  femLatch := Vector.replicate 8 0
  trigLatch := 0
  lockLatch := false
  bank7Ok := false
  vddio := true
  padsReset := true

def pup : PupBlock where
  ready := false
  restarting := false
  recovery := false
  lockstep := false
  halted := false
  frameErr := false
  ringErr := false
  irq := 0
  irqEn := 0
  evtWr := 0
  evtRd := 0
  evtLost := 0
  evtUnrep := 0
  evtSent := 0
  evtAcked := []
  mbCfg := 0xC
  ctail := Vector.replicate 4 0
  chead := Vector.replicate 4 0
  busy := Vector.replicate 4 none
  inCmd := false
  heldEvts := []
  restarts := 0
  rejected := 0
  mode := 0
  cause := 0
  slotB := false
  fwVer := 0
  boot := none
  faultTimes := []
  stage := none
  job := .none
  fresh := 0
  sessions := Vector.replicate 8 .free
  nonces := 0
  wrongMac := Vector.replicate 3 0
  lockout := Vector.replicate 3 none
  jNext := 0
  jSector := none
  jTorn := none
  jDropped := 0
  jBuf := []
  jGap := 0
  jBoot := 0
  mbRam := []
  pupMem := []
  flash := []
  miso := []
  rdata := 0

def otp : OtpBlock where
  keys := Vector.replicate 4 { written := false, failed := false, revoked := false, key := [] }
  floor := []
  trim := []

def jtag : Jtag where
  trstLow := true
  ir := 2
  boundary := 0
  captured := 0

end Reset

/-- The machine right after reset: the supplies present, RESET_N still low, no command waiting. -/
def State.reset : State where
  pending := []
  free := 0
  resetN := false
  time := Reset.time
  pup := Reset.pup
  clk := Reset.clk
  paths := Vector.replicate 64 Reset.path
  res := Vector.replicate 8 Reset.res
  pick := Vector.replicate 8 Reset.pick
  radio := Vector.replicate 8 Reset.radio
  chan := Reset.chan
  beam := Reset.beam
  pd := Reset.pd
  an := Reset.an
  aq := Reset.aq
  tdsp := Vector.replicate 8 Reset.tdsp
  link := Reset.link
  dma := Reset.dma
  cal := Reset.cal
  hk := Reset.hk
  pw := Reset.pw
  jtag := Reset.jtag
  otp := Reset.otp

end Sys2Proof.Machine
end

