-- ==== Sys2Proof/Machine/Ops.lean ====
section
/-! DEFINITION. Operations shared by the commands: fields of vectors and sparse memories, bytes, check codes and hashes,
pass-window sets, the event ring, the reliable class and the service of a mailbox command. -/

namespace Sys2Proof.Machine

/-- What a meaning answers. -/
abbrev Out := Host.Outcome State Fault Refusal

/-! ### Vectors and small numbers -/

/-- Change one element of a vector. -/
def vmod {α : Type} {n : Nat} (v : Vector α n) (i : Fin n) (f : α → α) : Vector α n :=
  v.set i.val (f (v.get i)) i.isLt

/-- Change every element of a vector by its index. -/
def vmap {α : Type} {n : Nat} (v : Vector α n) (f : Fin n → α → α) : Vector α n :=
  Vector.ofFn (fun i => f i (v.get i))

/-- The index of number `k` in a vector of n elements, where it has one. -/
def fin? (n k : Nat) : Option (Fin n) := if h : k < n then some ⟨k, h⟩ else none

/-- A saturating counter of w bits counts k more. -/
def satAdd {w : Nat} (x : BitVec w) (k : Nat) : BitVec w := BitVec.ofNat w (min (x.toNat + k) (2 ^ w - 1))

/-- Clamp an integer to [lo, hi]. -/
def clampI (lo hi x : Int) : Int := max lo (min hi x)

/-- The lowest value of 32 bits that a counter wider than its register shows (saturating). -/
def sat32 (n : Nat) : Nat := min n (2 ^ 32 - 1)

/-- Division of integers rounding towards minus infinity, of a numerator by a positive number. -/
def fdivI (a : Int) (b : Nat) : Int := Int.fdiv a (Int.ofNat b)

/-- An exact quotient as an integer; between two integers Config says which (log 21). -/
def ratI (num : Int) (den : Nat) : Int :=
  let f := fdivI num den
  if num = f * den then f else f + (if Config.roundUp num.natAbs den then 1 else 0)

/-- The quotient of naturals rounded up. -/
def cdiv (a b : Nat) : Nat := (a + b - 1) / b

/-- The bits of a mask as a list of the indices that are 1, lowest first. -/
def maskBits (n m : Nat) : List (Fin n) := (List.finRange n).filter (fun i => m.testBit i.val)

/-- A mask of the indices of which p holds. -/
def maskOf (n : Nat) (p : Fin n → Bool) : Nat :=
  ((List.finRange n).filter (fun i => p i)).foldl (fun a i => a + 2 ^ i.val) 0

/-- Bits [hi:lo] of a number. -/
def bitsOf (x hi lo : Nat) : Nat := (x / 2 ^ lo) % 2 ^ (hi + 1 - lo)

/-- 1 for true. -/
def b2n (b : Bool) : Nat := if b then 1 else 0

/-! ### Bytes -/

/-- The n bytes of a number, least significant first (R5). -/
def le : Nat → Nat → List Byte
  | 0, _ => []
  | n + 1, v => BitVec.ofNat 8 v :: le n (v / 256)

/-- The n bytes of an integer in two's complement. -/
def leI (n : Nat) (v : Int) : List Byte := le n (v % (2 ^ (8 * n) : Nat)).toNat

/-- The bytes of a field of a layout. -/
def pb {w : Nat} (x : BitVec w) : List Byte := le (w / 8) x.toNat

/-- The number that bytes spell, least significant first. -/
def unle : List Byte → Nat
  | [] => 0
  | b :: bs => b.toNat + 256 * unle bs

/-- The number that bytes spell, most significant first. -/
def unbe (bs : List Byte) : Nat := unle bs.reverse

/-- n bytes, most significant first. -/
def be (n v : Nat) : List Byte := (le n v).reverse

/-- A list of exactly n bytes: cut, or filled with 0. -/
def padTo (n : Nat) (bs : List Byte) : List Byte := (bs ++ List.replicate (n - bs.length) 0).take n

/-- Cut a list of words of k bytes each, at most n of them. -/
def chunks (k : Nat) : Nat → List Byte → List (List Byte)
  | 0, _ => []
  | n + 1, bs => bs.take k :: chunks k n (bs.drop k)

/-! ### Sparse memories

A memory is a list of (address, value) pairs, addresses rising, no value equal to the default `d` of an unlisted
address. -/

/-- The value at an address. -/
def memGet {α : Type} (d : α) : List (Nat × α) → Nat → α
  | [], _ => d
  | (k, v) :: m, a => if a = k then v else if a < k then d else memGet d m a

/-- Write a value at an address, keeping the canonical form. -/
def memSet {α : Type} [DecidableEq α] (d : α) : List (Nat × α) → Nat → α → List (Nat × α)
  | [], a, v => if v = d then [] else [(a, v)]
  | (k, w) :: m, a, v =>
    if a < k then (if v = d then (k, w) :: m else (a, v) :: (k, w) :: m)
    else if a = k then (if v = d then m else (a, v) :: m)
    else (k, w) :: memSet d m a v

/-- The values at n addresses from a. -/
def memRead {α : Type} (d : α) (m : List (Nat × α)) (a : Nat) : Nat → List α
  | 0 => []
  | n + 1 => memGet d m a :: memRead d m (a + 1) n

/-- Write values at addresses from a on. -/
def memWrite {α : Type} [DecidableEq α] (d : α) (m : List (Nat × α)) (a : Nat) : List α → List (Nat × α)
  | [] => m
  | v :: vs => memWrite d (memSet d m a v) (a + 1) vs

/-- Whether every address of a list lies above a. -/
def keysAbove {α : Type} (a : Nat) : List (Nat × α) → Bool
  | [] => true
  | (k, _) :: m => decide (a < k) && keysAbove a m

/-- The canonical form of a memory. -/
def Memory.wf {α : Type} [DecidableEq α] (d : α) : List (Nat × α) → Bool
  | [] => true
  | (k, v) :: m => decide (v ≠ d) && keysAbove k m && Memory.wf d m

/-- Remove the cells at addresses from a (included) to b (excluded). -/
def memClear {α : Type} (m : List (Nat × α)) (a b : Nat) : List (Nat × α) :=
  m.filter (fun c => decide (c.1 < a) || decide (b ≤ c.1))

/-! ### Check codes (R405) -/

/-- One bit of a reflected CRC of 32 bits whose polynomial is `p` with its bits reversed. -/
def crcBit (p r : BitVec 32) : BitVec 32 := if r.getLsbD 0 then (r >>> 1) ^^^ p else r >>> 1

/-- One byte of a reflected CRC. -/
def crcByte (p r : BitVec 32) (b : Byte) : BitVec 32 :=
  let r := r ^^^ b.setWidth 32
  crcBit p (crcBit p (crcBit p (crcBit p (crcBit p (crcBit p (crcBit p (crcBit p r)))))))

/-- One byte of CRC-16/CCITT, most significant bit first, in the low 16 bits of a register of 32. -/
def crc16Byte (r : BitVec 32) (b : Byte) : BitVec 32 :=
  let one (r : BitVec 32) : BitVec 32 :=
    (if r.getLsbD 15 then (r <<< 1) ^^^ 0x1021#32 else r <<< 1) &&& 0xFFFF#32
  one (one (one (one (one (one (one (one (r ^^^ (b.setWidth 32 <<< 8)))))))))

/-- The register of a check unit after a byte, by CRC code: 0 CRC-32C, 1 CRC-32, 2 CRC-16. -/
def cuByte (code : BitVec 2) (r : BitVec 32) (b : Byte) : BitVec 32 :=
  if code = 0 then crcByte 0x82F63B78 r b else if code = 1 then crcByte 0xEDB88320 r b else crc16Byte r b

/-- Initial value of a check unit for a fold. -/
def cuInit (code : BitVec 2) (fold : BitVec 32) : BitVec 32 :=
  if code = 2 then 0xFFFF#32 ^^^ (fold &&& 0xFFFF#32) else 0xFFFFFFFF#32 ^^^ fold

/-- The result of a check unit: the register with the final XOR. -/
def cuResult (code : BitVec 2) (r : BitVec 32) : BitVec 32 := if code = 2 then r else r ^^^ 0xFFFFFFFF#32

/-- CRC-32C over bytes, folded (R405). -/
def crc32c (fold : BitVec 32) (bs : List Byte) : BitVec 32 :=
  cuResult 0 (bs.foldl (cuByte 0) (cuInit 0 fold))

/-! ### SHA-256, HMAC and ECDSA P-256

The spec names these functions (R498, R555, R557, R561, R566); their definitions are the public standards (log 12). -/

/-- Cut a number of n words of 32 bits, the most significant word first. -/
def words32 : Nat → Nat → List (BitVec 32)
  | 0, _ => []
  | n + 1, x => words32 n (x / 2 ^ 32) ++ [BitVec.ofNat 32 x]

/-- Round constants, four of them to a number. -/
def shaK : List (BitVec 32) :=
  (0x428a2f9871374491b5c0fbcfe9b5dba5 ::
   0x3956c25b59f111f1923f82a4ab1c5ed5 ::
   0xd807aa9812835b01243185be550c7dc3 ::
   0x72be5d7480deb1fe9bdc06a7c19bf174 ::
   0xe49b69c1efbe47860fc19dc6240ca1cc ::
   0x2de92c6f4a7484aa5cb0a9dc76f988da ::
   0x983e5152a831c66db00327c8bf597fc7 ::
   0xc6e00bf3d5a7914706ca635114292967 ::
   0x27b70a852e1b21384d2c6dfc53380d13 ::
   0x650a7354766a0abb81c2c92e92722c85 ::
   0xa2bfe8a1a81a664bc24b8b70c76c51a3 ::
   0xd192e819d6990624f40e3585106aa070 ::
   0x19a4c1161e376c082748774c34b0bcb5 ::
   0x391c0cb34ed8aa4a5b9cca4f682e6ff3 ::
   0x748f82ee78a5636f84c878148cc70208 ::
   0x90befffaa4506cebbef9a3f7c67178f2 ::
   ([] : List Nat)).flatMap (words32 4)

/-- The hash of no block. -/
def shaInit : List (BitVec 32) := words32 8 0x6a09e667bb67ae853c6ef372a54ff53a510e527f9b05688c1f83d9ab5be0cd19

/-- Exclusive or of a word turned right by two amounts and a third word: the mixing functions of the schedule and the rounds. -/
def shaMix (x : BitVec 32) (i j : Nat) (y : BitVec 32) : BitVec 32 := x.rotateRight i ^^^ x.rotateRight j ^^^ y

/-- Word t of the message schedule: those of the block, then sums over earlier ones, which `w` holds newest first. -/
def shaWord (w : List (BitVec 32)) : BitVec 32 :=
  let ago := fun (k : Nat) => w.getD (k - 1) 0
  shaMix (ago 15) 7 18 (ago 15 >>> 3) + shaMix (ago 2) 17 19 (ago 2 >>> 10) + ago 7 + ago 16

/-- The schedule grown by n words, newest first. -/
def shaGrow : Nat → List (BitVec 32) → List (BitVec 32)
  | 0, w => w
  | n + 1, w => shaGrow n (shaWord w :: w)

/-- One round on the eight working words: the sum that enters both halves, and the two words that take it. -/
def shaRound (v : List (BitVec 32)) (kw : BitVec 32) : List (BitVec 32) :=
  let at_ := fun (k : Nat) => v.getD k 0
  let choose := at_ 6 ^^^ (at_ 4 &&& (at_ 5 ^^^ at_ 6))
  let most := (at_ 0 &&& (at_ 1 ||| at_ 2)) ||| (at_ 1 &&& at_ 2)
  let low := at_ 7 + kw + choose + shaMix (at_ 4) 6 11 ((at_ 4).rotateRight 25)
  (low + most + shaMix (at_ 0) 2 13 ((at_ 0).rotateRight 22)) :: v.take 3 ++ (at_ 3 + low) :: (v.drop 4).take 3

/-- One block of 64 bytes. -/
def shaBlock (h : List (BitVec 32)) (blk : List Byte) : List (BitVec 32) :=
  let w := shaGrow 48 (words32 16 (unbe blk)).reverse
  List.zipWith (fun x y => x + y) h ((List.zipWith (fun x y => x + y) shaK w.reverse).foldl shaRound h)

/-- SHA-256 of bytes. -/
def sha256 (bs : List Byte) : List Byte :=
  let total := (bs.length + 72) / 64
  let tail := be 8 (8 * bs.length)
  let full := padTo (64 * total - 8) (bs ++ [0x80#8]) ++ tail
  ((chunks 64 total full).foldl shaBlock shaInit).flatMap (fun x => be 4 x.toNat)

/-- HMAC-SHA-256. -/
def hmac (key msg : List Byte) : List Byte :=
  let k := padTo 64 (if key.length > 64 then sha256 key else key)
  sha256 (k.map (fun b => b ^^^ 0x5C#8) ++ sha256 (k.map (fun b => b ^^^ 0x36#8) ++ msg))

/-- Byte-wise exclusive or. -/
def xorBytes (a b : List Byte) : List Byte := List.zipWith (fun x y => x ^^^ y) a b

/-- The prime, order and coefficients of P-256. -/
def p256p : Nat := 2 ^ 256 - 2 ^ 224 + 2 ^ 192 + 2 ^ 96 - 1
def p256n : Nat := 0xffffffff00000000ffffffffffffffffbce6faada7179e84f3b9cac2fc632551
def p256b : Nat := 0x5ac635d8aa3a93e7b3ebbd55769886bc651d06b0cc53b0f63bce3c3e27d2604b
def p256g : Nat × Nat := (0x6b17d1f2e12c4247f8bce6e563a440f277037d812deb33a0f4a13945d898c296,
  0x4fe342e2fe1a7f9b8ee7eb4a7c0f9e162bce33576b315ececbb6406837bf51f5)

/-- Modular power by squaring, over the k low bits of the exponent. -/
def powMod (m : Nat) : Nat → Nat → Nat → Nat
  | 0, _, _ => 1
  | k + 1, a, e =>
    let r := powMod m k (a * a % m) (e / 2)
    if e % 2 = 1 then r * a % m else r

/-- Modular inverse for a prime modulus. -/
def invMod (m a : Nat) : Nat := powMod m 256 (a % m) (m - 2)

/-- Whether a point lies on P-256. -/
def p256On (x y : Nat) : Bool :=
  decide (x < p256p) && decide (y < p256p) && (y * y % p256p == (x * x * x + 3 * (p256p - x) + p256b) % p256p)

/-- Sum of two points of P-256, none being the point at infinity. -/
def p256Add (a b : Option (Nat × Nat)) : Option (Nat × Nat) :=
  match a, b with
  | none, q => q
  | q, none => q
  | some (x1, y1), some (x2, y2) =>
    if x1 = x2 ∧ (y1 + y2) % p256p = 0 then none
    else
      let l := if x1 = x2 then (3 * x1 * x1 + (p256p - 3)) * invMod p256p (2 * y1) % p256p
        else (y2 + (p256p - y1)) * invMod p256p (x2 + (p256p - x1)) % p256p
      let x3 := (l * l + 2 * p256p - x1 - x2) % p256p
      some (x3, (l * (x1 + p256p - x3) + p256p - y1) % p256p)

/-- A multiple of a point, over the k low bits of the factor. -/
def p256Mul : Nat → Nat → Option (Nat × Nat) → Option (Nat × Nat)
  | 0, _, _ => none
  | k + 1, e, q =>
    let r := p256Mul k (e / 2) (p256Add q q)
    if e % 2 = 1 then p256Add r q else r

/-- Whether an ECDSA P-256 signature (r, then s, most significant byte first) over a message verifies (R566). -/
def ecdsaOk (key msg sig : List Byte) : Bool :=
  let r := unbe (sig.take 32)
  let s := unbe ((sig.drop 32).take 32)
  let z := unbe (sha256 msg)
  if r = 0 ∨ p256n ≤ r ∨ s = 0 ∨ p256n ≤ s then false
  else
    let w := invMod p256n s
    match p256Add (p256Mul 256 (z * w % p256n) (some p256g))
        (p256Mul 256 (r * w % p256n) (some (unbe (key.take 32), unbe ((key.drop 32).take 32)))) with
    | none => false
    | some (x, _) => x % p256n == r

/-! ### Statuses (R526) -/

def stDone : BitVec 8 := 0x00
def stAccepted : BitVec 8 := 0x01
def stBusy : BitVec 8 := 0x10
def stDenied : BitVec 8 := 0x11
def stBadParam : BitVec 8 := 0x12
def stBadState : BitVec 8 := 0x13
def stNoResource : BitVec 8 := 0x14
def stLate : BitVec 8 := 0x15
def stImplausible : BitVec 8 := 0x16
def stHoldupLow : BitVec 8 := 0x17
def stTemp : BitVec 8 := 0x18
def stAborted : BitVec 8 := 0x19
def stNotLocked : BitVec 8 := 0x1A
def stInternal : BitVec 8 := 0x1F

/-! ### Time and window sets -/

/-- Device time as a full time (R36). -/
def State.nowT (s : State) : Time := s.time.ticks * 256

/-- A sum of times as the 72 bits of device time hold it (R36, R38). -/
def time72 (t : Nat) : Time := t % 2 ^ 72

/-- Whether a window that is not FREE contains a time (R56). A close that no edge has set yet bounds nothing. -/
def Window.holds (w : Window) (t : Time) : Bool :=
  (match w.state with
   | .free => false
   | _ => true) && !w.empty &&
  (match w.openT with
   | none => false
   | some o => decide (o ≤ t)) &&
  (match w.closeT with
   | none => true
   | some c => decide (t < c))

/-- The window set of an item's time (R62), by the windows in force now (R63). -/
def State.windowSet (s : State) (t : Time) : Nat := maskOf 64 (fun n => (s.time.windows.get n).holds t)

/-- Count an event in the windows that tag it (R60). The spec gives the count 32 bits and does not say what it does past them:
here it wraps (log 82). -/
def State.tagWindows (s : State) (set : Nat) : State :=
  { s with time.windows := vmap s.time.windows (fun n w => if set.testBit n.val then { w with tagged := w.tagged + 1 } else w) }

/-! ### The event ring (R510, R511) -/

/-- Slots of the event ring that are not released. -/
def PupBlock.evtUsed (p : PupBlock) : Nat := (p.evtWr - p.evtRd).toNat

/-- The events that may use the last 8 slots (R511). -/
def evtReserved (code : Nat) : Bool :=
  [0x0710, 0x0704, 0x0110, 0x0113, 0x0903, 0x0904, 0x0911, 0x0102].contains code

/-- The 32 bytes of an event slot (R502, R550). -/
def EvtSlot.bytes (e : EvtSlot) : List Byte :=
  le 2 e.code.toNat ++ le 8 e.time.toNat ++ le 2 e.source.toNat ++ padTo 20 e.data

/-- Write a slot at HP_EVT_WR and set HP_IRQ.EVT, and HP_IRQ.UP for PUPPETEER_UP. -/
def PupBlock.putEvt (p : PupBlock) (e : EvtSlot) : PupBlock :=
  { p with
    mbRam := memWrite 0 p.mbRam (0x3000 + (p.evtWr.toNat % 256) * 32) e.bytes
    evtWr := p.evtWr + 1
    irq := p.irq ||| 0x10#8 ||| (if e.code = 0x0102#16 then 0x20#8 else 0#8) }

/-- Count an event dropped or overwritten. -/
def PupBlock.loseEvt (p : PupBlock) : PupBlock :=
  { p with evtLost := satAdd p.evtLost 1, evtUnrep := p.evtUnrep + 1 }

/-- The slot of an event: its code, SOURCE, instant, the window set at that instant and its own data. -/
def State.mkEvt (s : State) (code src : Nat) (t : Time) (data : List Byte) : EvtSlot :=
  { code := BitVec.ofNat 16 code, time := BitVec.ofNat 64 t, source := BitVec.ofNat 16 src,
    data := le 8 (s.windowSet t) ++ padTo 12 data }

/-- Place an event in the ring (R511): a reserved event always, an ordinary one where 9 slots are free, preceded by
EVT_LOST where some were lost, which tags the windows as any event does (R60). -/
def State.placeEvt (s : State) (e : EvtSlot) : State :=
  let p := s.pup
  if evtReserved e.code.toNat then
    if p.evtUsed ≥ 256 then { s with pup := (PupBlock.loseEvt { p with evtRd := p.evtRd + 1 }).putEvt e }
    else { s with pup := p.putEvt e }
  else if p.evtUsed > 247 then { s with pup := p.loseEvt }
  else if p.evtUnrep = 0 then { s with pup := p.putEvt e }
  else
    let p : PupBlock := { p.putEvt (s.mkEvt 0x0101 0x01FF s.nowT (le 4 (sat32 p.evtUnrep))) with evtUnrep := 0 }
    let s := s.tagWindows (s.windowSet s.nowT)
    if p.evtUsed > 247 then { s with pup := p.loseEvt } else { s with pup := p.putEvt e }

/-- Emit an event with a window set of its own: that of the item it derives from (R61). -/
def State.emitSet (s : State) (code src : Nat) (t : Time) (set : Nat) (data : List Byte) : State :=
  let e : EvtSlot :=
    { code := BitVec.ofNat 16 code, time := BitVec.ofNat 64 t, source := BitVec.ofNat 16 src,
      data := le 8 set ++ padTo 12 data }
  let s := s.tagWindows set
  if s.pup.inCmd then { s with pup.heldEvts := s.pup.heldEvts ++ [e] } else s.placeEvt e

/-- Emit an event: it tags the windows, and goes to the ring, or waits for the response of the command that causes it
(R505). R60 counts the events tagged, and does not say whether one that finds no slot counts: here it does (log 83). -/
def State.emit (s : State) (code src : Nat) (t : Time) (data : List Byte) : State :=
  let e := s.mkEvt code src t data
  let s := s.tagWindows (s.windowSet t)
  if s.pup.inCmd then { s with pup.heldEvts := s.pup.heldEvts ++ [e] } else s.placeEvt e

/-- Emit an event that carries the tick at which it is generated. -/
def State.emitNow (s : State) (code src : Nat) (data : List Byte) : State := s.emit code src s.nowT data

/-- Place a list of events in order. -/
def State.placeAll (s : State) : List EvtSlot → State
  | [] => s
  | e :: es => (s.placeEvt e).placeAll es

/-! ### The reliable class towards the baseband (R361) -/

/-- Send a reliable packet: it takes the next SEQ and is held until acknowledged; it waits while 128 are. A link that is
down keeps it unsent (R365). -/
def State.sendRel (s : State) (type flow : Nat) (flags : Nat) (payload : List Byte) : State :=
  let l := s.link
  let p : Packet :=
    { type := BitVec.ofNat 8 type, flow := BitVec.ofNat 8 flow, flags := BitVec.ofNat 16 flags, seq := l.relSeq,
      time := BitVec.ofNat 48 s.time.ticks, aper := 0, fmt := 0x7F, payload := payload }
  if l.held.length < 128 then
    { s with link := { l with
        relSeq := l.relSeq + 1
        held := l.held ++ [{ pkt := p, sent := s.time.ticks, first := s.time.ticks }]
        out := if l.up then l.out ++ [p] else l.out } }
  else { s with link := { l with waiting := l.waiting ++ [p] } }

/-- Send the packets that wait for a free place among the 128, while there is one. -/
def State.sendWaiting (s : State) : State :=
  let n := min s.link.waiting.length (128 - s.link.held.length)
  let go := s.link.waiting.take n
  go.foldl (fun s p => s.sendRel p.type.toNat p.flow.toNat p.flags.toNat p.payload)
    { s with link := { s.link with waiting := s.link.waiting.drop n } }

/-! ### Pins derived from the state -/

/-- FAULT_N asserted (R512). -/
def State.faultN (s : State) : Bool :=
  s.pup.lockstep || s.pup.recovery || s.pup.halted || s.hk.shutdown || s.hk.halt || decide (s.hk.vstat ≠ 0) || s.pw.failed

/-- HOST_IRQ_N asserted (R512): THERMAL and WAKE_FAIL whatever their enable. -/
def State.hostIrq (s : State) : Bool := decide (s.pup.irq &&& (s.pup.irqEn ||| 0xC0#8) ≠ 0)

/-! ### Serving a mailbox command (R504) -/

/-- What a command body answers: its status, its results, a block of mailbox RAM it wrote (R506) and what it still waits
for before it can be answered. -/
structure Reply where
  status  : BitVec 8
  results : List Byte := []
  block   : Option (Nat × Nat) := none
  wait    : Option WaitFor := none

/-- A body that is refused changes nothing (R524). -/
def refuse (st : BitVec 8) (s : State) : Reply × State := ({ status := st }, s)

/-- A body that ends with DONE. -/
def done (s : State) : Reply × State := ({ status := stDone }, s)

/-- A body that ends with DONE and results. -/
def doneR (rs : List Byte) (s : State) : Reply × State := ({ status := stDone, results := rs }, s)

/-- A body that ends with ACCEPTED. -/
def accepted (s : State) : Reply × State := ({ status := stAccepted }, s)

/-- Check a list of (refusal, condition) in order, then run the body. -/
def checks (cs : List (BitVec 8 × Bool)) (s : State) (body : Unit → Reply × State) : Reply × State :=
  match cs.find? (fun c => c.2) with
  | some c => refuse c.1 s
  | none => body ()

/-- Whether the mailboxes are served and the one named has a command to serve (R503, R504): RESET_N high, the device
powered, READY or recovery, no restart, nothing in progress in the mailbox, CHEAD behind CTAIL. -/
def State.canServe (s : State) (m : Fin 4) : Bool :=
  s.resetN && (s.pup.ready || s.pup.recovery) && !s.pup.restarting && !s.pup.halted &&
  (s.pup.busy.get m).isNone && decide (s.pup.chead.get m ≠ s.pup.ctail.get m)

/-- The role of the session a slot names, where it is open (R530). -/
def State.sessionRole (s : State) (h : BitVec 8) : Option Role :=
  match fin? 8 (h.toNat - 1) with
  | none => none
  | some i => if h = 0 then none else
    match s.pup.sessions.get i with
    | .opened r _ _ => some r
    | _ => none

/-- Rank of a role (R530). -/
def Role.rank : Role → Nat
  | .operator => 0
  | .installer => 1
  | .maker => 2

/-- The response slot of a command (R502). -/
def InProgress.slot (p : InProgress) : List Byte :=
  le 2 p.opcode.toNat ++ le 2 p.seq.toNat ++ [p.status, 0, 0, 0] ++ padTo 24 p.results

/-- The data block a CTRL_RSP carries: the extension of R527, or the block of R529 where RSP_DATA asks for it. -/
def State.rspData (s : State) (m : Fin 4) (k : Nat) (p : InProgress) : Option (Nat × List Byte) :=
  if p.results.length > 24 then some (m.val * 0x800 + k * 64, p.results.drop 24)
  else if p.rspData then
    match p.block with
    | some (a, n) => some (a, memRead 0 s.pup.mbRam a n)
    | none => none
  else none

/-- Answer a command: the response slot, the extended result in the command slot, CHEAD, HP_IRQ.RSP, the CTRL_RSP of a
link-bound mailbox, then the events it caused (R504, R505, R507, R527). -/
def State.answer (s : State) (m : Fin 4) (p : InProgress) : State :=
  let k := (s.pup.chead.get m).toNat % 32
  let ram := memWrite 0 s.pup.mbRam (0x2000 + m.val * 0x400 + k * 32) p.slot
  let ram := memWrite 0 ram (m.val * 0x800 + k * 64) ((p.results.drop 24).take 64)
  let s := { s with pup := { s.pup with
    mbRam := ram
    chead := vmod s.pup.chead m (fun c => c + 1)
    busy := s.pup.busy.set m.val none m.isLt
    irq := if p.irq then s.pup.irq ||| (1#8 <<< m.val) else s.pup.irq } }
  let s := if s.pup.mbCfg.getLsbD m.val then
      match s.rspData m k p with
      | none => s.sendRel 0x11 m.val 0 p.slot
      | some (a, bs) => s.sendRel 0x11 m.val 0x100 (p.slot ++ le 4 a ++ le 2 bs.length ++ [0, 0] ++ bs)
    else s
  s.placeAll p.events

/-- Answer a finished command, or let it wait for its journal entry first (R560). -/
def State.finish (s : State) (m : Fin 4) (p : InProgress) : State :=
  match p.entry with
  | some _ => { s with pup.busy := s.pup.busy.set m.val (some { p with waits := .journal }) m.isLt }
  | none => s.answer m p

/-- End the wait of the command in progress in a mailbox with a status, results and a block. -/
def State.complete (s : State) (m : Fin 4) (st : BitVec 8) (results : List Byte) (block : Option (Nat × Nat)) : State :=
  match s.pup.busy.get m with
  | none => s
  | some p =>
    let e := p.entry.map (fun e => { e with status := st, time := s.nowT })
    s.finish m { p with status := st, results := results, block := block, entry := e }

/-- The journal entry of a command at its commit (R561), less the index it takes when written. -/
def State.entryOf (s : State) (h : CmdHdr) (opcode : Nat) (role : Option Role) (st : BitVec 8) (params : List Byte) :
    JEntry :=
  { time := s.nowT
    flags := BitVec.ofNat 8 (b2n s.time.synced + 2 * b2n s.pup.recovery)
    role := match role with
      | none => 0xFF
      | some r => BitVec.ofNat 8 r.rank
    session := h.session
    source := BitVec.ofNat 8 (h.mb.val + 4 * b2n (s.pup.mbCfg.getLsbD h.mb.val))
    status := st
    opcode := BitVec.ofNat 16 opcode
    seq := h.seq
    plen := h.plen
    boot := s.pup.jBoot
    digest := sha256 params }

/-- What R502 and R521 ask of a slot: reserved bits and bytes 0, PLEN the length of the layout, at most 56 direct or
8,192 indirect, and an indirect block and every block the parameters point to inside 0x5000 to 0xFFFF (R501). -/
def slotOk (h : CmdHdr) (len : Nat) (ptrs : List (Nat × Nat)) (needInd : Bool) : Bool :=
  let inside := fun (b : Nat × Nat) => decide (0x5000 ≤ b.1 ∧ b.1 + b.2 ≤ 0x10000)
  let ind := h.flags.getLsbD 2
  decide (h.flags.toNat < 8) && h.padZero && decide (h.plen.toNat = len) &&
  (if ind then decide (1 ≤ len ∧ len ≤ 8192) && inside (h.indirect.toNat, len) else decide (len ≤ 56) && !needInd) &&
  ptrs.all inside

/-- The commands THERMAL_HALT refuses whatever their parameters (R468). -/
def haltRefuses (opcode : Nat) : Bool :=
  [0x0608, 0x0801, 0x0B02, 0x0805, 0x0A04, 0x0A06, 0x0102].contains opcode

/-- What a command of the reference needs besides its body: its opcode, the role it asks for (none for SESSION_OPEN and
SESSION_AUTH), whether it is journalled (R560), its packed parameters, the blocks they point to, whether it must be
indirect. -/
structure CmdSpec where
  opcode  : Nat
  role    : Option Role
  journal : Bool := false
  params  : List Byte
  ptrs    : List (Nat × Nat) := []
  needInd : Bool := false

/-- The state in which the body of a command runs: events wait for its answer (R505). -/
def State.enter (s : State) : State := { s with pup.inCmd := true, pup.heldEvts := [] }

/-- The state once the body of a command has run. -/
def State.leave (s : State) : State := { s with pup.inCmd := false, pup.heldEvts := [] }

/-- Whether recovery serves the command (R500). -/
def State.recoveryFree (s : State) (c : CmdSpec) : Bool := s.pup.recovery && [0x0101, 0x0102, 0x0103].contains c.opcode

/-- Whether the session of a slot lacks the role that the command asks for (R530); recovery asks for no session (R500). -/
def State.lacksRole (s : State) (h : CmdHdr) (c : CmdSpec) : Bool :=
  match c.role with
  | none => false
  | some need => !s.pup.recovery && (match s.sessionRole h.session with
    | none => true
    | some r => decide (r.rank < need.rank))

/-- The refusal that R504's checks give a command before its body, in their order. -/
def State.refusal (s : State) (h : CmdHdr) (c : CmdSpec) : Option (BitVec 8) :=
  if slotOk h c.params.length c.ptrs c.needInd = false then some stBadParam
  else if s.lacksRole h c then some stDenied
  else if s.pup.recovery && !s.recoveryFree c then some stBadState
  else if s.hk.halt && haltRefuses c.opcode then some stBadState
  else none

/-- The command in progress that a body's reply leaves. -/
def State.progress (t : State) (h : CmdHdr) (c : CmdSpec) (role : Option Role) (r : Reply) : InProgress :=
  { opcode := BitVec.ofNat 16 c.opcode, seq := h.seq, irq := h.flags.getLsbD 0, rspData := h.flags.getLsbD 1,
    waits := .journal, status := r.status, results := r.results, block := r.block,
    entry := if c.journal then some (t.entryOf h c.opcode role r.status c.params) else none,
    events := t.pup.heldEvts, session := h.session, role := role.getD .operator }

/-- What follows the body: the answer, the wait the reply names, or the journal. -/
def State.settle (t : State) (h : CmdHdr) (c : CmdSpec) (role : Option Role) (r : Reply) : State :=
  match r.wait with
  | some w =>
    { t.leave with pup.busy := t.pup.busy.set h.mb.val (some { t.progress h c role r with waits := w }) h.mb.isLt }
  | none => t.leave.finish h.mb (t.progress h c role r)

/-- Serve the command at the head of its mailbox: R504's checks in order, the body, then the answer, the wait or the
journal. -/
def serve (h : CmdHdr) (c : CmdSpec) (body : State → Reply × State) (s : State) : State :=
  if s.canServe h.mb = false then s
  else
    let res : Reply × State := match s.refusal h c with
      | some st => refuse st s
      | none => body s.enter
    res.2.settle h c (s.sessionRole h.session) res.1

/-- Change a PLL. -/
def State.modPll (s : State) (p : Fin 16) (f : Pll → Pll) : State := { s with clk.plls := vmod s.clk.plls p f }

end Sys2Proof.Machine
end

