-- ==== Sys2Proof/Machine/Filters.lean ====
section
/-! DEFINITION. The arithmetic of the sample chains: rounding, sine and cosine, the filter taps that meet the figures of
05_channelisers.md R136 to R146 and 06_beam_engine.md R162, the narrowband stages, and the discrete Fourier transform of a frame
(08_spectral_analysis.md R217, R219). -/

namespace Sys2Proof.Machine

/-! ### Rounding (R139) -/

/-- Round half up by a right shift and saturate to 16 bits, with whether it saturated (R139). -/
def roundSat (v : Int) (sh : Nat) : Int × Bool :=
  let r := fdivI (2 * v + Int.ofNat (2 ^ sh)) (2 * 2 ^ sh)
  let c := clampI (-32768) 32767 r
  (c, r != c)

/-- A sum held in n bits of two's complement. -/
def wrapI (n : Nat) (v : Int) : Int := (BitVec.ofInt n v).toInt

/-- The newest n entries of a delay line. -/
def keep {α : Type} (n : Nat) (x : α) (xs : List α) : List α := (x :: xs).take n

/-- |x|² of a sample in units of 2^-30. -/
def pwr (v : Cplx) : Nat := (v.1 * v.1 + v.2 * v.2).toNat

/-! ### Sine and cosine -/

/-- 2π in units of 2^-60. -/
def twoPi60 : Nat := 7244019458077122842

/-- An alternating series in units of 2^-60, from its term t and the index k of that term: each next one is x²/((k + 1)(k + 2)) of it. -/
def altSeries (x2 : Nat) : Nat → Nat → Nat → Int
  | 0, _, _ => 0
  | n + 1, k, t => Int.ofNat t - altSeries x2 n (k + 2) (t * x2 / 2 ^ 60 / ((k + 1) * (k + 2)))

/-- Cosine and sine of an angle in 2^-32 of a turn, in units of 2^-40. -/
def circle (a : Nat) : Int × Int :=
  let x := (a % 2 ^ 30) * twoPi60 / 2 ^ 32
  let x2 := x * x / 2 ^ 60
  let c := fdivI (altSeries x2 14 0 (2 ^ 60) + 2 ^ 19) (2 ^ 20)
  let sn := fdivI (altSeries x2 14 1 x + 2 ^ 19) (2 ^ 20)
  match a / 2 ^ 30 % 4 with
  | 0 => (c, sn)
  | 1 => (-sn, c)
  | 2 => (-c, -sn)
  | _ => (sn, -c)

/-- The angle of a whole number of 2^-32 of a turn. -/
def angle (v : Int) : Nat := (BitVec.ofInt 32 v).toNat

/-- An entry of the rotator's 18-bit tables (R166): the value in units of 2^-17, nearest or off by one (log 47). -/
def tableEntry (v dev : Int) : Int := clampI (-131072) 131071 (fdivI (v + 2 ^ 22) (2 ^ 23) + clampI (-1) 1 dev)

/-! ### Taps (R136, R139, R145, R146) -/

/-- Taps of HB2 and HB3, and of the compensation FIR (R145). -/
def hb2Taps (p : BitVec 2) : Nat := ([19, 27, 31, 39] : List Nat).getD p.toNat 0
def hb3Taps (p : BitVec 2) : Nat := ([39, 51, 63, 75] : List Nat).getD p.toNat 0
def compTaps (p : BitVec 2) : Nat := [31, 47, 63, 63].getD p.toNat 0

/-- The protected passband b of R146 in Q0.16, by preset and rate code: 0.4 at R = 1, else the formula rounded half up. -/
def bandQ16 (preset rate : Nat) : Nat :=
  (([[26214, 7342, 9282, 9743, 9857, 9885, 9892, 9894],
     [26214, 4158, 5503, 5844, 5929, 5951, 5956, 5957],
     [26214, 2706, 3661, 3912, 3975, 3991, 3995, 3996],
     [26214, 1758, 2415, 2592, 2637, 2648, 2651, 2652]] : List (List Nat)).getD preset []).getD rate 0

/-- A unit gain: taps in Q1.17 against cosines in units of 2^-40. -/
def unitGain : Int := 2 ^ 57

/-- What the form of a filter says of its taps: a gain of exactly 1 at DC (R139), a group delay of half their length (R148, R149), and for a
half-band filter 0 at every even distance from the centre. -/
def tapsOk (half : Bool) (ts : List Int) : Bool :=
  let c := (ts.length - 1) / 2
  decide (ts.reverse = ts ∧ ts.sum = 131072) &&
  (!half || (List.range ts.length).all (fun k => decide (k = c ∨ (k + c) % 2 = 1 ∨ ts.getD k 0 = 0)))

/-- The taps that the part has, by filter, preset and rate code (log 47). -/
def partTaps (which preset rate n : Nat) : List Int := (List.range n).map (fun k => (Config.tap which preset rate k).toInt)

/-- Taps of that form, in place of constants that do not have it. -/
def plainTaps (n : Nat) : List Int :=
  let c := (n - 1) / 2
  (List.range n).map (fun k => if k = c then 65536 else if k + 1 = c ∨ k = c + 1 then 32768 else 0)

/-- The taps of a filter (R134, R137): 1 HB1, 2 HB2, 3 HB3, 4 the receive compensation FIR, 5 HB1′, 6 HB2′, 7 HB3′, 8 the transmit
compensation FIR. They are the part's own, free but for their form (log 47). -/
def tapsOf (which : Nat) (p : BitVec 2) (rate : Nat) : List Int :=
  let n := match which with
    | 1 => 47
    | 2 => hb2Taps p
    | 3 => hb3Taps p
    | 5 => 39
    | 6 => hb2Taps p
    | 7 => hb3Taps p
    | _ => compTaps p
  let own := partTaps which (if which = 1 ∨ which = 5 then 0 else p.toNat) rate n
  if tapsOk (decide (which ≠ 4 ∧ which ≠ 8)) own then own else plainTaps n

/-! ### Filters (R139, R154) -/

/-- The flags of a delay line together. -/
def flagsOf (xs : List Smp) : BitVec 8 := xs.foldl (fun f x => f ||| x.fl) 0

/-- A filter over one component, newest first: 40-bit sum, rounded half up by a shift, saturated (R139). -/
def firI (ts : List Int) (sh : Nat) (xs : List Int) : Int × Bool :=
  roundSat (wrapI 40 ((ts.mapIdx (fun k t => t * xs.getD k 0)).sum)) sh

/-- A filter over complex samples: the output and how many of its components saturated, 0 or 1. -/
def firC (ts : List Int) (sh : Nat) (xs : List Cplx) : Cplx × Nat :=
  let a := firI ts sh (xs.map (fun x => x.1))
  let b := firI ts sh (xs.map (fun x => x.2))
  ((a.1, b.1), b2n (a.2 || b.2))

/-- A filter over flagged samples: the output carries every flag in its impulse response, and SAT where it saturates itself (R154). -/
def firS (ts : List Int) (sh : Nat) (xs : List Smp) : Smp × Nat :=
  let r := firC ts sh (xs.map (fun x => x.val))
  ({ val := r.1, fl := flagsOf xs ||| (if r.2 = 0 then 0#8 else 4#8) }, r.2)

/-- The 97 taps of the fractional-delay filter at a delay D in 1/64 tick, where they keep R162 at 53 frequencies of ±400 MHz: the error
vector against an ideal delay of 48 ticks and D is at most −60 dB, which bounds the ripple and the delay error too. -/
def fracOk (d : Int) (ts : List Int) : Bool :=
  (List.range 53).all (fun j =>
    let u := Int.ofNat j - 26
    let h : List (Int × Int) := ts.mapIdx (fun k t =>
      let c := circle (angle (-(Int.ofNat k * u * 2 ^ 26)))
      (t * c.1, t * c.2))
    let want := circle (angle (-((48 * 64 + d) * u * 2 ^ 20)))
    let ei : Int := (h.map (fun x => x.1)).sum - 131072 * want.1
    let eq : Int := (h.map (fun x => x.2)).sum - 131072 * want.2
    decide ((ei * ei + eq * eq) * 1000000 ≤ unitGain * unitGain))

/-- The taps of the fractional-delay filter (R160, R162): the part's own; the nearest tick where its constants miss R162. -/
def fracTaps (d : BitVec 11) : List Int :=
  let own := (List.range 97).map (fun k => (Config.fracDelay d.toInt k).toInt)
  if fracOk d.toInt own then own
  else
    let c := 48 + fdivI (2 * d.toInt + 64) 128
    (List.range 97).map (fun k => if Int.ofNat k = c then 131072 else 0)

/-- A sample out of the fractional-delay filter, 48 ticks before the newest of its line (R160, R161): the content at its time less D, with the
flags of what lies there. -/
def fracOut (d : BitVec 11) (xs : List Smp) : Smp :=
  let r := firC (fracTaps d) 17 (xs.map (fun x => x.val))
  let k := (48 + fdivI d.toInt 64).toNat
  let near := (xs.drop k).take (if d.toInt % 64 = 0 then 1 else 2)
  { val := r.1, fl := flagsOf near }

/-- x × j^n with the saturation of R139: a product of −(−32,768) is 32,767. -/
def turn (x : Cplx) (n : Nat) : Cplx × Nat :=
  let neg := fun (v : Int) => clampI (-32768) 32767 (-v)
  let hit := fun (v : Int) => decide (v = -32768)
  match n % 4 with
  | 0 => (x, 0)
  | 1 => ((neg x.2, x.1), b2n (hit x.2))
  | 2 => ((neg x.1, neg x.2), b2n (hit x.1 || hit x.2))
  | _ => ((x.2, neg x.1), b2n (hit x.1))

/-- A complex product of a sample and a rotator value, rounded half up and saturated. -/
def rotate (x : Cplx) (c sn : Int) : Cplx × Nat :=
  let a := roundSat (x.1 * c - x.2 * sn) 17
  let b := roundSat (x.1 * sn + x.2 * c) 17
  ((a.1, b.1), b2n (a.2 || b.2))

/-- The rotator of a beam at time t after V (R166): e^(−j·phase) on receive, e^(+j·phase) on transmit. -/
def rotator (tx : Bool) (freq : BitVec 32) (t : Int) (x : Cplx) : Cplx × Nat :=
  let ph := BitVec.ofInt 32 (freq.toInt * fdivI t 4)
  let c := circle ph.toNat
  let sn := tableEntry c.2 (Config.sinTable ph)
  rotate x (tableEntry c.1 (Config.cosTable ph)) (if tx then sn else -sn)

/-! ### Narrowband stages (R140, R141, R149, R154) -/

/-- Narrowband group delay in ticks (R149). -/
def nbDelay (p : BitVec 2) (rate : BitVec 3) : Nat :=
  if rate = 0 then 0 else 8 * (2 ^ rate.toNat - 1) + 2 * 2 ^ rate.toNat * (compTaps p - 1)

/-- Sample period in ticks at a rate code (R142). -/
def periodOf (rate : BitVec 3) : Nat := 4 * 2 ^ rate.toNat

/-- A narrowband stage with its registers cleared (R153). -/
def Narrow.zero : Narrow where
  accI := [0, 0, 0, 0]
  accQ := [0, 0, 0, 0]
  comI := [0, 0, 0, 0]
  comQ := [0, 0, 0, 0]
  fir := []
  settle := none
  suspect := none
  sat := none

/-- Chain of four integrators (R140): each adds the one before. -/
def integrate (x : Nat) : List Nat → List Nat
  | [] => []
  | a :: as => let y := (a + x) % 2 ^ 48; y :: integrate y as

/-- Chain of four combs (R140): the delays after and the output. -/
def comb (x : Nat) : List Nat → List Nat × Nat
  | [] => ([], x)
  | d :: ds =>
    let r := comb ((x + 2 ^ 48 - d) % 2 ^ 48) ds
    (x :: r.1, r.2)

/-- A 48-bit register as a signed number, and a number in it. -/
def signed48 (x : Nat) : Int := (BitVec.ofNat 48 x).toInt
def to48 (v : Int) : Nat := (BitVec.ofInt 48 v).toNat

/-- The times of flagged inputs after one with flags at a time. -/
def Narrow.mark (z : Narrow) (t : Int) (fl : BitVec 8) : Narrow :=
  { z with
    settle := if fl.getLsbD 0 then some t else z.settle
    suspect := if fl.getLsbD 1 then some t else z.suspect
    sat := if fl.getLsbD 2 then some t else z.sat }

/-- One sample of 12 bits into a housekeeping channel of length R = 2^c, and whether it gives an output (R140, R155): the scale of 12 bits
with 4 fraction bits, R⁴ divided out, rounded half up. -/
def HkFilter.step (f : HkFilter) (c : Nat) (x : BitVec 12) : HkFilter × Bool :=
  let acc := integrate x.toNat f.acc
  if f.n + 1 < 2 ^ c then ({ f with acc := acc, n := f.n + 1 }, false)
  else
    let r := comb (acc.getLastD 0) f.com
    ({ acc := acc, com := r.1, n := 0, out := BitVec.ofNat 16 ((r.2 * 16 + 2 ^ (4 * c - 1)) / 2 ^ (4 * c)) }, true)

/-- The samples of a housekeeping channel, oldest first: the filter after them, and its outputs in order (R155). -/
def HkFilter.run (f : HkFilter) (c : Nat) : List (BitVec 12) → HkFilter × List Nat
  | [] => (f, [])
  | x :: xs =>
    let a := f.step c x
    let r := a.1.run c xs
    (r.1, if a.2 then a.1.out.toNat :: r.2 else r.2)

/-- The flags that an output carries whose impulse response begins at a time: its inputs up to the newest are those from there on. -/
def Narrow.flags (z : Narrow) (since : Int) : BitVec 8 :=
  let hit := fun (x : Option Int) => x.any (fun t => decide (since ≤ t))
  (if hit z.settle then 1#8 else 0#8) ||| (if hit z.suspect then 2#8 else 0#8) ||| (if hit z.sat then 4#8 else 0#8)

/-- One input of a moving-average decimator at time t after V, with rate code c (R140): the stage after, and on its grid the output of the
compensation FIR with its saturations (R149 fixes the phase: the output's time is t − 8(R − 1) − 2R(L − 1), a whole multiple of 4R). -/
def Narrow.rxStep (z : Narrow) (preset : BitVec 2) (rate : BitVec 3) (t : Int) (x : Smp) : Narrow × Option (Int × Smp × Nat) :=
  let c := rate.toNat
  if c = 0 then (z, some (t, x, 0))
  else
    let z := z.mark t x.fl
    let ai := integrate (to48 x.val.1) z.accI
    let aq := integrate (to48 x.val.2) z.accQ
    let out := t - nbDelay preset rate
    if out % Int.ofNat (periodOf rate) = 0 then
      let ci := comb (ai.getLastD 0) z.comI
      let cq := comb (aq.getLastD 0) z.comQ
      let half := Int.ofNat (2 ^ (4 * c - 1))
      let y : Cplx := (fdivI (signed48 ci.2 + half) (2 ^ (4 * c)), fdivI (signed48 cq.2 + half) (2 ^ (4 * c)))
      let line := keep (compTaps preset) y z.fir
      let r := firC (tapsOf 4 preset c) 17 line
      let z : Narrow := { z with accI := ai, accQ := aq, comI := ci.1, comQ := cq.1, fir := line }
      let z := if r.2 = 0 then z else z.mark t 4
      (z, some (out, { val := r.1, fl := z.flags (out - nbDelay preset rate) }, r.2))
    else ({ z with accI := ai, accQ := aq }, none)

/-- The integrators of an interpolator over R instants, of which the first carries the input and the rest zeros (R141). -/
def interpolate (c : Nat) : Nat → Nat → List Nat → List Nat × List Int
  | 0, _, acc => (acc, [])
  | n + 1, x, acc =>
    let a := integrate x acc
    let v := fdivI (signed48 (a.getLastD 0) + Int.ofNat (2 ^ (3 * c - 1))) (2 ^ (3 * c))
    let r := interpolate c n 0 a
    (r.1, clampI (-32768) 32767 v :: r.2)

/-- One input of a transmit narrowband stage with time t after V (R137, R141): the stage after, and its R outputs with their times and
saturations. -/
def Narrow.txStep (z : Narrow) (preset : BitVec 2) (rate : BitVec 3) (t : Int) (x : Cplx) : Narrow × List (Int × Cplx) × Nat :=
  let c := rate.toNat
  if c = 0 then (z, [(t, x)], 0)
  else
    let line := keep (compTaps preset) x z.fir
    let r := firC (tapsOf 8 preset c) 17 line
    let ci := comb (to48 r.1.1) z.comI
    let cq := comb (to48 r.1.2) z.comQ
    let oi := interpolate c (2 ^ c) ci.2 z.accI
    let oq := interpolate c (2 ^ c) cq.2 z.accQ
    let t0 := t - nbDelay preset rate
    ({ z with accI := oi.1, accQ := oq.1, comI := ci.1, comQ := cq.1, fir := line },
     (List.zip oi.2 oq.2).mapIdx (fun k v => (t0 + Int.ofNat (4 * k), v)), r.2)

/-! ### Frames (R217, R219, R260) -/

/-- A tap of a window table in units of 2^-17, by code and size: the rectangular one is 1 throughout, the others are the stored tables, of
which R217 gives the figures and not the values (log 88). -/
def windowTap (code n k : Nat) : Int := if code = 0 then 131072 else Int.ofNat (Config.window code n k).toNat

/-- Bin i of the transform of n windowed samples, oldest first, in units of 2^-72. -/
def dftBin (code n : Nat) (xs : List Cplx) (i : Int) : Int × Int :=
  let ws := xs.mapIdx (fun k x =>
    let w := windowTap code n k
    let c := circle (angle (-(i * Int.ofNat k * Int.ofNat (2 ^ 32 / n))))
    ((w * (x.1 * c.1 - x.2 * c.2), w * (x.1 * c.2 + x.2 * c.1)) : Int × Int))
  ((ws.map (fun x => x.1)).sum, (ws.map (fun x => x.2)).sum)

/-- The power of a bin against full scale, |X|² / (N × CG)² of R219, as num and den. The arithmetic's noise, below −160 dBFS, is the part's
own, by a key that names the frame (log 88). -/
def binPower (code n : Nat) (key : List Int) (xs : List Cplx) (i : Int) : Nat × Nat :=
  let x := dftBin code n xs i
  let full := ((List.range n).map (windowTap code n)).sum * 2 ^ 55
  let noise := fun (q : Int) => fdivI (clampI (-7) 7 (Config.fftNoise (i :: q :: key)) * full) (10 ^ 9)
  let a := x.1 + noise 0
  let b := x.2 + noise 1
  ((a * a + b * b).toNat, (full * full).toNat)

/-! ### LOG16 (R219) -/

/-- Whether 10^(k/1280) ≤ num/den. -/
def pow10Le (num den : Nat) (k : Int) : Bool :=
  if 0 ≤ k then decide (den ^ 1280 * 10 ^ k.toNat ≤ num ^ 1280) else decide (den ^ 1280 ≤ num ^ 1280 * 10 ^ (-k).toNat)

/-- The greatest value in [lo, lo + 2^n) whose lower edge a power reaches. -/
def log16Search (num den : Nat) : Nat → Int → Int
  | 0, lo => lo
  | n + 1, lo =>
    let mid := lo + (2 ^ n : Nat)
    log16Search num den n (if pow10Le num den (2 * mid - 1) then mid else lo)

/-- LOG16 of a power num/den of full scale: 64 × 10 log10, rounded half up, saturated to ±32,767. -/
def log16 (num den : Nat) : Int := if num = 0 then -32767 else clampI (-32767) 32767 (log16Search num den 16 (-32768))

end Sys2Proof.Machine
end

