-- ==== Sys2Proof/Machine/LinkOps.lean ====
section
/-! DEFINITION. Operations of the link: charges, capacity and admission, binding of flows, shedding and restoring, the
events of lanes and the link going up or down (11_lanes.md, 12_zenfa_link.md). -/

namespace Sys2Proof.Machine

/-! ### Charges (R354, R357, R372), in millionths of a bit per second, rounded up (log 13) -/

/-- Bytes of a unit and samples or instants in it, by format code 0 F16, 1 F12, 2 BFP9 (R354). -/
def streamUnit (fmt : Nat) : Nat × Nat := if fmt = 0 then (4, 1) else if fmt = 1 then (12, 4) else (220, 96)
def elemUnit (fmt : Nat) : Nat × Nat := if fmt = 0 then (32, 1) else if fmt = 1 then (24, 1) else (220, 12)

/-- The charge of packets of LEN bytes sent at num / den per second. -/
def chargeOf (num den len : Nat) : Nat := cdiv (num * (len + 24) * 8 * 1000000) den

/-- The charge of a sample flow: its rate in samples or instants per second, its unit, LEN_MAX. -/
def sampleCharge (rate : Nat) (unit : Nat × Nat) (lenMax : Nat) : Nat :=
  let n := lenMax / unit.1
  chargeOf rate (n * unit.2) (n * unit.1)

/-- Samples per second of a rate code (R135): 245.76 Msps halved `c` times. -/
def codeRate (c : Nat) : Nat := 245760000 / 2 ^ c

/-- The charge of a beam or element flow. -/
def beamCharge (rate fmt lenMax : Nat) : Nat := sampleCharge (codeRate rate) (streamUnit fmt) lenMax
def elemCharge (rate fmt lenMax : Nat) : Nat := sampleCharge (codeRate rate) (elemUnit fmt) lenMax

/-- The charge of a lane's IQ at 983.04 Msps. -/
def laneIqCharge (fmt lenMax : Nat) : Nat := sampleCharge 983040000 (streamUnit fmt) lenMax

/-- The charge of stream-through (R357): an 8-byte sub-header in each packet. -/
def streamCharge (rate : Nat) (f12 : Bool) (lenMax : Nat) : Nat :=
  let u := streamUnit (b2n f12)
  let n := (lenMax - 8) / u.1
  chargeOf rate (n * u.2) (8 + n * u.1)

/-- Bytes of a SPECTRUM packet with a number of bins (R355). -/
def spectrumLen (bins : Nat) : Nat := 20 + 2 * (bins + bins % 2)

/-- The parts of a spectrum as their numbers of bins (R355). -/
def spectrumParts (bins : Nat) : List Nat :=
  List.replicate (bins / 4086) 4086 ++ (if bins % 4086 = 0 then [] else [bins % 4086])

/-- The charge of a spectrum output at num / den spectra per second. -/
def spectrumCharge (num den bins : Nat) : Nat :=
  ((spectrumParts bins).map (fun b => chargeOf num den (spectrumLen b))).sum

/-- The charge of a density flow: 8 Gbit/s. -/
def densityCharge : Nat := 8 * 10 ^ 15

/-! ### Capacity (R371) -/

/-- Number of lanes in a mask. -/
def popcount (n m : Nat) : Nat := (maskBits n m).length

/-- Payload of a lane after markers in bit/s (R314). -/
def lanePayload (rate : BitVec 2) : Nat := 7863840000 * (rate.toNat + 1)

/-- The link reservation of a DMA channel in a direction, in millionths of a bit per second (R384): a host write leaves the
device, a host read arrives and its requests leave. -/
def linkReserve (c : DmChan) (tx : Bool) : Nat :=
  if !c.configured then 0
  else
    let b := 64 * c.burst.toNat
    let d := c.rate.toNat * 8 * 10 ^ 12
    let read (n : Nat) : Nat := if c.uses.getLsbD 2 then cdiv (d * n) b else 0
    if tx then read (b + 40) else (if c.uses.getLsbD 3 then cdiv (d * (b + 40)) b else 0) + read 36

/-- M: what the DMA channels hold of a direction (R371, R384), in millionths of a bit per second. -/
def memRate (s : State) (tx : Bool) : Nat := (s.dma.chans.toList.map (fun c => linkReserve c tx)).sum

/-- The lanes that count in a direction: those active, or MIN_LANES while the link is down. -/
def lanesIn (s : State) (tx : Bool) : Nat :=
  if s.link.up then popcount 16 (if tx then s.link.rxActive else s.link.active).toNat else s.link.minLanes.toNat

/-- The capacity A in millionths of a bit per second, 0 where the formula is negative. -/
def capacity (s : State) (tx : Bool) : Nat :=
  lanesIn s tx * lanePayload s.link.rate * 1152 * 1000000 / 1153 - (10 ^ 15 + memRate s tx)

/-! ### The flows of a bank swap (R171, R602) -/

/-- Whether a tile is named APERTURE by a swap: by its uses where it changes them, else as it is. -/
def swapAperture (s : State) (w : SwapRun) (t : Fin 8) : Bool :=
  match w.uses with
  | none => s.beam.aper.getLsbD t.val
  | some us => us.getD t.val .out == .aperture

/-- The flows a bank would bind in a direction: flow number, source, rate code, format. -/
def bankFlows (b : Bank) (aper : Fin 8 → Bool) : List (Nat × FlowSrc × Nat × Nat) :=
  if b.element then
    (List.finRange 8).filterMap (fun t =>
      if aper t then some ((b.elem.flows.get t).toNat, .elem t, b.elem.rate.toNat, b.elem.format.toNat) else none)
  else
    (List.finRange 32).filterMap (fun k =>
      let c := b.beams.get k
      if c.enable then some (c.flow.toNat, .beam k, c.rate.toNat, c.format.toNat) else none)

/-- Whether a source is a beam or an element tile. -/
def FlowSrc.isBeam : FlowSrc → Bool
  | .beam _ => true
  | .elem _ => true
  | _ => false

/-- Whether a flow carries a source. -/
def FlowSrc.isBound : FlowSrc → Bool
  | .none => false
  | _ => true

/-- LEN_MAX of a flow in a direction. -/
def lenMaxOf (s : State) (tx : Bool) (f : Nat) : Nat :=
  match fin? 64 f with
  | none => 8192
  | some i => if tx then (s.link.txFlows.get i).lenMax.toNat else (s.link.rxFlows.get i).lenMax.toNat

/-- The charge of a flow that a bank would bind. -/
def bankFlowCharge (s : State) (tx : Bool) (x : Nat × FlowSrc × Nat × Nat) : Nat :=
  match x.2.1 with
  | .elem _ => elemCharge x.2.2.1 x.2.2.2 (lenMaxOf s tx x.1)
  | _ => beamCharge x.2.2.1 x.2.2.2 (lenMaxOf s tx x.1)

/-- The buffer of a transmit flow (R368): the larger of 32 KiB and 20 µs of its charge, in multiples of 8 KiB. -/
def bufferOf (charge : Nat) : Nat := cdiv (max 32768 (cdiv (charge * 20) (8 * 10 ^ 12))) 8192 * 8192

/-- Whether a swap names a direction. -/
def SwapRun.names (w : SwapRun) (tx : Bool) : Bool := w.dirs.getLsbD (b2n tx)

/-- The flows a waiting swap would bind in a direction. -/
def swapFlows (s : State) (w : SwapRun) (tx : Bool) : List (Nat × FlowSrc × Nat × Nat) :=
  if w.names tx then bankFlows (if tx then s.beam.tx.shadow else s.beam.rx.shadow) (swapAperture s w) else []

/-- Charges of the bound, unshed flows of a direction for which p holds of flow and source. -/
def sumFlows (s : State) (tx : Bool) (p : FlowSrc → Bool) : Nat :=
  if tx then (s.link.txFlows.toList.map (fun f => if p f.src && f.src.isBound && !f.shed then f.charge else 0)).sum
  else (s.link.rxFlows.toList.map (fun f => if p f.src && f.src.isBound && !f.shed then f.charge else 0)).sum

/-- The reservation of a swap in a direction: the charges it would bind and that are not shed, less those it would end. -/
def swapReserve (s : State) (w : SwapRun) (tx : Bool) : Nat :=
  if w.names tx then
    ((swapFlows s w tx).map (fun x =>
      if (if tx then w.shedTx else w.shedRx).getLsbD x.1 then 0 else bankFlowCharge s tx x)).sum
    - sumFlows s tx FlowSrc.isBeam
  else 0

/-- Buffer space of the bound transmit flows for which p holds. -/
def sumBufs (s : State) (p : FlowSrc → Bool) : Nat :=
  (s.link.txFlows.toList.map (fun f => if p f.src && f.src.isBound then bufferOf f.charge else 0)).sum

/-- The reservation of a swap in the transmit pool. -/
def swapPool (s : State) (w : SwapRun) : Nat :=
  if w.names true then
    ((swapFlows s w true).map (fun x => bufferOf (bankFlowCharge s true x))).sum - sumBufs s FlowSrc.isBeam
  else 0

/-! ### Charges of the analyser (R214, R228, R237, R372) -/

/-- Frame length and hop of a lane configuration. The throttle's first step takes 75 % to 50 %, its second every lane to 0 % (R237). -/
def LaneCfg.size (c : LaneCfg) : Nat := 2 ^ (8 + c.z.toNat)
def LaneCfg.overlapNow (c : LaneCfg) (thr : BitVec 2) : Nat := min c.overlap.toNat (2 - thr.toNat)
def LaneCfg.hop (c : LaneCfg) (thr : BitVec 2) : Nat := c.size / 2 ^ c.overlapNow thr

/-- Spectra per second of a source as a fraction, for one output: every P-th frame, or a block of K (R215, R228). -/
def outRate (lane : LaneCfg) (o : Fin 4) (x : AnOutput) : Nat × Nat :=
  (983040000, lane.hop 0 * (if o = 0 then x.period.toNat else x.k.toNat))

/-- The charge of an output with a lane configuration. -/
def outCharge (c : LaneCfg) (o : Fin 4) (x : AnOutput) : Nat :=
  let r := outRate c o x
  spectrumCharge r.1 r.2 x.count.toNat

/-- What the outputs staged for a source would charge beyond what they charge now (R235, R373): they are bound at APPLY. -/
def anExtra (s : State) (a : Fin 9) : Nat :=
  let q := s.an.src.get a
  let now := fun (src : FlowSrc) =>
    (s.link.rxFlows.toList.map (fun f => if f.src = src then f.charge else 0)).sum
  ((List.finRange 4).map (fun o => match q.staged.outs.get o with
    | some x => if x.flow.isSome then outCharge q.staged.lane o x - now (.spectrum a o) else 0
    | none => 0)).sum +
  (match fin? 8 a.val with
   | some l => if q.staged.dens.flow.toNat < 64 then densityCharge - now (.density l) else 0
   | none => 0)

/-- The source for which a receive flow is staged (R235), where one is. -/
def flowStaged (s : State) (f : Nat) (src : FlowSrc) : Bool :=
  (List.finRange 9).any (fun a =>
    let c := (s.an.src.get a).staged
    (List.finRange 4).any (fun o => match c.outs.get o with
      | some x => decide (x.flow.map (fun k => k.val) = some f ∧ src ≠ .spectrum a o)
      | none => false) ||
    (match fin? 8 a.val with
     | some l => decide (c.dens.flow.toNat = f ∧ src ≠ .density l)
     | none => false))

/-- What a direction is charged: its bound, unshed flows and the reservations of enqueued swaps (R373, R602). -/
def chargedIn (s : State) (tx : Bool) : Nat :=
  sumFlows s tx (fun _ => true) + (s.beam.swaps.map (fun w => swapReserve s w tx)).sum

/-- What the outputs that wait for an APPLY hold of a direction (log 91). -/
def stagedIn (s : State) (tx : Bool) : Nat := if tx then 0 else ((List.finRange 9).map (anExtra s)).sum

/-- The transmit pool in use, reservations with it. -/
def poolUsed (s : State) : Nat := sumBufs s (fun _ => true) + (s.beam.swaps.map (swapPool s)).sum

/-- Whether a direction carries what it is charged and so much more: one in which nothing is charged does (R373). -/
def fitsLink (s : State) (tx : Bool) (more : Nat) : Bool :=
  let c := chargedIn s tx + more
  decide (c = 0) || decide (c ≤ capacity s tx)

/-- Whether a direction carries what is bound and reserved by swaps, against which flows are shed and restored (R334). -/
def carried (s : State) (tx : Bool) : Bool := fitsLink s tx 0

/-- The admission rule of R373 in a direction, for a state that holds the change. -/
def admitted (s : State) (tx : Bool) : Bool := fitsLink s tx (stagedIn s tx)

/-- Both directions pass, and the transmit pool of 4 MiB holds the buffers (R368). -/
def admittedAll (s : State) : Bool := admitted s false && admitted s true && decide (poolUsed s ≤ 4194304)

/-! ### Binding (R358, R360, R369) -/

/-- Bind a source to a receive flow with its charge. -/
def bindRx (s : State) (f : Nat) (src : FlowSrc) (charge : Nat) (shed : Bool) : State :=
  match fin? 64 f with
  | none => s
  | some i => { s with link.rxFlows := vmod s.link.rxFlows i (fun r =>
      { r with src := src, charge := charge, shed := shed, seq := 0, restart := true, pend := none, rebound := none }) }

/-- Unbind a receive flow. -/
def unbindRx (s : State) (f : Nat) : State :=
  match fin? 64 f with
  | none => s
  | some i => { s with link.rxFlows := vmod s.link.rxFlows i (fun r => { r with src := .none, charge := 0, shed := false, pend := none }) }

/-- A swap binds a beam or element tile to a receive flow (R176): the count restarts with the first sample from its s on, and what is
being filled with samples before goes on until then. -/
def rebindRx (s : State) (f : Nat) (src : FlowSrc) (charge : Nat) (shed : Bool) (eff : Nat) : State :=
  match fin? 64 f with
  | none => s
  | some i => { s with link.rxFlows := vmod s.link.rxFlows i (fun r =>
      { r with src := src, charge := charge, shed := shed, rebound := some eff }) }

/-- A swap ends what a receive flow carried: samples before s are still on their way. -/
def endRx (s : State) (f : Nat) : State :=
  match fin? 64 f with
  | none => s
  | some i => { s with link.rxFlows := vmod s.link.rxFlows i (fun r => { r with src := .none, charge := 0, shed := false }) }

/-- Bind a source to a transmit flow: its buffer is empty, the count starts at 0 and a CREDIT with RESTART is due. -/
def bindTx (s : State) (f : Nat) (src : FlowSrc) (charge : Nat) (shed : Bool) : State :=
  match fin? 64 f with
  | none => s
  | some i =>
    let s := { s with beam.input := s.beam.input.set i.val [] i.isLt }
    { s with link.txFlows := vmod s.link.txFlows i (fun r =>
      { r with
        src := src, charge := charge, shed := shed, seq := 0, limit := BitVec.ofNat 32 (bufferOf charge / 64),
        count := 0, buf := 0, freed := 0, creditAt := s.time.ticks, due := !shed, restart := true }) }

/-- Unbind a transmit flow. -/
def unbindTx (s : State) (f : Nat) : State :=
  match fin? 64 f with
  | none => s
  | some i =>
    let s := { s with beam.input := s.beam.input.set i.val [] i.isLt }
    { s with link.txFlows := vmod s.link.txFlows i (fun r =>
      { r with src := .none, charge := 0, shed := false, buf := 0, freed := 0, due := false }) }

/-- Whether a receive flow is free or carries this very source, and is staged for no other. -/
def rxFlowFree (s : State) (f : Nat) (src : FlowSrc) : Bool :=
  match fin? 64 f with
  | none => false
  | some i => decide ((s.link.rxFlows.get i).src = .none ∨ (s.link.rxFlows.get i).src = src) && !flowStaged s f src

/-- Unbind every receive flow whose source satisfies p. -/
def unbindRxIf (s : State) (p : FlowSrc → Bool) : State :=
  (List.range 64).foldl (fun s f =>
    match fin? 64 f with
    | none => s
    | some i => if p (s.link.rxFlows.get i).src then unbindRx s f else s) s

/-! ### Shedding and restoring (R334) -/

/-- The flows of a direction that count: bound or reserved by an enqueued swap, with priority and whether they are
shed. -/
def flowList (s : State) (tx : Bool) : List (Nat × Nat × Bool) :=
  (List.finRange 64).filterMap (fun i =>
    let src := if tx then (s.link.txFlows.get i).src else (s.link.rxFlows.get i).src
    let shed := if tx then (s.link.txFlows.get i).shed else (s.link.rxFlows.get i).shed
    let prio := if tx then (s.link.txFlows.get i).prio.toNat else (s.link.rxFlows.get i).prio.toNat
    let res := s.beam.swaps.filter (fun w => (swapFlows s w tx).any (fun x => x.1 == i.val))
    let resShed := res.any (fun w => (if tx then w.shedTx else w.shedRx).getLsbD i.val)
    if src.isBound || !res.isEmpty then some (i.val, prio, if src.isBound then shed else resShed) else none)

/-- Set or clear the shed mark of a flow, bound or reserved. A restored transmit flow restarts its count (R369). -/
def markShed (s : State) (tx : Bool) (f : Nat) (on : Bool) : State :=
  match fin? 64 f with
  | none => s
  | some i =>
    let mark := fun (m : BitVec 64) => if on then m ||| (1#64 <<< f) else m &&& ~~~(1#64 <<< f)
    let s := { s with beam.swaps := s.beam.swaps.map (fun w =>
      if (swapFlows s w tx).any (fun x => x.1 == f) then
        (if tx then { w with shedTx := mark w.shedTx } else { w with shedRx := mark w.shedRx }) else w) }
    if tx then { s with link.txFlows := vmod s.link.txFlows i (fun r =>
        if r.src.isBound then
          (if on then { r with shed := true, due := false }
           else
            { r with
              shed := false, restart := true, count := 0, freed := 0, due := true,
              limit := BitVec.ofNat 32 (bufferOf r.charge / 64) })
        else r) }
    else { s with link.rxFlows := vmod s.link.rxFlows i (fun r =>
        if r.src.isBound then { r with shed := on, restart := r.restart || !on } else r) }

/-- Whether flow x is shed before flow y: lower priority first, then higher number. -/
def shedsFirst (x y : Nat × Nat × Bool) : Bool := x.2.1 < y.2.1 || (x.2.1 == y.2.1 && x.1 > y.1)

/-- The first of a list under an order. -/
def pickBest (before : Nat × Nat × Bool → Nat × Nat × Bool → Bool) : List (Nat × Nat × Bool) → Option (Nat × Nat × Bool)
  | [] => none
  | x :: xs =>
    match pickBest before xs with
    | none => some x
    | some y => if before y x then some y else some x

/-- Shed flows until the rest fit; answers the mask of flows shed. -/
def shedLoop (tx : Bool) : Nat → State → Nat → State × Nat
  | 0, s, m => (s, m)
  | n + 1, s, m =>
    if carried s tx then (s, m)
    else match pickBest shedsFirst ((flowList s tx).filter (fun x => !x.2.2)) with
      | none => (s, m)
      | some x => shedLoop tx n (markShed s tx x.1 true) (m + 2 ^ x.1)

/-- Restore shed flows in the reverse order while they fit; answers the mask of flows restored. -/
def restoreLoop (tx : Bool) : Nat → State → Nat → State × Nat
  | 0, s, m => (s, m)
  | n + 1, s, m =>
    match pickBest (fun x y => shedsFirst y x) ((flowList s tx).filter (fun x => x.2.2)) with
    | none => (s, m)
    | some x =>
      let t := markShed s tx x.1 false
      if carried t tx then restoreLoop tx n t (m + 2 ^ x.1) else (s, m)

/-- After a restripe that takes lanes away from a direction: shed what does not fit, emit LINK_SHED. -/
def restripeDown (s : State) (tx : Bool) : State :=
  let r := shedLoop tx 64 s 0
  if r.2 = 0 then r.1
  else
    let t := { r.1 with link.shedCnt := satAdd r.1.link.shedCnt 1 }
    t.emitNow 0x0705 0x07FF (le 1 (b2n tx) ++ le 2 t.link.active.toNat ++ le 8 r.2)

/-- After a restripe that adds lanes: restore what fits, emit LINK_RESTORED. -/
def restripeUp (s : State) (tx : Bool) : State :=
  let r := restoreLoop tx 64 s 0
  if r.2 = 0 then r.1
  else r.1.emitNow 0x0706 0x07FF (le 1 (b2n tx) ++ le 2 r.1.link.active.toNat ++ le 8 r.2)

/-! ### ACK and replay (R362, R363, R365) -/

/-- Hand an ACK to the lanes: ACK_SEQ, NEXT_SEND and the flags. -/
def State.sendAck (s : State) (flags : Nat) : State :=
  if s.link.up then
    let p : Packet :=
      { type := 0x1E, flow := 0, flags := BitVec.ofNat 16 flags, seq := 0, time := BitVec.ofNat 48 s.time.ticks,
        aper := 0, fmt := 0x7F,
        payload := le 2 (s.link.relRx - 1).toNat ++ [0, 0] ++ le 2 s.link.relSeq.toNat ++ [0, 0] }
    { s with link := { s.link with out := s.link.out ++ [p], ackDue := none, unacked := 0 } }
  else s

/-- Resend every packet held, oldest first, with REPLAY set. -/
def State.replayAll (s : State) : State :=
  if s.link.held.isEmpty || !s.link.up then s
  else
    { s with link := { s.link with
        replays := satAdd s.link.replays 1
        held := s.link.held.map (fun h => { h with sent := s.time.ticks })
        out := s.link.out ++ s.link.held.map (fun h => { h.pkt with flags := h.pkt.flags ||| 0x20#16 }) } }

/-! ### Lanes -/

/-- Change one lane. -/
def State.modLane (s : State) (l : Fin 16) (f : Lane → Lane) : State := { s with link.lanes := vmod s.link.lanes l f }

/-- Ticks of the exit to ON from a power state (R321). -/
def exitTicks : LaneTarget → Nat
  | .on => 0
  | .standby => 983
  | .ragdoll => 1474560

/-- Marks of bring-up cleared, as at its step 1. -/
def Lane.clearUp (x : Lane) : Lane :=
  { x with deskewed := false, orderOk := false, polOk := false, lock := false, cdr := false, inverted := false,
           hdrRun := 0, slipN := 0, slipDue := none, recent := [], lostAt := none }

/-- A lane starts bring-up at step 1 (R323): from ON at once, else once its exit time has passed. -/
def Lane.start (now : Nat) (x : Lane) : Lane :=
  let x := x.clearUp
  let x := { x with role := .bringup, bringAt := now, target := none, started := true }
  match x.pstate with
  | .on => { x with exitAt := none }
  | p => { x with exitAt := some (match x.exitAt with
      | some e => e
      | none => now + exitTicks p) }

/-- Emit LANE_FAIL with a cause. -/
def State.laneFailEvt (s : State) (l : Fin 16) (cause : Nat) : State :=
  (s.modLane l (fun x => { x with failRep := true })).emitNow 0x0707 (0x0700 + l.val) ([BitVec.ofNat 8 l.val] ++ le 1 cause)

/-- A lane fails a step of bring-up with a cause (R335). With AUTO it becomes DOWN and reruns bring-up, and a third
failure in succession leaves it DOWN; without AUTO it goes OFFLINE at once. -/
def State.laneFail (s : State) (l : Fin 16) (cause : Nat) : State :=
  let old := s.link.lanes.get l
  let x : Lane := { old.clearUp with cdr := old.cdr && decide (cause ≠ 1) }
  let n := x.fails + 1
  let x : Lane := { x with fail := BitVec.ofNat 3 cause, fails := n, exitAt := none, started := false }
  if s.link.auto then
    let x : Lane := { x with downs := satAdd x.downs 1 }
    if n < 3 then s.modLane l (fun _ => x.start s.time.ticks)
    else (s.modLane l (fun _ => { x with role := .down })).laneFailEvt l cause
  else (s.modLane l (fun _ => { x with role := .offline })).laneFailEvt l cause

/-- Each LK_START whose lanes are all active while the link is up is complete (R323): one LINK_UP, unless one was emitted
at this instant. -/
def State.checkStart (s : State) (already : Bool) : State :=
  let isDone := fun (r : StartRun) => s.link.up && decide (r.mask &&& s.link.active = r.mask)
  if s.link.start.any isDone then
    let t := { s with link.start := s.link.start.filter (fun r => !isDone r) }
    if already then t else t.emitNow 0x0703 0x07FF (le 2 s.link.active.toNat)
  else s

/-- The link goes down (R335): LINK_DOWN with the mask before the loss, and with AUTO bring-up restarts on every lane in
ON that is ACTIVE, IDLE, DOWN or OFFLINE and is not leaving ON. -/
def State.linkDown (s : State) (before : BitVec 16) : State :=
  let s := { s with link.up := false }
  let s := s.emitNow 0x0704 0x07FF (le 2 before.toNat)
  if s.link.auto then
    { s with link.lanes := vmap s.link.lanes (fun (_ : Fin 16) (x : Lane) =>
        if x.pstate = .on ∧ x.target = none ∧ (x.role = .active ∨ x.role = .idle ∨ x.role = .down ∨ x.role = .offline) then
          x.start s.time.ticks else x) }
  else s

/-- The link comes up (R323, R365): LINK_UP, an ACK, and a replay of what is held. -/
def State.linkUp (s : State) : State :=
  let s := { s with link := { s.link with up := true, admitUp := true } }
  let s := s.emitNow 0x0703 0x07FF (le 2 s.link.active.toNat)
  (s.sendAck 0).replayAll

/-- The link goes up or down as the active lanes reach MIN_LANES or fall below (R323, R335); answers whether it came
up. -/
def State.relevel (s : State) (before : BitVec 16) : State × Bool :=
  let enough := decide (popcount 16 s.link.active.toNat ≥ s.link.minLanes.toNat)
  if enough && !s.link.up then (restripeDown s.linkUp true, true)
  else if s.link.up && !enough then (restripeDown (s.linkDown before) true, false)
  else (s, false)

/-- LANE_UP for each lane of a list that a mask names. -/
def State.laneUps (s : State) (m : Nat) : State :=
  (maskBits 16 m).foldl (fun s k =>
    let x := s.link.lanes.get k
    s.emitNow 0x0702 (0x0700 + k.val) (le 1 k.val ++ le 1 x.logical.toNat ++ [x.skew])) s

/-- Put a new active-lane mask of the device into force (R316, R323, R332 to R335): lanes that enter become ACTIVE and emit
LANE_UP, the link goes up or down at MIN_LANES, and flows are shed or restored. -/
def State.setActive (s : State) (m : BitVec 16) : State :=
  let before := s.link.active
  if m = before then s
  else
    let s := { s with link := { s.link with
      active := m
      lanes := vmap s.link.lanes (fun (k : Fin 16) (x : Lane) =>
        if m.getLsbD k.val then { x with role := .active, fails := 0 }
        else if x.role = LaneRole.active then { x with role := .idle } else x) } }
    let s := s.laneUps (m &&& ~~~before).toNat
    let r := s.relevel before
    let s := r.1
    let s := if popcount 16 m.toNat < popcount 16 before.toNat then restripeDown s false
      else if popcount 16 before.toNat < popcount 16 m.toNat then restripeUp s false else s
    s.checkStart r.2

/-- Put the far end's active-lane mask into force for what the device receives (R332, R334). -/
def State.setRxActive (s : State) (m : BitVec 16) : State :=
  let before := s.link.rxActive
  let s := { s with link.rxActive := m }
  if popcount 16 m.toNat < popcount 16 before.toNat then restripeDown s true
  else if popcount 16 before.toNat < popcount 16 m.toNat then restripeUp s true else s

/-- Whether a lane passes lock, polarity, order and deskew: it is named in the receive-good mask (R316). -/
def Lane.isGood (x : Lane) : Bool := x.lock && x.polOk && x.orderOk && x.deskewed

/-- Power state code (R321) and role code (R339). -/
def LaneTarget.code : LaneTarget → Nat
  | .on => 0
  | .standby => 1
  | .ragdoll => 2
def LaneRole.code : LaneRole → Nat
  | .offline => 0
  | .bringup => 1
  | .idle => 2
  | .active => 3
  | .down => 4
  | .test => 5
  | .held => 6
def LoopKind.code : LoopKind → Nat
  | .none => 0
  | .nes => 1
  | .nep => 2
  | .fe => 3

/-- A lane enters STANDBY or RAGDOLL at once: bring-up ends, and its role is OFFLINE unless TEST or HELD (R322). In RAGDOLL the equaliser
values are lost (R321). -/
def Lane.sleepNow (t : LaneTarget) (x : Lane) : Lane :=
  { x.clearUp with
    pstate := t, target := none, exitAt := none, started := false
    eq := if t = .ragdoll then List.replicate 6 0 else x.eq
    role := match x.role with
      | .test => .test
      | .held => .held
      | _ => .offline }

/-- What LANE_STATE and LK_STATE_SET do to a lane at the effective tick (R322). -/
def Lane.toState (now : Nat) (t : LaneTarget) (x : Lane) : Lane :=
  match t with
  | .on =>
    match x.role with
    | .test | .held => if x.pstate = .on then x else { x with exitAt := some (now + exitTicks x.pstate) }
    | _ => if x.pstate = .on ∨ x.role = .bringup then x else x.start now
  | t => if x.role = .active ∨ x.target.isSome then { x with target := some t } else x.sleepNow t

/-- The admission test of R322: the remaining lanes carry what is charged, in each direction. -/
def laneStateOk (s : State) (m : BitVec 16) (t : LaneTarget) : Bool :=
  match t with
  | .on => true
  | _ =>
    let s' := { s with link := { s.link with active := s.link.active &&& ~~~m, rxActive := s.link.rxActive &&& ~~~m } }
    carried s' false && carried s' true

/-- LANE_STATE and LK_STATE_SET in effect. -/
def State.laneState (s : State) (m : BitVec 16) (t : LaneTarget) : State :=
  { s with link.lanes := vmap s.link.lanes (fun (k : Fin 16) (x : Lane) => if m.getLsbD k.val then x.toState s.time.ticks t else x) }

/-! ### Register values (R339, R380) -/

/-- A quantity in 0.01 Gbit/s, nearest, from millionths of a bit per second (log 13). -/
def centG (u : Nat) : Nat := (u + 5 * 10 ^ 12) / 10 ^ 13

def regLaneStat (x : Lane) : Nat :=
  x.role.code * 2 ^ 24 + x.pstate.code * 2 ^ 22 + b2n x.eqFrozen * 2 ^ 21 + b2n x.inverted * 2 ^ 20 +
  x.logical.toNat * 2 ^ 16 + x.skew.toNat * 2 ^ 8 + b2n x.deskewed * 2 ^ 7 + b2n x.orderOk * 2 ^ 6 +
  b2n x.polOk * 2 ^ 5 + b2n x.lock * 2 ^ 4 + b2n x.cdr * 2 ^ 3 + x.fail.toNat
def regLaneBlk (x : Lane) : Nat := x.slips.toNat * 2 ^ 16 + x.hdrRun.toNat
def regLaneErr (x : Lane) : Nat := x.invHdr.toNat * 2 ^ 16 + x.lockLoss.toNat * 2 ^ 8 + x.downs.toNat
def regLaneEq (x : Lane) : Nat := x.freezes.toNat * 2 ^ 16 + x.density.toNat
def regPrbsCtl (x : Lane) : Nat :=
  b2n x.prbs.sync * 2 ^ 15 + x.loop.code * 2 ^ 12 + b2n x.prbs.chkEn * 2 ^ 11 + x.prbs.chkPat.toNat * 2 ^ 9 +
  b2n x.prbs.genEn * 2 ^ 8 + x.prbs.genPat.toNat * 2 ^ 6
def regLkStat (l : LinkBlock) : Nat :=
  l.active.toNat * 2 ^ 16 + l.minLanes.toNat * 2 ^ 6 + b2n l.auto * 2 ^ 5 + b2n l.manual * 2 ^ 4 + b2n l.up * 2 ^ 3 +
  l.rate.toNat
def regAdmit (s : State) (tx : Bool) : Nat :=
  (if s.link.admitUp then min 65535 (centG (capacity s tx)) else 0) * 2 ^ 16 + min 65535 (centG (sumFlows s tx (fun _ => true)))
def regMemStat (l : LinkBlock) : Nat :=
  l.memTouts.toNat * 2 ^ 24 + l.memFaults.toNat * 2 ^ 16 + l.memLate.toNat * 2 ^ 8 + l.reads.length
def regFlowCfg (bound shed : Bool) (prio : BitVec 3) (lenMax : BitVec 14) : Nat :=
  b2n bound * 2 ^ 31 + b2n shed * 2 ^ 30 + prio.toNat * 2 ^ 24 + lenMax.toNat

end Sys2Proof.Machine
end

