-- ==== Sys2Proof/Machine/Packets.lean ====
section
/-! DEFINITION. What the link carries, byte by byte: sample formats, packets and their trailers, the rows of blocks on the lanes, and the
filling of sample packets (11_lanes.md R315, R316, 12_zenfa_link.md R340 to R360). -/

namespace Sys2Proof.Machine

/-! ### Sample formats (R350 to R352, R354) -/

/-- A component of F12. -/
def narrow12 (v : Int) : Nat := (clampI (-2048) 2047 (fdivI (v + 8) 16) % 4096).toNat

/-- The bytes of a sample in F16, or in F12 of R351. -/
def sampleBytes (f12 : Bool) (v : Cplx) : List Byte :=
  if f12 then le 3 (narrow12 v.1 + 4096 * narrow12 v.2) else leI 2 v.1 ++ leI 2 v.2

/-- A component at the exponent E of a BFP9 block, before it saturates (R352). -/
def bfpScaled (e : Nat) (v : Int) : Int := if e = 0 then v else fdivI (v + Int.ofNat (2 ^ (e - 1))) (2 ^ e)

/-- The exponent of a block: the smallest at which every component lies within −256 to +255, at most 7. -/
def bfpExp (vs : List Int) : Nat :=
  ((List.range 7).find? (fun e => vs.all (fun v => decide (-256 ≤ bfpScaled e v ∧ bfpScaled e v ≤ 255)))).getD 7

/-- A block of 12 samples as 220 bits. -/
def bfpBlock (xs : List Cplx) : Nat :=
  let e := bfpExp (xs.flatMap (fun x => [x.1, x.2]))
  let m := fun (v : Int) => (clampI (-256) 255 (bfpScaled e v) % 512).toNat
  e + (xs.mapIdx (fun k x => m x.1 * 2 ^ (4 + 18 * k) + m x.2 * 2 ^ (13 + 18 * k))).sum

/-- A unit of eight blocks, 220 bytes. -/
def bfpUnit (blocks : List (List Cplx)) : List Byte := le 220 ((blocks.mapIdx (fun b xs => bfpBlock xs * 2 ^ (220 * b))).sum)

/-- Lists of n entries at a time, each of which holds entries in order. -/
def groupsOf {α : Type} (n : Nat) : Nat → List α → List (List α)
  | 0, _ => []
  | k + 1, xs => xs.take n :: groupsOf n k (xs.drop n)

/-- The payload of whole units of samples or instants, oldest first, by format code 0 F16, 1 F12, 2 BFP9 (R354). -/
def payloadOf (code : Nat) (elem : Bool) (items : List (List Cplx)) : List Byte :=
  if code < 2 then items.flatMap (fun x => x.flatMap (sampleBytes (decide (code = 1))))
  else if elem then
    (groupsOf 12 (items.length / 12) items).flatMap (fun u =>
      bfpUnit ((List.range 8).map (fun b => u.map (fun x => x.getD b (0, 0)))))
  else
    (groupsOf 96 (items.length / 96) items).flatMap (fun u =>
      bfpUnit ((groupsOf 12 8 u).map (fun b => b.map (fun x => x.headD (0, 0)))))

/-! ### Packets (R344, R348) -/

/-- The 16 bytes of a header. -/
def Packet.header (p : Packet) : List Byte :=
  [p.type, p.flow] ++ pb p.flags ++ pb p.seq ++ le 2 p.payload.length ++ pb p.time ++ [p.aper, p.fmt]

/-- A packet with its trailer, the byte that is sent first at the head. -/
def Packet.bytes (p : Packet) : List Byte :=
  let bs := p.header ++ p.payload
  bs ++ pb (crc32c (BitVec.ofNat 32 (p.flow.toNat * 65536 + p.seq.toNat)) bs)

/-! ### Blocks and rows (R315, R316, R340 to R342) -/

/-- One bit through the scrambler x^58 + x^39 + 1 (R315): its state after, the newest bit lowest, and what it puts out. -/
def scrambleBit (st : BitVec 58) (b : Bool) : BitVec 58 × Bool :=
  let y := xor b (xor (st.getLsbD 38) (st.getLsbD 57))
  ((st <<< 1) ||| (BitVec.ofNat 58 (b2n y)), y)

/-- Bits through the scrambler. -/
def scrambleBits : BitVec 58 → List Bool → BitVec 58 × List Bool
  | st, [] => (st, [])
  | st, b :: bs =>
    let r := scrambleBit st b
    let t := scrambleBits r.1 bs
    (t.1, r.2 :: t.2)

/-- The eight bytes of a block through a scrambler, byte 0 first and in each byte bit 0 first (log 90). -/
def scrambleBlock (st : BitVec 58) (bs : List Byte) : BitVec 58 × List Byte :=
  let w := unle bs
  let r := scrambleBits st ((List.range 64).map (fun k => w.testBit k))
  (r.1, le 8 (r.2.mapIdx (fun k b => b2n b * 2 ^ k)).sum)

/-- A row of blocks on the active lanes in ascending order: each lane's scrambler runs over its block. -/
def State.sendRow (s : State) (ctl : Bool) (blocks : List (List Byte)) : State :=
  let lanes := maskBits 16 s.link.active.toNat
  let sent := lanes.mapIdx (fun j l => (l, scrambleBlock (s.link.lanes.get l).scr (blocks.getD j [0, 0, 0, 0, 0, 0, 0, 0])))
  { s with link := { s.link with
      rows := s.link.rows ++ [sent.map (fun x => (⟨ctl, x.2.2⟩ : Blk))]
      lanes := vmap s.link.lanes (fun l x => match sent.find? (fun y => decide (y.1 = l)) with
        | some y => { x with scr := y.2.1 }
        | none => x) } }

/-- An idle row: a control block on every active lane (R315, R342). -/
def State.sendIdleRow (s : State) : State :=
  s.sendRow true (List.replicate (popcount 16 s.link.active.toNat) [0x1E, 0, 0, 0, 0, 0, 0, 0])

/-- The stream between idle rows of n lanes: a packet that would run past the 1,151st data row waits for the next idle row (R341). -/
def streamRuns (n : Nat) : List Packet → List Byte → List (List Byte)
  | [], cur => [cur]
  | p :: ps, cur =>
    if cur ≠ [] ∧ 1151 * 8 * n < cur.length + p.bytes.length then cur :: streamRuns n ps p.bytes else streamRuns n ps (cur ++ p.bytes)

/-- The packets handed over and not yet laid go into rows, each run of them filled to the end of its row and followed by an idle row (R340,
R341). What a block carries after FILL is zeros (log 90). -/
def State.layRows (s : State) : State :=
  let n := popcount 16 s.link.active.toNat
  if n = 0 then s
  else
    let s' := (streamRuns n (s.link.out.drop s.link.laid) []).foldl (fun (s : State) run =>
      let k := cdiv run.length (8 * n)
      ((chunks (8 * n) k (padTo (8 * n * k) run)).foldl (fun (s : State) row => s.sendRow false (chunks 8 n row)) s).sendIdleRow) s
    { s' with link.laid := s.link.out.length }

/-- The marker of a lane (R342). -/
def State.markerBytes (s : State) (l : Fin 16) : List Byte :=
  let b := [(0x4B : Byte), BitVec.ofNat 8 l.val] ++ pb s.link.active ++ pb s.link.nearGood ++ [s.link.rate.setWidth 8]
  b ++ [b.foldl (fun a x => a ^^^ x) 0]

/-- A marker row (R316): every lane in ON sends its marker, unscrambled. -/
def State.sendMarkers (s : State) : State :=
  let on := (List.finRange 16).filter (fun l => decide ((s.link.lanes.get l).pstate = .on) && (s.link.lanes.get l).exitAt.isNone)
  { s with link.rows := s.link.rows ++ [on.map (fun l => (⟨true, s.markerBytes l⟩ : Blk))] }

/-! ### Flows (R359, R360) -/

/-- Whether a receive flow puts anything out: it is not shed, and the thermal limits let it. -/
def State.flowRuns (s : State) (f : Fin 64) : Bool := !(s.link.rxFlows.get f).shed && !s.hk.shutdown && !s.hk.halt

/-- A flow forms a packet with its SEQ, and RESTART on the first after its source started: it waits to be sent, or where the link is down is
discarded, its SEQ consumed. -/
def State.formPacket (s : State) (f : Fin 64) (type fmt aper flags : BitVec 8) (time : Nat) (payload : List Byte) : State :=
  let x := s.link.rxFlows.get f
  let p : Packet :=
    { type := type, flow := BitVec.ofNat 8 f.val,
      flags := (flags.setWidth 16 &&& 7#16) ||| (if x.restart then 8#16 else 0#16), seq := x.seq, time := BitVec.ofNat 48 time,
      aper := aper, fmt := fmt, payload := payload }
  { s with link.rxFlows := vmod s.link.rxFlows f (fun x =>
      { x with seq := x.seq + 1, restart := false, ready := if s.link.up then x.ready ++ [p] else x.ready }) }

/-- Bytes and samples or instants of a unit of a packet that is being filled. -/
def Pend.unit (p : Pend) : Nat × Nat := if p.elem then elemUnit p.code else streamUnit p.code

/-- The samples or instants of a full packet (R359). -/
def Pend.full (p : Pend) (lenMax : Nat) : Nat := (lenMax - p.sub.length) / p.unit.1 * p.unit.2

/-- The packet of a flow that is being filled is sent as it stands, its last unit completed with zeros (R359). -/
def State.closePend (s : State) (f : Fin 64) (sub : List Byte) : State :=
  match (s.link.rxFlows.get f).pend with
  | none => s
  | some p =>
    let n := cdiv p.items.length p.unit.2 * p.unit.2
    let zero : List Cplx := List.replicate (if p.elem then 8 else 1) (0, 0)
    let items := p.items ++ List.replicate (n - p.items.length) zero
    let s := { s with link.rxFlows := vmod s.link.rxFlows f (fun x => { x with pend := none }) }
    s.formPacket f p.type p.fmt p.aper p.flags p.time (sub ++ payloadOf p.code p.elem items)

/-- A sample or instant enters the packet that a flow fills, which goes once it is full (R359). The first argument is the packet as the first
sample would open it; with `last` the packet ends with this sample, under that sub-header (R357). -/
def State.pendPush (s : State) (f : Fin 64) (new : Pend) (item : List Cplx) (fl : BitVec 8) (last : Option (List Byte)) : State :=
  if s.flowRuns f then
    let x := s.link.rxFlows.get f
    let p : Pend := match x.pend with
      | some p => p
      | none => new
    let p : Pend := { p with items := p.items ++ [item], flags := p.flags ||| (fl &&& 7#8) }
    let s := { s with link.rxFlows := vmod s.link.rxFlows f (fun x => { x with pend := some p }) }
    match last with
    | some sub => s.closePend f sub
    | none => if p.full x.lenMax.toNat ≤ p.items.length then s.closePend f p.sub else s
  else { s with link.rxFlows := vmod s.link.rxFlows f (fun x => { x with pend := none }) }

end Sys2Proof.Machine
end

