-- ==== Sys2Proof/Machine/RadioOps.lean ====
section
/-! DEFINITION. Operations of the tile radio states: locks and mutes, transition times, front-end patterns, bursts, the
outcome of a timed action (02_timebase_and_pass_windows.md R46 to R54, 03_transceiver_paths.md, 04_radio_states.md). -/

namespace Sys2Proof.Machine

/-! ### Tiles and paths -/

/-- Tile of a path and the path of a tile and index (R15). -/
def tileOf (p : Fin 64) : Fin 8 := ⟨p.val / 8, by omega⟩
def pathOf (t : Fin 8) (i : Fin 8) : Fin 64 := ⟨8 * t.val + i.val, by omega⟩

/-- The PLL of a tile's synthesiser (R414). -/
def rfPll (t : Fin 8) : Fin 16 := ⟨8 + t.val, by omega⟩

/-- Change one tile's radio, one tile's resources, one path. -/
def State.modRadio (s : State) (t : Fin 8) (f : Radio → Radio) : State := { s with radio := vmod s.radio t f }
def State.modRes (s : State) (t : Fin 8) (f : TileRes → TileRes) : State := { s with res := vmod s.res t f }
def State.modPath (s : State) (p : Fin 64) (f : Path → Path) : State := { s with paths := vmod s.paths p f }

/-- A fault of a PLL that the host has not acknowledged (R427). -/
def State.pllFault (s : State) (p : Fin 16) : Bool := (s.clk.plls.get p).fault

/-- The fault that holds a tile's TX_BURST as UNLOCKED (R127). -/
def State.tileUnlocked (s : State) (t : Fin 8) : Bool :=
  s.pllFault 0 || s.pllFault 1 || s.pllFault (rfPll t) || !s.clk.refOk

/-- A tile muted as a whole (R80): by a loss of lock until acknowledgement (R426), by thermal shutdown or THERMAL_HALT. -/
def State.tileMuted (s : State) (t : Fin 8) : Bool :=
  s.pllFault 0 || s.pllFault 1 || s.pllFault (rfPll t) || s.hk.shutdown || s.hk.halt

/-- A path muted (R80): with its tile, or by a calibration claim. -/
def State.pathMuted (s : State) (p : Fin 64) : Bool := s.tileMuted (tileOf p) || (s.paths.get p).claimMute

/-- Whether the MUTE pattern is on a tile's lines: any of its paths is muted. -/
def State.muteOn (s : State) (t : Fin 8) : Bool :=
  (List.finRange 8).any (fun i => s.pathMuted (pathOf t i))

/-- Mark the bursts that run and the predistortion captures taken while a mute is in force (R121, R129, R200). -/
def State.noteMutes (s : State) : State :=
  { s with
    pd.tiles := vmap s.pd.tiles (fun t (x : PdTile) => { x with capBroken := x.capBroken || (x.capBusy.isSome && s.muteOn t) })
    radio := vmap s.radio (fun t r =>
      if s.muteOn t then
        { r with
          burst := r.burst.map (fun b => if b.startT ≤ s.time.ticks then { b with muted := true } else b)
          ending := r.ending.map (fun e => if s.time.ticks * 256 < e.actualEnd then { e with muted := true } else e) }
      else r) }

/-- The synthesiser of a tile is locked, and its last step is confirmed (R133). -/
def State.locked (s : State) (t : Fin 8) : Bool := (s.clk.plls.get (rfPll t)).lock
def State.settled (s : State) (t : Fin 8) : Bool := s.locked t && decide ((s.radio.get t).retune = .none)

/-! ### States and transition times (R111 to R114) -/

/-- State code (R111). -/
def RState.code : RState → Nat
  | .off => 0
  | .sleep => 1
  | .standby => 2
  | .rx => 3
  | .tx => 4
  | .cal => 5
  | .monitor => 6

/-- A state from its code. -/
def rstate? (c : Nat) : Option RState :=
  [RState.off, .sleep, .standby, .rx, .tx, .cal, .monitor][c]?

/-- The rows of R113 between two states. -/
def rowTicks : RState → RState → Option Nat
  | .off, .standby => some 235930
  | .sleep, .standby => some 63898
  | .standby, .sleep => some 9831
  | .standby, .rx => some 1180
  | .standby, .monitor => some 1180
  | .standby, .tx => some 1573
  | .standby, .cal => some 1573
  | .rx, .tx => some 2458
  | .tx, .rx => some 1967
  | .rx, .monitor => some 99
  | .monitor, .rx => some 99
  | .rx, .standby => some 197
  | .monitor, .standby => some 197
  | .tx, .standby => some 984
  | .cal, .standby => some 492
  | .sleep, .off | .standby, .off | .rx, .off | .tx, .off | .cal, .off | .monitor, .off => some 2458
  | _, _ => none

/-- Transition time (R113), through STANDBY where no row is given (R114), 0 in place. -/
def transTicks (a b : RState) : Nat :=
  if a = b then 0
  else match rowTicks a b with
    | some n => n
    | none => (rowTicks a .standby).getD 0 + (rowTicks .standby b).getD 0

/-- The states a tile's use allows (R26). -/
def useAllows : TileUse → RState → Bool
  | .aperture, .standby | .aperture, .rx | .aperture, .tx | .aperture, .cal => true
  | .stitch, .monitor => true
  | .out, .off | .out, .sleep | .out, .standby | .out, .cal => true
  | _, _ => false

/-- The home state of a tile for a use (R119). -/
def Radio.homeFor (r : Radio) : TileUse → RState
  | .aperture => if r.apHomeRx then .rx else .standby
  | .stitch => .monitor
  | .out => .standby

/-- The home state in force. -/
def Radio.home (r : Radio) : RState := r.homeFor r.use

/-- The state a tile is in now: the one left until its transition starts, its target afterwards (R118, R133). -/
def Radio.shown (r : Radio) (now : Nat) : RState :=
  match r.transit with
  | some x => if now < x.startAt then x.left else r.state
  | none => r.state

/-- The tick at which a transition that starts at a tick is in STANDBY on its way: where R113 has no row of its own for it (R114). -/
def viaOf (a b : RState) (at_ : Nat) : Option Nat :=
  if a = b then none
  else match rowTicks a b with
    | some _ => none
    | none => some (at_ + (rowTicks a .standby).getD 0)

/-- How long the logs of a tile reach back, in ticks: beyond the longest impulse response and the longest frame. -/
def logDepth : Nat := 2 ^ 18

/-- A state is in force, or a transition begins, from a tick on: later entries that it replaces go, and so do those too old for any
sample. -/
def Radio.note (r : Radio) (at_ : Nat) (st : Option RState) : Radio :=
  let old := r.log.filter (fun e => decide (e.1 < at_))
  let recent := old.takeWhile (fun e => decide (at_ < e.1 + logDepth))
  { r with log := (at_, st) :: recent ++ (old.drop recent.length).take 1 }

/-- The state in force at a tick by the log, none in a transition. -/
def Radio.stateAt (r : Radio) (at_ : Nat) : Option RState :=
  match r.log.find? (fun e => decide (e.1 ≤ at_)) with
  | some e => e.2
  | none => some .off

/-- Whether a state other than one is in force, or a transition runs, at some tick of an interval [a, b]. -/
def Radio.leaves (r : Radio) (st : RState) (a b : Nat) : Bool :=
  decide (r.stateAt a ≠ some st) || r.log.any (fun e => decide (a < e.1 ∧ e.1 ≤ b ∧ e.2 ≠ some st))

/-- Whether a retune runs at some tick of an interval [a, b] (R126). -/
def Radio.settling (r : Radio) (a b : Nat) : Bool :=
  r.settles.any (fun x => decide (x.1 ≤ b ∧ a < x.2)) ||
  (match r.retune with
   | .none => false
   | .glide _ _ _ _ st _ | .large _ st _ | .lock st _ => decide (st ≤ b))

/-- A retune ends at a tick: its interval is kept for the samples that it flagged. -/
def Radio.endRetune (r : Radio) (at_ : Nat) : Radio :=
  let keep := fun (st : Nat) => (st, at_) :: r.settles.takeWhile (fun x => decide (at_ < x.2 + logDepth))
  { r with
    retune := .none
    settles := match r.retune with
      | .none => r.settles
      | .glide _ _ _ _ st _ | .large _ st _ | .lock st _ => keep st }

/-- Whether a transition runs now. -/
def Radio.inTransit (r : Radio) (now : Nat) : Bool :=
  match r.transit with
  | some x => decide (x.startAt ≤ now)
  | none => false

/-! ### Front-end patterns (R89 to R91) -/

/-- The port a path's selector is on: as it stands (R75). -/
def State.portB (s : State) (p : Fin 64) : Bool := (s.paths.get p).portNow

/-- The path the spectral lane of a tile takes (R212). -/
def State.lanePath (s : State) (t : Fin 8) : Fin 64 :=
  pathOf t ((s.an.src.get (t.castLE (by omega))).cfg.lane.path.toFin.castLE (by decide))

/-- Attenuation in force in dB: 31 acts as 30. -/
def Path.atten (x : Path) : Nat := min 30 (bitsOf x.ctl.toNat 4 0)

/-- The pattern index of a state. -/
def State.femOfState (s : State) (t : Fin 8) : RState → Fin 10
  | .off => 0
  | .sleep => 1
  | .standby => 2
  | .rx => if s.portB (pathOf t 0) then 4 else 3
  | .tx => 5
  | .cal => 6
  | .monitor => if s.portB (s.lanePath t) then 8 else 7

/-- Whether the diagnostic holder of CALBUS has a loopback source in a tile (R86, R549). -/
def State.diagLoop (s : State) (t : Fin 8) : Bool :=
  match s.cal.bus with
  | .diag _ _ => (List.finRange 8).any (fun i => (s.paths.get (pathOf t i)).loopback)
  | _ => false

/-- The pattern index in force, MUTE aside (R90): that of the state left while a transition runs, TX from TX_LEAD to TX_LAG,
STANDBY from there to the next state; CAL in the source tile of a diagnostic loopback. -/
def State.femIndex (s : State) (t : Fin 8) : Fin 10 :=
  let r := s.radio.get t
  match r.txPat with
  | some true => 5
  | some false => 2
  | none =>
    if s.diagLoop t then 6 else
    match r.transit with
    | some x => s.femOfState t x.left
    | none => s.femOfState t r.state

/-- Whether the TAP has power: in the MGMT domain (R582). -/
def State.jtagOn (s : State) : Bool := s.pw.vddio && decide (s.pw.dev = .active ∨ s.pw.dev = .doze)

/-- Whether the scanned balls drive what was shifted into the boundary register: under EXTEST, EXTEST_PULSE, EXTEST_TRAIN and CLAMP. -/
def State.jtagDrives (s : State) : Bool := s.jtagOn && decide (s.jtag.ir = 0 ∨ s.jtag.ir = 3 ∨ s.jtag.ir = 4 ∨ s.jtag.ir = 6)

/-- The output cell of FEM_CTLn[k] in the boundary register: its tile's block is the first row of the scan for T0 to T3, the last for T4
to T7, three cells a ball (R574, R582). -/
def femCell (t k : Fin 8) : Nat := (if t.val < 4 then 30 * t.val else 224 + 30 * (t.val - 4)) + 3 * k.val + 1

/-- The levels driven on a tile's FEM_CTL lines: the pattern in force, or MUTE, except on the ORX select lines, which carry
the path index observed (R83, R89), and on latched pads (R488). -/
def State.femLines (s : State) (t : Fin 8) : BitVec 8 :=
  let x := s.res.get t
  let base := if s.muteOn t then x.fem.pats.get 9 else x.fem.pats.get (s.femIndex t)
  let put := fun (v : BitVec 8) (k : Fin 3) =>
    match x.fem.sel.get k with
    | none => v
    | some l => (v &&& ~~~(1#8 <<< l.val)) ||| (if x.orx.sel.getLsbD k.val then 1#8 <<< l.val else 0)
  if s.pw.held.getLsbD t.val then s.pw.femLatch.get t
  else if s.jtagDrives then BitVec.ofNat 8 (maskOf 8 (fun k => s.jtag.boundary.getLsbD (femCell t k)))
  else if s.resetN = false then 0
  else put (put (put base 0) 1) 2

/-- TX_LEAD and TX_LAG of a tile. -/
def State.txLead (s : State) (t : Fin 8) : Nat := bitsOf (s.res.get t).fem.cfg.toNat 18 8
def State.txLag (s : State) (t : Fin 8) : Nat := bitsOf (s.res.get t).fem.cfg.toNat 29 19

/-! ### Timed actions: kinds, lateness, outcomes (R46 to R54, R533, R550) -/

/-- Kind code of an action (R47). -/
def Act.code : Act → Nat
  | .radioState _ _ => 0x01
  | .retune _ _ => 0x02
  | .txBurst _ => 0x03
  | .pickCtl _ _ => 0x04
  | .femLevels _ _ => 0x05
  | .calSlot _ => 0x06
  | .bankSwap _ _ _ => 0x10
  | .acqArm _ _ => 0x11
  | .softTrigger _ => 0x12
  | .trigOutEdge _ _ => 0x13
  | .laneState _ _ => 0x14
  | .analyserCfg _ _ => 0x15

/-- The handle after one: handles are issued cyclically modulo 65,535 (R533). -/
def nextH (h : BitVec 16) : BitVec 16 := if h = 0xFFFE then 0 else h + 1

/-- Change one queue. -/
def State.modQueue (s : State) (q : Fin 9) (f : ActQueue → ActQueue) : State :=
  { s with time.queues := vmod s.time.queues q f }

/-- The head of a queue. -/
def State.headOf (s : State) (q : Fin 9) : Option QAct := (s.time.queues.get q).acts.head?

/-- Remove an action from its queue by its handle. -/
def State.dropAct (s : State) (q : Fin 9) (h : BitVec 16) : State :=
  s.modQueue q (fun x => { x with acts := x.acts.filter (fun a => decide (a.handle ≠ h)) })

/-- The outcome code of a status (R533). -/
def outcomeCode (st : BitVec 8) : BitVec 8 :=
  if st = stDone then 2 else if st = stLate then 3 else if st = stAborted then 4 else 7

/-- Keep the outcome of an action, the last 1,024 of them (R533). -/
def State.keepOutcome (s : State) (h : BitVec 16) (code : BitVec 8) (q : Fin 9) (t : Time) : State :=
  { s with time.outcomes :=
      (({ handle := h, state := code, queue := BitVec.ofNat 8 q.val, time := t } : ActOutcome) ::
        s.time.outcomes.filter (fun o => decide (o.handle ≠ h))).take 1024 }

/-- Lateness in ticks, rounded up, saturating (R49, R550). -/
def lateness (eff t : Time) : Nat := min (2 ^ 32 - 1) (cdiv (eff - t) 256)

/-- Emit ACTION_DONE (R68, R550). A CAL_SLOT emits none (R436). -/
def State.actionDone (s : State) (q : Fin 9) (h : BitVec 16) (kind : Nat) (t : Time) (st : BitVec 8) (eff : Time) : State :=
  if kind = 0x06 then s
  else s.emit 0x0210 (0x0200 + (if q.val < 8 then q.val else 0xFF)) eff
    (pb h ++ [st] ++ le 1 kind ++ le 1 q.val ++ le 4 (lateness eff t))

/-- An action leaves its queue with a status: its outcome is kept and ACTION_DONE emitted; LATE counts. -/
def State.finishAct (s : State) (q : Fin 9) (a : QAct) (st : BitVec 8) (eff : Time) : State :=
  let s := (s.dropAct q a.handle).keepOutcome a.handle (outcomeCode st) q a.time
  let s := if st = stLate then s.modQueue q (fun x => { x with lateCnt := satAdd x.lateCnt 1 }) else s
  s.actionDone q a.handle a.act.code a.time st eff

/-- An action is taken now and takes effect later: its outcome is kept, and ACTION_DONE waits. -/
def State.takeAct (s : State) (q : Fin 9) (a : QAct) : State :=
  (s.dropAct q a.handle).keepOutcome a.handle 2 q a.time

/-- The queue of a tile. -/
def tileQ (t : Fin 8) : Fin 9 := t.castLE (by omega)

/-! ### Bursts (R120 to R122) -/

/-- Emit BURST_END for the burst that ended, at its actual end, with the state reached. -/
def State.burstEnd (s : State) (t : Fin 8) : State :=
  match (s.radio.get t).ending with
  | none => s
  | some e =>
    let s := s.modRadio t (fun r => { r with ending := none })
    s.emit 0x0251 (0x0200 + t.val) e.actualEnd
      (le 1 t.val ++ le 1 (s.radio.get t).state.code ++ le 1 (b2n e.truncated + 2 * b2n e.muted) ++ pb e.handle)

/-- The burst of a tile ends at a tick: what BURST_END will report. A TX_BURST's pattern lasts TX_LAG more. CAL_SLOT bursts
report none. -/
def State.endBurst (s : State) (t : Fin 8) (at_ : Nat) (cut : Bool) : State :=
  let lag := s.txLag t
  let mute := s.muteOn t
  let s : State := match (s.radio.get t).burst with
    | some b => if b.kind = BurstKind.tx then
        { s with hk.txLog := vmod s.hk.txLog t (fun l =>
            l.map (fun (x : Nat × Nat) => if x.1 = b.startT then (x.1, max x.1 (min x.2 at_)) else x)) }
      else s
    | none => s
  s.modRadio t (fun r =>
    match r.burst with
    | none => r
    | some b =>
      { r with
        burst := none
        lagEnd := if b.kind = .tx then some (at_ + lag) else r.lagEnd
        ending := if b.kind = .calSlot then r.ending
          else some { handle := b.handle, actualEnd := at_ * 256, truncated := cut, muted := b.muted || mute } })

/-- Start a transition of a tile at a tick to a state, for an action or none. One that takes no time is complete at
once: the caller completes it. A retune ends where the synthesiser is switched off (R111). -/
def State.startTransit (s : State) (t : Fin 8) (at_ : Nat) (tgt : RState) (till : Nat) (d : Option ActRec) : State :=
  s.modRadio t (fun r =>
    let off := decide (tgt = .off ∨ tgt = .sleep)
    let r := if off then { (r.endRetune at_) with lo := none } else r
    let r := { r with
      transit := some { left := r.state, startAt := at_, via := viaOf r.state tgt at_, till := till, done := d }, state := tgt }
    if at_ < till then r.note at_ none else r)

/-- The synthesiser of a tile that leaves OFF or SLEEP locks (R113, R133): the time is counted from the transition's start. -/
def State.lockUp (s : State) (t : Fin 8) (at_ : Nat) : State :=
  match (s.radio.get t).transit with
  | none => s
  | some x =>
    if decide (x.left = .off ∨ x.left = .sleep) && !s.locked t then
      (s.modPll (rfPll t) (fun p => { p with lock := true })).modRadio t (fun r =>
        { r with settleLast := BitVec.ofNat 24 (min (2 ^ 24 - 1) (at_ - x.startAt)) })
    else s

/-- The instant at which a transition out of OFF or SLEEP has locked the synthesiser at the latest: in STANDBY (R113). -/
def Transit.lockAt (x : Transit) : Nat := x.via.getD x.till

/-- The transition of a tile completes (R113, R115, R117, R121): the synthesiser is locked outside OFF and SLEEP, ACTION_DONE
reports the instant the state is in force, and BURST_END the burst before. Where a change of use asked for another state meanwhile,
the transition to it starts then (R122). -/
def State.arrive (s : State) (t : Fin 8) : State :=
  let r := s.radio.get t
  match r.transit with
  | none => s
  | some x =>
    let on := decide (r.state ≠ .off ∧ r.state ≠ .sleep)
    let s := if on then s.lockUp t x.lockAt else s.modPll (rfPll t) (fun p => { p with lock := false })
    let s := s.modRadio t (fun (r : Radio) =>
      ({ r with
        transit := none
        next := none
        txPat := if r.state = RState.tx ∨ (r.lagEnd.isSome ∧ r.txPat = some true) then r.txPat else none }).note x.till (some r.state))
    let s := match x.done with
      | none => s
      | some a => s.actionDone (tileQ t) a.handle a.kind.toNat a.time stDone (x.till * 256)
    let s := (s.burstEnd t).noteMutes
    match r.next with
    | none => s
    | some n =>
      let d := transTicks r.state n
      if d = 0 then s else s.startTransit t x.till n (x.till + d) none

/-- Start a transition home at a tick, unless the tile is there (R120, R122). -/
def State.goHome (s : State) (t : Fin 8) (at_ : Nat) : State :=
  let r := s.radio.get t
  let d := transTicks r.state r.home
  let s := s.startTransit t at_ r.home (at_ + d) none
  if d = 0 then s.arrive t else s

/-- Whether the synthesiser of a tile locks after OFF or SLEEP, in a large retune, or in a fallback relock (R127 SETTLE). -/
def State.settleHeld (s : State) (t : Fin 8) : Bool :=
  let r := s.radio.get t
  (match r.retune with
   | .large .. => true
   | .lock .. => true
   | _ => false) ||
  (match r.transit with
   | some x => decide (x.left = .off ∨ x.left = .sleep) && decide (r.state ≠ .off ∧ r.state ≠ .sleep) && !s.locked t
   | none => false)

/-- Why a TX_BURST is held on a tile, 0 for no reason (R127). -/
def State.txHeld (s : State) (t : Fin 8) : Nat :=
  let r := s.radio.get t
  if s.settleHeld t then 1
  else match r.retune with
  | .glide .. => 2
  | _ =>
    if r.state = .cal ∧ r.transit.isNone then 3
    else if r.transit.isSome then 4
    else if s.tileUnlocked t then 5
    else 0

/-- The ticks by which an action's start leads its T (R116, R118). -/
def State.leadOf (s : State) (t : Fin 8) (a : Act) : Nat :=
  let r := s.radio.get t
  match a with
  | .radioState tgt _ =>
    if r.state = .off ∨ r.state = .sleep ∨ tgt = .off ∨ tgt = .sleep then 0 else transTicks r.state tgt
  | .txBurst _ => max (transTicks r.state .tx) (s.txLead t)
  | .calSlot _ => transTicks r.state .cal
  | _ => 0

/-- The burst that a new action cuts at the start of its own transition (R120). It is truncated where that comes before its
own end. -/
def State.cutBurst (s : State) (t : Fin 8) (at_ : Nat) : State :=
  match (s.radio.get t).burst with
  | none => s
  | some b => if at_ < b.endT then s.endBurst t at_ true else s.endBurst t b.endT false

/-- Transmit time of a tile's bursts in [a, b) (R466). -/
def txTimeIn (log : List (Nat × Nat)) (a b : Nat) : Nat :=
  (log.map (fun x => min x.2 b - max x.1 a)).sum

/-- Whether TX_CAP lets a burst of a length that would end at a tick be taken (R466). -/
def State.txCapOk (s : State) (t : Fin 8) (len endT : Nat) : Bool :=
  let capped := s.hk.applied.contains (5 : BitVec 3)
  !capped || decide (len + txTimeIn (s.hk.txLog.get t) (endT - 9830400) endT ≤ s.hk.duty.toNat * 9830400 / 100)

/-- What taking the head of a queue comes to: held for a reason, refused with a status, taken with the state after, or still
waiting for its T (R179). -/
inductive Take where
  | hold (why : Nat)
  | refuse (st : BitVec 8)
  | took (s : State)
  | waits (s : State)

/-- RADIO_STATE is taken (R112, R116, R117, R120). -/
def State.takeRadioState (s : State) (t : Fin 8) (a : QAct) (tgt : RState) (dwell : Nat) : Take :=
  let r := s.radio.get t
  let now := s.time.ticks
  if r.transit.isSome then .hold 4
  else if useAllows r.use tgt = false ∨ tgt = .tx ∨ tgt = .cal then .refuse stBadState
  else if r.state = .off ∧ tgt ≠ .off ∧ (s.clk.conv.get t).en = false then .refuse stBadState
  else
    let d := transTicks r.state tgt
    let s := (s.cutBurst t now).takeAct (tileQ t) a
    let s := s.startTransit t now tgt (now + d) (some { handle := a.handle, kind := 1, time := a.time })
    let s := s.modRadio t (fun r => { r with
      burst := if dwell = 0 then none
        else some { kind := .dwell, handle := a.handle, startT := now + d, endT := now + d + dwell, muted := false } })
    .took (if d = 0 then s.arrive t else s)

/-- TX_BURST is taken at S′ (R112, R118, R127, R466). -/
def State.takeTxBurst (s : State) (t : Fin 8) (a : QAct) (len : Nat) : Take :=
  let r := s.radio.get t
  let now := s.time.ticks
  if s.txHeld t ≠ 0 then .hold (s.txHeld t)
  else if useAllows r.use .tx = false then .refuse stBadState
  else
    let d := transTicks r.state .tx
    let lead := s.txLead t
    let m := max d lead
    if s.txCapOk t len (now + m + len) = false then .refuse stNoResource
    else
      let s := (s.cutBurst t (now + m - d)).takeAct (tileQ t) a
      let s := s.startTransit t (now + m - d) .tx (now + m) (some { handle := a.handle, kind := 3, time := a.time })
      let s := { s with hk.txLog := vmod s.hk.txLog t (fun l =>
        (now + m, now + m + len) :: l.filter (fun x => decide (now < x.2 + 9830400))) }
      .took (s.modRadio t (fun r => { r with
        leadAt := some (now + m - lead)
        burst := some
          { kind := .tx, handle := a.handle, startT := now + m, endT := now + m + len, muted := false } }))

/-! ### Retuning (R123 to R125, R422, R423) -/

/-- The LO frequency of a tile's centre frequency (R70). -/
def loOf (fc : Nat) : Nat := fc - 491520000

/-- The units of an output phase in a turn, and in 3 degrees. -/
def loTurn : Nat := 983040000
def loTol : Int := 8192000

/-- The phase that R423 sets at a tick t: 2π f_LO (t − V) mod 2π, within ±3° of it, the residual being the same for a tile, an f_LO and a
temperature band (log 86). -/
def State.loSet (s : State) (t : Fin 8) : Nat :=
  let f := loOf (s.radio.get t).fc
  let resid := clampI (-loTol) loTol (Config.loResidual t.val f (s.hk.tileBand.get t).toNat)
  (Int.emod (Int.ofNat (f * (s.time.ticks - s.clk.loadedV)) + resid) (Int.ofNat loTurn)).toNat

/-- The confirmation of a retune, a relock or the last glide step sets the output phase (R423). -/
def State.loConfirm (s : State) (t : Fin 8) : State :=
  let x : LoRef := { at_ := s.time.ticks, turn := s.loSet t }
  s.modRadio t (fun r => { r with lo := some x })

/-- The output phase of a tile's synthesiser at a later tick, where a confirmation has set it. -/
def State.loPhaseAt (s : State) (t : Fin 8) (tick : Nat) : Option Nat :=
  (s.radio.get t).lo.map (fun x => (x.turn + loOf (s.radio.get t).fc * (tick - x.at_)) % loTurn)

/-- Glide steps of a change of frequency. -/
def glideSteps (a b : Nat) : Nat := cdiv ((a - b) + (b - a)) 4000000

/-- Frequency after k of the steps from a to b. -/
def glideAt (a b k : Nat) : Nat := if a ≤ b then min b (a + 4000000 * k) else max b (a - 4000000 * k)

/-- Whether some step of a glide leaves the sub-band of its start (R422). -/
def glideCrosses (t : Fin 8) (a b : Nat) : Bool :=
  (List.range (min 16 (glideSteps a b))).any (fun k =>
    decide (Config.vcoBand t.val (loOf (glideAt a b (k + 1))) ≠ Config.vcoBand t.val (loOf a)))

/-- The synthesiser falls back to a large relock on the target (R124). -/
def State.glideFallback (s : State) (t : Fin 8) (target start : Nat) : State :=
  let s := s.modRadio t (fun r => { r with
    retune := .lock start (s.time.ticks + 44237), fallback := satAdd r.fallback 1, lo := none })
  let s := s.modPll (rfPll t) (fun p => { p with lock := false })
  s.emitNow 0x0252 (0x0200 + t.val) (le 1 t.val ++ le 8 target)

/-- A glide step starts and is counted, or the relock at once where its target lies outside the sub-band (R422). -/
def State.glideStep (s : State) (t : Fin 8) (base target left start : Nat) : State :=
  let n := glideSteps base target
  let here := glideAt base target (n - left)
  let next := glideAt base target (n - left + 1)
  if Config.vcoBand t.val (loOf next) ≠ Config.vcoBand t.val (loOf here) then s.glideFallback t target start
  else s.modRadio t (fun r => { r with
    retune := .glide base target left s.time.ticks start false, glides := satAdd r.glides 1, lo := none })

/-- The duration of a RETUNE mode from one frequency to another: AUTO glides where at most 7 steps stay in the sub-band. -/
def retuneGlides (t : Fin 8) (mode : RetuneMode) (a b : Nat) : Bool :=
  match mode with
  | .glide => true
  | .large => false
  | .auto => decide (glideSteps a b ≤ 7) && !glideCrosses t a b

/-- RETUNE is taken (R123): in OFF and SLEEP it stores the frequency; in TX it is held until the burst ends; while another
retune runs it is held too. -/
def State.takeRetune (s : State) (t : Fin 8) (a : QAct) (fc : Nat) (mode : RetuneMode) : Take :=
  let r := s.radio.get t
  let now := s.time.ticks
  let glide := retuneGlides t mode r.fc fc
  if r.transit.isSome then .hold 4
  else if r.state = .tx then .hold 6
  else if r.state = .off ∨ r.state = .sleep then
    .took ((s.modRadio t (fun r => { r with fc := fc, fcSet := true })).finishAct (tileQ t) a stDone (now * 256))
  else match r.retune with
    | .glide .. => .hold 2
    | .large .. => .hold 1
    | .lock .. => .hold 1
    | .none =>
      let s := s.finishAct (tileQ t) a stDone (now * 256)
      let s := s.modRadio t (fun r => { r with fc := fc, fcSet := true })
      if glide then
        let n := glideSteps r.fc fc
        if n = 0 then .took (s.modRadio t (fun r => { r with settleLast := 0 }))
        else .took (s.glideStep t r.fc fc n now)
      else
        let s := s.modRadio t (fun r => { r with
          retune := .large fc now (now + 44237), large := satAdd r.large 1, lo := none })
        let s := s.modPll (rfPll t) (fun p => { p with lock := false })
        .took (s.modRes t (fun x =>
          if x.rffe.seq.isEmpty then x
          else
            { x with
              rffe.seqStart := some now, rffe.seqLeft := x.rffe.seq.length, rffe.seqOver := false,
              rffe.listOp := x.rffe.run.isSome }))

/-! ### Register values (R133) -/

/-- HELD_WHY: the reason the head of the tile's queue is held (R127). -/
def State.heldWhy (s : State) (t : Fin 8) : Nat :=
  match s.headOf (tileQ t) with
  | some a => a.held
  | none => 0

def regTlState (s : State) (t : Fin 8) : Nat :=
  let r := s.radio.get t
  s.heldWhy t * 2 ^ 16 + b2n (s.settled t) * 2 ^ 15 + b2n (s.locked t) * 2 ^ 14 +
  (match r.retune with
   | .glide .. => 2 ^ 13
   | _ => 0) +
  b2n (r.inTransit s.time.ticks) * 2 ^ 12 + b2n r.apHomeRx * 2 ^ 11 + r.home.code * 2 ^ 8 +
  (r.shown s.time.ticks).code
def regTlTxhold (r : Radio) : Nat := r.discarded.toNat * 2 ^ 16 + r.held.toNat
def regRetuneCnt (r : Radio) : Nat := r.large.toNat * 2 ^ 16 + r.glides.toNat
def regSynErr (r : Radio) : Nat := r.fallback.toNat * 2 ^ 16 + r.overbudget.toNat

/-- PA_STAT (R110). TX_ON is the driver's enable (R79): in TX, which is reached at the end of its transition (R90), while not muted, and
on the source of CALBUS in loopback mode, which a claim mutes otherwise (R441). -/
def regPaStat (s : State) (p : Fin 64) : Nat :=
  let x := s.paths.get p
  let r := s.radio.get (tileOf p)
  let inTx : Bool := decide (r.shown s.time.ticks = .tx) && !r.inTransit s.time.ticks
  let on := (inTx && !s.pathMuted p) || (x.cbSource && x.loopback && !s.tileMuted (tileOf p))
  b2n x.coupling.isNone * 64 + b2n (s.pathMuted p) * 32 + b2n on * 16 + b2n x.cbSource * 8 +
  b2n (x.cbInjectA || x.cbInjectB) * 4 + b2n x.portNow * 2 + b2n x.ovl

end Sys2Proof.Machine
end

