-- ==== Sys2Proof/Machine/PdOps.lean ====
section
/-! DEFINITION. Operations of predistortion and of the observation receiver: adaptation states, burst boundaries, who is
served next, stopping a kernel (03_transceiver_paths.md R82 to R85, 07_predistortion.md, 10_tile_dsp.md R308). -/

namespace Sys2Proof.Machine

/-! ### Fields of the settings -/

/-- A path's index within its tile. -/
def idxOf (p : Fin 64) : BitVec 3 := BitVec.ofNat 3 p.val

/-- The path of a tile and a 3-bit index. -/
def pathAt (t : Fin 8) (i : BitVec 3) : Fin 64 := pathOf t i.toFin

def PdTile.freezeTicks (x : PdTile) : Nat := bitsOf x.timing.toNat 31 16 * 983040
def PdTile.capSkip (x : PdTile) : Nat := bitsOf x.timing.toNat 15 0
def PdTile.clearTicks (x : PdTile) : Nat := bitsOf x.est.toNat 23 8 * 983040
def PdTile.rejectMax (x : PdTile) : Nat := bitsOf x.limit.toNat 31 24

/-- Change one predistortion path, one predistortion tile. -/
def State.modPd (s : State) (p : Fin 64) (f : PdPath → PdPath) : State := { s with pd.paths := vmod s.pd.paths p f }
def State.modPdTile (s : State) (t : Fin 8) (f : PdTile → PdTile) : State := { s with pd.tiles := vmod s.pd.tiles t f }

/-! ### Adaptation states (R205, R206) -/

def PdState.code : PdState → Nat
  | .off => 0
  | .adapting => 1
  | .frozen => 2
  | .paused => 3
  | .halted => 4
  | .excluded => 5

/-- Put a path into a state; a change emits PD_STATE. -/
def State.setPd (s : State) (p : Fin 64) (st : PdState) : State :=
  let x := s.pd.paths.get p
  if x.state = st then s
  else
    let s := s.modPd p (fun x => { x with state := st, frozenAt := if st = .frozen then s.time.ticks else x.frozenAt })
    s.emitNow 0x0401 (0x0400 + p.val) (le 1 p.val ++ le 1 x.state.code ++ le 1 st.code)

/-- The state that R205's table gives a path now; a halted path stays halted (log 18). -/
def State.pdWant (s : State) (p : Fin 64) : PdState :=
  let x := s.pd.paths.get p
  let t := s.pd.tiles.get (tileOf p)
  if x.adaptEn = false then .off
  else if (s.paths.get p).coupling.isNone then .excluded
  else if x.state = .halted then .halted
  else if t.throttle || t.reload then .paused
  else if s.time.ticks < x.lastAcc + t.freezeTicks then .adapting
  else .frozen

/-- Bring the paths of a tile to the states of R205. -/
def State.pdRefresh (s : State) (t : Fin 8) : State :=
  (List.finRange 8).foldl (fun s i => s.setPd (pathOf t i) (s.pdWant (pathOf t i))) s

/-- Whether adaptation is on in some path of a tile: the reserved regions are in force (R272). -/
def State.estReg (s : State) (t : Fin 8) : Bool :=
  (List.finRange 8).any (fun i => (s.pd.paths.get (pathOf t i)).adaptEn)

/-- An estimate of the path that is still running is discarded when it ends (R204). -/
def State.pdStale (s : State) (p : Fin 64) : State :=
  s.modPdTile (tileOf p) (fun x => { x with stale := x.stale || decide (x.estBusy = some (idxOf p)) })

/-- The driver gain of a path changes (R200, R204): its pending set is discarded, its statistics are cleared, and a capture of the path is
interrupted. -/
def State.pdGainChanged (s : State) (p : Fin 64) : State :=
  ((s.modPd p (fun x => { x with pending := none, statsN := 0 })).pdStale p).modPdTile (tileOf p) (fun x =>
    { x with capBroken := x.capBroken || decide (x.capBusy = some (idxOf p)) })

/-- The words of a neighbour slot in a set (R190): c, d and e of slot 1 or 2. -/
def slotWords (second : Bool) (set : List (Nat × BitVec 32)) : List (Nat × BitVec 32) :=
  if second then memClear set 104 128 else memClear set 80 104

/-- The identity set of R191. Unlisted words read 0. -/
def pdIdentity : List (Nat × BitVec 32) := [(0, 0x2000#32)]

/-- A burst boundary of a path (R79, R196, R203): the driver gain, then the neighbour map, then the pending set. -/
def State.pdBoundary (s : State) (p : Fin 64) : State :=
  let gain := BitVec.ofNat 7 (min 40 (bitsOf (s.paths.get p).ctl.toNat 14 8))
  let s := if (s.paths.get p).gainNow = gain then s
    else (s.modPath p (fun x => { x with gainNow := gain })).pdGainChanged p
  let was := s.pd.paths.get p
  let s := match was.nbNew with
    | none => s
    | some (q1, q2) =>
      let base := match was.pending with
        | some ws => ws
        | none => was.active
      let base := if q1 = was.nb1 then base else slotWords false base
      let base := if q2 = was.nb2 then base else slotWords true base
      s.modPd p (fun x => { x with nb1 := q1, nb2 := q2, nbNew := none, pending := some base, statsN := 0 })
  let x := s.pd.paths.get p
  match x.pending with
  | none => s
  | some ws =>
    let s := s.modPd p (fun x =>
      { x with
        active := ws, pending := none, swaps := satAdd x.swaps 1
        past := (s.time.ticks, was.nb1, was.nb2, x.active) :: x.past.takeWhile (fun o => decide (s.time.ticks < o.1 + logDepth)) })
    if x.evtSwap then s.emitNow 0x0403 (0x0400 + p.val) (le 1 p.val) else s

/-- A burst boundary of a tile: every path, and the pulse made for the used band in force, unless one is loaded (R194). -/
def State.pdTileBoundary (s : State) (t : Fin 8) : State :=
  let s := (List.finRange 8).foldl (fun s i => s.pdBoundary (pathOf t i)) s
  let b := (s.radio.get t).band
  s.modPdTile t (fun x => if x.regen then { x with pulseFor := b, regen := false } else x)

/-! ### The observation receiver (R31, R84, R197, R198) -/

/-- The burst of a tile that transmits now. -/
def State.txBurstNow (s : State) (t : Fin 8) : Option Burst :=
  let r := s.radio.get t
  match r.burst with
  | some b =>
    if b.kind = .tx ∧ r.state = .tx ∧ r.transit.isNone ∧ b.startT ≤ s.time.ticks ∧ s.time.ticks < b.endT then some b
    else none
  | none => none

/-- The path whose turn it is in a tile: round-robin from NEXT over ADAPTING and FROZEN paths (R197). -/
def State.pdTurn (s : State) (t : Fin 8) : Option (BitVec 3) :=
  ((List.range 8).map (fun k => (s.pd.tiles.get t).next + BitVec.ofNat 3 k)).find? (fun i =>
    let st := (s.pd.paths.get (pathAt t i)).state
    decide (st = .adapting ∨ st = .frozen))

/-- Whether select lines of a tile are assigned (R83): without them its ORX observes only what CALBUS feeds it. -/
def State.hasLines (s : State) (t : Fin 8) : Bool := (s.res.get t).fem.sel.toList.any (fun l => l.isSome)

/-- The path index predistortion would observe next, while the estimator is idle and not paused. -/
def State.pdNext (s : State) (t : Fin 8) : Option (BitVec 3) :=
  let x := s.pd.tiles.get t
  if s.pd.chain = false ∨ x.estBusy.isSome ∨ x.throttle ∨ x.reload ∨ s.hasLines t = false then none else s.pdTurn t

/-- Whether a calibration that waits for the ORX is overdue. -/
def State.calOverdue (s : State) (t : Fin 8) : Bool := (s.cal.tiles.get t).pending.any (fun c => c.overdue)

/-- The next user of a tile's ORX and the path it observes (R31): an overdue calibration, predistortion, a kernel; a
calibration that is not overdue last (log 19). Predistortion comes before the others while its tile transmits unmuted; else its path is
selected where nobody else waits, so that the lines have settled as the burst begins. -/
def State.orxPick (s : State) (t : Fin 8) : Option (OrxUser × BitVec 3) :=
  let o := (s.res.get t).orx
  let cal := o.reqCal.map (fun i => (OrxUser.calibration, i))
  let ahead := (s.pdNext t).map (fun i => (OrxUser.predistortion, i))
  let pd := if (s.txBurstNow t).isSome && !s.muteOn t then ahead else none
  let kern := if s.hasLines t || o.fed then o.reqKern.map (fun i => (OrxUser.kernel, i)) else none
  ((if s.calOverdue t then (cal.orElse fun _ => pd).orElse fun _ => kern
    else (pd.orElse fun _ => kern).orElse fun _ => cal)).orElse fun _ => ahead

/-- Serve the next user: the select lines are set and the settle time of the path runs (R84). A user whose lines are set
already keeps them. -/
def State.orxServe (s : State) (t : Fin 8) : State :=
  let o := (s.res.get t).orx
  if o.busy then s
  else match s.orxPick t with
  | none => s.modRes t (fun x => { x with orx.user := .none, orx.startAt := none })
  | some (u, i) =>
    if o.user = u ∧ o.sel = i ∧ o.startAt.isSome then s
    else
      let p := s.paths.get (pathAt t i)
      s.modRes t (fun x => { x with orx := { x.orx with
        user := u
        sel := i
        atten := p.orxAtten.setWidth 5
        settle := p.orxSettle.setWidth 12
        startAt := some (s.time.ticks + p.orxSettle.toNat) } })

/-- A transition ends (R113): the tile is in its new state; entering TX is a burst boundary, and the ORX looks for its next
user. -/
def State.reach (s : State) (t : Fin 8) : State :=
  let s := s.arrive t
  let s := if (s.radio.get t).state = .tx ∧ (s.radio.get t).transit.isNone then s.pdTileBoundary t else s
  s.orxServe t

/-! ### Stopping a kernel (R308, R309, R312) -/

/-- Write buffer entries reach their memories (R298). -/
def Tdsp.drainAll (k : Tdsp) : Tdsp :=
  k.wbuf.foldl (fun (k : Tdsp) e =>
    if e.inY then { k with ym := memSet 0 k.ym e.addr e.val } else { k with xm := memSet 0 k.xm e.addr e.val })
    { k with wbuf := [] }

/-- A kernel stops with no resumable state: what it stored reaches memory. -/
def Tdsp.halt (st : KState) (k : Tdsp) : Tdsp :=
  { k.drainAll with state := st, stall := .none, flight := [], curC := [], issuedC := false, loopDue := false }

/-- Stop a running or idle kernel with a reason: no resumable state is kept, TDSP_STOPPED is emitted. -/
def State.kernelStop (s : State) (t : Fin 8) (reason : Nat) : State :=
  let k := s.tdsp.get t
  if k.state = .running ∨ k.state = .idle then
    let s := { s with tdsp := vmod s.tdsp t (fun k =>
      k.halt .stopped) }
    s.emitNow 0x0B04 (0x0B00 + t.val) (le 1 t.val ++ le 1 reason)
  else s

/-! ### Register values (R210) -/

def regPdTile (s : State) (t : Fin 8) : Nat :=
  let x := s.pd.tiles.get t
  ((s.pdTurn t).getD x.next).toNat * 2 ^ 8 + b2n x.estBusy.isSome * 16 + b2n x.capBusy.isSome * 8 + b2n (x.throttle || x.reload) * 4 +
  b2n x.pulse.isSome * 2 + b2n s.pd.chain
def regPdCtl (x : PdPath) : Nat :=
  x.nb2.toNat * 2 ^ 24 + x.nb1.toNat * 2 ^ 16 + b2n x.evtSwap * 8 + b2n x.adaptEn * 4 + b2n x.cfrEn * 2 + b2n x.pdEn
def regPdStat (x : PdPath) : Nat :=
  x.consecRej.toNat * 2 ^ 16 + x.lastRej.toNat * 2 ^ 12 + b2n x.pending.isSome * 2 ^ 8 + x.state.code
def regPdAcc (x : PdPath) : Nat := x.swaps.toNat * 2 ^ 16 + x.accepted.toNat
def regPdDisc (x : PdPath) : Nat :=
  x.dPower.toNat * 2 ^ 24 + x.dCrest.toNat * 2 ^ 16 + x.dNeigh.toNat * 2 ^ 8 + x.dOvl.toNat
def regPdDisc2 (x : PdPath) : Nat := x.dInter.toNat * 2 ^ 24 + x.dStale.toNat * 2 ^ 16 + x.dReject.toNat * 2 ^ 8
def regPdSat (x : PdPath) : Nat := x.cfrResid.toNat * 2 ^ 16 + x.satPd.toNat

end Sys2Proof.Machine
end

