-- ==== Sys2Proof/Machine/AqOps.lean ====
section
/-! DEFINITION. Operations shared by triggers, records, detectors and their admission: group delays, generation bounds and
horizons, the firing of sources and units, records and the store budget (02 R61, 05 R148 to R150, 09_acquisition.md). -/

namespace Sys2Proof.Machine

/-! ### Rates and group delays (R135, R148 to R150) -/

/-- Receive and transmit front group delays in half ticks (R148). -/
def rxFrontHalf (p : BitVec 2) : Nat := [117, 149, 177, 209].getD p.toNat 0
def txFrontHalf (p : BitVec 2) : Nat := [113, 145, 173, 205].getD p.toNat 0

/-- The configuration of a receive beam in the active bank. -/
def State.rxBeam (s : State) (b : Fin 32) : BeamCfg := s.beam.rx.active.beams.get b

/-- Receive group delay of a beam in whole ticks, rounded up (R144). -/
def State.beamG (s : State) (b : Fin 32) : Nat :=
  (rxFrontHalf s.chan.rxPreset + 1) / 2 + nbDelay (s.rxBeam b).preset (s.rxBeam b).rate

/-- Sample period and group delay of a source kind of R243: 0 beam, else the tap point. -/
def State.sourceOf (s : State) (kind index : BitVec 8) : Nat × Nat :=
  match fin? 32 index.toNat with
  | some b => if kind = 0 then (periodOf (s.rxBeam b).rate, s.beamG b) else (1, 12)
  | none => (1, 12)

/-- The bank and the mask in force for samples at a time after V (R174). -/
def BeamDir.bankAt (d : BeamDir) (t : Int) (v : Nat) (aper : BitVec 8) : Bank × BitVec 8 :=
  match d.past.find? (fun p => decide (t + Int.ofNat v < Int.ofNat p.till)) with
  | some p => (p.bank, p.aper)
  | none => (d.active, aper)

/-- The rate code of a channel's source, 0xFF for a lane (R262). -/
def State.chRate (s : State) (x : AqChan) : Nat :=
  if x.kind = 0 then
    match fin? 32 x.index.toNat with
    | some b => (s.rxBeam b).rate.toNat
    | none => 0
  else if x.kind = 1 then s.beam.rx.active.elem.rate.toNat
  else 0xFF

/-- The flags of a sample as the input of a lane: bit 3 becomes the STATE reason of its mode (R221). -/
def laneFlags (stitch : Bool) (fl : BitVec 8) : BitVec 8 :=
  (fl &&& 0xF7#8) ||| (if fl.getLsbD (if stitch then 4 else 3) then 8#8 else 0#8)

/-- The reasons of R221 that the flags of a lane's samples give. -/
def blankBits (fl : BitVec 8) : BitVec 5 :=
  BitVec.ofNat 5 (b2n (fl.getLsbD 3) + 2 * b2n (fl.getLsbD 0) + 4 * b2n (fl.getLsbD 5) +
    8 * b2n (fl.getLsbD 6) + 16 * b2n (fl.getLsbD 7))

/-! ### Generation bounds and horizons (R61, R246) -/

/-- The bound of a level detector. -/
def State.levelBound (s : State) (d : LevelDet) : Nat :=
  let x := s.sourceOf d.kind d.index
  (d.dwell.toNat + 1) * x.1 + x.2 + 304

/-- The bound of a preamble detector. -/
def State.detBound (s : State) (d : Detector) : Nat :=
  2 * d.half.toNat * periodOf (s.rxBeam d.beam).rate + s.beamG d.beam + 304

/-- The bound of a mask edge with a delay of so many frames. -/
def maskBoundOf (c : LaneCfg) (thr : BitVec 2) (delay : Nat) : Nat :=
  delay * c.hop thr + c.size / 2 + 885 + (c.size - 1024) / 4

/-- The bound of a mask's enters or leaves: the larger of that in force and that staged (log 23). -/
def State.maskBound (s : State) (src : Fin 9) (m : Fin 4) (leave : Bool) : Nat :=
  let a := s.an.src.get src
  let one := fun (c : AnCfg) => match c.masks.get m with
    | none => 0
    | some k => maskBoundOf c.lane a.throttled (if leave then k.leaveD.toNat else k.enterD.toNat)
  max (one a.cfg) (one a.staged)

/-- The greatest of a list of bounds and 2,048 ticks. -/
def maxBound (l : List Nat) : Nat := l.foldl max 2048

/-- The tagging horizon Z (R61). -/
def State.horizonZ (s : State) : Nat :=
  maxBound
    ((s.aq.levels.toList.filter (fun d => d.enabled)).map s.levelBound ++
     (s.res.toList.filter (fun r => r.det.enabled)).map (fun r => s.detBound r.det) ++
     (List.finRange 9).flatMap (fun a => (List.finRange 4).flatMap (fun m =>
       [s.maskBound a m false, s.maskBound a m true])))

/-- The bound of a trigger source by its code and index (R241, R61). -/
def State.codeBound (s : State) (code idx : BitVec 8) : Nat :=
  if code = 0x10 ∨ code = 0x11 then
    match fin? 9 (idx.toNat / 4), fin? 4 (idx.toNat % 4) with
    | some a, some m => s.maskBound a m (decide (code = 0x11))
    | _, _ => 64
  else if code = 0x18 then
    match fin? 16 idx.toNat with
    | some i => if (s.aq.levels.get i).enabled then s.levelBound (s.aq.levels.get i) else 64
    | none => 64
  else if code = 0x20 then
    match fin? 8 idx.toNat with
    | some i => if (s.res.get i).det.enabled then s.detBound (s.res.get i).det else 64
    | none => 64
  else 64

/-- The horizon Zu of a trigger unit (R246). -/
def State.unitHzn (s : State) (u : TrigUnit) : Nat :=
  maxBound [s.codeBound u.aCode u.aIdx, if u.bCode = 0 then 0 else s.codeBound u.bCode u.bIdx]

/-- Sample period of a channel's source: a beam, an element path, a lane (R252). -/
def State.chPeriod (s : State) (kind index : BitVec 8) : Nat :=
  if kind = 0 then
    match fin? 32 index.toNat with
    | some b => periodOf (s.rxBeam b).rate
    | none => 4
  else if kind = 1 then periodOf s.beam.rx.active.elem.rate
  else 1

/-- The guard of R253 for a horizon and a sample period. -/
def guardOf (zu period : Nat) : Nat := cdiv zu period

/-- The stored post-trigger samples of R253. -/
def postSOf (stream : Bool) (cap pre post guard : Nat) : Nat := if stream then min post (cap - pre - guard) else post

/-- Whether a channel keeps the rule of R253 with a guard. -/
def fits253 (stream : Bool) (cap pre post guard : Nat) : Bool :=
  if stream then decide (pre + guard + 1 ≤ cap) else decide (pre + post + guard ≤ cap)

/-- Recompute Z, every Zu, and with them the guards of the configured channels (R61, R246, R253). -/
def State.rehorizon (s : State) : State :=
  let s := { s with time.horizon := s.horizonZ, aq.units := vmap s.aq.units (fun _ u => { u with hzn := s.unitHzn u }) }
  { s with aq.chans := vmap s.aq.chans (fun _ c =>
      if c.cfgd then
        let g := guardOf (s.aq.units.get c.unit).hzn (s.chPeriod c.kind c.index)
        { c with guard := g, postS := postSOf c.stream.isSome c.cap c.pre c.post g }
      else c) }

/-- Whether every configured channel keeps R253 after a change. -/
def State.chansFit (s : State) : Bool :=
  s.aq.chans.toList.all (fun c => !c.cfgd || fits253 c.stream.isSome c.cap c.pre c.post c.guard)

/-! ### The store and its budget (R250, R251, R266) -/

/-- The slot size of a segment. -/
def slotSize (len slots : Nat) : Nat := len / slots / 4096 * 4096

/-- The IQ capacity of a slot in samples: the largest multiple of 1,024 that fits (R251). -/
def slotCap (size : Nat) (f12 envelope : Bool) : Nat :=
  let per16 := 16 * (if f12 then 3 else 4) + b2n envelope
  (size - 8192) * 16 / per16 / 1024 * 1024

/-- The offset of a slot's IQ ring. -/
def iqOffset (cap : Nat) (envelope : Bool) : Nat := if envelope then 8192 + cap / 16 else 8192

/-- The device address of a channel's slot. -/
def State.slotAddr (s : State) (c : AqChan) (slot : Nat) : Nat :=
  match s.aq.segments.get c.segment with
  | some g => g.base + slot * slotSize g.len g.slots
  | none => 0x40000000

/-- Slots of a channel's segment. -/
def State.slotsOf (s : State) (c : AqChan) : Nat :=
  match s.aq.segments.get c.segment with
  | some g => g.slots
  | none => 1

/-- A channel's reservation in bytes per second, its second term rounded up (R266). -/
def chanReserve (period : Nat) (f12 envelope : Bool) (n : Nat) : Nat :=
  let rate := 983040000 / period
  cdiv (rate * (16 * (if f12 then 3 else 4) + b2n envelope)) 16 + cdiv (6400 * rate) n

def State.chReserve (s : State) (c : AqChan) : Nat :=
  if c.cfgd then chanReserve (s.chPeriod c.kind c.index) c.f12 c.envelope (c.pre + c.post) else 0

/-- The store reservation of an analyser output: its bins and 64 bytes for each spectrum (R266). -/
def outReserve (lane : LaneCfg) (o : Fin 4) (x : AnOutput) : Nat :=
  if x.segment.isNone then 0
  else cdiv ((outRate lane o x).1 * (2 * x.count.toNat + 64)) (outRate lane o x).2

/-- The store reservation of a source's outputs, the larger of those in force and those staged (log 24). -/
def srcReserve (a : AnSource) : Nat :=
  let tot := fun (c : AnCfg) => ((List.finRange 4).map (fun o => match c.outs.get o with
    | none => 0
    | some x => outReserve c.lane o x)).sum
  max (tot a.cfg) (tot a.staged)

/-- The store reservation of a DMA channel: its declared rate for each declared use of the store (R266, R384). -/
def dmaReserve (c : DmChan) : Nat :=
  if c.configured then c.rate.toNat * 1000000 * (b2n (c.uses.getLsbD 0) + b2n (c.uses.getLsbD 1)) else 0

/-- Every reservation of the store together, the register window's with it. -/
def State.storeUsed (s : State) : Nat :=
  128000000 + (s.aq.chans.toList.map s.chReserve).sum + (s.an.src.toList.map srcReserve).sum +
  (s.dma.chans.toList.map dmaReserve).sum

/-- Admission to the store (R266). -/
def State.storeFits (s : State) : Bool := decide (s.storeUsed ≤ 122880000000)

/-- Write bytes into the store at a device address. -/
def State.storeWrite (s : State) (a : Nat) (bs : List Byte) : State :=
  { s with aq.store := memWrite 0 s.aq.store a bs }

/-! ### Firings (R241, R247, R248) -/

/-- A pulse of a ROUTE pin starts or restarts (R248). -/
def TrigOut.fire (now : Nat) (p : TrigOut) : TrigOut := { p with pulse := some (now + p.width.toNat) }

/-- The level of a pin (R248): what the last action set, or under ROUTE the pulse in its polarity. -/
def TrigOut.out (p : TrigOut) : Bool := if p.route then xor p.pulse.isSome p.low else p.level

/-- Pulse every ROUTE pin of a kind and index. -/
def State.pulseRoutes (s : State) (kind index : Nat) : State :=
  { s with aq.trigOut := vmap s.aq.trigOut (fun _ p =>
      if p.route ∧ p.kind.toNat = kind ∧ p.index.toNat = index then p.fire s.time.ticks else p) }

/-- Whether a source is A or B of a unit. -/
def TrigUnit.takes (u : TrigUnit) (code idx : BitVec 8) : Bool :=
  decide (u.aCode = code ∧ u.aIdx = idx) || decide (u.bCode ≠ 0 ∧ u.bCode = code ∧ u.bIdx = idx)

/-- A source fires (R241): the firing is on its way to the units that name it, and a mask event pulses the pins routed to it
directly. -/
def State.fire (s : State) (code idx : Nat) (t : Time) (set : Nat) : State :=
  let f : Firing :=
    { code := BitVec.ofNat 8 code, index := BitVec.ofNat 8 idx, time := t, windows := BitVec.ofNat 64 set }
  let s := { s with aq.units := vmap s.aq.units (fun _ u =>
    if u.takes f.code f.index then { u with inbox := u.inbox ++ [f] } else u) }
  if code = 0x10 then s.pulseRoutes 1 idx else if code = 0x11 then s.pulseRoutes 2 idx else s

/-- A timed action or a command fires named units (R241): the firing reaches those whose source it is. -/
def State.softFire (s : State) (mask : BitVec 16) (code : Nat) (t : Time) : State :=
  let f : Firing :=
    { code := BitVec.ofNat 8 code, index := 0, time := t, windows := BitVec.ofNat 64 (s.windowSet t) }
  { s with aq.units := vmap s.aq.units (fun i u =>
      if mask.getLsbD i.val ∧ u.takes f.code 0 then { u with inbox := u.inbox ++ [f] } else u) }

/-! ### Channels (R254 to R258) -/

/-- Change one channel. -/
def State.modCh (s : State) (c : Fin 16) (f : AqChan → AqChan) : State := { s with aq.chans := vmod s.aq.chans c f }

/-- Whether a channel is armed: from its arm until it is done or disarmed. -/
def AqChan.isArmed (c : AqChan) : Bool := decide (c.state = .armed ∨ c.state = .recording ∨ c.state = .rearm)

/-- The first instant of a source's grid at or after a time (R142, R255). -/
def gridAfter (v period : Nat) (t : Time) : Nat :=
  let k := cdiv t 256
  v + cdiv (k - v) period * period

/-- A missed trigger (R257): counted, its first time kept for the next header and reported once per dead time. -/
def State.missTrig (s : State) (c : Fin 16) (t : Time) (set : Nat) : State :=
  let x := s.aq.chans.get c
  let first := decide (x.missN = 0)
  let s := s.modCh c (fun x =>
    { x with missed := satAdd x.missed 1, missN := satAdd x.missN 1, missT := if first then t else x.missT })
  if first then s.emitSet 0x0602 (0x0600 + c.val) s.nowT set (le 1 c.val ++ le 8 t) else s

/-- Whether a trigger comes at or after the close of the window that a channel is bound to (R258). -/
def State.pastClose (s : State) (x : AqChan) (t : Time) : Bool :=
  match x.closedAt with
  | some c => decide (c ≤ t)
  | none => match x.window with
    | none => false
    | some w => match (s.time.windows.get w).closeT with
      | some c => decide (c ≤ t)
      | none => false

/-- The packet that a stream-through sample opens (R357). -/
def AqChan.openPend (x : AqChan) (c : Fin 16) (rate aper : BitVec 8) (t : Nat) : Pend where
  type := 6
  fmt := BitVec.ofNat 8 (b2n x.f12 + 8 * (if rate = 0xFF then 8 else rate.toNat))
  code := b2n x.f12
  elem := false
  aper := if x.kind.toNat < 2 then aper else 0
  time := t
  sub := [BitVec.ofNat 8 c.val, 0, 0, 0] ++ pb x.recNo
  items := []
  flags := 0

/-- A post-trigger sample past the stored ones goes to the channel's flow, the record's last with LAST (R253, R357). -/
def State.streamThrough (s : State) (c : Fin 16) (r : Record) (v : TSample) : State :=
  let x := s.aq.chans.get c
  match x.stream with
  | none => s
  | some f =>
    s.pendPush f (x.openPend c r.rate r.aper v.time) [v.val] v.fl
      (if r.endT < v.time + r.period then some ([BitVec.ofNat 8 c.val, 1, 0, 0] ++ pb x.recNo) else none)

/-- Whether a sample belongs to the part of a record that is streamed. -/
def Record.streams (r : Record) (t : Nat) : Bool := decide (r.sample + r.postS * r.period ≤ t ∧ t ≤ r.endT)

/-- The record that a trigger begins (R255): its trigger sample is the first that the channel has written or will write at or after it. What
was written past the stored samples while the trigger was decided goes to the flow (R253). -/
def State.beginRecord (s : State) (c : Fin 16) (u : Fin 16) (f : Firing) : State :=
  let x := s.aq.chans.get c
  let p := s.chPeriod x.kind x.index
  let t0 := gridAfter s.clk.loadedV p (max f.time (x.armAt * 256))
  let r : Record :=
    { trig := f.time, unit := u, src := f.code, windows := f.windows, sample := t0, endT := t0 + (x.post - 1) * p, inrec := 0,
      inrecT := 0, aperCut := false, trunc := false, aper := (s.beam.rx.bankAt (Int.ofNat t0 - Int.ofNat s.clk.loadedV) s.clk.loadedV s.beam.aper).2,
      dead := x.deadHdr, missN := x.missN, missT := x.missT, period := p, rate := BitVec.ofNat 8 (s.chRate x), postS := x.postS }
  let s := s.modCh c (fun x => { x with state := .recording, missN := 0, missT := 0, record := some r })
  (x.samples.reverse.filter (fun v => r.streams v.time)).foldl (fun (s : State) v => s.streamThrough c r v) s

/-- A trigger reaches a channel (R255 to R258). One that reaches a disarmed channel is neither recorded nor counted. -/
def State.chTrigger (s : State) (c : Fin 16) (u : Fin 16) (f : Firing) : State :=
  let x := s.aq.chans.get c
  let late := s.pastClose x f.time
  let off := decide (x.next ≠ .armed) && x.closedAt.isNone
  match x.state with
  | .armed =>
    if late then s
    else if 0 < x.recNo.toNat ∧ f.time ≤ x.endT * 256 then s
    else if 0 < x.recNo.toNat ∧ f.time < (x.endT + x.deadHdr) * 256 then s.missTrig c f.time f.windows.toNat
    else s.beginRecord c u f
  | .recording =>
    match x.record with
    | none => s
    | some r =>
      if f.time < r.trig || late || off then s
      else if f.time ≤ r.endT * 256 then
        let r' : Record :=
          { r with inrec := satAdd r.inrec 1, inrecT := if r.inrec = 0 then f.time else min r.inrecT f.time }
        s.modCh c (fun x => { x with record := some r' })
      else s.missTrig c f.time f.windows.toNat
  | .rearm => if decide (x.endT * 256 < f.time) && !late && !off then s.missTrig c f.time f.windows.toNat else s
  | _ => s

/-- A unit fires (R245, R247): it is counted, its holdoff starts, its event, its pins and its channels follow. -/
def State.unitFire (s : State) (u : Fin 16) (f : Firing) : State :=
  let x := s.aq.units.get u
  let s := { s with aq.units := vmod s.aq.units u (fun x =>
    { x with cnt := satAdd x.cnt 1, ignore := some (f.time + x.holdoff.toNat * 256) }) }
  let s := if x.evt then s.emitSet 0x0605 (0x0600 + u.val) f.time f.windows.toNat (le 1 u.val ++ le 8 f.time) else s
  let s := s.pulseRoutes 0 u.val
  (List.finRange 16).foldl (fun s c =>
    let y := s.aq.chans.get c
    if y.cfgd ∧ y.unit = u then s.chTrigger c u f else s) s

/-- A channel's record closes early with TRUNC (R258), with the samples that have reached it; the state after it is given. A record whose
samples are all there is not cut. -/
def State.chCut (s : State) (c : Fin 16) (after : ChState) : State :=
  s.modCh c (fun x =>
    match x.state, x.record with
    | .recording, some r =>
      { x with
        next := after
        record := if r.endT ≤ x.newest then some r else some { r with trunc := true, endT := x.newest } }
    | .rearm, _ => { x with next := after }
    | .armed, _ => { x with state := after, samples := [], fill := 0, fillN := 0 }
    | _, _ => x)

/-- A channel's source stops (R258): its record is closed and it becomes IDLE. -/
def State.chSourceLost (s : State) (c : Fin 16) : State :=
  let x := s.aq.chans.get c
  if x.isArmed then (s.chCut c .idle).emitNow 0x0604 (0x0600 + c.val) (le 1 c.val ++ pb x.recNo) else s

/-- The channels whose source satisfies p lose it. -/
def State.sourcesLost (s : State) (p : AqChan → Bool) : State :=
  (List.finRange 16).foldl (fun s c => if p (s.aq.chans.get c) then s.chSourceLost c else s) s

/-- The narrowband stage of a channel's source restarts (R258): a record ends at the last sample before the gap with APER_CUT and TRUNC, and
what was written before belongs to no later record. The gap ends with the sample at `first`. -/
def State.chAperCut (s : State) (c : Fin 16) (last first : Nat) : State :=
  s.modCh c (fun x =>
    match x.state, x.record with
    | .recording, some r =>
      if r.endT ≤ last then x else { x with record := some { r with aperCut := true, trunc := true, endT := last } }
    | .armed, _ => { x with armAt := first, samples := [], fill := 0, fillN := 0 }
    | .rearm, _ => { x with armAt := first, samples := [], fill := 0, fillN := 0 }
    | _, _ => x)

/-- Whether channels may be armed with a binding (R254). -/
def State.armOk (s : State) (mask : BitVec 16) (w : Option (Fin 64)) : Bool :=
  (maskBits 16 mask.toNat).all (fun c => (s.aq.chans.get c).cfgd && !(s.aq.chans.get c).isArmed) &&
  (match w with
   | none => true
   | some i => decide ((s.time.windows.get i).state = .pending ∨ (s.time.windows.get i).state = .open))

/-- Arm channels (R254): slot 0, record 0, and every sample from this tick on is written. -/
def State.arm (s : State) (mask : BitVec 16) (w : Option (Fin 64)) : State :=
  { s with aq.chans := vmap s.aq.chans (fun i x =>
      if mask.getLsbD i.val then
        { x with
          state := .armed, window := w, closedAt := none, slot := 0, fill := 0, fillN := 0, recNo := 0, records := 0, deadHdr := 0,
          armAt := s.time.ticks,
          missN := 0, missT := 0, record := none, next := .armed, samples := [] }
      else x) }

/-- A window closes (R258): the channels bound to it disarm; a record already triggered completes. -/
def State.closeBound (s : State) (w : Fin 64) (t : Time) : State :=
  { s with aq.chans := vmap s.aq.chans (fun _ x =>
      if x.window = some w ∧ x.isArmed then
        (match x.state with
         | .armed => { x with state := .configured, closedAt := some t, samples := [], fill := 0, fillN := 0 }
         | _ => { x with next := .configured, closedAt := some t })
      else x) }

/-! ### Samples into the slot rings (R251, R254) -/

/-- The slot after a channel's current one. -/
def State.nextSlot (s : State) (x : AqChan) : Nat := if x.slot + 1 < s.slotsOf x then x.slot + 1 else 0

/-- Whether a channel has no slot after its current one. -/
def State.lastSlot (s : State) (x : AqChan) : Bool := !x.ring && decide (s.slotsOf x ≤ x.slot + 1)

/-- Write sample number n of a slot's ring, which wraps at C samples. -/
def State.putIq (s : State) (x : AqChan) (slot n : Nat) (v : Cplx) : State :=
  s.storeWrite (s.slotAddr x slot + iqOffset x.cap x.envelope + (n % (max 1 x.cap)) * (if x.f12 then 3 else 4)) (sampleBytes x.f12 v)

/-- A source sample reaches a channel (R253, R254, R257): it goes into the ring of the current slot; past the stored ones of a record it goes
to the flow; past the record's end into the next slot, whose MAGIC is cleared first in RING mode. -/
def State.aqSample (s : State) (c : Fin 16) (v : TSample) : State :=
  let x := s.aq.chans.get c
  if !x.isArmed || decide (v.time < x.armAt) then s
  else
    let s := s.modCh c (fun x => { x with newest := v.time })
    let put := fun (s : State) (slot n : Nat) =>
      (s.putIq x slot n v.val).modCh c (fun x => { x with samples := (v :: x.samples).take (2 * x.cap) })
    let after := fun (s : State) (n : Nat) =>
      if s.lastSlot x then s
      else
        let k := s.nextSlot x
        put (if x.ring ∧ n = 0 then s.storeWrite (s.slotAddr x k) [0, 0] else s) k n
    match x.state, x.record with
    | .recording, some r =>
      if r.endT < v.time then (after s x.fillN).modCh c (fun x => { x with fillN := x.fillN + 1 })
      else if r.streams v.time then s.streamThrough c r v
      else (put s x.slot x.fill).modCh c (fun x => { x with fill := x.fill + 1 })
    | .rearm, _ => (after s x.fill).modCh c (fun x => { x with fill := x.fill + 1 })
    | _, _ => (put s x.slot x.fill).modCh c (fun x => { x with fill := x.fill + 1 })

/-! ### Level detectors (R243, R244) -/

/-- Whether a power num / den is at most 10^(k/1280). -/
def pow10Ge (num den : Nat) (k : Int) : Bool := decide (num = 0) || pow10Le den num (-k)

/-- A level detector forgets what it has seen: it starts disarmed. -/
def LevelDet.clear (d : LevelDet) : LevelDet := { d with line := [], armed := false, run := 0, prev := none }

/-- A sample of a level detector's source, whose period is given: the mean over the last W arms it at THR − HYS, and DWELL of them beyond THR in
succession make a qualified run, remembered with the samples about its start. Samples missing before this one restart it. -/
def LevelDet.take (d : LevelDet) (period : Nat) (v : TSample) : LevelDet :=
  let d : LevelDet := if (d.line.head?.map (fun x => x.time + period)).getD v.time = v.time then d else d.clear
  let w := 2 ^ d.w.toNat
  let line := keep w v d.line
  let d : LevelDet := { d with line := line }
  if line.length < w then d
  else
    let p := (line.map (fun x => pwr x.val)).sum
    let den := w * 2 ^ 30
    let thr := d.thr.toInt
    let back := if d.falling then pow10Le p den (2 * (thr + Int.ofNat d.hys.toNat)) else pow10Ge p den (2 * (thr - Int.ofNat d.hys.toNat))
    let reach := if d.falling then pow10Ge p den (2 * thr) else pow10Le p den (2 * thr)
    let armed := d.armed || back
    let b := (v.time, p)
    let a := d.prev.getD b
    if !(reach && armed) then { d with armed := armed, run := 0, prev := some b }
    else
      let d : LevelDet := if d.run = 0 then { d with a := a, b := b } else d
      let d : LevelDet := { d with armed := armed, run := d.run + 1, prev := some b }
      if d.dwell.toNat ≤ d.run then { d with armed := false, run := 0, due := d.due ++ [(d.a, d.b)] } else d

/-- A sample of a source reaches the level detectors that watch it. -/
def State.levelSample (s : State) (kind index period : Nat) (v : TSample) : State :=
  { s with aq.levels := vmap s.aq.levels (fun _ d =>
      if d.enabled ∧ d.kind.toNat = kind ∧ d.index.toNat = index then d.take period v else d) }

/-! ### Measurements (R259 to R261) -/

/-- |x| in units of 2^-15. -/
def mag (v : Cplx) : Nat :=
  let n := pwr v
  let r := n.sqrt
  min 65535 (if r * r = n then r else r + b2n (Config.roundUp n 1))

/-- Envelope entries of 64 samples each (R259). -/
def envelopeOf : Nat → List Cplx → List Byte
  | 0, _ => []
  | n + 1, vs =>
    match vs with
    | [] => []
    | _ =>
      let ms := (vs.take 64).map mag
      le 2 (ms.foldl min 65535) ++ le 2 (ms.foldl max 0) ++ envelopeOf n (vs.drop 64)

/-- Whether a power p/n lies at or above PK − BT: p/n ≥ PK × 10^(−BT/10). -/
def aboveBt (pk bt p n : Nat) : Bool := decide ((pk * n) ^ 10 ≤ p ^ 10 * 10 ^ bt)

/-- The greatest k of 0 to hi at which the power interpolated between pa and pb is still on the near side of the threshold. -/
def crossSearch (pk bt pa pb n : Nat) (up : Bool) : Nat → Nat → Nat
  | 0, lo => lo
  | i + 1, lo =>
    let mid := lo + 2 ^ i
    let p := (pa * n + pb * mid) - pa * mid
    let near := if up then !aboveBt pk bt p n else aboveBt pk bt p n
    crossSearch pk bt pa pb n up i (if mid ≤ n ∧ near then mid else lo)

/-- The interpolated time of a crossing between two samples (R244, R261), in fraction units. -/
def crossTime (pk bt : Nat) (a b : TSample) (up : Bool) : Time :=
  let n := (b.time - a.time) * 256
  let k := crossSearch pk bt (pwr a.val) (pwr b.val) n up 24 0
  a.time * 256 + min n (k + b2n (Config.roundUp (pwr a.val) (pwr b.val)))

/-- The first crossing in a direction in a list of samples, oldest first, whose later sample is at or after t0; with the
samples from there on. -/
def findCross (pk bt t0 : Nat) (up : Bool) : List TSample → Option (Time × List TSample)
  | a :: b :: rest =>
    let hi := fun (x : TSample) => aboveBt pk bt (pwr x.val) 1
    if t0 ≤ b.time ∧ hi a ≠ up ∧ hi b = up then some (crossTime pk bt a b up, b :: rest)
    else findCross pk bt t0 up (b :: rest)
  | _ => none

/-- TOA, BURST_WIDTH and BURST_PERIOD of a record (R261), none where no burst is found. -/
def burstOf (bt t0 : Nat) (xs : List TSample) : Option (Time × Nat × Nat) :=
  let pk := (xs.map (fun x => pwr x.val)).foldl max 0
  match findCross pk bt t0 true xs with
  | none => none
  | some (toa, rest) =>
    match findCross pk bt 0 false rest with
    | none => some (toa, 0xFFFFFFFF, 0xFFFFFFFF)
    | some (d, rest2) =>
      match findCross pk bt 0 true rest2 with
      | none => some (toa, min 0xFFFFFFFF (d - toa), 0xFFFFFFFF)
      | some (u, _) => some (toa, min 0xFFFFFFFF (d - toa), min 0xFFFFFFFF (u - toa))

/-! ### Register values (R270) -/

def ChState.code : ChState → Nat
  | .idle => 0
  | .configured => 1
  | .armed => 2
  | .recording => 3
  | .rearm => 4
  | .done => 5

/-- MB/s rounded up. -/
def mbUp (n : Nat) : Nat := cdiv n 1000000

def regAqStat (s : State) : Nat :=
  b2n s.hk.bandSel * 2 ^ 19 + (s.hk.dramBand.toNat + 1) * 2 ^ 16 + maskOf 16 (fun c => (s.aq.chans.get c).isArmed)
def regChStat (x : AqChan) : Nat := x.slot * 2 ^ 16 + x.unit.val * 2 ^ 12 + x.state.code
def regChDead (x : AqChan) : Nat := x.deadMax.toNat * 2 ^ 16 + x.deadLast.toNat
def regTriginStat (a : AqBlock) : Nat :=
  (a.trigIn.get 3).closeN.toNat * 2 ^ 24 + (a.trigIn.get 2).closeN.toNat * 2 ^ 16 +
  (a.trigIn.get 1).closeN.toNat * 2 ^ 8 + (a.trigIn.get 0).closeN.toNat

end Sys2Proof.Machine
end

