-- ==== Sys2Proof/Machine/Acquisition.lean ====
section
/-! DEFINITION. Commands and events of triggers, records and the acquisition store (09_acquisition.md). -/

namespace Sys2Proof.Machine

/-! ### Segments (R250) -/

/-- Whether two ranges meet. -/
def rangesMeet (a n b m : Nat) : Bool := decide (a < b + m ∧ b < a + n)

/-- A segment is named by a configured channel. -/
def State.segmentUsed (s : State) (g : Fin 64) : Bool := s.aq.chans.toList.any (fun c => c.cfgd && decide (c.segment = g))

/-- AQ_SEGMENT_DEFINE (R250). -/
def execAqSegmentDefine (h : CmdHdr) (segment : BitVec 8) (base length : BitVec 32) (slots : BitVec 16) (s : State) :
    Out :=
  .next (serve h { opcode := 0x0601, role := some .operator, params := pb segment ++ pb base ++ pb length ++ pb slots }
    (fun s => match fin? 64 segment.toNat with
      | none => refuse stBadParam s
      | some g =>
        let b := base.toNat
        let n := length.toNat
        checks
          [(stBadParam, decide (b % 65536 ≠ 0 ∨ n % 65536 ≠ 0 ∨ n = 0 ∨ b < 0x40000000 ∨ 0xC0000000 < b + n)),
           (stBadParam, decide (slots = 0 ∨ slotSize n slots.toNat < 16384)),
           (stBadParam, (List.finRange 64).any (fun k => k ≠ g && (match s.aq.segments.get k with
             | some q => rangesMeet b n q.base q.len
             | none => false))),
           (stBadState, s.segmentUsed g)] s (fun _ =>
            let q : Segment := { base := b, len := n, slots := slots.toNat, slot := 0 }
            done { s with aq.segments := s.aq.segments.set g.val (some q) g.isLt }))
    s)

/-- AQ_SEGMENT_FREE (R250). -/
def execAqSegmentFree (h : CmdHdr) (segment : BitVec 8) (s : State) : Out :=
  .next (serve h { opcode := 0x0602, role := some .operator, params := pb segment }
    (fun s => match fin? 64 segment.toNat with
      | none => refuse stBadParam s
      | some g => checks [(stBadState, s.segmentUsed g)] s (fun _ =>
          done { s with aq.segments := s.aq.segments.set g.val none g.isLt }))
    s)

/-! ### Channels (R252, R253) -/

/-- Take a channel's configuration away with its stream flow. -/
def State.unconfigure (s : State) (c : Fin 16) : State :=
  let s := unbindRxIf s (fun x => decide (x = .stream c))
  s.modCh c (fun x => { x with cfgd := false, state := .idle, record := none, samples := [] })

/-- Limits of a source's index by kind. -/
def srcIndexOk (kind index : BitVec 8) : Bool :=
  decide ((kind = 0 ∧ index.toNat < 32) ∨ (kind = 1 ∧ index.toNat < 64) ∨ (kind = 2 ∧ index.toNat < 8))

/-- AQ_CHAN_CFG (R252, R253, R266): configures a channel, answering C, the guard and the stored post samples, or
unconfigures it. -/
def execAqChanCfg (h : CmdHdr) (channel op kind index segment unit : BitVec 8) (pre post : BitVec 32)
    (format mode reductions bt flow : BitVec 8) (s : State) : Out :=
  .next (serve h
    { opcode := 0x0603, role := some .operator,
      params := pb channel ++ pb op ++ pb kind ++ pb index ++ pb segment ++ pb unit ++ pb pre ++ pb post ++ pb format ++
        pb mode ++ pb reductions ++ pb bt ++ pb flow }
    (fun s => match fin? 16 channel.toNat with
      | none => refuse stBadParam s
      | some c =>
        if 1 < op.toNat then refuse stBadParam s
        else if op = 1 then
          if (s.aq.chans.get c).isArmed then refuse stBadState s
          else doneR (le 4 0 ++ le 4 0 ++ le 4 0) (s.unconfigure c)
        else match fin? 64 segment.toNat, fin? 16 unit.toNat with
        | some g, some u =>
          let seg := s.aq.segments.get g
          let f12 := decide (format = 1)
          let env := reductions.getLsbD 0
          let stream := decide (flow ≠ 0xFF)
          let period := s.chPeriod kind index
          let cap := match seg with
            | some q => slotCap (slotSize q.len q.slots) f12 env
            | none => 0
          let guard := guardOf (s.aq.units.get u).hzn period
          checks
            [(stBadParam, !srcIndexOk kind index || seg.isNone),
             (stBadParam, decide (2 ^ 24 ≤ pre.toNat ∨ post = 0)),
             (stBadParam, decide (1 < format.toNat ∨ 1 < mode.toNat ∨ 7 < reductions.toNat)),
             (stBadParam, decide (bt = 0 ∨ 40 < bt.toNat)),
             (stBadParam, decide (63 < flow.toNat) && stream),
             (stBadParam, stream && !rxFlowFree s flow.toNat (.stream c)),
             (stBadParam, !fits253 stream cap pre.toNat post.toNat guard),
             (stBadState, (s.aq.chans.get c).isArmed)] s (fun _ =>
              let t := (s.unconfigure c).modCh c (fun x => { x with
                cfgd := true, state := .configured, kind := kind, index := index, segment := g, unit := u,
                pre := pre.toNat, post := post.toNat, f12 := f12, ring := decide (mode = 1), envelope := env,
                spectra := reductions.getLsbD 1, meas := reductions.getLsbD 2, bt := bt,
                stream := if stream then fin? 64 flow.toNat else none, cap := cap, guard := guard,
                postS := postSOf stream cap pre.toNat post.toNat guard, slot := 0, recNo := 0, records := 0 })
              let t := if stream then
                  bindRx t flow.toNat (.stream c)
                    (streamCharge (983040000 / period) f12 (lenMaxOf s false flow.toNat)) false
                else t
              if t.storeFits && (!stream || admitted t false) then
                doneR (le 4 cap ++ le 4 guard ++ le 4 (postSOf stream cap pre.toNat post.toNat guard)) t
              else refuse stNoResource s)
        | _, _ => refuse stBadParam s)
    s)

/-! ### Detectors, units and pins -/

/-- Whether a trigger source code and index exist (R241, R539). -/
def trigCodeOk (code idx : BitVec 8) : Bool :=
  decide (((1 ≤ code.toNat ∧ code.toNat ≤ 4) ∧ idx = 0) ∨ ((code = 0x08 ∨ code = 0x09) ∧ idx.toNat < 64) ∨
    ((code = 0x10 ∨ code = 0x11) ∧ idx.toNat < 36) ∨ (code = 0x18 ∧ idx.toNat < 16) ∨ (code = 0x20 ∧ idx.toNat < 8) ∨
    ((code = 0x28 ∨ code = 0x30) ∧ idx = 0))

/-- AQ_TRIG_CFG (R245, R253). -/
def execAqTrigCfg (h : CmdHdr) (unit aCode aIdx bCode bIdx op : BitVec 8) (limit holdoff : BitVec 32) (evt : BitVec 8)
    (s : State) : Out :=
  .next (serve h
    { opcode := 0x0604, role := some .operator,
      params := pb unit ++ pb aCode ++ pb aIdx ++ pb bCode ++ pb bIdx ++ pb op ++ pb limit ++ pb holdoff ++ pb evt }
    (fun s => match fin? 16 unit.toNat with
      | none => refuse stBadParam s
      | some u =>
        let t := State.rehorizon { s with aq.units := vmod s.aq.units u (fun x => { x with
          aCode := aCode, aIdx := aIdx, bCode := bCode, bIdx := bIdx, op := op, limit := limit, holdoff := holdoff,
          evt := decide (evt = 1), inbox := [], as := [], bs := [], ignore := none }) }
        checks
          [(stBadParam, !trigCodeOk aCode aIdx || (decide (bCode ≠ 0) && !trigCodeOk bCode bIdx)),
           (stBadParam, decide (3 < op.toNat ∨ limit = 0 ∨ 1 < evt.toNat)), (stBadParam, !t.chansFit)] s
          (fun _ => done t))
    s)

/-- AQ_LEVEL_CFG (R243, R253). -/
def execAqLevelCfg (h : CmdHdr) (det kind index w : BitVec 8) (thr hys : BitVec 16) (dir : BitVec 8) (dwell : BitVec 16)
    (s : State) : Out :=
  .next (serve h
    { opcode := 0x0605, role := some .operator,
      params := pb det ++ pb kind ++ pb index ++ pb w ++ pb thr ++ pb hys ++ pb dir ++ pb dwell }
    (fun s => match fin? 16 det.toNat with
      | none => refuse stBadParam s
      | some d =>
        let t := State.rehorizon { s with aq.levels := vmod s.aq.levels d (fun x => { x with
          enabled := true, kind := kind, index := index, w := w, thr := thr, hys := hys, falling := decide (dir = 1),
          dwell := dwell, line := [], armed := false, run := 0, prev := none, due := [] }) }
        checks
          [(stBadParam, !srcIndexOk kind index), (stBadParam, decide (6 < w.toNat ∨ 1 < dir.toNat ∨ dwell = 0)),
           (stBadParam, decide (0 < thr.toInt ∨ thr.toInt < -10240 ∨ 1280 < hys.toNat)), (stBadParam, !t.chansFit)] s
          (fun _ => done t))
    s)

/-- AQ_TRIGIN_CFG (R242). -/
def execAqTriginCfg (h : CmdHdr) (input edges : BitVec 8) (s : State) : Out :=
  .next (serve h { opcode := 0x0606, role := some .operator, params := pb input ++ pb edges }
    (fun s => match fin? 4 input.toNat with
      | none => refuse stBadParam s
      | some i => checks [(stBadParam, decide (2 < edges.toNat))] s (fun _ =>
          done { s with aq.trigIn := vmod s.aq.trigIn i (fun x => { x with edges := edges.setWidth 2 }) }))
    s)

/-- AQ_TRIGOUT_CFG (R248): ends a pulse in progress; a pin that stays under ACTION keeps its level. -/
def execAqTrigoutCfg (h : CmdHdr) (pin owner kind index polarity : BitVec 8) (width : BitVec 16) (s : State) : Out :=
  .next (serve h
    { opcode := 0x0607, role := some .operator,
      params := pb pin ++ pb owner ++ pb kind ++ pb index ++ pb polarity ++ pb width }
    (fun s => match fin? 4 pin.toNat with
      | none => refuse stBadParam s
      | some i => checks
        [(stBadParam, decide (1 < owner.toNat ∨ 2 < kind.toNat ∨ 1 < polarity.toNat ∨ width = 0)),
         (stBadParam, decide (if kind = 0 then 16 ≤ index.toNat else 36 ≤ index.toNat))] s (fun _ =>
          done { s with aq.trigOut := vmod s.aq.trigOut i (fun x => { x with
            route := decide (owner = 1), kind := kind, index := index, low := decide (polarity = 1), width := width,
            pulse := none, level := x.level && !x.route && decide (owner = 0) }) }))
    s)

/-- The window a parameter names: none for 0xFF. -/
def winParam (w : BitVec 8) : Option (Fin 64) := if w = 0xFF then none else fin? 64 w.toNat
def winBad (w : BitVec 8) : Bool := decide (63 < w.toNat ∧ w ≠ 0xFF)

/-- AQ_ARM (R254). -/
def execAqArm (h : CmdHdr) (chans : BitVec 16) (window : BitVec 8) (s : State) : Out :=
  .next (serve h { opcode := 0x0608, role := some .operator, params := pb chans ++ pb window }
    (fun s => checks [(stBadParam, winBad window), (stBadState, !s.armOk chans (winParam window))] s (fun _ =>
      done (s.arm chans (winParam window))))
    s)

/-- AQ_DISARM (R258). -/
def execAqDisarm (h : CmdHdr) (chans : BitVec 16) (s : State) : Out :=
  .next (serve h { opcode := 0x0609, role := some .operator, params := pb chans }
    (fun s => done ((maskBits 16 chans.toNat).foldl (fun s c => s.chCut c .configured) s))
    s)

/-- AQ_SOFT_TRIG (R241): fires the units at the processing tick, which it answers. -/
def execAqSoftTrig (h : CmdHdr) (units : BitVec 16) (s : State) : Out :=
  .next (serve h { opcode := 0x060A, role := some .operator, params := pb units }
    (fun s => doneR (le 9 s.nowT) (s.softFire units 0x30 s.nowT))
    s)

/-- AQ_RETAIN_SET (R267). -/
def execAqRetainSet (h : CmdHdr) (units : BitVec 8) (s : State) : Out :=
  .next (serve h { opcode := 0x060B, role := some .operator, params := pb units }
    (fun s => done { s with aq.retain := units })
    s)

/-- AQ_BUDGET_GET (R266, R539). -/
def execAqBudgetGet (h : CmdHdr) (s : State) : Out :=
  .next (serve h { opcode := 0x060C, role := some .operator, params := [] }
    (fun s => doneR
      (le 4 (mbUp s.storeUsed) ++ le 1 (s.hk.dramBand.toNat + 1) ++
        (s.aq.chans.toList.map (fun c => le 2 (mbUp (s.chReserve c)))).flatten ++
        (s.an.src.toList.map (fun a => le 2 (mbUp (srcReserve a)))).flatten ++
        le 2 (mbUp ((s.dma.chans.toList.map dmaReserve).sum))) s)
    s)

/-- AQ_STATUS (R268, R270). -/
def execAqStatus (h : CmdHdr) (channel : BitVec 8) (s : State) : Out :=
  .next (serve h { opcode := 0x060D, role := some .operator, params := pb channel }
    (fun s => match fin? 16 channel.toNat with
      | none => refuse stBadParam s
      | some c =>
        let x := s.aq.chans.get c
        doneR (le 4 (regChStat x) ++ pb x.records ++ pb x.missed ++ pb x.short ++ le 4 (regChDead x) ++ pb x.lastHdr) s)
    s)

/-! ### Firings -/

/-- The greatest k of 0 to n at which the interpolated power, over den, is below a level in LOG16, or above it for a falling run. -/
def levelSearch (thr : Int) (pa pb den n : Nat) (falling : Bool) : Nat → Nat → Nat
  | 0, lo => lo
  | i + 1, lo =>
    let mid := lo + 2 ^ i
    let reached := pow10Le ((pa * n + pb * mid) - pa * mid) (n * den) (2 * thr)
    levelSearch thr pa pb den n falling i (if mid ≤ n ∧ reached = falling then mid else lo)

/-- The stamp of a level crossing (R244): interpolated in linear power between the samples a and b, whose powers are over den. -/
def levelStamp (thr : Int) (ta tb pa pb den : Nat) (falling : Bool) : Time :=
  let n := tb - ta
  ta + min n (levelSearch thr pa pb den n falling 40 0 + b2n (Config.roundUp pa pb))

/-- A level detector's run has qualified (R244): it fires with the interpolated stamp. -/
def execLevelCrossing (lv : Fin 16) (s : State) : Out :=
  let d := s.aq.levels.get lv
  .next (match d.due with
  | [] => s
  | (a, b) :: rest =>
    let s := { s with aq.levels := vmod s.aq.levels lv (fun d => { d with due := rest }) }
    let t := levelStamp d.thr.toInt (a.1 * 256) (b.1 * 256) a.2 b.2 (2 ^ d.w.toNat * 2 ^ 30) d.falling
    s.fire 0x18 lv.val t (s.windowSet t))

/-- A firing on its way reaches a unit (R246): ignored during the holdoff; A and OR decide at once, AND and A_THEN_B keep it
for the pairing. -/
def execTriggerFiringArrival (u : Fin 16) (s : State) : Out :=
  let x := s.aq.units.get u
  .next (match x.inbox with
  | [] => s
  | f :: fs =>
    let s := { s with aq.units := vmod s.aq.units u (fun x => { x with inbox := fs }) }
    let held := match x.ignore with
      | some t => decide (f.time < t)
      | none => false
    let isA := decide (x.aCode = f.code ∧ x.aIdx = f.index)
    let isB := decide (x.bCode ≠ 0 ∧ x.bCode = f.code ∧ x.bIdx = f.index)
    if held = true then s
    else if x.op = 0 then (if isA then s.unitFire u f else s)
    else if x.op = 1 then s.unitFire u f
    else { s with aq.units := vmod s.aq.units u (fun x => { x with
        as := if isA then x.as ++ [f] else x.as, bs := if isB then x.bs ++ [f] else x.bs }) })

/-- Whether a firing of A and one of B qualify (R245). -/
def pairOk (op : BitVec 8) (limit : Nat) (a b : Firing) : Bool :=
  if op = 2 then decide (a.time ≤ b.time + limit ∧ b.time ≤ a.time + limit)
  else decide (a.time < b.time ∧ b.time ≤ a.time + limit)

/-- The firing that sets a pair's trigger time. -/
def laterOf (op : BitVec 8) (a b : Firing) : Firing := if op = 2 ∧ b.time < a.time then a else b

/-- The qualifying pair with the earliest trigger time, and among those the earliest firings (log 25). -/
def bestPair (op : BitVec 8) (limit : Nat) (as bs : List Firing) : Option (Firing × Firing) :=
  (as.flatMap (fun a => (bs.filter (fun b => pairOk op limit a b)).map (fun b => (a, b)))).foldl (fun acc p =>
    match acc with
    | none => some p
    | some q =>
      let key := fun (x : Firing × Firing) =>
        ((laterOf op x.1 x.2).time, min x.1.time x.2.time)
      if (key p).1 < (key q).1 ∨ ((key p).1 = (key q).1 ∧ (key p).2 < (key q).2) then some p else some q) none

/-- Decide pairings while the earliest is at least Zu in the past. -/
def State.decidePairs (s : State) (u : Fin 16) : Nat → State
  | 0 => s
  | n + 1 =>
    let x := s.aq.units.get u
    match bestPair x.op (x.limit.toNat * 256) x.as x.bs with
    | none => s
    | some (a, b) =>
      let f := laterOf x.op a b
      if s.nowT < f.time + x.hzn * 256 then s
      else
        let s := { s with aq.units := vmod s.aq.units u (fun x => { x with as := x.as.erase a, bs := x.bs.erase b }) }
        let s := s.unitFire u f
        let after := f.time + x.holdoff.toNat * 256
        let s := { s with aq.units := vmod s.aq.units u (fun x => { x with
          as := x.as.filter (fun y => decide (after ≤ y.time)), bs := x.bs.filter (fun y => decide (after ≤ y.time)) }) }
        s.decidePairs u n

/-- An AND or A_THEN_B unit decides (R246), and forgets the firings that no partner can reach any more. -/
def execTuPairDecision (u : Fin 16) (s : State) : Out :=
  let x := s.aq.units.get u
  .next (if x.op.toNat < 2 then s
  else
    let s := s.decidePairs u (x.as.length + x.bs.length)
    let keep := fun (f : Firing) => decide (s.nowT < f.time + (x.limit.toNat + x.hzn) * 256)
    { s with aq.units := vmod s.aq.units u (fun x => { x with as := x.as.filter keep, bs := x.bs.filter keep }) })

/-- A routed pulse reaches its width (R248). -/
def execTrigOutPulseEnd (pin : Fin 4) (s : State) : Out :=
  .next (match (s.aq.trigOut.get pin).pulse with
  | some e => if e ≤ s.time.ticks then
      { s with aq.trigOut := vmod s.aq.trigOut pin (fun x => { x with pulse := none }) } else s
  | none => s)

/-! ### Records (R255 to R264) -/

/-- What a record stored: its samples before and from the trigger sample, oldest first, and those after its end. -/
structure Stored where
  pre   : List TSample
  post  : List TSample
  after : List TSample

/-- The stored samples of a record (R253, R255): those from the start of its slot, with the post-trigger samples in force for it. -/
def AqChan.stored (x : AqChan) (r : Record) : Stored :=
  let before := x.samples.filter (fun v => decide (v.time < r.sample ∧ v.time ≤ r.endT))
  { pre := (before.take x.pre).reverse
    post := (x.samples.filter (fun v => decide (r.sample ≤ v.time ∧ v.time ≤ r.endT) && !r.streams v.time)).reverse
    after := x.samples.filter (fun v => decide (r.endT < v.time)) }

/-- Frames of 1,024 samples at 50 % overlap, those without a sample that carries SETTLE or SUSPECT (R260). -/
def specFrames : Nat → List TSample → List (List Cplx)
  | 0, _ => []
  | n + 1, vs =>
    let fr := vs.take 1024
    if fr.length < 1024 then []
    else
      (if fr.all (fun v => decide (v.fl &&& 3#8 = 0)) then [fr.map (fun v => v.val)] else []) ++ specFrames n (vs.drop 512)

/-- The powers of bin i of frames, in the unit that binPower has for a frame of 1,024 samples under the Hann window. -/
def frameBins (key : Int) (frames : List (List Cplx)) (i : Int) : List Nat :=
  frames.mapIdx (fun k xs => (binPower 1 1024 [1, key, Int.ofNat k] xs i).1)

/-- Full scale in that unit. -/
def hannFull : Nat := (binPower 1 1024 [] [] 0).2

/-- MAX, MIN and AVG of the bins (R260), from −512 on, with the AVG powers as sums over the frames. -/
def specArrays (bins : List (List Nat)) : List Int :=
  bins.map (fun ps => log16 (ps.foldl max 0) hannFull) ++
  bins.map (fun ps => log16 (ps.foldl min (ps.headD 0)) hannFull) ++
  bins.map (fun ps => log16 ps.sum (max 1 ps.length * hannFull))

/-- CENTRE (R261): the power-weighted mean frequency of AVG in hertz, at a sample rate in hertz. -/
def centreOf (rate : Nat) (avg : List Nat) : Int :=
  ratI ((avg.mapIdx (fun k p => (Int.ofNat k - 512) * Int.ofNat (p * rate))).sum) (1024 * max 1 avg.sum)

/-- How many bins at the head of a list hold at most one 200th of a total. -/
def trimmed (total : Nat) : Nat → List Nat → Nat
  | _, [] => 0
  | acc, p :: ps => if 200 * (acc + p) ≤ total then 1 + trimmed total (acc + p) ps else 0

/-- OBW99 (R261): the width in hertz of the bins that are left when those of 0.5 % of the power are trimmed from each side (log 22). -/
def obwOf (rate : Nat) (avg : List Nat) : Int :=
  ratI (Int.ofNat ((avg.length - trimmed avg.sum 0 avg - trimmed avg.sum 0 avg.reverse) * rate)) 1024

/-- The flags of the samples of a record together. -/
def flagsOver (vs : List TSample) : BitVec 8 := vs.foldl (fun f v => f ||| v.fl) 0

/-- The FLAGS of R263. -/
def recordFlags (x : AqChan) (r : Record) (st : Stored) (streamed frames : Nat) (burst : Bool) : Nat :=
  let past := match x.closedAt with
    | some t => decide (t ≤ r.endT * 256)
    | none => false
  b2n (decide (st.pre.length < x.pre)) + 2 * b2n (decide (0 < streamed)) + 4 * b2n r.trunc + 8 * b2n r.aperCut +
  16 * ((flagsOver (st.pre ++ st.post)).toNat % 8) + 128 * b2n (decide (frames = 0)) + 256 * b2n (x.meas && !burst) +
  512 * b2n x.window.isSome + 1024 * b2n past

/-- The measurements of a record (R261): bytes 104 to 132 of its header. -/
def measBytes (x : AqChan) (free : Nat) (xs : List TSample) (r : Record) (frames : Nat) (avg : List Nat) : List Byte :=
  if x.meas then
    let ps := xs.map (fun v => pwr v.val)
    let pk := ps.foldl max 0
    let b := burstOf x.bt.toNat r.sample xs
    let rate := 983040000 / r.period
    leI 2 (log16 pk (2 ^ 30)) ++ leI 2 (log16 ps.sum (max 1 xs.length * 2 ^ 30)) ++
    (match b with
     | some (_, w, p) => le 4 w ++ le 4 p
     | none => le 4 0xFFFFFFFF ++ le 4 0xFFFFFFFF) ++
    (if frames = 0 then le 4 0x80000000 ++ le 4 0 else leI 4 (centreOf rate avg) ++ leI 4 (obwOf rate avg)) ++
    (match b with
     | some (toa, _, _) => le 9 toa
     | none => le 9 0)
  else (List.range 8).flatMap (fun i => pb (Config.recUnmeasured free i)) |>.take 29

/-- The record header (R262). -/
def State.header (s : State) (c : Fin 16) (x : AqChan) (r : Record) (st : Stored) (streamed frames : Nat) (avg : List Nat) (flags addr : Nat) :
    List Byte :=
  let all := st.pre ++ st.post
  let first := match all with
    | v :: _ => v.time * 256
    | [] => r.sample * 256
  let blank := if x.kind = 2 then (blankBits (flagsOver all)).toNat else 0
  let body := le 2 0xA7C5 ++ le 2 256 ++ le 1 c.val ++ pb x.kind ++ pb x.index ++ le 1 (b2n x.f12) ++ pb x.recNo ++
    le 4 flags ++ le 9 r.trig ++ le 1 r.unit.val ++ pb r.src ++ pb r.rate ++
    (if x.kind.toNat < 2 then pb r.aper else [0]) ++ le 1 blank ++ [0, 0] ++
    pb r.windows ++ le 9 first ++ [0, 0, 0] ++ le 4 st.pre.length ++ le 4 x.pre ++ le 4 st.post.length ++ le 4 streamed ++
    le 4 r.dead ++ pb r.missN ++ le 9 r.missT ++ [0, 0, 0] ++ pb r.inrec ++ le 9 r.inrecT ++ [0, 0, 0] ++
    measBytes x s.free all r frames avg ++ le 1 (s.hk.dramBand.toNat + 1) ++ le 2 frames ++
    le 4 (if x.envelope then cdiv all.length 64 else 0) ++ le 4 addr
  let bytes := padTo 252 body
  bytes ++ pb (crc32c (BitVec.ofNat 32 addr) bytes)

/-- Whether the samples of a record are all there: its last has reached the channel, or it was cut where it stands (R255, R258). -/
def AqChan.ended (x : AqChan) (r : Record) : Bool := decide (r.endT ≤ x.newest) || (r.trunc && !r.aperCut)

/-- The reductions and the header of a record go into its slot (R257, R259 to R264), the header last; in RING mode the next slot's MAGIC is
cleared. -/
def State.writeRecord (s : State) (c : Fin 16) (x : AqChan) (r : Record) (st : Stored) (streamed : Nat) : Nat × State :=
  let all := st.pre ++ st.post
  let frames := if x.spectra then specFrames all.length all else []
  let bins := (List.range 1024).map (fun k => frameBins s.free frames (Int.ofNat k - 512))
  let fl := recordFlags x r st streamed frames.length (burstOf x.bt.toNat r.sample all).isSome
  let addr := s.slotAddr x x.slot
  let hdr := s.header c x r st streamed frames.length (bins.map (fun ps => ps.sum)) fl addr
  let s := s.storeWrite (addr + iqOffset x.cap x.envelope) (all.flatMap (fun v => sampleBytes x.f12 v.val))
  let s := if x.envelope then
      s.storeWrite (addr + 8192) (envelopeOf (cdiv all.length 64) (all.map (fun v => v.val))) else s
  let s := if x.spectra then
      s.storeWrite (addr + 256) (if frames.isEmpty then (List.replicate 3072 (le 2 0x8000)).flatten else (specArrays bins).flatMap (leI 2))
    else s
  let s := s.storeWrite (addr + 6400) (List.replicate 1792 0)
  let s := s.storeWrite addr hdr
  (fl, if x.ring then s.storeWrite (s.slotAddr x (s.nextSlot x)) [0, 0] else s)

/-- A record ends (R257): what its flow still fills is sent, the slot is written, and the samples after its end begin the next. -/
def execRecordEnd (c : Fin 16) (s : State) : Out :=
  let x := s.aq.chans.get c
  .next (match x.state, x.record with
  | .recording, some r =>
    if !x.ended r then s
    else
      let st := x.stored r
      let total := if r.endT < r.sample then 0 else (r.endT - r.sample) / r.period + 1
      let streamed := if x.stream.isSome then total - st.post.length else 0
      let s := match x.stream with
        | some f => s.closePend f ([BitVec.ofNat 8 c.val, 1, 0, 0] ++ pb x.recNo)
        | none => s
      let w := s.writeRecord c x r st streamed
      let addr := s.slotAddr x x.slot
      let s := w.2.modCh c (fun x => { x with
        state := .rearm, endT := r.endT, recFlags := BitVec.ofNat 16 w.1, recSlot := addr,
        lastHdr := BitVec.ofNat 32 addr, samples := st.after, fill := x.fillN, fillN := 0
        short := if st.pre.length < x.pre then satAdd x.short 1 else x.short })
      { s with free := s.free + 1 }
  | _, _ => s)

/-- The re-arm (R257): the dead time is known, ACQ_RECORD is emitted, and the channel goes on in its next slot, is DONE after
the last one, or takes the state its disarm left it. -/
def execRecordRearm (c : Fin 16) (s : State) : Out :=
  let x := s.aq.chans.get c
  .next (match x.state, x.record with
  | .rearm, some r =>
    let dead := s.time.ticks - x.endT
    let d16 := BitVec.ofNat 16 (min dead 65535)
    let last := s.lastSlot x
    let s := s.emitSet 0x0601 (0x0600 + c.val) s.nowT r.windows.toNat
      (le 1 c.val ++ pb x.recNo ++ le 4 x.recSlot ++ pb x.recFlags)
    let s := s.modCh c (fun x => { x with
      record := none, records := x.records + 1, recNo := x.recNo + 1, deadHdr := dead, deadLast := d16,
      deadMax := if x.deadMax < d16 then d16 else x.deadMax,
      slot := if last then x.slot else s.nextSlot x,
      state := if x.next = .armed ∧ last then .done else x.next
      samples := if x.next = .armed ∧ !last then x.samples else [] })
    if x.next = .armed ∧ last then s.emitNow 0x0603 (0x0600 + c.val) (le 1 c.val ++ pb (x.records + 1)) else s
  | _, _ => s)

end Sys2Proof.Machine
end

