-- ==== Sys2Proof/Machine/CalOps.lean ====
section
/-! DEFINITION. Operations of calibration: calibrated values against temperature, the record of R445, slots and gaps, claims
(15_calibration.md). -/

namespace Sys2Proof.Machine

/-! ### Kinds (R432) -/

def calKinds : List CalKind := [.rxIq, .txIq, .gain, .array, .loPhase, .orx, .stitchEq, .hkTrim]

/-- Bit of a kind in the kind mask. -/
def CalKind.bit : CalKind → Nat
  | .rxIq => 0
  | .txIq => 1
  | .gain => 2
  | .array => 3
  | .loPhase => 4
  | .orx => 5
  | .stitchEq => 6
  | .hkTrim => 7

/-- Slot length of a kind in ticks. -/
def CalKind.slotLen : CalKind → Nat
  | .rxIq => 16384
  | .txIq => 12288
  | .gain => 8192
  | .array => 16384
  | .loPhase => 8192
  | .orx => 16384
  | .stitchEq => 19661
  | .hkTrim => 0

/-- Whether a kind measures through the ORX. -/
def CalKind.usesOrx : CalKind → Nat → Bool
  | .txIq, _ => true
  | .gain, k => decide (2 ≤ k)
  | .orx, _ => true
  | _, _ => false

/-- Whether a kind's slots need the reference tile. -/
def CalKind.usesRef (k : CalKind) : Bool := decide (k = .array ∨ k = .loPhase)

/-- Change one tile's calibration state. -/
def State.modCal (s : State) (t : Fin 8) (f : CalTile → CalTile) : State := { s with cal.tiles := vmod s.cal.tiles t f }

/-- The tile of the reference path. -/
def State.refTile (s : State) : Fin 8 := tileOf s.cal.refPath

/-- One slot for each path. -/
def eachPath (from_ : Nat) : List (Nat × BitVec 8) := (List.range 8).map (fun i => (from_ + i, 1#8 <<< i))

/-- The slots of a calibration (R432): a number and the paths each covers. Transmit gain leaves out the paths without a coupling (R85). A member of the stitch set also measures the seam
with the next member; each f_c of a STITCH_EQ list takes the slots anew (R433). -/
def State.calWork (s : State) (t : Fin 8) (k : CalKind) (fcs : Nat) : List (Nat × BitVec 8) :=
  let both : List (Nat × BitVec 8) := [(0, 0xFF#8), (1, 0xFF#8)]
  match k with
  | .rxIq => both
  | .txIq => eachPath 0
  | .gain => both ++ (eachPath 2).filter (fun w => (s.paths.get (pathOf t (Fin.ofNat 8 (w.1 - 2)))).coupling.isSome)
  | .array => both ++ eachPath 2
  | .loPhase => [(0, 1#8)]
  | .orx => [(0, 1#8)]
  | .stitchEq =>
    let seam := (List.range 8).any (fun j => decide (t.val < j) && s.an.stitch.members.getLsbD j)
    let own := eachPath 0 ++ (if s.an.stitch.members.getLsbD t.val && seam then [(8, 1#8)] else [])
    (List.replicate (max 1 fcs) own).flatten
  | .hkTrim => []

/-! ### Values at five temperatures (R443, R444) -/

/-- The points in 1/64 °C. -/
def calPoint (i : Nat) : Int := ([-2560, 0, 2560, 5120, 7040] : List Int).getD i 7040

/-- The lower of the two points that bracket a temperature. -/
def calBelow (t : Int) : Nat := if t < 0 then 0 else if t < 2560 then 1 else if t < 5120 then 2 else 3

/-- A value from its five points at a temperature. -/
def interpAt (v : Nat → Int) (t : Int) : Int :=
  let t := clampI (-2560) 7040 t
  let i := calBelow t
  v i + ratI ((v (i + 1) - v i) * (t - calPoint i)) (calPoint (i + 1) - calPoint i).toNat

/-- A halfword of the record, signed. -/
def State.calHw (s : State) (k : Nat) : Int := memGet 0 s.cal.values k

/-- Write a halfword of the record. -/
def State.setHw (s : State) (k : Nat) (v : Int) : State :=
  { s with cal.values := memSet 0 s.cal.values k (BitVec.ofInt 16 v).toInt }

/-- The value whose points lie a stride apart from a halfword on. -/
def State.calAt (s : State) (base stride : Nat) (t : Int) : Int := interpAt (fun i => s.calHw (base + i * stride)) t

/-- A result r measured at a temperature moves the points that bracket it, or the point or end it stands at (R444). -/
def State.calMove (s : State) (base stride : Nat) (t r : Int) : State :=
  let d := r - s.calAt base stride t
  let i := calBelow t
  let mv := fun (s : State) (k : Nat) => s.setHw (base + k * stride) (s.calHw (base + k * stride) + d)
  if t ≤ -2560 then mv s 0
  else if 7040 ≤ t then mv s 4
  else if t = calPoint i then mv s i
  else mv (mv s i) (i + 1)

/-! ### Places in the record (R445; the order within an object is the model's, log 26) -/

/-- Halfwords of one point's set of a path: per port DC I and Q, image I and Q, gain, phase; transmit LO I and Q, image I and
Q, gain, phase; D_cal; six reserved. -/
def pathSet : Nat := 25
def pathBase (p : Fin 64) : Nat := 128 + 128 * p.val

/-- A path value at the tile's temperature: field of the set. -/
def State.pathVal (s : State) (p : Fin 64) (field : Nat) : Int :=
  s.calAt (pathBase p + field) pathSet (s.cal.tiles.get (tileOf p)).temp

/-- D_cal of a path in 1/64-tick steps within ±32 (R434). -/
def State.dCal (s : State) (p : Fin 64) : Int := clampI (-32) 32 (s.pathVal p 18)

/-- Receive gain of a path's port and its transmit gain in 1/64 dB. -/
def State.rxGain (s : State) (p : Fin 64) (portB : Bool) : Int := s.pathVal p (if portB then 10 else 4)
def State.txGain (s : State) (p : Fin 64) : Int := s.pathVal p 16

/-- Halfword of a tile's area: 16 LO_PHASE entries of 9 halfwords (f_LO in four, five points), then the ORX sets of 20
halfwords, then the trims of the four bands at five points. -/
def tileBase (t : Fin 8) : Nat := 8320 + 256 * t.val

/-- f_LO of a tile's LO_PHASE entry. -/
def State.loEntryF (s : State) (t : Fin 8) (e : Nat) : Nat :=
  (List.range 4).foldl (fun a i => a + (s.calHw (tileBase t + 9 * e + i) % 65536).toNat * 2 ^ (16 * i)) 0

/-- The LO_PHASE entry whose f_LO matches a frequency to within 1 Hz (R434). -/
def State.loEntry (s : State) (t : Fin 8) (f : Nat) : Option Nat :=
  (List.range 16).find? (fun e => decide (s.loEntryF t e ≠ 0 ∧ s.loEntryF t e ≤ f + 1 ∧ f ≤ s.loEntryF t e + 1))

/-- The LO phase rotation applied to a tile at its frequency. -/
def State.loPhase (s : State) (t : Fin 8) : Int :=
  (s.loEntry t (loOf (s.radio.get t).fc)).elim 0 (fun e => s.calAt (tileBase t + 9 * e + 4) 1 (s.cal.tiles.get t).temp)

/-- Halfword of an entry of a lane: f_c in four halfwords, validity in two, then five sets of 257 EQ and 257 ripple values. -/
def eqBase (l : Fin 8) (e : Nat) : Nat := 10368 + 10304 * l.val + 2576 * e

/-- f_c of a lane's table entry, none while it is not valid. -/
def State.eqEntryF (s : State) (l : Fin 8) (e : Nat) : Option Nat :=
  if s.calHw (eqBase l e + 4) = 0 then none
  else some ((List.range 4).foldl (fun a i => a + (s.calHw (eqBase l e + i) % 65536).toNat * 2 ^ (16 * i)) 0)

/-- The table entry valid for a lane's current f_c (R226). -/
def State.eqEntry (s : State) (l : Fin 8) : Option Nat :=
  (List.range 4).find? (fun e => s.eqEntryF l e == some (s.radio.get l).fc)

/-- A point k of 257 of a lane's EQ (or ripple) table at the tile's temperature. -/
def State.eqPoint (s : State) (l : Fin 8) (e : Nat) (ripple : Bool) (k : Nat) : Int :=
  s.calAt (eqBase l e + 6 + (if ripple then 257 else 0) + k) 514 (s.cal.tiles.get l).temp

/-- EQ or ripple at an offset from the centre, given as num / den of 3.125 MHz steps from −400 MHz, interpolated linearly
(R226). -/
def State.eqAt (s : State) (l : Fin 8) (ripple : Bool) (num : Int) (den : Nat) : Int :=
  (s.eqEntry l).elim 0 (fun e =>
    let x := clampI 0 (256 * den) num
    let k := min 255 (fdivI x den).toNat
    let a := s.eqPoint l e ripple k
    let b := s.eqPoint l e ripple (k + 1)
    a + ratI ((b - a) * (x - k * den)) den)

/-- HK_TRIM sets: 25 halfwords a point. -/
def hkBase : Nat := 92800

/-- Shift the entries of an area up by one entry: the oldest, at its end, falls out (R433, R434). -/
def shiftEntries (m : List (Nat × Int)) (base size count : Nat) : List (Nat × Int) :=
  let lo := m.filter (fun c => decide (c.1 < base))
  let inn := (m.filter (fun c => decide (base ≤ c.1 ∧ c.1 < base + size * (count - 1)))).map (fun c => (c.1 + size, c.2))
  let hi := m.filter (fun c => decide (base + size * count ≤ c.1))
  lo ++ inn ++ hi

/-- Write four halfwords of a frequency. -/
def State.setFreq (s : State) (base f : Nat) : State :=
  (List.range 4).foldl (fun s i => s.setHw (base + i) (Int.ofNat (f / 2 ^ (16 * i) % 65536))) s

/-- The LO_PHASE entry for a frequency, made first where there is none. -/
def State.needLo (s : State) (t : Fin 8) (f : Nat) : State × Nat :=
  (s.loEntry t f).elim
    (State.setFreq { s with cal.values := shiftEntries s.cal.values (tileBase t) 9 16 } (tileBase t) f, 0)
    (fun e => (s, e))

/-- The table entry for a lane's f_c, made first where there is none. -/
def State.needEq (s : State) (l : Fin 8) : State × Nat :=
  (s.eqEntry l).elim
    (((State.setFreq { s with cal.values := shiftEntries s.cal.values (eqBase l 0) 2576 4 } (eqBase l 0)
      (s.radio.get l).fc).setHw (eqBase l 0 + 4) 1), 0)
    (fun e => (s, e))

/-- Apply a calibration's results at their temperature (R434, R444): each names a value of its kind. Paths have 25 values
each, numbered by path, then 200 for the tile-common delay of an ARRAY, which goes to the trim of the band in force. -/
def State.calApply (s : State) (t : Fin 8) (k : CalKind) (tm : Int) (rs : List (BitVec 16 × BitVec 16)) : State :=
  match k with
  | .rxIq | .txIq | .gain | .array =>
    rs.foldl (fun s x =>
      let i := x.1.toNat
      if i < 200 then
        match fin? 8 (i / 25) with
        | some p => s.calMove (pathBase (pathOf t p) + i % 25) pathSet tm x.2.toInt
        | none => s
      else if i = 200 ∧ k = .array then
        let band := (s.hk.tileBand.get t).toNat
        s.calMove (tileBase t + 244 + band) 4 tm x.2.toInt
      else s) s
  | .loPhase =>
    let n := s.needLo t (loOf (s.radio.get t).fc)
    rs.foldl (fun s x => if x.1 = 0 then s.calMove (tileBase t + 9 * n.2 + 4) 1 tm x.2.toInt else s) n.1
  | .orx =>
    rs.foldl (fun s x => if x.1.toNat < 20 then s.calMove (tileBase t + 144 + x.1.toNat) 20 tm x.2.toInt else s) s
  | .stitchEq =>
    let n := s.needEq t
    rs.foldl (fun s x =>
      if x.1.toNat < 514 then s.calMove (eqBase t n.2 + 6 + x.1.toNat) 514 tm x.2.toInt else s) n.1
  | .hkTrim =>
    rs.foldl (fun s x => if x.1.toNat < 25 then s.calMove (hkBase + x.1.toNat) 25 tm x.2.toInt else s) s

/-- The marks of CALBUS are cleared: its source and its sinks. -/
def State.clearMarks (s : State) : State :=
  { s with
    paths := vmap s.paths (fun _ p => { p with cbSource := false, cbInjectA := false, cbInjectB := false, loopback := false })
    res := vmap s.res (fun _ r => { r with orx.fed := false }) }

/-- Mark the source of CALBUS and its sinks (R86, R87): couplers at ports A and B, and observation receivers. -/
def State.markBus (s : State) (src : Fin 64) (loop : Bool) (a b : Fin 64 → Bool) (o : Fin 8 → Bool) : State :=
  { s with
    paths := vmap s.paths (fun i p =>
      { p with cbSource := decide (i = src), loopback := decide (i = src) && loop, cbInjectA := a i, cbInjectB := b i })
    res := vmap s.res (fun t r => { r with orx.fed := o t }) }

/-- Source and sinks of a slot of a kind on a tile (R432). -/
def State.slotBus (s : State) (t : Fin 8) (k : CalKind) (n : Nat) : State :=
  let own := fun (i : Fin 64) => decide (tileOf i = t)
  let none_ := fun (_ : Fin 64) => false
  let nth := fun (j : Nat) => pathOf t (Fin.ofNat 8 j)
  let orx := fun (u : Fin 8) => decide (u = t)
  let dry := fun (_ : Fin 8) => false
  match k with
  | .rxIq => s.markBus (nth 0) false (if n = 0 then own else none_) (if n = 1 then own else none_) dry
  | .txIq => s.markBus (nth n) true none_ none_ orx
  | .gain =>
    if n < 2 then s.markBus (nth 0) false (if n = 0 then own else none_) (if n = 1 then own else none_) dry
    else s.markBus (nth (n - 2)) true none_ none_ orx
  | .array =>
    if n < 2 then s.markBus s.cal.refPath false (if n = 0 then own else none_) (if n = 1 then own else none_) dry
    else s.markBus (nth (n - 2)) false (fun i => decide (i = s.cal.refPath)) none_ dry
  | .loPhase => s.markBus s.cal.refPath false (fun i => decide (i = nth 0)) none_ dry
  | .orx => s.markBus (nth 0) false none_ none_ orx
  | .stitchEq => s.markBus (nth 0) false (fun i => decide (i = s.lanePath t)) none_ dry
  | .hkTrim => s

/-! ### Slots (R436 to R439) -/

/-- The calibration of a kind pending on a tile. -/
def State.calPending (s : State) (t : Fin 8) (k : CalKind) : Option CalPend :=
  (s.cal.tiles.get t).pending.find? (fun c => decide (c.kind = k))

/-- Change the calibration of a kind pending on a tile. -/
def State.modPend (s : State) (t : Fin 8) (k : CalKind) (f : CalPend → CalPend) : State :=
  s.modCal t (fun x => { x with pending := x.pending.map (fun c => if c.kind = k then f c else c) })

/-- A slot begins on a tile (R436): it runs, and where it serves the tile's own calibration it holds CALBUS and asks for the
ORX. -/
def State.slotBegin (s : State) (t : Fin 8) (h : BitVec 16) : State :=
  let s := s.modCal t (fun x => { x with running := some h })
  match (s.cal.tiles.get t).placed.find? (fun x => decide (x.handle = h)) with
  | none => s
  | some x =>
    if x.client ≠ t then s
    else match (s.calPending t x.kind).bind (fun c => c.work.head?) with
    | none => s
    | some w =>
      let s := { s with cal.bus := .calibration t }
      let s := if x.kind.usesOrx w.1 then
          s.modRes t (fun r => { r with orx.reqCal := some (BitVec.ofNat 3 (if w.1 < 2 then 0 else w.1 - 2)) }) else s
      (s.slotBus t x.kind w.1).orxServe t

/-- CALBUS and the ORX are given back after a slot of a tile. -/
def State.slotFree (s : State) (t : Fin 8) : State :=
  let s := if s.cal.bus = .calibration t then { (s.clearMarks) with cal.bus := .free } else s
  s.modRes t (fun r =>
    { r with
      orx.reqCal := none
      orx.user := if r.orx.user = .calibration then .none else r.orx.user
      orx.startAt := if r.orx.user = .calibration then none else r.orx.startAt })

/-- The running slot of a tile ends (R439): complete, its part of the work is done; else it is counted and its work
repeats. A slot whose samples carry SUSPECT is repeated too. -/
def State.slotEnd (s : State) (t : Fin 8) (complete : Bool) : State :=
  let x := s.cal.tiles.get t
  match x.running with
  | none => s
  | some h =>
    match x.placed.find? (fun r => decide (r.handle = h)) with
    | none => s.modCal t (fun x => { x with running := none })
    | some r =>
      let ok := complete && !s.tileUnlocked t
      let s := s.modCal t (fun x =>
        { x with
          running := none, placed := x.placed.filter (fun r => decide (r.handle ≠ h)),
          done := if ok then satAdd x.done 1 else x.done, ended := if complete then x.ended else satAdd x.ended 1 })
      if r.client ≠ t then s
      else
        let s := s.slotFree t
        if ok then s.modPend t r.kind (fun c => { c with work := c.work.drop 1 }) else s

/-- A placed slot that has not begun is cancelled (R439). -/
def State.slotCancel (s : State) (t : Fin 8) (h : BitVec 16) : State :=
  let s := s.dropAct (tileQ t) h
  s.modCal t (fun x =>
    { x with
      placed := x.placed.filter (fun r => decide (r.handle ≠ h)), ended := satAdd x.ended 1 })

/-- A running slot of a tile is ended at once and the tile starts home (R439). -/
def State.slotCut (s : State) (t : Fin 8) : State :=
  if (s.cal.tiles.get t).running.isSome then
    let s := s.slotEnd t false
    let r := s.radio.get t
    if r.burst.isSome then
      let s := s.modRadio t (fun r => { r with burst := none })
      if r.transit.isSome then
        s.modRadio t (fun r => { r with burst := some { kind := .calSlot, handle := 0, startT := 0, endT := 0, muted := false } })
      else s.goHome t s.time.ticks
    else s
  else s

/-- Every slot of a tile for which p holds of its interval yields: cancelled before it begins, ended while it runs (R439). The
slot a reference tile lends falls with it. -/
def State.slotYield (s : State) (t : Fin 8) (p : CalSlotRun → Bool) : State :=
  ((s.cal.tiles.get t).placed.filter p).foldl (fun s r =>
    if (s.cal.tiles.get t).running = some r.handle then s.slotCut t else s.slotCancel t r.handle) s

/-- An instant inside a slot's interval. -/
def CalSlotRun.has (r : CalSlotRun) (x : Nat) : Bool := decide (r.start ≤ x ∧ x ≤ r.stop)

/-- A tile action enqueued with S or T inside a slot's interval (R439). -/
def State.calYieldAct (s : State) (t : Fin 8) (startT endT : Nat) : State :=
  s.slotYield t (fun r => r.has startT || r.has endT)

/-- A window of the calibration mask opens, or is defined to open, at an instant (R439). -/
def State.calYieldWin (s : State) (w : Fin 64) (at_ : Nat) : State :=
  if s.cal.gapMask.getLsbD w.val then
    (List.finRange 8).foldl (fun s t => s.slotYield t (fun r => r.has at_)) s
  else s

/-! ### Gaps, deadlines and claims (R437, R440, R441) -/

/-- Whether a tile offers gaps at all: not in STITCH, nor OUT in OFF or SLEEP. -/
def State.offersGaps (s : State) (t : Fin 8) : Bool :=
  let r := s.radio.get t
  decide (r.use ≠ .stitch) && decide (r.state ≠ .off ∧ r.state ≠ .sleep)

/-- Whether a window of the mask is OPEN, or due to open, in an interval. -/
def State.winBlocks (s : State) (a b : Nat) : Bool :=
  (List.finRange 64).any (fun w =>
    let x := s.time.windows.get w
    s.cal.gapMask.getLsbD w.val &&
    (match x.state, x.openT with
     | .open, _ => match x.closeT with
       | some c => decide (a * 256 < c)
       | none => true
     | .pending, some o => decide (o ≤ b * 256) && (match x.closeT with
       | some c => decide (a * 256 < c)
       | none => true)
     | _, _ => false))

/-- Whether the interval from S to the return home is a gap of a tile (R437). -/
def State.gapAt (s : State) (t : Fin 8) (a len : Nat) : Bool :=
  let r := s.radio.get t
  let b := a + transTicks r.home .cal + len + transTicks .cal r.home
  s.offersGaps t && decide (r.state = r.home) && r.transit.isNone && r.burst.isNone && decide (r.retune = .none) &&
  s.settled t && (s.cal.tiles.get t).claim.isNone &&
  (s.time.queues.get (tileQ t)).acts.all (fun x =>
    let tt := cdiv x.time 256
    let st := tt - s.leadOf t x.act
    decide (b + 2458 < st ∨ st < a) && decide (b + 2458 < tt ∨ tt < a)) &&
  (s.cal.tiles.get t).placed.all (fun x => decide (x.stop < a ∨ b < x.start)) && !s.winBlocks a b

/-- CALBUS is free over an interval: nobody else has a slot there. -/
def State.busFree (s : State) (a b : Nat) : Bool :=
  (match s.cal.bus with
   | .diag _ till => decide (till < a)
   | _ => true) &&
  (List.finRange 8).all (fun t => (s.cal.tiles.get t).placed.all (fun x => decide (x.stop < a ∨ b < x.start)) &&
    (match (s.cal.tiles.get t).claim with
     | some c => decide (c.start + c.len < a ∨ b < c.start)
     | none => true))

/-- Put a CAL_SLOT on a tile's queue for a client's calibration, S at a tick (R436). -/
def State.placeSlot (s : State) (t client : Fin 8) (k : CalKind) (a : Nat) : State :=
  let r := s.radio.get t
  let tt := a + transTicks r.home .cal
  let h := s.time.nextHandle
  let act : QAct := { handle := h, act := .calSlot k.slotLen, time := tt * 256, tol := 64, window := none }
  let s := s.modQueue (tileQ t) (fun q =>
    { q with acts := q.acts.takeWhile (fun x => decide (x.time ≤ act.time)) ++
        act :: q.acts.dropWhile (fun x => decide (x.time ≤ act.time)) })
  let s := { s with time.nextHandle := nextH h }
  let run : CalSlotRun :=
    { kind := k, client := client, handle := h, start := a, stop := tt + k.slotLen + transTicks .cal r.home }
  s.modCal t (fun x => { x with placed := x.placed ++ [run] })

/-- Lead of a slot the firmware places (log 27). -/
def slotLead : Nat := 19661

/-- Emit CAL_DONE (R451) and take the calibration off the tile's list. -/
def State.calDone (s : State) (t : Fin 8) (k : CalKind) (st : BitVec 8) (tm failing : BitVec 16) : State :=
  let s := s.modCal t (fun x => { x with pending := x.pending.filter (fun c => decide (c.kind ≠ k)) })
  s.emitNow 0x0801 (0x0800 + t.val) (le 1 k.bit ++ le 1 t.val ++ [st] ++ pb tm ++ pb failing)

/-- Whether a queue has room for one more action (R46). -/
def State.queueRoom (s : State) (t : Fin 8) : Bool := decide ((s.time.queues.get (tileQ t)).acts.length < 256)

/-- Try to place the next slot of a calibration: whether one could be placed, and the state after. -/
def State.tryPlace (s : State) (t : Fin 8) (c : CalPend) : Option State :=
  let a := s.time.ticks + slotLead
  let home := (s.radio.get t).home
  let b := a + transTicks home .cal + c.kind.slotLen + transTicks .cal home
  if (s.cal.tiles.get t).placed.length ≥ 2 || !s.gapAt t a c.kind.slotLen || !s.busFree a b || !s.queueRoom t then none
  else if c.kind.usesRef && decide (s.refTile ≠ t) then
    if s.gapAt s.refTile a c.kind.slotLen && s.queueRoom s.refTile && decide ((s.cal.tiles.get s.refTile).placed.length < 2) then
      some ((s.placeSlot t t c.kind a).placeSlot s.refTile t c.kind a)
    else none
  else some (s.placeSlot t t c.kind a)

/-- Announce a claim for the next slot's first path (R441). -/
def State.announceClaim (s : State) (t : Fin 8) (c : CalPend) : State :=
  match c.work.head? with
  | none => s
  | some w =>
    let i := ((List.range 8).find? (fun i => w.2.getLsbD i)).getD 0
    let p := pathOf t (Fin.ofNat 8 i)
    let a := s.time.ticks + slotLead
    let s := s.modCal t (fun x =>
      { x with claim := some { kind := c.kind, path := p, start := a, len := c.kind.slotLen, running := false } })
    let s := s.modPend t c.kind (fun c => { c with missed := 0 })
    s.emitNow 0x0803 (0x0800 + t.val)
      (le 1 c.kind.bit ++ le 1 p.val ++ le 8 (a * 256) ++ le 2 c.kind.slotLen)

/-- A claim ends without its measurement (R441): by thermal shutdown, loss of lock or CAL_ABORT. -/
def State.claimCut (s : State) (t : Fin 8) : State :=
  match (s.cal.tiles.get t).claim with
  | none => s
  | some c =>
    let s := s.modPath c.path (fun p => { p with claimMute := false })
    let s := if c.running then s.slotFree t else s
    (s.modCal t (fun x => { x with claim := none })).noteMutes

/-- Judge one pending calibration of a tile at a millisecond (R440). -/
def State.judgeCal (s : State) (t : Fin 8) (c : CalPend) : State :=
  if c.kind.usesRef && decide ((s.radio.get t).fc ≠ (s.radio.get s.refTile).fc) then
    s.calDone t c.kind stBadState 0x8000 0
  else if c.work.isEmpty || !s.offersGaps t then s
  else if (s.cal.tiles.get t).placed.any (fun r => decide (r.kind = c.kind ∧ r.client = t)) ||
      (match (s.cal.tiles.get t).claim with
       | some x => decide (x.kind = c.kind)
       | none => false) then s
  else match s.tryPlace t c with
  | some s => s.modPend t c.kind (fun c => { c with missed := 0 })
  | none =>
    if s.nowT < c.deadline then s
    else
      let n := satAdd c.missed 1
      let late := !c.overdue && decide (8 ≤ n.toNat)
      let s := s.modPend t c.kind (fun c => { c with missed := n, overdue := c.overdue || late })
      let s := if late then
          s.emitNow 0x0802 (0x0800 + t.val) (le 1 c.kind.bit ++ le 1 t.val ++ pb n) else s
      if s.cal.claimLim ≠ 0 ∧ s.cal.claimLim.toNat ≤ n.toNat ∧ (s.cal.tiles.get t).claim.isNone ∧
          s.busFree (s.time.ticks + slotLead) (s.time.ticks + slotLead + c.kind.slotLen) then
        s.announceClaim t c
      else s

/-! ### Records in flash (R445, R446, R449) -/

/-- A byte of the record's body from its halfwords. -/
def recByte (vals : List (Nat × Int)) (o : Nat) : Byte :=
  BitVec.ofInt 8 (fdivI (memGet 0 vals (o / 2)) (if o % 2 = 0 then 1 else 256))

/-- The header with a CRC field. -/
def StoreRun.header (r : StoreRun) (crc : Nat) : List Byte :=
  le 4 0x4B43414C ++ le 4 185856 ++ pb r.seq ++ le 9 r.time ++ pb r.maxT ++ pb r.kinds ++ List.replicate 228 0 ++ le 4 crc

/-- The record as bytes. -/
def StoreRun.body (r : StoreRun) : List Byte := (List.range 185600).map (fun i => recByte r.values (i + 256))

/-- Flash offset of a slot. -/
def CalBlock.slotOff (c : CalBlock) (slotB : Bool) : Nat := (if slotB then c.offB else c.offA).toNat * 65536

/-- The header of a store, its CRC folded with the slot's offset. -/
def State.storeHeader (s : State) (r : StoreRun) : List Byte :=
  let crc := crc32c (BitVec.ofNat 32 (s.cal.slotOff r.slotB)) (r.header 0 ++ r.body)
  r.header crc.toNat

/-- Bytes of the flash. -/
def State.flashRead (s : State) (a n : Nat) : List Byte := memRead 0xFF s.pup.flash a n

/-- A program of flash bytes: bits only fall. -/
def State.flashWrite (s : State) (a : Nat) (bs : List Byte) : State :=
  let xs := List.zipWith (fun (x y : Byte) => x &&& y) (s.flashRead a bs.length) bs
  { s with pup.flash := memWrite 0xFF s.pup.flash a xs }

/-- An erase of flash bytes. -/
def State.flashErase (s : State) (a n : Nat) : State := { s with pup.flash := memClear s.pup.flash a (a + n) }

/-- Whether a slot holds a valid record (R446). -/
def State.calSlotValid (s : State) (slotB : Bool) : Bool :=
  let a := s.cal.slotOff slotB
  let hd := s.flashRead a 256
  decide (unle (hd.take 4) = 0x4B43414C) && decide (unle ((hd.drop 4).take 4) = 185856) &&
  decide (unle ((hd.drop 252).take 4) =
    (crc32c (BitVec.ofNat 32 a) (hd.take 252 ++ [0, 0, 0, 0] ++ s.flashRead (a + 256) 185600)).toNat)

/-- SEQ of a slot's record. -/
def State.calSlotSeq (s : State) (slotB : Bool) : BitVec 32 :=
  BitVec.ofNat 32 (unle (s.flashRead (s.cal.slotOff slotB + 8) 4))

/-- The later of two SEQ values modulo 2^32. -/
def seqLater (a b : BitVec 32) : Bool := decide (0 < (a - b).toNat ∧ (a - b).toNat < 2 ^ 31)

/-- The values of a record in flash. -/
def State.recValues (s : State) (slotB : Bool) : List (Nat × Int) :=
  let a := s.cal.slotOff slotB
  (List.range 92800).foldl (fun m i =>
    memSet 0 m (i + 128) (BitVec.ofNat 16 (unle (s.flashRead (a + 256 + 2 * i) 2))).toInt) []

/-- At boot the firmware uses the valid slot with the later SEQ, else the factory values (R446). -/
def State.calBoot (s : State) : State :=
  let va := s.calSlotValid false
  let vb := s.calSlotValid true
  if va || vb then
    let b := vb && (!va || seqLater (s.calSlotSeq true) (s.calSlotSeq false))
    { s with cal := { s.cal with
        values := s.recValues b, factory := false, slotB := b, seq := s.calSlotSeq b,
        kinds := (s.flashRead (s.cal.slotOff b + 23) 1).headD 0 } }
  else { s with cal.factory := true }

/-- CH63 and CU7 in the hands of the firmware (R407, R449): a record store starts the channel, which waits for each page and holds the unit. -/
def State.firmwareDma (s : State) (st : DmState) : State :=
  let busy := decide (st = .wait)
  { s with dma := { s.dma with
    chans := vmod s.dma.chans 63 (fun x => { x with state := st, cu := if busy then some 7 else none })
    units := vmod s.dma.units 7 (fun u => { u with owner := if busy then some 63 else none }) } }

/-- The store ends with a status (R449): CAL_STORED. A complete store is the record in use. -/
def State.storeEnd (s : State) (st : BitVec 8) : State :=
  match s.cal.store with
  | none => s
  | some r =>
    let pages := BitVec.ofNat 16 r.pages
    let s := { s with cal := { s.cal with
      store := none, pagesN := pages, last := st,
      slotB := if st = stDone then r.slotB else s.cal.slotB,
      seq := if st = stDone then r.seq else s.cal.seq,
      factory := if st = stDone then false else s.cal.factory } }
    let s := { s with pup.job := if s.pup.job = FlashJob.calStore then .none else s.pup.job }
    let s := if (s.dma.chans.get 63).state = .wait then s.firmwareDma .done else s
    s.emitNow 0x0804 0x08FF ([st, BitVec.ofNat 8 (b2n r.slotB)] ++ pb r.seq ++ pb pages)

/-- A page of the store is programmed: pages 1 to 725, then page 0 (R449). After a thermal shutdown no further page
starts. -/
def State.storePage (s : State) (r : StoreRun) : State :=
  let a := s.cal.slotOff r.slotB
  let n := r.pages + 1
  let s := if n ≤ 725 then
      s.flashWrite (a + 256 * n) ((List.range 256).map (fun i => recByte r.values (256 * n + i)))
    else s.flashWrite a (s.storeHeader r)
  let s := { s with cal.store := some { r with pages := n }, cal.pagesN := BitVec.ofNat 16 n }
  if n = 726 then s.storeEnd stDone else if s.hk.shutdown then s.storeEnd stAborted else s

/-- A sector of the store's slot is erased. -/
def State.storeSector (s : State) (r : StoreRun) : State :=
  let s := s.flashErase (s.cal.slotOff r.slotB + r.erased * 65536) 65536
  let s := { s with cal.store := some { r with erased := r.erased + 1 } }
  if s.hk.shutdown then s.storeEnd stAborted else s

/-! ### Register values (R452) -/

def regCalStat (s : State) (t : Fin 8) : Nat :=
  let x := s.cal.tiles.get t
  let run := match x.running.bind (fun h => x.placed.find? (fun r => decide (r.handle = h))) with
    | some r => r.kind.bit
    | none => match x.claim with
      | some c => if c.running then c.kind.bit else 15
      | none => 15
  (match x.claim with
   | some c => b2n c.running * 2 ^ 17
   | none => 0) +
  b2n (x.pending.any (fun c => c.overdue)) * 2 ^ 16 + run * 2 ^ 8 +
  maskOf 8 (fun k => x.pending.any (fun c => decide (c.kind.bit = k.val)))
def regCalCnt (x : CalTile) : Nat := x.ended.toNat * 2 ^ 16 + x.done.toNat
def regCalMiss (x : CalTile) : Nat :=
  x.claims.toNat * 2 ^ 16 + (x.pending.map (fun c => c.missed.toNat)).foldl max 0
def regCalStore (c : CalBlock) : Nat :=
  c.pagesN.toNat * 2 ^ 16 + c.last.toNat * 2 ^ 8 + b2n c.factory * 8 + b2n c.slotB * 4 + b2n c.rangeEn * 2 +
  b2n c.store.isSome
def regHold (c : CalBlock) : Nat := c.energy.toNat * 2 ^ 16 + c.volt.toNat

end Sys2Proof.Machine
end

