-- ==== Sys2Proof/Machine/Link.lean ====
section
/-! DEFINITION. Commands and events of the fronthaul lanes (11_lanes.md) and of the Zenfa Link (12_zenfa_link.md), but for
the packets whose samples or memory data another block takes. -/

namespace Sys2Proof.Machine

/-! ### Lane commands (R337, R540) -/

/-- LK_CFG (R314, R318, R323): BAD_STATE for a new rate while a lane is out of RAGDOLL. -/
def execLkCfg (h : CmdHdr) (rate minLanes auto manual : BitVec 8) (timeout : BitVec 16) (swing : BitVec 8) (s : State) :
    Out :=
  .next (serve h
    { opcode := 0x0701, role := some .installer, journal := true,
      params := pb rate ++ pb minLanes ++ pb auto ++ pb manual ++ pb timeout ++ pb swing }
    (fun s => checks
      [(stBadParam, decide (3 < rate.toNat ∧ rate ≠ 0xFF)),
       (stBadParam, decide ((minLanes = 0 ∨ 16 < minLanes.toNat) ∧ minLanes ≠ 0xFF)),
       (stBadParam, decide (1 < auto.toNat ∧ auto ≠ 0xFF)),
       (stBadParam, decide (1 < manual.toNat ∧ manual ≠ 0xFF)),
       (stBadParam, decide ((timeout.toNat < 10 ∨ 10000 < timeout.toNat) ∧ timeout ≠ 0xFFFF)),
       (stBadParam, decide ((swing.toNat < 4 ∨ 10 < swing.toNat) ∧ swing ≠ 0xFF)),
       (stBadState, decide (rate ≠ 0xFF ∧ rate.toNat ≠ s.link.rate.toNat) &&
          s.link.lanes.toList.any (fun x => decide (x.pstate ≠ .ragdoll)))]
      s (fun _ =>
        let s := { s with link := { s.link with
          rate := if rate = 0xFF then s.link.rate else rate.setWidth 2
          minLanes := if minLanes = 0xFF then s.link.minLanes else minLanes.setWidth 5
          auto := if auto = 0xFF then s.link.auto else decide (auto = 1)
          manual := if manual = 0xFF then s.link.manual else decide (manual = 1)
          timeout := if timeout = 0xFFFF then s.link.timeout else timeout
          swing := if swing = 0xFF then s.link.swing else swing
          admitUp := true } }
        let r := s.relevel s.link.active
        done (r.1.checkStart r.2)))
    s)

/-- LK_START (R323, R335): the failures and DOWN entries of the named lanes are forgotten, those neither active, up nor in
bring-up start it, and a lane in a test loop takes no part. -/
def execLkStart (h : CmdHdr) (lanes : BitVec 16) (s : State) : Out :=
  .next (serve h { opcode := 0x0702, role := some .operator, params := pb lanes }
    (fun s =>
      let now := s.time.ticks
      let s := { s with link := { s.link with
        start := s.link.start ++ [({ mask := lanes, till := now + s.link.timeout.toNat * 983040 } : StartRun)]
        lanes := vmap s.link.lanes (fun (k : Fin 16) (x : Lane) =>
          if lanes.getLsbD k.val then
            let x : Lane := { x with fails := 0, downAt := [], failRep := false }
            match x.role with
            | .offline | .down | .held => x.start now
            | _ => x
          else x) } }
      accepted (s.checkStart false))
    s)

/-- The start timeout of the oldest LK_START (R323): with the link up it completes by LINK_UP, else with ABORTED, and a
named lane that has not come up and has no LANE_FAIL since is reported. -/
def execLkStartTimeout (s : State) : Out :=
  .next (match s.link.start with
  | [] => s
  | r :: rs =>
    if s.time.ticks < r.till then s
    else
      let s := { s with link.start := rs }
      let s := if s.link.up then s.emitNow 0x0703 0x07FF (pb s.link.active) else s
      (maskBits 16 r.mask.toNat).foldl (fun s k =>
        let x := s.link.lanes.get k
        if x.role = .active ∨ x.role = .idle ∨ x.failRep then s
        else s.laneFailEvt k (if x.role = .bringup then 0 else x.fail.toNat)) s)

/-- LK_BITSLIP (R324): slips a boundary in manual mode and answers HDR_RUN, which counts anew at the new boundary. -/
def execLkBitslip (h : CmdHdr) (lane count : BitVec 8) (s : State) : Out :=
  .next (serve h { opcode := 0x0703, role := some .installer, journal := true, params := pb lane ++ pb count }
    (fun s => match fin? 16 lane.toNat with
      | none => refuse stBadParam s
      | some l => checks
        [(stBadParam, decide (count = 0 ∨ 66 < count.toNat)), (stBadState, !s.link.manual)] s (fun _ =>
          let s := s.modLane l (fun x => { x with slips := satAdd x.slips count.toNat, hdrRun := 0 })
          doneR [(s.link.lanes.get l).hdrRun.setWidth 8] s))
    s)

/-- A lane power state from its code (R321). -/
def laneTarget? (c : BitVec 8) : Option LaneTarget :=
  if c = 0 then some .on else if c = 1 then some .standby else if c = 2 then some .ragdoll else none

/-- LK_STATE_SET (R322). -/
def execLkStateSet (h : CmdHdr) (lanes : BitVec 16) (state : BitVec 8) (s : State) : Out :=
  .next (serve h { opcode := 0x0704, role := some .operator, params := pb lanes ++ pb state }
    (fun s => match laneTarget? state with
      | none => refuse stBadParam s
      | some t => if laneStateOk s lanes t then done (s.laneState lanes t) else refuse stNoResource s)
    s)

/-- LK_LOOP (R328): refused on an active lane; a looped lane has role TEST, one taken out of its loop is OFFLINE. -/
def execLkLoop (h : CmdHdr) (lanes : BitVec 16) (loop : BitVec 8) (s : State) : Out :=
  .next (serve h { opcode := 0x0705, role := some .installer, journal := true, params := pb lanes ++ pb loop }
    (fun s => checks
      [(stBadParam, decide (3 < loop.toNat)), (stBadState, decide (lanes &&& s.link.active ≠ 0))] s (fun _ =>
        let k : LoopKind := if loop = 0 then .none else if loop = 1 then .nes else if loop = 2 then .nep else .fe
        done { s with link.lanes := vmap s.link.lanes (fun (i : Fin 16) (x : Lane) =>
          if lanes.getLsbD i.val then
            if k = .none then (if x.role = .test then { x with loop := k, role := .offline } else { x with loop := k })
            else { x.clearUp with loop := k, role := .test, started := false }
          else x) }))
    s)

/-- LK_PRBS (R329): sets the patterns, starts or stops generator and checker, clears the counters. -/
def execLkPrbs (h : CmdHdr) (lanes : BitVec 16) (gen chk : BitVec 8) (s : State) : Out :=
  .next (serve h { opcode := 0x0706, role := some .installer, journal := true, params := pb lanes ++ pb gen ++ pb chk }
    (fun s => checks
      [(stBadParam, decide (3 < gen.toNat ∧ gen ≠ 0xFF)), (stBadParam, decide (3 < chk.toNat ∧ chk ≠ 0xFF)),
       (stBadState, decide (lanes &&& s.link.active ≠ 0))] s (fun _ =>
        done { s with link.lanes := vmap s.link.lanes (fun (i : Fin 16) (x : Lane) =>
          if lanes.getLsbD i.val then
            { x with prbs := { x.prbs with
                genEn := decide (gen ≠ 0xFF)
                genPat := if gen = 0xFF then x.prbs.genPat else gen.setWidth 2
                chkEn := decide (chk ≠ 0xFF)
                chkPat := if chk = 0xFF then x.prbs.chkPat else chk.setWidth 2
                sync := false
                reached := false
                good := 0
                seed := []
                window := []
                err := 0
                bits := 0
                hiLatch := 0
                burst := 0
                repeat_ := 0
                injBits := 0 } }
          else x) }))
    s)

/-- LK_INJECT (R330): inverts a bit or a burst of the generator once, or again at each repetition. -/
def execLkInject (h : CmdHdr) (lanes : BitVec 16) (burst rep : BitVec 8) (s : State) : Out :=
  .next (serve h { opcode := 0x0707, role := some .installer, journal := true, params := pb lanes ++ pb burst ++ pb rep }
    (fun s => checks
      [(stBadParam, decide (burst = 0)), (stBadParam, decide (rep ≠ 0 ∧ (rep.toNat < 20 ∨ 40 < rep.toNat))),
       (stBadState, (maskBits 16 lanes.toNat).any (fun l => !(s.link.lanes.get l).prbs.genEn))] s (fun _ =>
        done { s with link.lanes := vmap s.link.lanes (fun (i : Fin 16) (x : Lane) =>
          if lanes.getLsbD i.val then
            { x with prbs := { x.prbs with burst := burst, repeat_ := rep, injBits := x.prbs.injBits + burst.toNat } }
          else x) }))
    s)

/-- A repeated injection inverts its bits again (R330). -/
def execInjectRepeat (l : Fin 16) (s : State) : Out :=
  .next (s.modLane l (fun x =>
    if x.prbs.genEn ∧ x.prbs.repeat_ ≠ 0 then
      { x with prbs := { x.prbs with injBits := x.prbs.injBits + x.prbs.burst.toNat } }
    else x))

/-- LK_BER_GET (R331): the counts exactly, the estimate and bounds as R331's words; the lower bound is 0 with no
error. -/
def execLkBerGet (h : CmdHdr) (lane : BitVec 8) (s : State) : Out :=
  .next (serve h { opcode := 0x0708, role := some .operator, params := pb lane }
    (fun s => match fin? 16 lane.toNat with
      | none => refuse stBadParam s
      | some l =>
        let p := (s.link.lanes.get l).prbs
        doneR (le 8 p.err ++ le 8 p.bits ++ pb (Config.berFloat 0 p.err p.bits) ++
          (if p.err = 0 then le 4 0 else pb (Config.berFloat 1 p.err p.bits)) ++ pb (Config.berFloat 2 p.err p.bits) ++
          [BitVec.ofNat 8 (b2n p.sync)]) s)
    s)

/-- LK_STATUS (R337). -/
def execLkStatus (h : CmdHdr) (lane : BitVec 8) (s : State) : Out :=
  .next (serve h { opcode := 0x0709, role := some .operator, params := pb lane }
    (fun s => match fin? 16 lane.toNat with
      | none => refuse stBadParam s
      | some l =>
        let x := s.link.lanes.get l
        doneR (le 4 (regLaneStat x) ++ le 4 (regLaneBlk x) ++ le 4 (regLaneErr x) ++ le 4 (regLaneEq x)) s)
    s)

/-- LK_PRESET_SET (R318): the presets of the bands; each lane takes the one in force at its next marker. -/
def execLkPresetSet (h : CmdHdr) (lanes : BitVec 16) (p1 p2 p3 p4 : BitVec 8) (s : State) : Out :=
  .next (serve h { opcode := 0x070A, role := some .installer, journal := true,
                   params := pb lanes ++ pb p1 ++ pb p2 ++ pb p3 ++ pb p4 }
    (fun s => checks [(stBadParam, [p1, p2, p3, p4].any (fun p => decide (7 < p.toNat)))] s (fun _ =>
      done { s with link.lanes := vmap s.link.lanes (fun (i : Fin 16) (x : Lane) =>
        if lanes.getLsbD i.val then
          { x with presets := #v[p1.setWidth 3, p2.setWidth 3, p3.setWidth 3, p4.setWidth 3] }
        else x) }))
    s)

/-! ### Lane events -/

/-- The lane PLL of a lane's group (R414). -/
def lanePll (l : Fin 16) : Fin 16 := if l.val < 8 then 3 else 4

/-- A lane finishes its exit time (R321): it is in ON, and bring-up goes on. The exit time includes the lock of a lane PLL that
was off. -/
def execLaneExitComplete (l : Fin 16) (s : State) : Out :=
  .next (match (s.link.lanes.get l).exitAt with
  | none => s
  | some e =>
    if s.time.ticks < e then s
    else (s.modLane l (fun x => { x with pstate := .on, exitAt := none })).modPll (lanePll l)
      (fun p => if p.busy then p else { p with lock := true }))

/-- Whether a lane is powered and out of its exit time. -/
def Lane.isOn (x : Lane) : Bool := decide (x.pstate = .on) && x.exitAt.isNone

/-- A lane's equaliser adapts while its CDR is locked and no freeze holds it (R319, R320): where it comes to is the part's own (log 89). -/
def State.adaptEq (s : State) (l : Fin 16) : State :=
  let x := s.link.lanes.get l
  if x.cdr && !x.eqFrozen then
    { (s.modLane l (fun x => { x with eq := (List.range 6).map (Config.equaliser s.free) })) with free := s.free + 1 }
  else s

/-- A lane's CDR locks and initial adaptation ends (R323). -/
def execCdrLockAcquired (l : Fin 16) (s : State) : Out :=
  .next (if (s.link.lanes.get l).isOn then (s.modLane l (fun x => { x with cdr := true })).adaptEq l else s)

/-- A lane in bring-up whose CDR has not locked after 1.5 ms fails with cause CDR (R323). -/
def execCdrLockTimeout (l : Fin 16) (s : State) : Out :=
  let x := s.link.lanes.get l
  .next (if x.role = .bringup ∧ x.cdr = false ∧ x.bringAt + 1474560 ≤ s.time.ticks then s.laneFail l 1 else s)

/-- A block's sync header on a lane whose CDR is locked (R324): valid headers count to 64, where block lock is reached or
regained; 16 invalid ones within 64 blocks lose it. -/
def Lane.header (now : Nat) (auto : Bool) (valid : Bool) (x : Lane) : Lane :=
  let run := if valid then min 64 (x.hdrRun.toNat + 1) else 0
  let recent := (valid :: x.recent).take 64
  let x : Lane := { x with
    hdrRun := BitVec.ofNat 7 run
    invHdr := if valid then x.invHdr else satAdd x.invHdr 1
    recent := recent
    slipDue := if !valid && !x.lock && auto && x.role == .bringup && x.slipDue.isNone then some (now + 1000)
      else x.slipDue }
  if x.lock then
    if (recent.filter (fun v => !v)).length ≥ 16 then
      { x with lock := false, lostAt := some now, lockLoss := satAdd x.lockLoss 1, hdrRun := 0, recent := [] }
    else x
  else if run = 64 then { x with lock := true, lostAt := none, slipDue := none, recent := [] }
  else x

/-- A block arrives on a lane (R324). -/
def execLaneBlockReceived (l : Fin 16) (hdr : BitVec 2) (s : State) : Out :=
  .next (s.modLane l (fun x =>
    if x.isOn ∧ x.cdr then x.header s.time.ticks (!s.link.manual) (decide (hdr = 1 ∨ hdr = 2)) else x))

/-- The firmware issues a slip it owes (R324), unless the Puppeteer restarts (R336); the 198th ends the attempt with cause
BLOCK. -/
def execAutoSlip (l : Fin 16) (s : State) : Out :=
  let x := s.link.lanes.get l
  .next (if x.role = .bringup ∧ x.lock = false ∧ x.slipDue.isSome ∧ s.link.manual = false ∧ s.pup.ready then
    let s := s.modLane l (fun x =>
      { x with slips := satAdd x.slips 1, slipN := x.slipN + 1, slipDue := none, hdrRun := 0 })
    if x.slipN + 1 ≥ 198 then s.laneFail l 2 else s
  else s)

/-- Block lock stays lost for 1,967 ticks (R332): DOWN and LANE_DOWN; a fourth time within 10 s HELD with cause FLAP, else
with AUTO bring-up runs again (R335). The lane leaves the masks at the next marker. -/
def execLaneLockLossTimeout (l : Fin 16) (s : State) : Out :=
  let x := s.link.lanes.get l
  let now := s.time.ticks
  .next (match x.lostAt with
  | none => s
  | some t =>
    if now < t + 1967 ∨ x.lock ∨ x.role = .test ∨ x.role = .held ∨ x.role = .offline then s
    else
      let ds := now :: x.downAt.filter (fun d => decide (now < d + 9830400000))
      let y : Lane := { x.clearUp with
        cdr := x.cdr, role := .down, downs := satAdd x.downs 1, downAt := ds, started := false }
      let s := (s.modLane l (fun _ => y)).emitNow 0x0701 (0x0700 + l.val) (le 1 l.val ++ le 8 (t * 256))
      if ds.length ≥ 4 then
        (s.modLane l (fun y => { y with role := .held, fail := 5 })).laneFailEvt l 5
      else if s.link.auto then s.modLane l (fun y => y.start now)
      else s)

/-- A window of 4,096 UI ends (R320): adaptation freezes below 1,229 transitions and resumes at 1,229 or more. -/
def execEqDensityWindowEnd (l : Fin 16) (transitions : BitVec 12) (s : State) : Out :=
  let low := decide (transitions.toNat < 1229)
  .next (if (s.link.lanes.get l).isOn then
    ((s.adaptEq l).modLane l (fun x => { x with
      density := transitions
      freezes := if low && !x.eqFrozen then satAdd x.freezes 1 else x.freezes
      eqFrozen := low }))
  else s)

/-- Bytes 0 to 7 of a marker; its CHECK is the exclusive or of bytes 0 to 6 (R342). -/
def markerOk (b : List Byte) : Bool := (b.take 7).foldl (fun a x => a ^^^ x) 0 == b.getD 7 0

/-- What a marker tells a lane in bring-up or up: polarity and order from the first, deskew from the second (R323, R325 to
R327). -/
def State.markerLane (s : State) (l : Fin 16) (number : Nat) (skew : BitVec 8) (complemented : Bool) : State :=
  let x := s.link.lanes.get l
  let far := decide (32 < skew.toInt ∨ skew.toInt < -32)
  if x.role = .bringup ∧ x.orderOk = false then
    let s := s.modLane l (fun x => { x with polOk := true, inverted := xor x.inverted complemented })
    let twin := (List.finRange 16).filter (fun k =>
      k ≠ l && (s.link.lanes.get k).orderOk && (s.link.lanes.get k).logical.toNat == number)
    if number > 15 then s.laneFail l 3
    else if twin.isEmpty then s.modLane l (fun x => { x with orderOk := true, logical := BitVec.ofNat 4 number })
    else (l :: twin).foldl (fun s k => s.laneFail k 3) s
  else if x.role = .bringup then
    if far then (s.modLane l (fun x => { x with skew := skew })).laneFail l 4
    else s.modLane l (fun x => { x with skew := skew, deskewed := true, role := .idle })
  else if far then
    s.modLane l (fun x =>
      { x with
        skew := skew, lock := false, lostAt := some s.time.ticks, lockLoss := satAdd x.lockLoss 1, hdrRun := 0,
        recent := [] })
  else s.modLane l (fun x => { x with skew := skew })

/-- The lanes that leave ON enter their state once neither end shows them active (R322). -/
def State.leaveOn (s : State) : State :=
  { s with link.lanes := vmap s.link.lanes (fun (k : Fin 16) (x : Lane) =>
      match x.target with
      | some t => if s.link.active.getLsbD k.val || s.link.rxActive.getLsbD x.logical.toNat then x else x.sleepNow t
      | none => x) }

/-- An alignment marker arrives on a lane with block lock (R342). Its payload is as the PCS would read it uncomplemented;
another TYPE is an invalid block, and a wrong CHECK makes the marker and its masks void. -/
def execMarkerReceived (l : Fin 16) (payload : BitVec 64) (skew : BitVec 8) (complemented : Bool) (s : State) : Out :=
  let x := s.link.lanes.get l
  let b := pb payload
  .next (if x.lock = false ∨ x.isOn = false then s
  else if b.getD 0 0 ≠ 0x4B then { s with link.framing := satAdd s.link.framing 1 }
  else if markerOk b = false then s
  else
    let s := if x.role = .test ∨ x.role = .offline ∨ x.role = .held then s
      else s.markerLane l (b.getD 1 0).toNat skew complemented
    let act := BitVec.ofNat 16 (unle ((b.drop 2).take 2))
    let good := BitVec.ofNat 16 (unle ((b.drop 4).take 2))
    let s := { s with link.farActive := act, link.farGood := good }
    (s.setRxActive act).leaveOn)

/-- The preset in force in a lane: that of the temperature band, the hottest while band selection is off (R318). -/
def presetNow (s : State) (x : Lane) : BitVec 3 :=
  x.presets.toList.getD (if s.hk.bandSel then s.hk.linkBand.toNat else 3) 3

/-- The device sends marker rows (R316, R323): it names its receive-good lanes, drops the lanes that are leaving or are no
longer ACTIVE from the active-lane mask, and takes in the lanes both receive-good masks name. -/
def execMarkerSent (s : State) : Out :=
  .next (if s.resetN = false then s
  else
    let near := maskOf 16 (fun k => (s.link.lanes.get k).isGood)
    let s := { s with link := { s.link with
      nearGood := BitVec.ofNat 16 near
      markAt := s.time.ticks
      lanes := vmap s.link.lanes (fun (_ : Fin 16) (x : Lane) => { x with preset := presetNow s x }) } }
    let act := maskOf 16 (fun k =>
      let x := s.link.lanes.get k
      x.target.isNone && decide (x.pstate = .on) &&
      (x.role == .active || (x.role == .idle && near.testBit k.val && s.link.farGood.getLsbD k.val)))
    (s.setActive (BitVec.ofNat 16 act)).sendMarkers.leaveOn)

/-- The sender lays the packets it holds into rows and places an idle row between packets (R340, R341). -/
def execIdleRowSend (s : State) : Out :=
  .next (if s.link.up then { s.layRows with link.idleAt := s.time.ticks } else s)

/-- Bits of a received or own pattern as the checker's polynomial predicts the next one: the taps of R329, newest bit
first. -/
def prbsNext (pat : BitVec 2) (bits : List Bool) : Bool :=
  if pat = 0 then xor (bits.getD 6 false) (bits.getD 5 false)
  else if pat = 1 then xor (bits.getD 14 false) (bits.getD 13 false)
  else if pat = 2 then xor (bits.getD 22 false) (bits.getD 17 false)
  else xor (bits.getD 30 false) (bits.getD 27 false)

/-- Length of a pattern's register. -/
def prbsLen (pat : BitVec 2) : Nat := if pat = 0 then 7 else if pat = 1 then 15 else if pat = 2 then 23 else 31

/-- The checker takes one bit (R329): seeding from received bits, in sync after 64 error-free ones, then running free and
counting; more than 512 errors within 4,096 bits drop sync. -/
def Prbs.check (p : Prbs) (b : Bool) : Prbs :=
  let n := prbsLen p.chkPat
  if p.sync then
    let want := prbsNext p.chkPat p.seed
    let e := b != want
    let win := (e :: p.window).take 4096
    let p : Prbs := { p with
      bits := min (2 ^ 64 - 1) (p.bits + 1), err := p.err + b2n e, window := win, seed := (want :: p.seed).take n }
    if (win.filter id).length > 512 then { p with sync := false, good := 0, seed := [], window := [] } else p
  else if p.seed.length < n then { p with seed := b :: p.seed, good := 0 }
  else
    let ok := b == prbsNext p.chkPat p.seed
    let good := if ok then p.good + 1 else 0
    { p with
      seed := (b :: p.seed).take n, good := good, sync := decide (64 ≤ good), reached := p.reached || decide (64 ≤ good),
      window := [] }

/-- Bits arrive at a lane's pattern checker (R329). -/
def execPrbsCheckerBits (l : Fin 16) (bits : List Bool) (s : State) : Out :=
  .next (s.modLane l (fun x => if x.prbs.chkEn then { x with prbs := bits.foldl Prbs.check x.prbs } else x))

/-! ### Reliable class and events -/

/-- A received packet's checks before its type is looked at (R348, R349): none where it goes on, else the state that
counts it. -/
def State.rxScreen (s : State) (p : RxPkt) (maxFlow : Nat) (fmtOk : Bool) : Option State :=
  if s.link.up = false then some s
  else if p.payload.length % 4 ≠ 0 ∨ 8192 < p.payload.length ∨ maxFlow < p.flow.toNat ∨ fmtOk = false then
    some { s with link.framing := satAdd s.link.framing 1 }
  else if p.crcOk = false then some { s with link.crcErr := satAdd s.link.crcErr 1 }
  else none

/-- Receive a reliable packet by its SEQ (R362): in order it is accepted and an ACK is due; a duplicate is acknowledged; a
gap sends a NAK once for each expected value. Answers whether it takes effect. -/
def State.relAccept (s : State) (seq : BitVec 16) : State × Bool :=
  let l := s.link
  if seq = l.relRx then
    ({ s with link := { l with
        relRx := l.relRx + 1
        nakFor := none
        unacked := l.unacked + 1
        ackDue := some (match l.ackDue with
          | some t => t
          | none => s.time.ticks + 1967) } }, true)
  else if (seq - l.relRx).toNat < 32768 then
    if l.nakFor = some l.relRx then (s, false)
    else (({ s with link := { l with nakFor := some l.relRx, naks := satAdd l.naks 1 } }).sendAck 0x40, false)
  else (s.sendAck 0, false)

/-- A CTRL_RSP that the endpoint hardware answers itself, with a slot's opcode and sequence (R366, R507). -/
def State.hwRsp (s : State) (flow : Nat) (slot : List Byte) (st : BitVec 8) : State :=
  s.sendRel 0x11 flow 0 (padTo 32 (slot.take 4 ++ [st]))

/-- The endpoint places a CTRL_CMD (R366, R507): its data go to mailbox RAM, then the slot to the ring of its mailbox. -/
def State.placeCmd (s : State) (m : Fin 4) (p : RxPkt) : State :=
  let slot := p.payload.take 64
  let isData := p.flags.getLsbD 8
  let a := unle ((p.payload.drop 64).take 4)
  let n := unle ((p.payload.drop 68).take 2)
  let bs := padTo n (p.payload.drop 72)
  if s.pup.mbCfg.getLsbD m.val = false then s.hwRsp m.val slot stBadState
  else if isData ∧ 0x10000 < a + n then s.hwRsp m.val slot stBadParam
  else
    let s := if isData then { s with pup.mbRam := memWrite 0 s.pup.mbRam a bs } else s
    let t := s.pup.ctail.get m
    if (t - s.pup.chead.get m).toNat ≥ 32 then s.hwRsp m.val slot stBusy
    else { s with pup := { s.pup with
        mbRam := memWrite 0 s.pup.mbRam (m.val * 0x800 + (t.toNat % 32) * 64) (padTo 64 slot)
        ctail := s.pup.ctail.set m.val (t + 1) m.isLt } }

/-- A CTRL_CMD packet (R366): taken in SEQ order and once; a FLOW of 4 or more counts as UNEXP, acknowledged all the
same. -/
def execCtrlCmdPacket (pkt : RxPkt) (s : State) : Out :=
  .next (match s.rxScreen pkt 255 (decide (pkt.fmt &&& 0x87#8 = 7)) with
  | some t => t
  | none =>
    let r := s.relAccept pkt.seq
    if r.2 then
      match fin? 4 pkt.flow.toNat with
      | none => { r.1 with link.unexp := satAdd r.1.link.unexp 1 }
      | some m => r.1.placeCmd m pkt
    else r.1)

/-- Release the event slots of acknowledged EVENT packets (R510): HP_EVT_RD passes every slot up to theirs. -/
def State.releaseEvts (s : State) (upTo : BitVec 9) : State :=
  if (upTo - s.pup.evtRd).toNat ≤ s.pup.evtUsed then { s with pup.evtRd := upTo } else s

/-- An ACK arrives (R362, R363, R365): packets up to ACK_SEQ are released, and a NAK or a RESET acts. -/
def execAckPacket (pkt : RxPkt) (s : State) : Out :=
  .next (match s.rxScreen pkt 0 (decide (pkt.fmt &&& 0x87#8 = 7)) with
  | some t => t
  | none =>
    let ack := BitVec.ofNat 16 (unle (pkt.payload.take 2))
    let next := BitVec.ofNat 16 (unle ((pkt.payload.drop 4).take 2))
    let old := fun (q : BitVec 16) => decide ((ack - q).toNat < 32768)
    let s := { s with link.held := s.link.held.filter (fun h => !old h.pkt.seq) }
    let acked := s.pup.evtAcked.filter (fun e => old e.1)
    let s := { s with pup.evtAcked := s.pup.evtAcked.filter (fun e => !old e.1) }
    let s := acked.foldl (fun s e => s.releaseEvts (e.2.1 + BitVec.ofNat 9 e.2.2)) s
    let s := if pkt.flags.getLsbD 7 then { s with link := { s.link with relRx := next, nakFor := none } } else s
    let s := if pkt.flags.getLsbD 6 then s.replayAll else s
    s.sendWaiting)

/-- The receiver acknowledges what it accepted (R362). -/
def execAckSend (s : State) : Out := .next (if s.link.unacked = 0 then s else s.sendAck 0)

/-- The oldest unacknowledged packet has waited REPLAY_T (R363). -/
def execReplayTimeout (s : State) : Out :=
  .next (match s.link.held with
  | [] => s
  | h :: _ => if h.sent + s.link.replayT.toNat ≤ s.time.ticks then s.replayAll else s)

/-- An unacknowledged packet has waited past RELIABLE_HOLD (R365): the class is flushed and starts again at SEQ 0. Event
slots not released are sent again (log 15). -/
def execReliableHoldExpiry (s : State) : Out :=
  .next (match s.link.held with
  | [] => s
  | h :: _ =>
    if s.time.ticks < h.first + s.link.holdMs.toNat * 983040 then s
    else
      let n := s.link.held.length
      let s := { s with link := { s.link with held := [], relSeq := 0, flushed := satAdd s.link.flushed n } }
      let s := { s with pup.evtAcked := [], pup.evtSent := s.pup.evtRd }
      let s := s.sendAck 0x80
      (s.emitNow 0x0710 0x07FF (le 2 n)).sendWaiting)

/-- LIMIT of a transmit flow (R369): the units received since the last RESTART and those its free buffer takes. -/
def TxFlow.limitNow (f : TxFlow) : BitVec 32 := f.count + BitVec.ofNat 32 ((bufferOf f.charge - f.buf) / 64)

/-- The device reports a flow's LIMIT (R369): with RESTART at binding and restore, once B/8 is freed, or after 10 µs. -/
def execCreditReport (f : Fin 64) (s : State) : Out :=
  let x := s.link.txFlows.get f
  .next (if x.src.isBound && !x.shed && s.link.up &&
      (x.due || decide (bufferOf x.charge / 8 ≤ x.freed) || decide (x.creditAt + 9830 ≤ s.time.ticks)) then
    let lim := x.limitNow
    let p : Packet :=
      { type := 0x1F, flow := 0, flags := 0, seq := 0, time := BitVec.ofNat 48 s.time.ticks, aper := 0, fmt := 0x7F,
        payload := le 1 f.val ++ le 1 (b2n x.due) ++ [0, 0] ++ pb lim }
    { s with link := { s.link with
        out := s.link.out ++ [p]
        txFlows := vmod s.link.txFlows f (fun x =>
          { x with limit := lim, due := false, freed := 0, creditAt := s.time.ticks }) } }
  else s)

/-- STREAM_PACKET_SEND (R359, R360): the oldest packet that a flow has formed goes to the lanes. A shed flow sends nothing, and while the link
is down what was formed before waits. -/
def execStreamPacketSend (f : Fin 64) (s : State) : Out :=
  .next (match (s.link.rxFlows.get f).ready with
  | [] => s
  | p :: ps =>
    if s.link.up && s.flowRuns f then
      { s with link := { s.link with
          out := s.link.out ++ [p]
          rxFlows := vmod s.link.rxFlows f (fun x => { x with ready := ps }) } }
    else s)

/-- With the event route on, slots not yet sent nor released go out as one EVENT packet of at most 256 slots (R367). -/
def execEventPacketSend (s : State) : Out :=
  let p := s.pup
  let at_ := if (p.evtSent - p.evtRd).toNat ≤ p.evtUsed then p.evtSent else p.evtRd
  let n := (p.evtWr - at_).toNat
  .next (if s.link.evtRoute && s.link.up && decide (0 < n) && decide (s.link.held.length < 128) then
    let bytes := (List.range n).flatMap (fun i =>
      memRead 0 p.mbRam (0x3000 + ((at_.toNat + i) % 256) * 32) 32)
    let s := { s with pup := { p with evtSent := p.evtWr, evtAcked := p.evtAcked ++ [(s.link.relSeq, at_, n)] } }
    s.sendRel 0x12 0 0 bytes
  else s)

/-! ### Link commands (R378) -/

/-- LK_FLOW_CFG (R358). -/
def execLkFlowCfg (h : CmdHdr) (dir flow prio : BitVec 8) (lenMax : BitVec 16) (s : State) : Out :=
  .next (serve h { opcode := 0x0710, role := some .operator, params := pb dir ++ pb flow ++ pb prio ++ pb lenMax }
    (fun s => match fin? 64 flow.toNat with
      | none => refuse stBadParam s
      | some f => checks
        [(stBadParam, decide (1 < dir.toNat ∨ 7 < prio.toNat)),
         (stBadParam, decide (lenMax.toNat < 256 ∨ 8192 < lenMax.toNat ∨ lenMax.toNat % 4 ≠ 0)),
         (stBadState, if dir = 0 then (s.link.rxFlows.get f).src.isBound else (s.link.txFlows.get f).src.isBound)]
        s (fun _ =>
          let p := prio.setWidth 3
          let n := lenMax.setWidth 14
          done (if dir = 0 then
            { s with link.rxFlows := vmod s.link.rxFlows f (fun x => { x with prio := p, lenMax := n }) }
          else { s with link.txFlows := vmod s.link.txFlows f (fun x => { x with prio := p, lenMax := n }) })))
    s)

/-- LK_ANIQ_CFG (R358): binds a lane's IQ to a flow in a format, or unbinds it. -/
def execLkAniqCfg (h : CmdHdr) (lane flow format : BitVec 8) (s : State) : Out :=
  .next (serve h { opcode := 0x0711, role := some .operator, params := pb lane ++ pb flow ++ pb format }
    (fun s => match fin? 9 lane.toNat, fin? 8 lane.toNat with
      | some i, some l => checks
        [(stBadParam, decide (2 < format.toNat)), (stBadParam, decide (63 < flow.toNat ∧ flow ≠ 0xFF)),
         (stBadParam, decide (flow ≠ 0xFF) && !rxFlowFree s flow.toNat (.laneIq l))]
        s (fun _ =>
          let t := unbindRxIf s (fun x => decide (x = .laneIq l))
          let fm := format.setWidth 2
          if flow = 0xFF then
            done { t with an.src := vmod t.an.src i (fun x => { x with iqFlow := none, iqFormat := fm }) }
          else
            let c := laneIqCharge format.toNat (lenMaxOf s false flow.toNat)
            let t := bindRx t flow.toNat (.laneIq l) c false
            if admitted t false then
              done { t with an.src := vmod t.an.src i (fun x =>
                { x with iqFlow := fin? 64 flow.toNat, iqFormat := fm }) }
            else refuse stNoResource s)
      | _, _ => refuse stBadParam s)
    s)

/-- Source kind and index of a flow (R541). -/
def FlowSrc.code : FlowSrc → Nat × Nat
  | .none => (0, 0)
  | .beam b => (1, b.val)
  | .elem t => (2, t.val)
  | .spectrum a o => (3, a.val * 4 + o.val)
  | .density l => (4, l.val)
  | .stream c => (5, c.val)
  | .laneIq l => (6, l.val)

/-- LK_FLOW_QUERY (R360, R378, R540). -/
def execLkFlowQuery (h : CmdHdr) (dir flow : BitVec 8) (s : State) : Out :=
  .next (serve h { opcode := 0x0712, role := some .operator, params := pb dir ++ pb flow }
    (fun s => match fin? 64 flow.toNat with
      | none => refuse stBadParam s
      | some f =>
        let answer := fun (src : FlowSrc) (charge : Nat) (shed : Bool) (seq : BitVec 16) (limit : BitVec 32) =>
          doneR (le 1 src.code.1 ++ le 1 src.code.2 ++ le 4 (centG charge) ++ le 1 (b2n src.isBound) ++
            le 1 (b2n shed) ++ pb seq ++ pb limit) s
        if dir = 0 then
          let x := s.link.rxFlows.get f
          answer x.src x.charge x.shed x.seq 0
        else if dir = 1 then
          let x := s.link.txFlows.get f
          answer x.src x.charge x.shed x.seq x.limit
        else refuse stBadParam s)
    s)

/-- LK_BUDGET_GET (R371, R378). -/
def execLkBudgetGet (h : CmdHdr) (dir : BitVec 8) (s : State) : Out :=
  .next (serve h { opcode := 0x0713, role := some .operator, params := pb dir }
    (fun s =>
      if 1 < dir.toNat then refuse stBadParam s
      else
        let tx := decide (dir = 1)
        doneR (le 4 (centG (capacity s tx)) ++ le 4 (centG (sumFlows s tx (fun _ => true))) ++
          le 4 (centG (memRate s tx)) ++ le 4 (sumBufs s (fun _ => true) / 1024)) s)
    s)

/-- LK_REL_CFG (R363, R365, R367, R377). -/
def execLkRelCfg (h : CmdHdr) (replayT holdMs memTo : BitVec 32) (route : BitVec 8) (s : State) : Out :=
  .next (serve h { opcode := 0x0714, role := some .installer, journal := true,
                   params := pb replayT ++ pb holdMs ++ pb memTo ++ pb route }
    (fun s => checks
      [(stBadParam, decide (replayT.toNat < 4096 ∨ 983040 < replayT.toNat)),
       (stBadParam, decide (holdMs.toNat < 100 ∨ 60000 < holdMs.toNat)),
       (stBadParam, decide (memTo.toNat < 98304 ∨ 98304000 < memTo.toNat)), (stBadParam, decide (1 < route.toNat))]
      s (fun _ => done { s with link := { s.link with
        replayT := replayT.setWidth 20, holdMs := holdMs, memTo := memTo, evtRoute := decide (route = 1) } }))
    s)

end Sys2Proof.Machine
end

