-- ==== Sys2Proof/Machine/AnOps.lean ====
section
/-! DEFINITION. Operations of the analyser: bins and levels, stitching, outputs, masks, the Kaleidoscope, applying a staged
configuration (08_spectral_analysis.md). -/

namespace Sys2Proof.Machine

/-! ### Lanes (R211 to R214) -/

/-- The source of a lane. -/
def laneSrc (l : Fin 8) : Fin 9 := l.castLE (by omega)

/-- The mode of a lane, which follows the use of its tile (R211). -/
def State.laneMode (s : State) (l : Fin 8) : LaneMode :=
  match (s.radio.get l).use with
  | .stitch => .stitch
  | .out => .off
  | .aperture => if (s.an.src.get (laneSrc l)).cfg.lane.tap then .tap else .off

/-- Mode codes of AN_LANE_CFG. -/
def LaneMode.code : LaneMode → Nat
  | .off => 0
  | .tap => 1
  | .stitch => 2

/-- Bins of the valid band on each side of the centre: ⌊400 MHz / δ⌋ (R213). -/
def validBand (z : BitVec 4) : Int := Int.ofNat (400000000 * 2 ^ (8 + z.toNat) / 983040000)

/-- Change one source of the analyser. -/
def State.modAn (s : State) (a : Fin 9) (f : AnSource → AnSource) : State := { s with an.src := vmod s.an.src a f }

/-- The enabled group a tile belongs to. -/
def State.groupOf (s : State) (t : Fin 8) : Option (Fin 8) :=
  (List.finRange 8).find? (fun g => (s.pick.get g).enabled && (s.pick.get g).tiles.getLsbD t.val)

/-- The port of a path outside an enabled group (R75), or of a lane's path in STITCH (R212). -/
def State.ownPort (s : State) (p : Fin 64) : Bool :=
  let l := tileOf p
  if (s.radio.get l).use = .stitch ∧ s.lanePath l = p then (s.an.src.get (laneSrc l)).cfg.lane.portB
  else (s.paths.get p).ctl.getLsbD 16

/-- In STITCH the selector of a lane's path follows its port (R212), and every other path of the tile its own. -/
def State.stitchPort (s : State) (l : Fin 8) : State :=
  match s.laneMode l with
  | .stitch => { s with paths := vmap s.paths (fun p x => if tileOf p = l then { x with portNow := s.ownPort p } else x) }
  | _ => s

/-! ### Levels (R219, R220, R226) -/

/-- The attenuation and the port at the lane's path when a sample at a time was taken (R220). -/
def AnSource.gainAt (q : AnSource) (t : Nat) : Nat × Bool :=
  ((q.gains.find? (fun g => decide (g.1 ≤ t))).map (fun g => g.2)).getD ((q.gains.getLastD (0, 30, false)).2)

/-- UNIT_OFFSET of a lane for a frame that starts at a time: 0 in DBFS; in DBM the level of 0 dBFS at the selected port, from −14 dBm at no
attenuation (R81), the calibrated gain, the attenuator step and REF_OFFSET. -/
def State.unitOffset (s : State) (l : Fin 8) (dbm : Bool) (start : Nat) : Int :=
  let a := s.an.src.get (laneSrc l)
  if dbm then
    let g := a.gainAt start
    let level0 : Int := -896
    level0 - s.rxGain (s.lanePath l) g.2 + 64 * Int.ofNat g.1 + a.refOffset.toInt
  else 0

/-- EQ or ripple of a lane at a bin relative to its centre. -/
def State.eqBin (s : State) (l : Fin 8) (z : BitVec 4) (ripple : Bool) (i : Int) : Int :=
  let n := 2 ^ (8 + z.toNat)
  s.eqAt l ripple (i * 983040000 + 400000000 * Int.ofNat n) (3125000 * n)

/-- A LOG16 value saturates at ±32,767. -/
def logSat (v : Int) : BitVec 16 := BitVec.ofInt 16 (clampI (-32767) 32767 v)

/-- The bins of a lane's frame, oldest sample first (R219): the power of each bin in LOG16 with EQ and UNIT_OFFSET added. A bin without power
is at the lower end. -/
def State.laneBins (s : State) (l : Fin 8) (c : LaneCfg) (start : Nat) (xs : List Cplx) : List (BitVec 16) :=
  let n : Nat := c.size
  let u := s.unitOffset l c.dbm start
  (List.range n).map (fun k =>
    let i := Int.ofNat k - Int.ofNat (n / 2)
    let p := binPower c.window.toNat n [0, Int.ofNat l.val, Int.ofNat start] xs i
    if p.1 = 0 then logSat (-32767) else logSat (log16 p.1 p.2 + s.eqBin l c.z false i + u))

/-- Whether no table is valid for a source (R226): any member's for the stitch set. -/
def State.uncal (s : State) (a : Fin 9) : Bool :=
  if h : a.val < 8 then (s.eqEntry ⟨a.val, h⟩).isNone
  else (maskBits 8 s.an.stitch.members.toNat).any (fun l => (s.eqEntry l).isNone)

/-! ### The stitch set (R223 to R225) -/

/-- Members in order. -/
def Stitch.list (x : Stitch) : List (Fin 8) := maskBits 8 x.members.toNat

/-- Grid index of member m's centre: round-half-up((350 + 700 m) MHz / δ). -/
def stitchCentre (z : BitVec 4) (m : Nat) : Nat :=
  let n := 2 ^ (8 + z.toNat)
  (2 * (350 + 700 * m) * 1000000 * n + 983040000) / (2 * 983040000)

/-- J of M members. -/
def stitchJ (z : BitVec 4) (m : Nat) : Nat := cdiv (700000000 * m * 2 ^ (8 + z.toNat)) 983040000

/-- Frequency of a grid index from F0. δ is a whole number of hertz for every size. -/
def stitchFreq (f0 : Nat) (z : BitVec 4) (j : Nat) : Nat := f0 + j * (983040000 / 2 ^ (8 + z.toNat))

/-- Whether a member is ready (R225). -/
def State.memberReady (s : State) (l : Fin 8) : Bool :=
  let r := s.radio.get l
  decide (r.use = .stitch ∧ r.state = .monitor) && r.transit.isNone && s.settled l &&
  decide (r.fc = (s.an.stitch.fc.get l).toNat)

/-- Mask of the members that are ready. -/
def State.readyMask (s : State) : Nat := maskOf 8 (fun l => s.an.stitch.members.getLsbD l.val && s.memberReady l)

/-- AN_STITCH_READY when every member first becomes ready. -/
def State.checkStitch (s : State) : State :=
  if s.an.stitch.members ≠ 0 ∧ s.an.stitch.announced = false ∧ s.readyMask = s.an.stitch.members.toNat then
    let s := { s with an.stitch.announced := true }
    s.emitNow 0x0505 0x0508 (pb s.an.stitch.members ++ pb s.an.stitch.j)
  else s

/-- The member that owns a stitched bin (R224), with the bin relative to its centre: of two whose tables are valid the one with the lower ripple
there, else the lower number. -/
def State.binOwner (s : State) (j : Nat) : Option (Fin 8 × Int) :=
  let x := s.an.stitch
  let cover := (x.list.mapIdx (fun m l => (l, Int.ofNat j - Int.ofNat (stitchCentre x.z m)))).filter (fun c =>
    decide (-(validBand x.z) ≤ c.2 ∧ c.2 ≤ validBand x.z))
  let known := fun (c : Fin 8 × Int) => (s.eqEntry c.1).isSome
  let rip := fun (c : Fin 8 × Int) => s.eqBin c.1 x.z true c.2
  match cover with
  | [] => none
  | c :: cs => some (cs.foldl (fun best d => if known d && known best && decide (rip d < rip best) then d else best) c)

/-- A member's spectrum of a frame, with its flags, where it has one. -/
def AnSource.frameAt (q : AnSource) (start : Nat) : Option (List (BitVec 16) × BitVec 8) :=
  (q.recent.find? (fun r => decide (r.1 = start))).map (fun r => r.2)

/-- The stitched spectrum of a frame: each bin from its owner where that member is ready and has the frame, else 0x8000. -/
def State.stitchBins (s : State) (start : Nat) : List (BitVec 16) :=
  let ready := s.readyMask
  let half : Int := Int.ofNat (2 ^ (7 + s.an.stitch.z.toNat))
  (List.range s.an.stitch.j.toNat).map (fun j =>
    match s.binOwner j with
    | none => 0x8000
    | some (l, i) =>
      match (s.an.src.get (laneSrc l)).frameAt start with
      | some f => if ready.testBit l.val then f.1.getD (i + half).toNat 0x8000 else 0x8000
      | none => 0x8000)

/-- The value of a source's spectrum at a bin index: relative for a lane, j for the stitch set. -/
def binAt (a : Fin 9) (bins : List (BitVec 16)) (i : Int) : BitVec 16 :=
  let k := if a.val < 8 then i + Int.ofNat (bins.length / 2) else i
  if k < 0 then 0x8000 else bins.getD k.toNat 0x8000

/-! ### Outputs (R228, R355, R537) -/

/-- What goes with a spectrum or trace: the lane configuration of its frames, the fields of its sub-header (R355) and the flags of its samples
(R346). -/
structure SpecHdr where
  lane     : LaneCfg
  blank    : Nat
  notReady : Nat
  frames   : Nat
  flags    : BitVec 8

/-- The sub-header of R355. -/
def State.specHdr (s : State) (a : Fin 9) (o : Fin 4) (x : AnOutput) (d : SpecHdr) (part parts : Nat) (first : Int)
    (n : Nat) : List Byte :=
  let q := s.an.src.get a
  let c := d.lane
  le 1 a.val ++ le 1 o.val ++ le 1 d.blank ++ le 1 d.notReady ++
  le 1 (c.z.toNat + c.window.toNat * 16 + b2n (s.uncal a) * 128) ++
  le 1 (c.overlapNow q.throttled + b2n c.dbm * 4 + b2n x.avgLog * 8) ++ le 1 part ++ le 1 parts ++ leI 4 first ++
  le 2 n ++ [0, 0] ++ le 4 d.frames

/-- Whether a flow carries a source, or is free since the source's configuration has changed and frames before the change still come (R235). -/
def State.flowFor (s : State) (f : Fin 64) (src : FlowSrc) : Bool :=
  decide ((s.link.rxFlows.get f).src = src ∨ (s.link.rxFlows.get f).src = .none)

/-- The packets of a spectrum: parts of 4,086 bins, an odd number followed by one 0x8000 (R355). -/
def State.sendSpectrum (s : State) (a : Fin 9) (o : Fin 4) (x : AnOutput) (d : SpecHdr) (time : Nat)
    (bins : List (BitVec 16)) : State :=
  let parts := max 1 (cdiv bins.length 4086)
  match x.flow with
  | none => s
  | some f =>
    if s.flowFor f (.spectrum a o) && s.flowRuns f then
      (List.range parts).foldl (fun s k =>
        let bs := (bins.drop (4086 * k)).take 4086
        let pad : List (BitVec 16) := if bs.length % 2 = 1 then [0x8000#16] else []
        s.formPacket f 4 0x7B 0 d.flags time
          (s.specHdr a o x d k parts (x.first.toInt + 4086 * k) bs.length ++ (bs ++ pad).flatMap pb)) s
    else s

/-- A spectrum into the next slot of its store segment (R537). -/
def State.storeSpectrum (s : State) (a : Fin 9) (o : Fin 4) (x : AnOutput) (d : SpecHdr) (bins : List (BitVec 16)) :
    State :=
  match x.segment with
  | none => s
  | some g =>
    match s.aq.segments.get g with
    | none => s
    | some q =>
      let t := (s.an.src.get a).traces.get o
      let s := s.storeWrite (q.base + (t.slot % q.slots) * slotSize q.len q.slots)
        (s.specHdr a o x d 0 1 x.first.toInt bins.length ++ bins.flatMap pb)
      s.modAn a (fun y => { y with traces := vmod y.traces o (fun t => { t with slot := (t.slot + 1) % q.slots }) })

/-- Emit a spectrum of an output to its flow and its segment. -/
def State.putSpectrum (s : State) (a : Fin 9) (o : Fin 4) (x : AnOutput) (d : SpecHdr) (time : Nat)
    (bins : List (BitVec 16)) : State :=
  (s.sendSpectrum a o x d time bins).storeSpectrum a o x d bins

/-- The bins of an output's range. -/
def AnOutput.cut (x : AnOutput) (a : Fin 9) (bins : List (BitVec 16)) : List (BitVec 16) :=
  (List.range x.count.toNat).map (fun k => binAt a bins (x.first.toInt + k))

/-- 10^(1/1280) in units of 2^-200. -/
def halfStep : Nat := 1609831358038649276363445423779424754680445221493165493350546

/-- 10^(k/1280) in units of 2^-200, by the binary digits of k, of which there are at most so many. -/
def halfSteps : Nat → Nat → Nat
  | 0, _ => 2 ^ 200
  | n + 1, k =>
    let r := halfSteps n (k / 2)
    let q := r * r / 2 ^ 200
    if k % 2 = 1 then q * halfStep / 2 ^ 200 else q

/-- The greatest k below lo + 2^n at which 10^((2 k − 1)/1280) is at most a power over den, both in units of 2^-200. -/
def meanSearch (num den : Nat) : Nat → Nat → Nat
  | 0, lo => lo
  | n + 1, lo =>
    let mid := lo + 2 ^ n
    meanSearch num den n (if halfSteps 18 (2 * mid - 1) * den ≤ num then mid else lo)

/-- The LOG16 value of the mean of the powers that LOG16 values stand for, rounded half up (log 28). -/
def meanPower (v : Int) (vs : List Int) : Int :=
  let lo := vs.foldl min v
  lo + Int.ofNat (meanSearch ((vs.map (fun x => halfSteps 18 (2 * (x - lo).toNat))).sum) vs.length 17 0)

/-- One bin of a trace over its included frames, those without data left out (R228). -/
def traceBin (o : Fin 4) (avgLog : Bool) (vs : List Int) : BitVec 16 :=
  let vs := vs.filter (fun v => decide (v ≠ -32768))
  match vs with
  | [] => 0x8000
  | v :: rest =>
    if o = 1 then BitVec.ofInt 16 (rest.foldl max v)
    else if o = 2 then BitVec.ofInt 16 (rest.foldl min v)
    else if avgLog then BitVec.ofInt 16 (ratI vs.sum vs.length)
    else BitVec.ofInt 16 (meanPower v vs)

/-- A block of a trace starts anew. -/
def TraceAcc.clear (t : TraceAcc) : TraceAcc := { t with seen := 0, incl := 0, bins := [], flags := 0 }

/-- A block of a trace ends: the trace is emitted and the next block starts (R228). -/
def State.traceClose (s : State) (a : Fin 9) (o : Fin 4) : State :=
  let q := s.an.src.get a
  let t := q.traces.get o
  match q.cfg.outs.get o with
  | none => s
  | some x =>
    let bins := (List.range x.count.toNat).map (fun k =>
      traceBin o x.avgLog (t.bins.map (fun f => (f.getD k 0x8000).toInt)))
    let s := s.putSpectrum a o x { lane := q.cfg.lane, blank := q.blankLast.toNat, notReady := 0, frames := t.incl, flags := t.flags } t.start bins
    s.modAn a (fun y => { y with traces := vmod y.traces o TraceAcc.clear })

/-- One frame reaches an output. -/
def State.outFrame (s : State) (a : Fin 9) (o : Fin 4) (start k : Nat) (reason notReady : Nat) (fl : BitVec 8)
    (bins : List (BitVec 16)) : State :=
  match (s.an.src.get a).cfg.outs.get o with
  | none => s
  | some x =>
    let cut := x.cut a bins
    if o = 0 then
      if k % x.period.toNat = 0 then
        s.putSpectrum a o x { lane := (s.an.src.get a).cfg.lane, blank := reason, notReady := notReady, frames := 1, flags := fl } start cut
      else s
    else
      let s := if x.k.toNat ≤ ((s.an.src.get a).traces.get o).seen then s.traceClose a o else s
      let incl := decide (reason = 0) || x.inclBl
      s.modAn a (fun y => { y with traces := vmod y.traces o (fun t =>
        { t with
          start := if t.seen = 0 then start else t.start
          seen := t.seen + 1, incl := t.incl + b2n incl, bins := if incl then t.bins ++ [cut] else t.bins
          flags := if incl then t.flags ||| fl else t.flags }) })

/-! ### Masks (R229 to R232) -/

/-- The limit of a mask at a bin, none outside its breakpoints: linear in LOG16, rounded half up. -/
def maskLimit : List (Int × Int) → Int → Option Int
  | [], _ => none
  | [(i, v)], j => if j = i then some v else none
  | (i, v) :: (k, w) :: rest, j =>
    if j < i then none
    else if j < k then some (fdivI (2 * ((w - v) * (j - i)) + (k - i)) (2 * (k - i).toNat) + v)
    else maskLimit ((k, w) :: rest) j

/-- Whether a bin index is one that masks and densities look at: in the valid band of a lane (R213). -/
def binTested (a : Fin 9) (z : BitVec 4) (i : Int) : Bool := decide (8 ≤ a.val ∨ (-(validBand z) ≤ i ∧ i ≤ validBand z))

/-- The excess of a frame: the largest violation over the tested bins, none where no bin is tested (R213, R230). -/
def maskExcess (a : Fin 9) (z : BitVec 4) (m : AnMask) (bins : List (BitVec 16)) : Option Int :=
  match m.points.head?, m.points.getLast? with
  | some (lo, _), some (hi, _) =>
    (((List.range (hi - lo + 1).toNat).map (fun k => lo + Int.ofNat k)).filter (binTested a z)).foldl (fun acc j =>
      let v := binAt a bins j
      match maskLimit m.points j with
      | none => acc
      | some lim =>
        if v = 0x8000 then acc
        else
          let e := if m.lower then lim - v.toInt else v.toInt - lim
          match acc with
          | none => some e
          | some x => some (max x e)) none
  | _, _ => none

/-- The instant the excess crossed zero (R231), from frame a (none where it was skipped or does not exist) to frame b. -/
def crossStamp (x : Option (Int × Int)) (b : Int × Int) : Time :=
  match x with
  | none => (b.1 * 256).toNat
  | some a =>
    if a.2 = b.2 then (b.1 * 256).toNat
    else
      let num := 256 * (b.1 - a.1) * (if a.2 < b.2 then 0 - a.2 else a.2)
      let den := (if a.2 < b.2 then b.2 - a.2 else a.2 - b.2).toNat
      (clampI (a.1 * 256) (b.1 * 256) (a.1 * 256 + ratI num den)).toNat

/-- A mask enters or leaves (R231, R232, R239): events, counts, the trigger sources and routes. -/
def State.maskEdge (s : State) (a : Fin 9) (m : Fin 4) (enter : Bool) (evt : Bool) (run : MaskRun) : State :=
  match run.b with
  | none => s
  | some b =>
    let t := crossStamp run.a b
    let set := s.windowSet t
    let s := if evt then
        s.emit (if enter then 0x0501 else 0x0502) (0x0500 + a.val) t (le 1 a.val ++ le 1 m.val ++ leI 2 b.2)
      else s
    s.fire (if enter then 0x10 else 0x11) (a.val * 4 + m.val) t set

/-- A stitched mask occupies the masks of its number in the members (R229): they count its enters. -/
def State.memberEnters (s : State) (m : Fin 4) : State :=
  s.an.stitch.list.foldl (fun s l => s.modAn (laneSrc l) (fun y => { y with
    masks := vmod y.masks m (fun r => { r with enters := satAdd r.enters 1 }) })) s

/-- One frame reaches a mask. -/
def State.maskFrame (s : State) (a : Fin 9) (m : Fin 4) (centre : Int) (skip : Bool) (bins : List (BitVec 16)) : State :=
  let q := s.an.src.get a
  match q.cfg.masks.get m with
  | none => s
  | some k =>
    let r := q.masks.get m
    let put := fun (s : State) (r : MaskRun) => s.modAn a (fun y => { y with masks := y.masks.set m.val r m.isLt })
    match (if skip then none else maskExcess a q.cfg.lane.z k bins) with
    | none => put s { r with prev := none }
    | some e =>
      let here := some (centre, e)
      let toward := decide (0 < e) != r.entered
      if toward = false then put s { r with run := 0, prev := here }
      else
        let r : MaskRun := { r with
          a := if r.run = 0 then r.prev else r.a, b := if r.run = 0 then here else r.b, run := r.run + 1, prev := here }
        let need := if r.entered then k.leaveD.toNat else k.enterD.toNat
        if r.run < need then put s r
        else
          let enter := !r.entered
          let s := s.maskEdge a m enter k.evt r
          let s := if enter ∧ a = 8 then s.memberEnters m else s
          put s { r with entered := enter, run := 0, enters := if enter then satAdd r.enters 1 else r.enters }

/-! ### The Kaleidoscope (R233, R234) -/

/-- The columns of the i-th of C bins. -/
def densCols (i c : Nat) : List Nat :=
  if 1024 ≤ c then [i * 1024 / c]
  else (List.range ((i + 1) * 1024 / c - i * 1024 / c)).map (fun k => i * 1024 / c + k)

/-- The row of a value. -/
def densRow (top step v : Int) : Nat := (clampI 0 255 (fdivI (top - v) step.toNat)).toNat

/-- The settings of a Kaleidoscope for a size: by default its range is the whole valid band (R233). -/
def DensCfg.forSize (d : DensCfg) (z : BitVec 4) : DensCfg :=
  if d.c = 0 then { d with b0 := BitVec.ofInt 32 (-(validBand z)), c := BitVec.ofNat 32 (2 * (validBand z).toNat + 1) } else d

/-- The settings of a Kaleidoscope in force. -/
def AnCfg.density (c : AnCfg) : DensCfg := c.dens.forSize c.lane.z

/-- The cells that a frame counts into, from bins of the valid band (R213). -/
def densCells (l : Fin 9) (z : BitVec 4) (d : DensCfg) (bins : List (BitVec 16)) : List Nat :=
  (List.range d.c.toNat).flatMap (fun (i : Nat) =>
    let b := d.b0.toInt + Int.ofNat i
    let v := binAt l bins b
    if v = 0x8000 ∨ binTested l z b = false then []
    else (densCols i d.c.toNat).map (fun col =>
      col * 256 + densRow d.top.toInt (Int.ofNat d.step.toNat) v.toInt))

/-- Count one cell; the first counter to saturate after a swap is reported. -/
def State.densCount (s : State) (l : Fin 9) (cell : Nat) : State :=
  let q := s.an.src.get l
  let v := satAdd (memGet 0 q.density.cells cell) 1
  let first := decide (v = BitVec.allOnes 32) && !q.satSeen
  let s := s.modAn l (fun y => { y with
    density.cells := memSet 0 y.density.cells cell v
    sat := y.sat || first
    satSeen := y.satSeen || first })
  if first then s.emitNow 0x0503 (0x0500 + l.val) (le 1 l.val ++ le 2 (cell / 256) ++ le 1 (cell % 256)) else s

/-- An included frame reaches the Kaleidoscope. -/
def State.densFrame (s : State) (l : Fin 9) (start : Nat) (fl : BitVec 8) (bins : List (BitVec 16)) : State :=
  let q := s.an.src.get l
  let s := (densCells l q.cfg.lane.z q.cfg.density bins).foldl (fun s c => s.densCount l c) s
  s.modAn l (fun y => { y with
    density.flags := y.density.flags ||| fl
    density.frames := satAdd y.density.frames 1
    density.first := if y.density.frames = 0 then start else y.density.first
    density.last := start })

/-- The 147 DENSITY packets of a finished bank (R356). -/
def State.sendDensity (s : State) (l : Fin 8) (d : DensCfg) (b : DensBank) : State :=
  match fin? 64 d.flow.toNat with
  | none => s
  | some f =>
    if s.flowFor f (.density l) && s.flowRuns f then
      (List.range 147).foldl (fun s k =>
        let cols := if k = 146 then 2 else 7
        let hdr := le 1 l.val ++ [0] ++ le 2 k ++ le 2 147 ++ le 2 (7 * k) ++ le 2 cols ++ le 2 d.step.toNat ++ pb d.top ++
          [0, 0] ++ pb b.frames ++ pb d.b0 ++ pb d.c ++ le 9 (b.first * 256) ++ le 9 (b.last * 256) ++ [0, 0]
        s.formPacket f 5 0x7C 0 b.flags b.first
          (hdr ++ (List.range (cols * 256)).flatMap (fun i => pb (memGet 0 b.cells (7 * k * 256 + i))))) s
    else s

/-- A bank with no counts. -/
def DensBank.zero : DensBank where
  cells := []
  frames := 0
  first := 0
  last := 0
  flags := 0

/-- The density banks of a lane exchange: the finished one streams out (R234). -/
def State.densSwap (s : State) (l : Fin 8) : State :=
  let a := laneSrc l
  let q := s.an.src.get a
  let s := s.sendDensity l q.cfg.density q.density
  s.modAn a (fun y => { y with
    finished := some q.density
    density := DensBank.zero
    bank := !y.bank
    sat := false
    satSeen := false
    swapReq := none })

/-- Trace blocks and mask runs of a source restart. -/
def AnSource.restart (y : AnSource) : AnSource :=
  { y with
    traces := vmap y.traces (fun _ t => t.clear)
    masks := vmap y.masks (fun _ m => { m with entered := false, run := 0, prev := none, a := none, b := none }) }

/-! ### Frames (R214, R215, R221, R222) -/

/-- The first frame start of a source's grid at or after a tick. -/
def State.frameGrid (s : State) (a : Fin 9) (t : Nat) : Nat :=
  let q := s.an.src.get a
  let hop := q.cfg.lane.hop q.throttled
  s.clk.loadedV + cdiv (t - s.clk.loadedV) hop * hop

/-- The samples of a lane's frame, oldest first, where all of them are there. -/
def AnSource.frame (q : AnSource) (start n : Nat) : Option (List TSample) :=
  let xs := (q.line.filter (fun v => decide (start ≤ v.time ∧ v.time < start + n))).reverse
  if xs.length = n then some xs else none

/-- Whether a lane's samples reach up to a time. -/
def AnSource.reaches (q : AnSource) (t : Nat) : Bool := q.line.head?.any (fun v => decide (t ≤ v.time))

/-- The number of the frame of a grid that starts at a time (R214). -/
def State.frameNo (s : State) (start hop : Nat) : Nat := (start - s.clk.loadedV) / hop

/-- A spectrum of a source is complete: counts, outputs, masks, the Kaleidoscope (R222). -/
def State.frameDone (s : State) (a : Fin 9) (start reason notReady : Nat) (full : BitVec 8) (bins : List (BitVec 16)) : State :=
  let fl := full &&& 7#8
  let q := s.an.src.get a
  let hop := q.cfg.lane.hop q.throttled
  let k := s.frameNo start hop
  let s := s.modAn a (fun y => { y with
    frames := satAdd y.frames 1, blanked := if reason = 0 then y.blanked else satAdd y.blanked 1,
    blankLast := BitVec.ofNat 5 reason, last := bins, lastAt := start, recent := keep 16 (start, bins, full) y.recent,
    nextFrame := start + hop })
  let s := (List.finRange 4).foldl (fun s o => s.outFrame a o start k reason notReady fl bins) s
  let ovlOk := q.cfg.outs.toList.any (fun o => match o with
    | some x => x.maskOvl
    | none => false)
  let skip := !(decide (reason = 0) || (decide (reason = 16) && ovlOk))
  let centre := Int.ofNat (start + q.cfg.lane.size / 2)
  let s := (List.finRange 4).foldl (fun s m => s.maskFrame a m centre skip bins) s
  if a.val < 8 ∧ reason = 0 then s.densFrame a start fl bins else s

/-- The flags of a frame's samples together. -/
def frameFlags (xs : List TSample) : BitVec 8 := xs.foldl (fun f v => f ||| v.fl) 0

/-- A lane's due frame under its configuration in force (R215, R221): one without all its samples is no frame. -/
def State.laneFrame (s : State) (l : Fin 8) : State :=
  let q := s.an.src.get (laneSrc l)
  let c := q.cfg.lane
  if !q.reaches (q.nextFrame + c.size - 1) then s
  else
    match q.frame q.nextFrame c.size with
    | none => s.modAn (laneSrc l) (fun y => { y with nextFrame := y.nextFrame + c.hop y.throttled })
    | some xs =>
      let fl := frameFlags xs
      (s.frameDone (laneSrc l) q.nextFrame (blankBits fl).toNat 0 fl
        (s.laneBins l c q.nextFrame (xs.map (fun v => v.val)))).checkStitch

/-- A frame of the configuration before the last change, whose last sample precedes it (R235): it is delivered as a raw spectrum, since blocks,
runs and the Kaleidoscope have begun anew. -/
def State.oldFrame (s : State) (l : Fin 8) (c : AnCfg) (hop start : Nat) : State :=
  match (s.an.src.get (laneSrc l)).frame start c.lane.size with
  | none => s
  | some xs =>
    let fl := frameFlags xs
    let bins := s.laneBins l c.lane start (xs.map (fun v => v.val))
    match c.outs.get 0 with
    | none => s
    | some x =>
      if s.frameNo start hop % x.period.toNat = 0 then
        s.putSpectrum (laneSrc l) 0 x
          { lane := c.lane, blank := (blankBits fl).toNat, notReady := 0, frames := 1, flags := fl &&& 7#8 } start (x.cut (laneSrc l) bins)
      else s

/-- The samples that no frame needs any more are dropped. -/
def AnSource.trim (q : AnSource) : AnSource :=
  let from_ := match q.old with
    | some (_, _, _, nx) => min nx q.nextFrame
    | none => q.nextFrame
  { q with line := q.line.filter (fun v => decide (from_ ≤ v.time)) }

/-- The next frame of a lane: those of the configuration before come first (R235). -/
def State.laneNext (s : State) (l : Fin 8) : State :=
  let a := laneSrc l
  let q := s.an.src.get a
  let now := fun (s : State) => if s.laneMode l = .off then s else s.laneFrame l
  match q.old with
  | none => now s
  | some (c, thr, t, nx) =>
    let n := c.lane.size
    let hop := c.lane.hop thr
    if t < nx + n then now (s.modAn a (fun y => { y with old := none }))
    else if q.reaches (nx + n - 1) then (s.oldFrame l c hop nx).modAn a (fun y => { y with old := some (c, thr, t, nx + hop) })
    else s

/-- The due frame of the stitch set (R225), once every member has had it: the bins of those that are ready, the reasons and flags of all. -/
def State.stitchFrame (s : State) : State :=
  let q := s.an.src.get 8
  let ms := s.an.stitch.list
  let start := q.nextFrame
  let due := decide (start + q.cfg.lane.size ≤ s.time.ticks) &&
    ms.all (fun l => decide (s.laneMode l = .off ∨ start < (s.an.src.get (laneSrc l)).nextFrame))
  if !due then s
  else
    let fl := ms.foldl (fun (f : BitVec 8) l => f ||| (((s.an.src.get (laneSrc l)).frameAt start).map (fun r => r.2)).getD 0) 0
    s.frameDone 8 start (blankBits fl).toNat (s.an.stitch.members.toNat - s.readyMask) fl (s.stitchBins start)

/-- The frames of a source restart on the grid at a tick (R235): those before it that are complete are still to come. -/
def State.reframe (s : State) (a : Fin 9) (old : AnCfg) (thr : BitVec 2) (t : Nat) : State :=
  let s := s.modAn a (fun y => { y.restart with old := some (old, thr, t, y.nextFrame) })
  s.modAn a (fun y => { y with nextFrame := s.frameGrid a t })

/-! ### Applying and charging (R235, R237, R372) -/

/-- Charge the flows of a source's outputs at the rates now in force. -/
def State.recharge (s : State) (a : Fin 9) : State :=
  (List.finRange 4).foldl (fun s o =>
    match (s.an.src.get a).cfg.outs.get o with
    | none => s
    | some x => match x.flow with
      | none => s
      | some f =>
        if (s.link.rxFlows.get f).src = .spectrum a o then
          { s with link.rxFlows := vmod s.link.rxFlows f (fun r => { r with charge := outCharge (s.an.src.get a).cfg.lane o x }) }
        else s) s

/-- Whether a change of configuration swaps the Kaleidoscope out. -/
def densChanged (a b : AnCfg) : Bool :=
  decide (a.lane.z ≠ b.lane.z ∨ a.lane.dbm ≠ b.lane.dbm ∨ a.density.b0 ≠ b.density.b0 ∨ a.density.c ≠ b.density.c ∨
    a.dens.top ≠ b.dens.top ∨ a.dens.step ≠ b.dens.step)

/-- The Kaleidoscope of a lane is swapped out and cleared where a configuration changes it (R235); while the readout before still runs, it is
cleared (log 91). -/
def State.densFor (s : State) (l : Fin 8) (new : AnCfg) : State :=
  let q := s.an.src.get (laneSrc l)
  if densChanged q.cfg new then
    (if q.finished.isNone then s.densSwap l
     else s.modAn (laneSrc l) (fun y => { y with density := DensBank.zero, sat := false, satSeen := false, swapReq := none }))
  else s

/-- A source takes the flow that is staged for it in place of the one it has (R235): a flow that carries it already goes on with its new charge.
One that the link does not carry any more is bound as shed (log 91). -/
def State.rebindTo (s : State) (src : FlowSrc) (flow : Option (Fin 64)) (charge : Nat) : State :=
  let s := unbindRxIf s (fun y => decide (y = src) && (match flow with
    | some f => decide ((s.link.rxFlows.get f).src ≠ src)
    | none => true))
  match flow with
  | none => s
  | some f =>
    if (s.link.rxFlows.get f).src = src then { s with link.rxFlows := vmod s.link.rxFlows f (fun r => { r with charge := charge }) }
    else if (s.link.rxFlows.get f).src = .none then
      let t := bindRx s f.val src charge false
      if carried t false then t else bindRx s f.val src charge true
    else s

/-- The flows of a source's outputs as its configuration has them. -/
def State.bindOuts (s : State) (a : Fin 9) : State :=
  let c := (s.an.src.get a).cfg
  let s := (List.finRange 4).foldl (fun (s : State) o => match c.outs.get o with
    | some x => s.rebindTo (.spectrum a o) x.flow (outCharge c.lane o x)
    | none => s.rebindTo (.spectrum a o) none 0) s
  match fin? 8 a.val with
  | some l => s.rebindTo (.density l) (fin? 64 c.dens.flow.toNat) densityCharge
  | none => s

/-- The staged configuration of a source comes into force at this tick (R235). -/
def State.anApply (s : State) (a : Fin 9) : State :=
  let q := s.an.src.get a
  let s := match fin? 8 a.val with
    | some l => s.densFor l q.staged
    | none => s
  let s := s.modAn a (fun y => { y with cfg := y.staged, dirty := false })
  let s := ((s.reframe a q.cfg q.throttled s.time.ticks).bindOuts a).rehorizon
  match fin? 8 a.val with
  | some l => s.stitchPort l
  | none => s

/-- Traces of a source restart (R236). -/
def State.anRestart (s : State) (a : Fin 9) : State := s.modAn a (fun y => { y with
  traces := vmap y.traces (fun _ t => t.clear) })

/-- The throttle takes n overlap codes from every lane, or gives them back (R237): like an apply, with AN_OVERLAP_CHANGED where
the overlap in force changes. -/
def State.throttleOverlap (s : State) (n : BitVec 2) : State :=
  (List.finRange 9).foldl (fun s a =>
    let q := s.an.src.get a
    let ch := decide (q.cfg.lane.overlapNow q.throttled ≠ q.cfg.lane.overlapNow n)
    let s := s.modAn a (fun y => { y with throttled := n })
    if ch then
      let s := (s.reframe a q.cfg q.throttled s.time.ticks).rehorizon
      if a.val < 8 then
        s.emitNow 0x0504 (0x0500 + a.val)
          (le 1 a.val ++ le 1 (q.cfg.lane.overlapNow n) ++ le 1 (b2n (decide (n ≠ 0))))
      else s
    else s) s

/-- A lane that is neither in TAP nor in STITCH is no source any more (R258). -/
def State.laneLost (s : State) (l : Fin 8) : State :=
  if s.laneMode l = .off then s.sourcesLost (fun c => decide (c.kind = 2 ∧ c.index.toNat = l.val)) else s

/-- APPLY of a source (R235): what is staged takes effect; a lane that goes OFF is no source any more. -/
def State.applySource (s : State) (a : Fin 9) : State :=
  let s := s.anApply a
  if h : a.val < 8 then s.laneLost ⟨a.val, h⟩ else s

/-! ### Register values (R240) -/

def regAnLaneCfg (s : State) (l : Fin 8) : Nat :=
  let q := s.an.src.get (laneSrc l)
  let c := q.cfg.lane
  b2n (decide (c.overlapNow q.throttled ≠ c.overlap.toNat)) * 2 ^ 19 + b2n c.dbm * 2 ^ 18 +
  c.overlapNow q.throttled * 2 ^ 16 + c.window.toNat * 2 ^ 12 + c.z.toNat * 2 ^ 8 + b2n c.portB * 32 + c.path.toNat * 4 +
  (s.laneMode l).code
def regAnLaneStat (s : State) (l : Fin 8) : Nat :=
  let q := s.an.src.get (laneSrc l)
  b2n (s.uncal (laneSrc l)) * 128 + b2n q.dirty * 64 + q.blankLast.toNat
def regMaskStat (s : State) (l : Fin 8) : Nat :=
  let q := s.an.src.get (laneSrc l)
  let mem := s.an.stitch.members.getLsbD l.val
  let st := s.an.src.get 8
  maskOf 4 (fun m => (q.masks.get m).entered || (mem && (st.masks.get m).entered)) * 16 +
  maskOf 4 (fun m => (q.cfg.masks.get m).isSome || (mem && (st.cfg.masks.get m).isSome))
def regDensStat (q : AnSource) : Nat := b2n q.finished.isSome * 4 + b2n q.bank * 2 + b2n q.sat
def regStitchStat (s : State) : Nat :=
  b2n (decide (s.an.stitch.members ≠ 0)) * 2 ^ 16 + s.readyMask * 2 ^ 8 + s.an.stitch.members.toNat

end Sys2Proof.Machine
end

