-- ==== Sys2Proof/Machine/Analyser.lean ====
section
/-! DEFINITION. Commands and events of the analyser (08_spectral_analysis.md). ANALYSER_CFG is with the timed actions. -/

namespace Sys2Proof.Machine

/-- Lanes of a mask. -/
def lanesOf (m : BitVec 16) : List (Fin 8) := maskBits 8 (m.toNat % 256)

/-- Set the staged configuration of a source. -/
def State.stage (s : State) (a : Fin 9) (f : AnCfg → AnCfg) : State :=
  s.modAn a (fun y => { y with staged := f y.staged, dirty := true })

/-- AN_LANE_CFG (R25, R211, R225, R235, R536, R537): the rates that it stages for the source's outputs must be admitted. While the stitch set is configured, a mask that names a member names every
member, and its size is the set's. -/
def execAnLaneCfg (h : CmdHdr) (lanes : BitVec 16) (mode path port z window overlap units : BitVec 8) (s : State) : Out :=
  .next (serve h
    { opcode := 0x0501, role := some .operator,
      params := pb lanes ++ pb mode ++ pb path ++ pb port ++ pb z ++ pb window ++ pb overlap ++ pb units }
    (fun s =>
      let mem := s.an.stitch.members
      let named := lanes.setWidth 8
      let touches := decide (mem ≠ 0 ∧ named &&& mem ≠ 0)
      checks
        [(stBadParam, decide (256 ≤ lanes.toNat)),
         (stBadParam, decide (1 < mode.toNat ∨ 7 < path.toNat ∨ 1 < port.toNat ∨ 8 < z.toNat)),
         (stBadParam, decide (6 < window.toNat ∨ 2 < overlap.toNat ∨ 1 < units.toNat)),
         (stBadParam, touches && decide (named &&& mem ≠ mem ∨ z.toNat ≠ s.an.stitch.z.toNat)),
         (stBadState, decide (mode = 1) && (lanesOf lanes).any (fun l => decide ((s.radio.get l).use ≠ .aperture)))]
        s (fun _ =>
          let c : LaneCfg :=
            { tap := decide (mode = 1), path := path.setWidth 3, portB := decide (port = 1), z := z.setWidth 4,
              window := window.setWidth 3, overlap := overlap.setWidth 2, dbm := decide (units = 1) }
          let t := (lanesOf lanes).foldl (fun s l => s.stage (laneSrc l) (fun x => { x with lane := c })) s
          let t := if touches then t.stage 8 (fun x => { x with lane := c }) else t
          if admitted t false && t.storeFits then done t.rehorizon else refuse stNoResource s))
    s)

/-- Take the outputs and masks of the stitch set away. -/
def State.clearStitch (s : State) : State :=
  let s := unbindRxIf s (fun x => match x with
    | .spectrum a _ => decide (a = 8)
    | _ => false)
  s.modAn 8 (fun y =>
    let drop := fun (c : AnCfg) => { c with outs := Vector.replicate 4 none, masks := Vector.replicate 4 none }
    { y.restart with cfg := drop y.cfg, staged := drop y.staged, dirty := false })

/-- A source takes the settings of a stitch set, its tap, path and port staying its own (log 29). -/
def State.stitchTake (s : State) (c : LaneCfg) (a : Fin 9) : State :=
  let q := s.an.src.get a
  let as_ := fun (o : LaneCfg) => { c with tap := o.tap, path := o.path, portB := o.portB }
  let new : AnCfg := { q.cfg with lane := as_ q.cfg.lane }
  let s := match fin? 8 a.val with
    | some l => s.densFor l new
    | none => s
  let s := s.modAn a (fun y => { y with cfg := new, staged.lane := as_ y.staged.lane })
  (s.reframe a q.cfg q.throttled s.time.ticks).recharge a

/-- AN_STITCH_CFG (R223, R225, R536): the set's centres and J; its members take the set's size and the settings of the
lowest-numbered one at once (log 29). -/
def execAnStitchCfg (h : CmdHdr) (tiles : BitVec 8) (f0 : BitVec 64) (z : BitVec 8) (s : State) : Out :=
  .next (serve h { opcode := 0x0502, role := some .operator, params := pb tiles ++ pb f0 ++ pb z }
    (fun s0 =>
      let s := s0
      let ms := maskBits 8 tiles.toNat
      let zz : BitVec 4 := z.setWidth 4
      let fcs := ms.mapIdx (fun m l => (l, stitchFreq f0.toNat zz (stitchCentre zz m)))
      if tiles = 0 then
        doneR (List.replicate 68 0)
          { (s.clearStitch).rehorizon with
            an.stitch := { members := 0, f0 := 0, z := 0, j := 0, fc := Vector.replicate 8 0, announced := false } }
      else checks
        [(stBadParam, decide (ms.length < 2 ∨ 8 < z.toNat)),
         (stBadParam, fcs.any (fun c => decide (c.2 < 1000000000 ∨ 6800000000 < c.2)))] s (fun _ =>
          let fcOf := fun (l : Fin 8) => ((fcs.find? (fun c => decide (c.1 = l))).map (fun c => c.2)).getD 0
          let j := stitchJ zz ms.length
          let lead := laneSrc (ms.headD 0)
          let c : LaneCfg := { (s.an.src.get lead).staged.lane with z := zz }
          let s := s.clearStitch
          let s := { s with an.stitch :=
            { members := tiles, f0 := f0, z := zz, j := BitVec.ofNat 32 j,
              fc := Vector.ofFn (fun l => BitVec.ofNat 64 (fcOf l)), announced := false } }
          let t := (ms.map laneSrc ++ [8]).foldl (fun s a => s.stitchTake c a) s
          if admitted t false && t.storeFits then
            doneR ((List.finRange 8).flatMap (fun l => le 8 (fcOf l)) ++ le 4 j) (t.rehorizon.checkStitch)
          else refuse stNoResource s0))
    s)

/-- AN_OUTPUT_CFG (R228, R235, R372, R536, R537): it is staged, admission holds its link and store rates from now on, and APPLY binds the
flow. -/
def execAnOutputCfg (h : CmdHdr) (source output : BitVec 8) (first count : BitVec 32) (period : BitVec 16)
    (k : BitVec 32) (avgMode inclBlanked maskOvl flow segment : BitVec 8) (s : State) : Out :=
  .next (serve h
    { opcode := 0x0503, role := some .operator,
      params := pb source ++ pb output ++ pb first ++ pb count ++ pb period ++ pb k ++ pb avgMode ++ pb inclBlanked ++
        pb maskOvl ++ pb flow ++ pb segment }
    (fun s => match fin? 9 source.toNat, fin? 4 output.toNat with
      | some a, some o =>
        let q := s.an.src.get a
        let half : Int := Int.ofNat (q.staged.lane.size / 2)
        let lo : Int := if a.val < 8 then -half else 0
        let hi : Int := if a.val < 8 then half else Int.ofNat s.an.stitch.j.toNat
        let seg := if segment = 0xFF then none else (fin? 64 segment.toNat).bind (fun g => s.aq.segments.get g)
        let src := FlowSrc.spectrum a o
        checks
          [(stBadParam, decide (a = 8 ∧ s.an.stitch.members = 0)),
           (stBadParam, decide (count = 0 ∨ first.toInt < lo ∨ hi < first.toInt + Int.ofNat count.toNat)),
           (stBadParam, decide (period = 0 ∨ k = 0 ∨ 16777215 < k.toNat)),
           (stBadParam, decide (1 < avgMode.toNat ∨ 1 < inclBlanked.toNat ∨ 1 < maskOvl.toNat)),
           (stBadParam, decide (flow ≠ 0xFF) && !rxFlowFree s flow.toNat src),
           (stBadParam, decide (segment ≠ 0xFF) && (match seg with
             | none => true
             | some g => decide (slotSize g.len g.slots < 20 + 2 * count.toNat)))] s (fun _ =>
            let x : AnOutput :=
              { first := first, count := count, period := period, k := k, avgLog := decide (avgMode = 1),
                inclBl := decide (inclBlanked = 1), maskOvl := decide (maskOvl = 1), flow := fin? 64 flow.toNat,
                segment := if segment = 0xFF then none else fin? 64 segment.toNat }
            let t := s.stage a (fun c => { c with outs := c.outs.set o.val (some x) o.isLt })
            if admitted t false && t.storeFits then done t else refuse stNoResource s)
      | _, _ => refuse stBadParam s)
    s)

/-- Breakpoints of AN_MASK_LOAD: index, level and two bytes of 0; none where those are not 0 (R537). -/
def readPoints (bs : List Byte) (n : Nat) : Option (List (Int × Int)) :=
  (chunks 8 n bs).mapM (fun c =>
    if unle (c.drop 6) = 0 then
      some ((BitVec.ofNat 32 (unle (c.take 4))).toInt, (BitVec.ofNat 16 (unle ((c.drop 4).take 2))).toInt)
    else none)

/-- Indices rise strictly. -/
def pointsRise : List (Int × Int) → Bool
  | a :: b :: rest => decide (a.1 < b.1) && pointsRise (b :: rest)
  | _ => true

/-- Breakpoints of a stitched mask's slice in a member (R229): those that it owns, and one at each end of a run of its bins where the mask goes
on. -/
def State.sliceLen (s : State) (pts : List (Int × Int)) (l : Fin 8) : Nat :=
  match pts.head?, pts.getLast? with
  | some (lo, _), some (hi, _) =>
    let mine := fun (j : Int) => (s.binOwner j.toNat).any (fun o => decide (o.1 = l))
    let js := ((List.range (hi - lo + 1).toNat).map (fun k => lo + Int.ofNat k)).filter mine
    (js.filter (fun j => pts.any (fun p => decide (p.1 = j)) || (decide (lo < j) && !mine (j - 1)) || (decide (j < hi) && !mine (j + 1)))).length
  | _, _ => 0

/-- Whether a lane's mask of a number is taken by a stitched mask (R229). -/
def State.maskTaken (s : State) (a : Fin 9) (m : Fin 4) : Bool :=
  decide (a.val < 8) && s.an.stitch.members.getLsbD a.val && ((s.an.src.get 8).staged.masks.get m).isSome

/-- AN_MASK_LOAD (R229, R230, R536, R537): a stitched mask takes the masks of its number in the members, which a lane's own then may not
(log 92). -/
def execAnMaskLoad (h : CmdHdr) (source mask polarity : BitVec 8) (enterD leaveD : BitVec 16) (evt : BitVec 8)
    (count : BitVec 16) (ptr : BitVec 32) (s : State) : Out :=
  .next (serve h
    { opcode := 0x0504, role := some .operator,
      params := pb source ++ pb mask ++ pb polarity ++ pb enterD ++ pb leaveD ++ pb evt ++ pb count ++ pb ptr,
      ptrs := if count = 0 then [] else [(ptr.toNat, 8 * count.toNat)] }
    (fun s => match fin? 9 source.toNat, fin? 4 mask.toNat with
      | some a, some m =>
        let pts := readPoints (memRead 0 s.pup.mbRam ptr.toNat (8 * count.toNat)) count.toNat
        let ps := pts.getD []
        let z := (s.an.src.get a).staged.lane.z
        let lo : Int := if a.val < 8 then -(validBand z) else 0
        let hi : Int := if a.val < 8 then validBand z else Int.ofNat s.an.stitch.j.toNat - 1
        let x : Option AnMask := if count = 0 then none
          else some { lower := decide (polarity = 1), enterD := enterD, leaveD := leaveD, evt := decide (evt = 1),
                      points := ps }
        let put := fun (s : State) (b : Fin 9) (y : Option AnMask) => s.stage b (fun c => { c with masks := c.masks.set m.val y m.isLt })
        let t := if a = 8 then s.an.stitch.list.foldl (fun s l => put s (laneSrc l) none) (put s a x) else put s a x
        let t := t.rehorizon
        checks
          [(stBadParam, decide (a = 8 ∧ s.an.stitch.members = 0)),
           (stBadParam, decide (1 < polarity.toNat ∨ enterD = 0 ∨ leaveD = 0 ∨ 1 < evt.toNat ∨ 512 < count.toNat)),
           (stBadParam, pts.isNone || !pointsRise ps || s.maskTaken a m),
           (stBadParam, ps.any (fun p => decide (p.1 < lo ∨ hi < p.1))),
           (stBadParam, decide (a = 8) && s.an.stitch.list.any (fun l => decide (512 < s.sliceLen ps l))),
           (stBadParam, !t.chansFit)] s (fun _ => done t)
      | _, _ => refuse stBadParam s)
    s)

/-- AN_DENSITY_CFG (R233, R235, R536): it is staged, and APPLY binds the flow. -/
def execAnDensityCfg (h : CmdHdr) (lane : BitVec 8) (b0 c : BitVec 32) (top : BitVec 16) (step flow : BitVec 8)
    (s : State) : Out :=
  .next (serve h
    { opcode := 0x0505, role := some .operator,
      params := pb lane ++ pb b0 ++ pb c ++ pb top ++ pb step ++ pb flow }
    (fun s => match fin? 8 lane.toNat with
      | none => refuse stBadParam s
      | some l =>
        let vb := validBand (s.an.src.get (laneSrc l)).staged.lane.z
        let src := FlowSrc.density l
        checks
          [(stBadParam, decide (c = 0 ∨ b0.toInt < -vb ∨ vb < b0.toInt + Int.ofNat c.toNat - 1 ∨ step = 0)),
           (stBadParam, decide (flow ≠ 0xFF) && !rxFlowFree s flow.toNat src)] s (fun _ =>
            let t := s.stage (laneSrc l) (fun x => { x with
              dens := { b0 := b0, c := c, top := top, step := step, flow := flow } })
            if admitted t false then done t else refuse stNoResource s))
    s)

/-- A density swap of lanes is asked for: it takes effect at the next frame boundary (R234). -/
def State.askSwap (s : State) (ls : List (Fin 8)) : State :=
  ls.foldl (fun s l => s.modAn (laneSrc l) (fun y => { y with swapReq := some (s.frameGrid (laneSrc l) s.time.ticks) })) s

/-- Whether a lane's readout or swap is still under way. -/
def State.swapBusy (s : State) (ls : List (Fin 8)) : Bool :=
  ls.any (fun l => (s.an.src.get (laneSrc l)).finished.isSome || (s.an.src.get (laneSrc l)).swapReq.isSome)

/-- AN_DENSITY_SWAP (R234). -/
def execAnDensitySwap (h : CmdHdr) (lanes : BitVec 16) (s : State) : Out :=
  .next (serve h { opcode := 0x0506, role := some .operator, params := pb lanes }
    (fun s => checks
      [(stBadParam, decide (256 ≤ lanes.toNat)), (stBusy, s.swapBusy (lanesOf lanes))] s
      (fun _ => done (s.askSwap (lanesOf lanes))))
    s)

/-- Sources of a mask whose bit 8 is the stitch set. -/
def sourcesOfMask (m : BitVec 16) : List (Fin 9) := maskBits 9 (m.toNat % 512)

/-- AN_APPLY (R235): answers the tick a as a time. -/
def execAnApply (h : CmdHdr) (lanes : BitVec 16) (s : State) : Out :=
  .next (serve h { opcode := 0x0507, role := some .operator, params := pb lanes }
    (fun s => checks [(stBadParam, decide (512 ≤ lanes.toNat))] s (fun _ =>
      doneR (le 9 s.nowT) ((sourcesOfMask lanes).foldl (fun s a => s.applySource a) s)))
    s)

/-- AN_REF_SET (R220). -/
def execAnRefSet (h : CmdHdr) (lanes offset : BitVec 16) (s : State) : Out :=
  .next (serve h { opcode := 0x0508, role := some .installer, journal := true, params := pb lanes ++ pb offset }
    (fun s => checks
      [(stBadParam, decide (256 ≤ lanes.toNat)),
       (stBadParam, decide (offset.toInt < -8192 ∨ 8191 < offset.toInt))] s (fun _ =>
        done ((lanesOf lanes).foldl (fun s l => s.modAn (laneSrc l) (fun y => { y with refOffset := offset })) s)))
    s)

/-- AN_STATUS (R238, R536). -/
def execAnStatus (h : CmdHdr) (lane : BitVec 8) (s : State) : Out :=
  .next (serve h { opcode := 0x0509, role := some .operator, params := pb lane }
    (fun s => match fin? 8 lane.toNat with
      | none => refuse stBadParam s
      | some l =>
        let q := s.an.src.get (laneSrc l)
        doneR (le 4 (regAnLaneCfg s l) ++ le 4 (regAnLaneStat s l) ++ pb q.frames ++ pb q.blanked ++
          le 4 (regMaskStat s l) ++ q.masks.toList.flatMap (fun m => pb m.enters) ++ le 4 (regDensStat q) ++
          pb q.density.frames ++ le 4 (regStitchStat s)) s)
    s)

/-! ### Events -/

/-- SPECTRAL_FRAME_END (R215, R219, R221, R225): the next frame of a lane whose samples are all there, or of the stitch set once its members
have had it. -/
def execSpectralFrameEnd (src : Fin 9) (s : State) : Out :=
  .next (match fin? 8 src.val with
  | some l => (s.laneNext l).modAn src AnSource.trim
  | none => if s.an.stitch.members = 0 then s else s.checkStitch.stitchFrame)

/-- TRACE_BLOCK_END (R228): a block of K frames is emitted. -/
def execTraceBlockEnd (src : Fin 9) (out : Fin 4) (s : State) : Out :=
  .next (match (s.an.src.get src).cfg.outs.get out with
  | none => s
  | some x =>
    if out ≠ 0 ∧ x.k.toNat ≤ ((s.an.src.get src).traces.get out).seen then s.traceClose src out else s)

/-- DENSITY_SWAP_EFFECT (R234): the banks exchange at the frame boundary, once the frames before it have been counted. -/
def execDensitySwapEffect (l : Fin 8) (s : State) : Out :=
  let q := s.an.src.get (laneSrc l)
  .next (match q.swapReq with
  | some t => if decide (t ≤ s.time.ticks) && (decide (s.laneMode l = .off) || decide (t ≤ q.nextFrame)) then s.densSwap l else s
  | none => s)

/-- DENSITY_READOUT_DONE (R234): the finished bank is cleared. -/
def execDensityReadoutDone (l : Fin 8) (s : State) : Out :=
  .next (s.modAn (laneSrc l) (fun y => { y with finished := none }))

end Sys2Proof.Machine
end

