-- ==== Sys2Proof/Machine/PathOps.lean ====
section
/-! DEFINITION. Operations of the paths, RFFE masters, detectors and pick groups (03_transceiver_paths.md). -/

namespace Sys2Proof.Machine

/-! ### Pick groups (R100 to R105) -/

/-- Change one pick group. -/
def State.modPick (s : State) (g : Fin 8) (f : PickGroup → PickGroup) : State := { s with pick := vmod s.pick g f }

/-- The tiles of a group that take part: those in APERTURE, as of the effective sample of the swap that put them there (R100). -/
def State.groupTiles (s : State) (g : Fin 8) : List (Fin 8) :=
  (List.finRange 8).filter (fun t => (s.pick.get g).tiles.getLsbD t.val && s.beam.aper.getLsbD t.val)

/-- The lead tile of a group. -/
def State.leadTile (s : State) (g : Fin 8) : Option (Fin 8) := (s.groupTiles g).head?

/-- The selectors of a group's paths move to a port. -/
def State.groupPort (s : State) (g : Fin 8) (b : Bool) : State :=
  let ts := (s.groupTiles g).filter (fun t => decide ((s.radio.get t).use = .aperture))
  { s with paths := vmap s.paths (fun p x => if ts.contains (tileOf p) then { x with portNow := b } else x) }

/-- The port a group sits on between bursts: forced, or home. -/
def PickGroup.rest (x : PickGroup) : Bool :=
  match x.mode with
  | .auto => x.home
  | .forceA => false
  | .forceB => true

/-- D_pick of a beam (R101, R144). -/
def State.dPick (s : State) (b : Fin 32) : Nat := s.beamG b + 56

/-- The bound of R102: D_pick + 6 ticks within H/2 sample periods of the beam. -/
def State.pickFits (s : State) (b : Fin 32) (half : Nat) : Bool :=
  decide (2 * (s.dPick b + 6) ≤ half * periodOf (s.rxBeam b).rate)

/-- Whether a group's bound holds for its lead's detector, where that is enabled. -/
def State.groupFits (s : State) (g : Fin 8) : Bool :=
  match s.leadTile g with
  | none => true
  | some t =>
    let d := (s.res.get t).det
    !d.enabled || s.pickFits d.beam d.half.toNat

/-- Whether every enabled group fits. -/
def State.picksFit (s : State) : Bool := (List.finRange 8).all (fun g => !(s.pick.get g).enabled || s.groupFits g)

/-- Change the pick counters of a group's pick: those of every tile that takes part (log 64). -/
def State.pickCount (s : State) (g : Fin 8) (f : PickCnt → PickCnt) : State :=
  (s.groupTiles g).foldl (fun s t => s.modRes t (fun r => { r with pcnt := f r.pcnt })) s

/-- The PREAMBLE event of a detection with its outcome (R98, R109, R550): the window set is that of its stamp. -/
def State.emitPreamble (s : State) (t : Fin 8) (stamp : Time) (set : Nat) (rho : BitVec 16) (outcome : Nat)
    (cHome cOther : BitVec 16) : State :=
  let d := (s.res.get t).det
  if d.evt then
    s.emitSet 0x0240 (0x0200 + t.val) stamp set
      (le 1 t.val ++ le 1 d.beam.val ++ pb rho ++ le 1 outcome ++ [0] ++ pb cHome ++ pb cOther)
  else s

/-- C_home of a pick in LOG16 (R101). -/
def PickRun.home (r : PickRun) : BitVec 16 := BitVec.ofInt 16 (log16 r.num r.den)

/-- A pick that runs ends with an outcome: its PREAMBLE is emitted. -/
def State.pickReport (s : State) (g : Fin 8) (outcome : Nat) (cOther : BitVec 16) : State :=
  match (s.pick.get g).phase with
  | .first r _ | .second r _ => s.emitPreamble r.lead r.stamp r.windows.toNat r.rho outcome r.home cOther
  | _ => s

/-- A pick or hold ends at once (R105): the pick is reported aborted and counted; the group goes to its resting port. Where no other port
has been measured C_other is 0x8000, the LOG16 code of no value (log 64). -/
def State.pickAbort (s : State) (g : Fin 8) : State :=
  let x := s.pick.get g
  let s := s.pickReport g 5 0x8000
  let s := match x.phase with
    | .idle => s
    | _ => s.pickCount g (fun c => { c with abort := satAdd c.abort 1 })
  let s := s.modPick g (fun x => { x with phase := .idle })
  if x.enabled then s.groupPort g (s.pick.get g).rest else s

/-- Judge the bound of R102 for every group after a change of beam, preset or lead: a group that fails has its pick disabled and
reported, and a pick that runs ends as one that is aborted. Where the bound holds again the pick is enabled again (log 64). -/
def State.judgePicks (s : State) : State :=
  (List.finRange 8).foldl (fun s g =>
    let x := s.pick.get g
    if !x.enabled then s
    else
      let ok := s.groupFits g
      let s := s.modPick g (fun x => { x with latOk := ok })
      if x.latOk && !ok then
        match s.leadTile g with
        | none => s
        | some t =>
          let d := (s.res.get t).det
          (s.pickAbort g).emitNow 0x0243 (0x0200 + g.val) (le 1 g.val ++ le 4 (s.dPick d.beam) ++ le 2 d.half.toNat)
      else s) s

/-- Every pick or hold ends, with the leads that a swap is about to change (R100). -/
def State.endPicks (s : State) : State :=
  (List.finRange 8).foldl (fun (s : State) g => if (s.pick.get g).enabled then s.pickAbort g else s) s

/-- After a swap that changes a use (R100): with the leads chosen anew, groups and single paths take their ports. -/
def State.relead (s : State) : State :=
  let s := { s with paths := vmap s.paths (fun p x => match s.groupOf (tileOf p) with
    | some g => { x with portNow := if (s.groupTiles g).contains (tileOf p) then (s.pick.get g).rest else s.ownPort p }
    | none => { x with portNow := s.ownPort p }) }
  s.judgePicks

/-! ### Detectors (R97 to R99) -/

/-- A word of a detector's template as a sample. -/
def Detector.tmpl (d : Detector) (k : Nat) : Cplx :=
  let w := d.template.getD k 0
  ((w.extractLsb' 0 16).toInt, (w.extractLsb' 16 16).toInt)

/-- A sample of a detector's beam, whose period is given: the line holds both halves and the dead time's worth. One that does not follow the
one before begins it anew. -/
def Detector.feed (d : Detector) (period : Nat) (v : TSample) : Detector :=
  { d with line := if d.line.head?.any (fun x => decide (x.time + period = v.time)) then keep (4 * d.half.toNat) v d.line else [v] }

/-- A sample of a beam reaches the detectors attached to it (R97). -/
def State.detSample (s : State) (b : Fin 32) (period : Nat) (v : TSample) : State :=
  { s with res := vmap s.res (fun _ r => if r.det.enabled ∧ r.det.beam = b then { r with det := r.det.feed period v } else r) }

/-- A correlation: |Σ x t*|², Σ|x|² and Σ|t|². -/
structure Corr where
  num : Nat
  ex  : Nat
  et  : Nat
  deriving DecidableEq, Repr

/-- The correlation of samples with words of a template. -/
def corrOf (xs : List (Cplx × Cplx)) : Corr :=
  let i := (xs.map (fun v => v.1.1 * v.2.1 + v.1.2 * v.2.2)).sum
  let q := (xs.map (fun v => v.1.2 * v.2.1 - v.1.1 * v.2.2)).sum
  { num := (i * i + q * q).toNat, ex := (xs.map (fun v => pwr v.1)).sum, et := (xs.map (fun v => pwr v.2)).sum }

/-- The correlation of a detector with its first half at an alignment, given by the time of its first sample, where all its samples are
there. -/
def Detector.align (d : Detector) (period start : Nat) : Option Corr :=
  let h := d.half.toNat
  let xs := (d.line.filter (fun v => decide (start ≤ v.time ∧ v.time < start + h * period))).reverse
  if xs.length = h then some (corrOf (xs.mapIdx (fun k v => (v.val, d.tmpl k)))) else none

/-- The denominator of ρ. -/
def Corr.den (c : Corr) : Nat := max 1 (c.ex * c.et)

/-- Whether ρ at one alignment is below that at another. -/
def Corr.below (a b : Corr) : Bool := decide (a.num * b.den < b.num * a.den)

/-- Whether ρ reaches a threshold in Q0.16. -/
def Corr.reaches (c : Corr) (thr : BitVec 16) : Bool := decide (0 < c.num ∧ thr.toNat * c.den ≤ 65536 * c.num)

/-- ρ in Q0.16, at most 65,535. -/
def Corr.rho (c : Corr) : BitVec 16 := BitVec.ofNat 16 (min 65535 (ratI (65536 * Int.ofNat c.num) c.den).toNat)

/-- The first peak of ρ that reaches the threshold outside the dead time (R97, R98): its alignment, the one before, that after and its own
correlation. -/
def Detector.peak (d : Detector) (period : Nat) : Option (Nat × Corr × Corr × Corr) :=
  d.line.reverse.findSome? (fun v =>
    match d.align period v.time, d.align period (v.time + period) with
    | some c, some after =>
      let before := (d.align period (v.time - period)).getD { num := 0, ex := 0, et := 0 }
      if decide (d.deadTill ≤ v.time * 256) && c.reaches d.thr && before.below c && !c.below after then some (v.time, before, after, c)
      else none
    | _, _ => none)

/-- The stamp of a peak (R98): the time of the first preamble sample, interpolated from ρ about it. -/
def peakStamp (period start : Nat) (before c after : Corr) : Time :=
  let half := Int.ofNat (128 * period)
  let ns := [before, c, after].flatMap (fun x => [Int.ofNat x.num, Int.ofNat x.den])
  (Int.ofNat (start * 256) + clampI (-half) half (Config.peakShift (Int.ofNat period :: ns))).toNat

/-- The power of a correlation per sample, over full scale (R101): |Σ x t*|² / (n Σ|t|²). -/
def Corr.power (c : Corr) (n : Nat) : Nat × Nat := (c.num, max 1 (n * c.et * 2 ^ 30))

/-- The second-half samples that a pick measures (R101, R102): those taken from 6 ticks after the switch on, while the lead tile was in RX,
each with its word of the template. -/
def State.secondHalf (s : State) (r : PickRun) (switched : Nat) : List (Cplx × Cplx) :=
  let d := (s.res.get r.lead).det
  let p := periodOf (s.rxBeam d.beam).rate
  let h := d.half.toNat
  (d.line.filter (fun v => decide (r.first + h * p ≤ v.time ∧ v.time < r.first + 2 * h * p ∧ switched + 6 ≤ v.time) &&
    decide ((s.radio.get r.lead).stateAt v.time = some .rx))).map (fun v => (v.val, d.tmpl ((v.time - r.first) / p)))

/-- Whether the last second-half sample of a pick has come, or cannot come any more. -/
def State.secondDone (s : State) (r : PickRun) : Bool :=
  let d := (s.res.get r.lead).det
  let last := r.first + (2 * d.half.toNat - 1) * periodOf (s.rxBeam d.beam).rate
  d.line.head?.any (fun v => decide (last ≤ v.time)) || decide (last + s.beamG d.beam + 16 ≤ s.time.ticks)

/-- C_other ≥ C_home × 10^(bias/10), with the bias in quarters of a decibel (R101). -/
def keepsOther (other home : Nat × Nat) (bias : Nat) : Bool :=
  decide ((home.1 * other.2) ^ 40 * 10 ^ bias ≤ (other.1 * home.2) ^ 40)

/-! ### Paths (R74, R75, R79) -/

/-- Whether the driver gain of a path may change now: its tile runs no TX_BURST (R79). -/
def State.gainFree (s : State) (t : Fin 8) : Bool :=
  match (s.radio.get t).burst with
  | some b => decide (b.kind ≠ .tx)
  | none => true

/-- A write of PA_CTL (R74, R75, R79, R110): the attenuator at once, the gain between bursts, the port outside a group. -/
def State.writePaCtl (s : State) (p : Fin 64) (v : BitVec 32) : State :=
  let t := tileOf p
  let gain := BitVec.ofNat 7 (min 40 (bitsOf v.toNat 14 8))
  let ctl := v &&& 0x00017F1F#32
  let s := s.modPath p (fun x => { x with ctl := ctl })
  let s := if (s.groupOf t).isSome && decide ((s.radio.get t).use = .aperture) then s
    else s.modPath p (fun x => { x with portNow := s.ownPort p })
  if s.gainFree t && decide ((s.paths.get p).gainNow ≠ gain) then
    (s.modPath p (fun x => { x with gainNow := gain })).pdGainChanged p
  else s

/-! ### RFFE (R93 to R96) -/

/-- Type codes that read. -/
def rffeReads (o : RffeOp) : Bool := decide (o.kind = 1 ∨ o.kind = 4 ∨ o.kind = 6)

/-- Whether an operation is one of R533 with the sizes of R93. -/
def rffeOk (o : RffeOp) : Bool :=
  decide (o.usid.toNat ≤ 15 ∧ o.rsvd = 0) && decide (o.data.length = 16) &&
  (if o.kind = 0 ∨ o.kind = 1 then decide (o.addr.toNat < 32 ∧ o.count = 1)
   else if o.kind = 2 then decide (o.addr = 0 ∧ o.count = 1) && decide ((o.data.headD 0).toNat < 128)
   else if o.kind = 3 ∨ o.kind = 4 then decide (o.addr.toNat < 256 ∧ 1 ≤ o.count.toNat ∧ o.count.toNat ≤ 16)
   else if o.kind = 5 ∨ o.kind = 6 then decide (1 ≤ o.count.toNat ∧ o.count.toNat ≤ 8)
   else false)

/-- The 24 bytes of an operation (R533). -/
def rffeBytes (o : RffeOp) : List Byte :=
  pb o.kind ++ pb o.usid ++ pb o.addr ++ pb o.count ++ pb o.rsvd ++ o.data

/-- SCLK periods of a write: the start, the command frame and bus park take 16, each address or data frame 9, as MIPI RFFE has
them (log 30); 34 for an Extended Register Write of one byte (R96). -/
def rffePeriods (o : RffeOp) : Nat :=
  if o.kind = 0 then 25 else if o.kind = 2 then 16 else if o.kind = 3 then 25 + 9 * o.count.toNat else 34 + 9 * o.count.toNat

/-- A divider below 19 acts as 19 (R94). -/
def rffeDiv (n : BitVec 8) : Nat := max 19 n.toNat

/-- Bus time of a retune sequence in ticks: an SCLK period is 2 N ticks. -/
def seqTicks (div : BitVec 8) (ops : List RffeOp) : Nat := (ops.map rffePeriods).sum * 2 * rffeDiv div

/-- Emit RFFE_FAULT. -/
def State.rffeFault (s : State) (t : Fin 8) (cause idx : Nat) : State :=
  s.emitNow 0x0241 (0x0200 + t.val) (le 1 t.val ++ le 1 cause ++ le 1 idx)

/-! ### Waiting RFFE lists (R95, R107) -/

/-- A list takes the bus, or waits for those before it (log 64). -/
def Rffe.take (x : Rffe) (r : RffeRun) : Rffe :=
  if x.run.isNone then { x with run := some r, listOp := false } else { x with queue := x.queue ++ [r] }

/-- The list on the bus ends: the next one that waits takes it. -/
def Rffe.next (x : Rffe) : Rffe := { x with run := x.queue.head?, queue := x.queue.drop 1, listOp := false }

/-! ### Register values (R110) -/

def regPickCfg (s : State) (t : Fin 8) : Nat :=
  match (List.finRange 8).find? (fun g => (s.pick.get g).tiles.getLsbD t.val) with
  | none => 4 * 2 ^ 16
  | some g =>
    let x := s.pick.get g
    let m := match x.mode with
      | .auto => 0
      | .forceA => 1
      | .forceB => 2
    x.bias.toNat * 2 ^ 16 + x.tiles.toNat * 2 ^ 8 + m * 4 + b2n x.home * 2 + b2n (x.enabled && x.latOk)
def regPickHold (s : State) (t : Fin 8) : Nat :=
  match (List.finRange 8).find? (fun g => (s.pick.get g).tiles.getLsbD t.val) with
  | none => 983040
  | some g => (s.pick.get g).hold.toNat
def regPickLat (s : State) (t : Fin 8) : Nat :=
  match (List.finRange 8).find? (fun g => (s.pick.get g).tiles.getLsbD t.val) with
  | none => 0
  | some g => match s.leadTile g with
    | none => 0
    | some l => if (s.res.get l).det.enabled then s.dPick (s.res.get l).det.beam else 0
def regPickMisc (c : PickCnt) : Nat := c.abort.toNat * 2 ^ 16 + c.void.toNat
def regPreCfg (d : Detector) : Nat :=
  b2n d.evt * 2 ^ 17 + d.half.toNat * 2 ^ 8 + b2n d.enabled * 128 + d.beam.val
def regFemNow (s : State) (t : Fin 8) : Nat :=
  b2n (s.muteOn t) * 2 ^ 12 + (if s.muteOn t then 9 else (s.femIndex t).val) * 2 ^ 8 + (s.femLines t).toNat
def regOrxCtl (o : Orx) : Nat :=
  let u := match o.user with
    | .none => 0
    | .calibration => 1
    | .predistortion => 2
    | .kernel => 3
  o.settle.toNat * 2 ^ 11 + b2n o.busy * 2 ^ 10 + u * 2 ^ 8 + o.atten.toNat * 8 + o.sel.toNat
def regRffeCtl (r : Rffe) : Nat :=
  b2n (r.run.isSome || decide (0 < r.seqLeft)) * 2 ^ 16 + r.divRd.toNat * 2 ^ 8 + r.divWr.toNat
def regRffeErr (r : Rffe) : Nat := r.overrun.toNat * 2 ^ 16 + r.parity.toNat

end Sys2Proof.Machine
end

