-- ==== Sys2Proof/Machine/BeamOps.lean ====
section
/-! DEFINITION. Operations of the beam engine: banks, locks, swaps and what they bind, sample formats, the transmit input
(06_beam_engine.md, 12_zenfa_link.md R350 to R370). -/

namespace Sys2Proof.Machine

/-! ### Banks and locks (R168 to R170) -/

/-- A direction of the beam engine: transmit where tx. -/
def BeamBlock.dir (b : BeamBlock) (tx : Bool) : BeamDir := if tx then b.tx else b.rx

/-- Change a direction. -/
def State.modDir (s : State) (tx : Bool) (f : BeamDir → BeamDir) : State :=
  if tx then { s with beam.tx := f s.beam.tx } else { s with beam.rx := f s.beam.rx }

/-- Write the shadow bank of a direction, BUSY while it is locked. -/
def State.shadowSet (s : State) (tx : Bool) (f : Bank → Bank) : Reply × State :=
  if (s.beam.dir tx).lock.isSome then refuse stBusy s
  else done (s.modDir tx (fun d => { d with shadow := f d.shadow }))

/-- Index of a weight word in its window (R185). -/
def weightIdx (tx : Bool) (beam path port : Nat) : Nat := if tx then beam * 64 + path else (beam * 64 + path) * 2 + port

/-- Unlock the directions a swap holds. -/
def State.unlock (s : State) (h : BitVec 16) : State :=
  let free := fun (d : BeamDir) => if d.lock = some h then { d with lock := none } else d
  { s with beam := { s.beam with rx := free s.beam.rx, tx := free s.beam.tx } }

/-! ### Swaps (R171 to R180, R602) -/

/-- Use codes of a swap. -/
def use? (c : Nat) : Option TileUse := [TileUse.aperture, .stitch, .out][c]?

/-- The aperture mask after a swap. -/
def State.swapMask (s : State) (w : SwapRun) : BitVec 8 := BitVec.ofNat 8 (maskOf 8 (swapAperture s w))

/-- Whether a list of numbers holds one twice. -/
def hasDup : List Nat → Bool
  | [] => false
  | x :: xs => xs.contains x || hasDup xs

/-- Whether a flow of a swap carries a source other than a beam or an element tile. -/
def State.flowTaken (s : State) (tx : Bool) (f : Nat) : Bool :=
  match fin? 64 f with
  | none => true
  | some i =>
    let src := if tx then (s.link.txFlows.get i).src else (s.link.rxFlows.get i).src
    (src.isBound && !src.isBeam) || (!tx && flowStaged s f .none)

/-- BAD_PARAM of a swap in a direction (R171, R358). -/
def State.swapDirBad (s : State) (w : SwapRun) (tx : Bool) : Bool :=
  let b := (s.beam.dir tx).shadow
  let fs := swapFlows s w tx
  w.names tx && (hasDup (fs.map (fun x => x.1)) || fs.any (fun x => s.flowTaken tx x.1) ||
    (b.element && decide (b.elem.rate = 0 ∧ b.elem.format = 0)))

/-- The status of enqueueing a swap, none where it is accepted (R170, R171). -/
def State.swapRefusal (s : State) (w : SwapRun) : Option (BitVec 8) :=
  if decide (s.swapMask w ≠ s.beam.aper) && decide (w.dirs ≠ 3) then some stBadParam
  else if w.dirs = 0 ∧ w.uses.isNone then some stBadParam
  else if s.swapDirBad w false || s.swapDirBad w true then some stBadParam
  else if (w.names false && s.beam.rx.lock.isSome) || (w.names true && s.beam.tx.lock.isSome) then some stBusy
  else if admittedAll { s with beam.swaps := s.beam.swaps ++ [w] } then none
  else some stNoResource

/-- Enqueue a swap: the shadow banks it names are locked and its reservation counts. -/
def State.swapAdd (s : State) (w : SwapRun) : State :=
  let lk := fun (tx : Bool) (d : BeamDir) => if w.names tx then { d with lock := some w.handle } else d
  { s with beam := { s.beam with rx := lk false s.beam.rx, tx := lk true s.beam.tx, swaps := s.beam.swaps ++ [w] } }

/-- The waiting swap of a handle. -/
def State.swapOf (s : State) (h : BitVec 16) : Option SwapRun := s.beam.swaps.find? (fun w => decide (w.handle = h))

/-- Change a waiting swap. -/
def State.modSwap (s : State) (h : BitVec 16) (f : SwapRun → SwapRun) : State :=
  { s with beam.swaps := s.beam.swaps.map (fun w => if w.handle = h then f w else w) }

/-- Start a transition home at a tick for a tile whose use has changed; a transition that runs completes first (R115, R177). -/
def State.homeAt (s : State) (t : Fin 8) (at_ : Nat) : State :=
  match (s.radio.get t).transit with
  | none => s.goHome t at_
  | some _ => s.modRadio t (fun r => { r with next := some r.home, burst := none })

/-- Start home now. -/
def State.homeNow (s : State) (t : Fin 8) : State := s.homeAt t s.time.ticks

/-- A swap that is discarded or cancelled changes nothing (R180): its lock falls and its joining tiles go back. -/
def State.swapDrop (s : State) (h : BitVec 16) : State :=
  match s.swapOf h with
  | none => s
  | some w =>
    let s := { (s.unlock h) with beam.swaps := s.beam.swaps.filter (fun x => decide (x.handle ≠ h)) }
    if w.begun then w.joining.foldl (fun s t => s.homeNow t) s else s

/-- The tiles that join the aperture with a swap (R179). -/
def State.joins (s : State) (w : SwapRun) : List (Fin 8) :=
  (List.finRange 8).filter (fun t => swapAperture s w t && !s.beam.aper.getLsbD t.val)

/-- APERTURE home of a tile. -/
def Radio.apHome (r : Radio) : RState := r.homeFor .aperture

/-- D_join of a tile (R179): a transition that runs completes first (R115). -/
def State.dJoin (s : State) (t : Fin 8) : Nat :=
  let rest := match (s.radio.get t).transit with
    | some x => x.till - s.time.ticks
    | none => 0
  rest + transTicks (s.radio.get t).state (s.radio.get t).apHome + 128

/-- The greatest D_join of a swap's tiles, 0 where none joins. -/
def State.swapLead (s : State) (w : SwapRun) : Nat := ((s.joins w).map s.dJoin).foldl max 0

/-- Why a swap is held: SETTLE or UNLOCKED on a joining tile (R179). -/
def State.swapHeld (s : State) (w : SwapRun) : Nat :=
  ((s.joins w).map (fun t => if s.settleHeld t then 1 else if s.tileUnlocked t then 5 else 0)).foldl max 0

/-- At its S a swap starts the transitions of its joining tiles to their APERTURE home (R179). -/
def State.swapBegin (s : State) (w : SwapRun) : State :=
  let js := s.joins w
  let now := s.time.ticks
  let tt := max (cdiv w.time 256) (now + s.swapLead w)
  let s := js.foldl (fun s t =>
    let r := s.radio.get t
    let d := transTicks r.state r.apHome
    if d = 0 then s
    else if r.transit.isSome then s.modRadio t (fun r => { r with next := some r.apHome })
    else s.startTransit t now r.apHome (now + d) none) s
  s.modSwap w.handle (fun w => { w with begun := true, joining := js, due := tt * 256 })

/-- The first grid instant of 245.76 Msps at or after a tick. -/
def State.grid4 (s : State) (t : Nat) : Nat := s.clk.loadedV + cdiv (t - s.clk.loadedV) 4 * 4

/-- A swap is taken (R122, R170, R173, R177): its lock falls, tile uses change, and s is the next grid instant. A tile whose use changes
starts home at this tick, one in a burst at s, where the burst ends; a calibration slot that runs ends and starts home at once. Only a swap
that changes a use chooses leads anew (R100). -/
def State.swapTake (s : State) (w : SwapRun) (a : QAct) : State :=
  let now := s.time.ticks
  let eff := s.grid4 now
  let moved := (List.finRange 8).any (fun t => match w.uses with
    | some us => decide (us.getD t.val .out ≠ (s.radio.get t).use)
    | none => false)
  let s := ((s.takeAct 8 a).unlock w.handle).modSwap w.handle (fun w =>
    { w with effAt := some eff, oldMask := s.beam.aper, uses := if moved then w.uses else none })
  match w.uses with
  | none => s
  | some us =>
    (List.finRange 8).foldl (fun s t =>
      let u := us.getD t.val .out
      let old := (s.radio.get t).use
      if u = old then s
      else
        let s := (s.modRadio t (fun r => { r with use := u })).modPdTile t (fun x => { x with capBroken := x.capBroken || x.capBusy.isSome })
        let inBurst : Bool := match (s.radio.get t).burst with
          | some b => decide (b.kind ≠ .calSlot)
          | none => false
        let s := s.slotYield t (fun _ => true)
        let s := if inBurst then s.endBurst t eff true else s
        let r := s.radio.get t
        let s := if r.transit.isNone ∧ r.state = r.home then s
          else if r.transit.any (fun x => decide (r.state = r.home ∧ x.startAt = now)) then s
          else s.homeAt t (if inBurst then eff else now)
        let s := s.modAn (laneSrc t) (fun y => y.restart)
        let s := s.modAn (laneSrc t) (fun y => { y with nextFrame := s.frameGrid (laneSrc t) now })
        ((s.stitchPort t).laneLost t).checkStitch) s


/-- Whether BEAM_HALVE keeps a beam of a bank from running: it is not among the ⌈n/2⌉ lowest-numbered of the n enabled
(R465). -/
def Bank.halved (b : Bank) (i : Fin 32) : Bool :=
  let on := (List.finRange 32).filter (fun k => (b.beams.get k).enable)
  !b.element && (b.beams.get i).enable && !(on.take ((on.length + 1) / 2)).contains i

/-- Whether the element stages restart at a swap. -/
def elemRestarts (old new : Bank) (maskCh : Bool) : Bool :=
  maskCh || old.element != new.element || decide (old.elem.rate ≠ new.elem.rate ∨ old.elem.preset ≠ new.elem.preset)

/-- Whether a beam's narrowband stage restarts at a swap (R153, R174); under BEAM_HALVE also where its suppression changes (R465). -/
def restarts (halve : Bool) (old new : Bank) (maskCh : Bool) (b : Fin 32) : Bool :=
  let x := old.beams.get b
  let y := new.beams.get b
  maskCh || old.element != new.element || decide (x.rate ≠ y.rate ∨ x.preset ≠ y.preset ∨ x.enable ≠ y.enable) ||
    (halve && old.halved b != new.halved b)

/-- Bind the flows of a direction's new bank at s; one that carries its source already goes on with its new charge. On receive the samples
before s are still on their way. -/
def State.bindBank (s : State) (w : SwapRun) (tx : Bool) (aper : BitVec 8) (eff : Nat) : State :=
  let fs := bankFlows (s.beam.dir tx).active (fun t => aper.getLsbD t.val)
  let keeps := fun (f : Nat) (src : FlowSrc) => fs.any (fun x => x.1 == f && decide (x.2.1 = src))
  let s := (List.finRange 64).foldl (fun (s : State) i =>
    let src := if tx then (s.link.txFlows.get i).src else (s.link.rxFlows.get i).src
    if src.isBeam && !keeps i.val src then (if tx then unbindTx s i.val else endRx s i.val) else s) s
  fs.foldl (fun s x =>
    match fin? 64 x.1 with
    | none => s
    | some i =>
      let src := if tx then (s.link.txFlows.get i).src else (s.link.rxFlows.get i).src
      let ch := bankFlowCharge s tx x
      if src = x.2.1 then
        (if tx then { s with link.txFlows := vmod s.link.txFlows i (fun r => { r with charge := ch }) }
         else { s with link.rxFlows := vmod s.link.rxFlows i (fun r => { r with charge := ch }) })
      else if tx then bindTx s x.1 x.2.1 ch (w.shedTx.getLsbD x.1)
      else rebindRx s x.1 x.2.1 ch (w.shedRx.getLsbD x.1) eff) s

/-- The first time on a grid that new samples of a stage which restarts at s may have (R153): t − G ≥ s. -/
def State.firstNew (s : State) (preset : BitVec 2) (rate : BitVec 3) (eff : Nat) : Nat :=
  s.clk.loadedV + cdiv (eff + nbDelay preset rate - s.clk.loadedV) (periodOf rate) * periodOf rate

/-- The last time that old samples of it may have: t + G < s. -/
def State.lastOld (s : State) (preset : BitVec 2) (rate : BitVec 3) (eff : Nat) : Nat :=
  s.clk.loadedV + (eff - 1 - nbDelay preset rate - s.clk.loadedV) / periodOf rate * periodOf rate

/-- A direction exchanges its banks at s (R174): the bank before stays for samples with earlier times, and the stages that restart do so as
the samples of the chain reach s (R153). -/
def State.swapDir (s : State) (tx : Bool) (eff : Nat) (maskCh : Bool) (aper : BitVec 8) : State :=
  let d := s.beam.dir tx
  let new := d.shadow
  let again := restarts s.hk.halved d.active new maskCh
  let p : PastBank :=
    { till := eff, bank := d.active, aper := aper, clear := BitVec.ofNat 32 (maskOf 32 again),
      elems := elemRestarts d.active new maskCh, cut := maskCh, halved := s.hk.halved }
  s.modDir tx (fun d =>
    { d with
      active := new, shadow := d.active, phys := !d.phys
      past := d.past.filter (fun x => decide (s.time.ticks < x.till + 2 ^ 15)) ++ [p] })

/-- The channels that record a stage which restarts at s: their records end with the last old sample (R258). -/
def State.cutChannels (s : State) (old new : Bank) (eff : Nat) (again : Fin 32 → Bool) (elems : Bool) : State :=
  (List.finRange 16).foldl (fun (s : State) (c : Fin 16) =>
    let x : AqChan := s.aq.chans.get c
    match fin? 32 x.index.toNat with
    | some b =>
      if x.kind = 0 ∧ again b then
        let o := old.beams.get b
        let n := new.beams.get b
        s.chAperCut c (s.lastOld o.preset o.rate eff) (s.firstNew n.preset n.rate eff)
      else if x.kind = 1 ∧ elems then
        s.chAperCut c (s.lastOld old.elem.preset old.elem.rate eff) (s.firstNew new.elem.preset new.elem.rate eff)
      else s
    | none =>
      if x.kind = 1 ∧ elems then
        s.chAperCut c (s.lastOld old.elem.preset old.elem.rate eff) (s.firstNew new.elem.preset new.elem.rate eff)
      else s) s

/-- At s the picks of a swap that changes a use end, the banks exchange, the mask applies and flows are bound (R100, R174, R176). -/
def State.swapEffect (s : State) (w : SwapRun) (eff : Nat) : State :=
  let s := if w.uses.isSome then s.endPicks else s
  let mask := s.swapMask w
  let old := s.beam.aper
  let ch := decide (mask ≠ old)
  let oldRx := s.beam.rx.active
  let s := { s with beam := { s.beam with
    swaps := s.beam.swaps.filter (fun x => decide (x.handle ≠ w.handle)), aper := mask, swapAt := eff } }
  let s := if w.names false then s.swapDir false eff ch old else s
  let s := if w.names true then s.swapDir true eff ch old else s
  let s := if w.names false then s.bindBank w false mask eff else s
  let s := if w.names true then s.bindBank w true mask eff else s
  let s := if w.names false then
      let new := s.beam.rx.active
      let s := s.sourcesLost (fun c =>
        (decide (c.kind = 0) && (new.element || (match fin? 32 c.index.toNat with
          | some b => !(new.beams.get b).enable
          | none => true))) ||
        (decide (c.kind = 1) && (!new.element || !mask.getLsbD (c.index.toNat / 8))))
      s.cutChannels oldRx new eff (restarts s.hk.halved oldRx new ch) (elemRestarts oldRx new ch)
    else s
  let s := (List.finRange 8).foldl (fun (s : State) t => if (s.radio.get t).transit.isNone then s.burstEnd t else s) s
  let s := s.rehorizon
  let s := if ch then
      s.emit 0x0302 0x03FF (eff * 256) (pb old ++ pb mask ++ pb w.handle)
    else s
  s.actionDone 8 w.handle 0x10 w.time stDone (eff * 256)

/-- Whether BEAM_HALVE is in force for samples of a direction at a time after V (R465). -/
def State.halvedAt (s : State) (tx : Bool) (t : Int) : Bool :=
  match (s.beam.dir tx).past.find? (fun p => decide (t + Int.ofNat s.clk.loadedV < Int.ofNat p.till)) with
  | some p => p.halved
  | none => s.hk.halved

/-- The effective sample of an enqueued swap, as far as it is known. -/
def State.swapDue (s : State) (w : SwapRun) : Nat := w.effAt.getD (s.grid4 (max s.time.ticks (cdiv w.due 256)))

/-- The transmit bank and the mask for samples at a time after V: those of an enqueued swap from its effective sample on (R153, R174). -/
def State.txBankAt (s : State) (t : Int) : Bank × BitVec 8 :=
  match s.beam.swaps.find? (fun w => w.names true && decide (Int.ofNat (s.swapDue w) ≤ t + Int.ofNat s.clk.loadedV)) with
  | some w => (s.beam.tx.shadow, s.swapMask w)
  | none => s.beam.tx.bankAt t s.clk.loadedV s.beam.aper

/-- Whether an input of a transmit source is discarded (R153): its response would reach the effective sample at which the stage
restarts. The times are after V: the input's, and that of the first matrix sample it enters. -/
def State.txCut (s : State) (i : Fin 32) (t first : Int) : Bool :=
  let bank := (s.txBankAt first).1
  let g := Int.ofNat (if bank.element then nbDelay bank.elem.preset bank.elem.rate
    else nbDelay (bank.beams.get i).preset (bank.beams.get i).rate)
  let again := fun (old new : Bank) (ch : Bool) => if old.element then elemRestarts old new ch else restarts s.hk.halved old new ch i
  let inside := fun (eff : Nat) => let e := Int.ofNat eff - Int.ofNat s.clk.loadedV; decide (first < e ∧ e ≤ t + g)
  s.beam.swaps.any (fun w => w.names true && inside (s.swapDue w) &&
    again s.beam.tx.active s.beam.tx.shadow (decide (s.swapMask w ≠ s.beam.aper))) ||
  s.beam.tx.past.any (fun p => inside p.till && (if bank.element then p.elems else p.clear.getLsbD i.val))

/-! ### Sample formats (R350 to R352) -/

/-- A component of F12 from 12 bits. -/
def from12 (v : Nat) : Int := (BitVec.ofNat 12 v).toInt * 16

/-- Samples of an F16 payload. -/
def unF16 (bs : List Byte) : List Cplx :=
  (chunks 4 (bs.length / 4) bs).map (fun c => ((BitVec.ofNat 16 (unle (c.take 2))).toInt, (BitVec.ofNat 16 (unle (c.drop 2))).toInt))

/-- Samples of an F12 payload. -/
def unF12 (bs : List Byte) : List Cplx :=
  (chunks 3 (bs.length / 3) bs).map (fun c => let w := unle c; (from12 (w % 4096), from12 (w / 4096)))

/-- A BFP9 block of 220 bits as 12 samples and whether its exponent is allowed: with one from 8 to 15, 12 zeros. -/
def unBlock (w : Nat) : List Cplx × Bool :=
  let e := w % 16
  let m := fun (lo : Nat) => (BitVec.ofNat 9 (w / 2 ^ lo)).toInt * Int.ofNat (2 ^ e)
  if e < 8 then ((List.range 12).map (fun k => (m (4 + 18 * k), m (13 + 18 * k))), true)
  else (List.replicate 12 (0, 0), false)

/-- Blocks of a BFP9 payload. -/
def unBfp9 (bs : List Byte) : List (List Cplx × Bool) :=
  (chunks 220 (bs.length / 220) bs).flatMap (fun u =>
    let w := unle u
    (List.range 8).map (fun b => unBlock (w / 2 ^ (220 * b))))

/-- Groups of n samples. -/
def groups (n : Nat) : Nat → List Cplx → List (List Cplx)
  | 0, _ => []
  | k + 1, xs => xs.take n :: groups n k (xs.drop n)

/-- What a TX_IQ payload carries, sample by sample or instant by instant, and the bad blocks in it (R352, R354). -/
def txSamples (fmt : BitVec 2) (elem : Bool) (bs : List Byte) : List (List Cplx) × Nat :=
  if fmt = 2 then
    let bl := unBfp9 bs
    let bad := (bl.filter (fun b => !b.2)).length
    if elem then
      ((List.range (bs.length / 220)).flatMap (fun u =>
        let eight := (bl.drop (8 * u)).take 8
        (List.range 12).map (fun i => eight.map (fun b => b.1.getD i (0, 0)))), bad)
    else (bl.flatMap (fun b => b.1.map (fun x => [x])), bad)
  else
    let xs := if fmt = 0 then unF16 bs else unF12 bs
    if elem then (groups 8 (xs.length / 8) xs, 0) else (xs.map (fun x => [x]), 0)

/-! ### The transmit input (R181, R368 to R370) -/

/-- Transmit group delay in whole ticks, rounded up, of a narrowband stage (R144, R148, R149). -/
def State.txG (s : State) (preset : BitVec 2) (rate : BitVec 3) : Nat :=
  (txFrontHalf s.chan.txPreset + 1) / 2 + nbDelay preset rate

/-- What a transmit source is: its beam (or tile 32 and above for an element), rate and preset. -/
def State.txSrc (s : State) (src : FlowSrc) : Option (Bool × Nat × BitVec 3 × BitVec 2 × BitVec 2) :=
  match src with
  | .beam b => let c := s.beam.tx.active.beams.get b; some (false, b.val, c.rate, c.preset, c.format)
  | .elem t => let e := s.beam.tx.active.elem; some (true, t.val, e.rate, e.preset, e.format)
  | _ => none

/-- Bytes of a packet freed with each of its n entries, the first takes what is left over. -/
def freeShare (len n i : Nat) : Nat := if n = 0 then 0 else if i = 0 then len - len / n * (n - 1) else len / n

/-- Count discarded transmit samples of a beam (R181). -/
def State.txLateBy (s : State) (elem : Bool) (b n : Nat) : State :=
  match fin? 32 b with
  | none => s
  | some i => if elem then s else { s with beam.txLate := vmod s.beam.txLate i (fun x => satAdd x n) }

/-- Free bytes of a flow's buffer. -/
def State.txFree (s : State) (f : Fin 64) (n : Nat) : State :=
  { s with link.txFlows := vmod s.link.txFlows f (fun x =>
      { x with buf := x.buf - n, freed := x.freed + n, due := x.due || decide (bufferOf x.charge ≤ 8 * (x.freed + n)) }) }

/-- The device's full tick count of a 48-bit packet time: the one nearest to now (R37). -/
def State.fullTicks (s : State) (t : BitVec 48) : Nat :=
  let now := s.time.ticks
  let base := now / 2 ^ 48 * 2 ^ 48 + t.toNat
  if base + 2 ^ 47 < now then base + 2 ^ 48
  else if now + 2 ^ 47 < base ∧ 2 ^ 48 ≤ base then base - 2 ^ 48
  else base

/-- Samples of a TX_IQ packet enter the buffer of their flow: off the grid all are discarded; late ones are (R181). -/
def State.txEnter (s : State) (f : Fin 64) (elem : Bool) (b : Nat) (rate : BitVec 3) (preset : BitVec 2) (time len : Nat)
    (xs : List (List Cplx)) : State :=
  let v := s.clk.loadedV
  let p := periodOf rate
  if time < v ∨ (time - v) % p ≠ 0 then (s.txLateBy elem b xs.length).txFree f len
  else
    let g := s.txG preset rate
    let ins := xs.mapIdx (fun i x => ({ time := time + i * p, vals := x, free := freeShare len xs.length i } : TxIn))
    let late := ins.filter (fun x => decide (x.time < s.time.ticks + g))
    let ok := ins.filter (fun x => decide (s.time.ticks + g ≤ x.time))
    let s := (s.txLateBy elem b late.length).txFree f (late.map (fun x => x.free)).sum
    { s with beam.input := vmod s.beam.input f (fun l => l ++ ok) }

/-! ### Register values (R110, R158, R185) -/

/-- PA_RXPWR or PA_TXPWR from the powers of the last samples: 0x8000 before 1,024 of them (R110). -/
def regPwr (l : List Nat) : Nat :=
  if l.length < 1024 then 0x8000 else (BitVec.ofInt 16 (log16 l.sum (1024 * 2 ^ 30))).toNat

def regBeStat (b : BeamBlock) : Nat :=
  b.aper.toNat * 2 ^ 8 + b2n b.tx.lock.isSome * 128 + b2n b.rx.lock.isSome * 64 + b2n b.tx.active.element * 32 +
  b2n b.rx.active.element * 16 + b2n b.tx.phys * 2 + b2n b.rx.phys
def regBeEn (d : BeamDir) : Nat := maskOf 32 (fun b => (d.active.beams.get b).enable)
def regChFront (c : ChanBlock) : Nat :=
  txFrontHalf c.txPreset * 2 ^ 20 + rxFrontHalf c.rxPreset * 2 ^ 12 + c.txPreset.toNat * 16 + c.rxPreset.toNat
def regHkFilt (c : ChanBlock) : Nat := c.railPreset.toNat * 256 + c.diodePreset.toNat * 16

end Sys2Proof.Machine
end

