-- ==== Sys2Proof/Machine/ActOps.lean ====
section
/-! DEFINITION. Operations of the timed actions and pass windows: reading the kind parameters, judging the head of a queue,
opening and closing a window (02_timebase_and_pass_windows.md R46 to R66, 19_commands.md R545). -/

namespace Sys2Proof.Machine

/-! ### Kind parameters (R545) -/

/-- Whether a centre frequency keeps a band inside 600 to 7,200 MHz (R71). -/
def bandFits (fc band : Nat) : Bool := decide (1200000000 + band ≤ 2 * fc ∧ 2 * fc + band ≤ 14400000000)

/-- The bytes of a field of the kind parameters. -/
def field (ps : List Byte) (off n : Nat) : Nat := unle ((ps.drop off).take n)

/-- A timed action from its kind code and parameters: none where the layout or a value is not one of R545. -/
def act? (kind : BitVec 8) (ps : List Byte) : Option Act :=
  let f := field ps
  let fits := fun (n : Nat) => decide (ps.length = n)
  match kind.toNat with
  | 0x01 =>
    if fits 5 then
      match rstate? (f 0 1) with
      | some .tx | some .cal | none => none
      | some st => some (.radioState st (f 1 4))
    else none
  | 0x02 =>
    if fits 9 then ([RetuneMode.auto, .glide, .large][f 8 1]?).map (fun m => .retune (f 0 8) m) else none
  | 0x03 => if fits 4 ∧ 0 < f 0 4 then some (.txBurst (f 0 4)) else none
  | 0x04 =>
    if fits 2 then
      match fin? 8 (f 0 1), [PickMode.auto, .forceA, .forceB][f 1 1]? with
      | some g, some m => some (.pickCtl g m)
      | _, _ => none
    else none
  | 0x05 => if fits 2 ∧ f 0 1 < 10 then some (.femLevels (f 0 1) (BitVec.ofNat 8 (f 1 1))) else none
  | 0x10 =>
    if fits 10 ∧ 1 ≤ f 0 1 ∧ f 0 1 ≤ 3 ∧ f 1 1 ≤ 1 then
      let us := (List.range 8).map (fun i => use? (f (2 + i) 1))
      if f 1 1 = 0 then some (.bankSwap (BitVec.ofNat 2 (f 0 1)) false [])
      else if us.all (fun u => u.isSome) then
        some (.bankSwap (BitVec.ofNat 2 (f 0 1)) true (us.map (fun u => u.getD .out)))
      else none
    else none
  | 0x11 =>
    if fits 3 then
      if f 2 1 = 255 then some (.acqArm (BitVec.ofNat 16 (f 0 2)) none)
      else (fin? 64 (f 2 1)).map (fun w => .acqArm (BitVec.ofNat 16 (f 0 2)) (some w))
    else none
  | 0x12 => if fits 2 then some (.softTrigger (BitVec.ofNat 16 (f 0 2))) else none
  | 0x13 => if fits 2 ∧ f 1 1 ≤ 1 then (fin? 4 (f 0 1)).map (fun p => .trigOutEdge p (decide (f 1 1 = 1))) else none
  | 0x14 =>
    if fits 3 then (laneTarget? (BitVec.ofNat 8 (f 2 1))).map (fun t => .laneState (BitVec.ofNat 16 (f 0 2)) t) else none
  | 0x15 =>
    if fits 3 ∧ f 0 2 < 512 then
      match [AnOp.apply, .densitySwap, .traceRestart][f 2 1]? with
      | some op => if op = .densitySwap ∧ 256 ≤ f 0 2 then none else some (.analyserCfg (BitVec.ofNat 16 (f 0 2)) op)
      | none => none
    else none
  | _ => none

/-- Whether a kind belongs on the device queue (R47). -/
def Act.onDevice (a : Act) : Bool := decide (0x10 ≤ a.code)

/-- Actions THERMAL_HALT refuses at enqueue (R468). -/
def Act.haltRefused : Act → Bool
  | .radioState _ _ | .txBurst _ | .acqArm _ _ => true
  | .bankSwap _ ch us => ch && us.any (fun u => decide (u ≠ .out))
  | _ => false

/-- The swap that an enqueued BANK_SWAP would be. -/
def swapRun (h : BitVec 16) (t : Time) (dirs : BitVec 2) (ch : Bool) (us : List TileUse) : SwapRun :=
  { handle := h, dirs := dirs, uses := if ch then some us else none, time := t, due := t, begun := false, joining := [],
    effAt := none, oldMask := 0, shedRx := 0, shedTx := 0 }

/-- The refusal of an action at enqueue by its own rules: R71, R170, R171, R254, R322. -/
def State.enqRefusal (s : State) (q : Fin 9) (h : BitVec 16) (t : Time) (a : Act) : Option (BitVec 8) :=
  match a with
  | .retune fc _ =>
    match fin? 8 q.val with
    | some t => if bandFits fc (s.radio.get t).band.toNat then none else some stBadParam
    | none => some stBadParam
  | .bankSwap d c us => s.swapRefusal (swapRun h t d c us)
  | .acqArm m w => if s.armOk m w then none else some stBadState
  | .laneState m tgt => if laneStateOk s m tgt then none else some stNoResource
  | _ => none

/-! ### Queues (R46, R51) -/

/-- Put an action into its queue: by T, and behind those of equal T. -/
def State.enqueue (s : State) (q : Fin 9) (a : QAct) : State :=
  s.modQueue q (fun x =>
    { x with acts := x.acts.takeWhile (fun y => decide (y.time ≤ a.time)) ++
        a :: x.acts.dropWhile (fun y => decide (y.time ≤ a.time)) })

/-- Find a queued action by its handle. -/
def State.findAct (s : State) (h : BitVec 16) : Option (Fin 9 × QAct) :=
  (List.finRange 9).findSome? (fun q =>
    ((s.time.queues.get q).acts.find? (fun a => decide (a.handle = h))).map (fun a => (q, a)))

/-- The end of the interval that an action takes on its tile, for R439. -/
def State.actLead (s : State) (q : Fin 9) (a : QAct) : Nat :=
  match fin? 8 q.val with
  | some t => s.leadOf t a.act
  | none => match a.act with
    | .bankSwap .. => match s.swapOf a.handle with
      | some w => if w.begun then 0 else s.swapLead w
      | none => 0
    | _ => 0

/-- S of an action in fraction units (R48, R116, R118, R179). A swap whose joining tiles have begun is taken at its time. -/
def State.startOf (s : State) (q : Fin 9) (a : QAct) : Int :=
  match a.act, s.swapOf a.handle with
  | .bankSwap .., some w => if w.begun then Int.ofNat w.due else Int.ofNat a.time - Int.ofNat (s.swapLead w * 256)
  | _, _ => Int.ofNat a.time - Int.ofNat (s.actLead q a * 256)

/-- An action is discarded with LATE or ABORTED (R48, R51, R52, R128, R180): a held TX_BURST reports TX_DISCARDED, a swap
unlocks its banks, a CAL_SLOT repeats its work later. -/
def State.discard (s : State) (q : Fin 9) (a : QAct) (st : BitVec 8) : State :=
  let s := s.finishAct q a st s.nowT
  match fin? 8 q.val with
  | none => match a.act with
    | .bankSwap .. => s.swapDrop a.handle
    | _ => s
  | some t => match a.act with
    | .txBurst _ =>
      if a.held = 0 then s
      else
        let s := s.modRadio t (fun r => { r with discarded := satAdd r.discarded 1 })
        s.emit 0x0250 (0x0200 + t.val) a.time
          (le 1 t.val ++ le 1 a.held ++ pb a.handle ++ le 4 (sat32 (s.time.ticks - a.heldSince.getD s.time.ticks)))
    | .calSlot _ => s.slotCancel t a.handle
    | _ => s

/-- The head of a queue is held for a reason (R51, R127): a TX_BURST counts the first time. -/
def State.holdHead (s : State) (q : Fin 9) (a : QAct) (why : Nat) : State :=
  let now := s.time.ticks
  let s := s.modQueue q (fun x => { x with acts := x.acts.map (fun b =>
    if b.handle = a.handle then { b with held := why, heldSince := some (b.heldSince.getD now) } else b) })
  match fin? 8 q.val, a.act with
  | some t, .txBurst _ =>
    if a.heldSince.isNone then s.modRadio t (fun r => { r with held := satAdd r.held 1 }) else s
  | _, _ => s

/-- The head of a queue is not held any more. -/
def State.unholdHead (s : State) (q : Fin 9) (a : QAct) : State :=
  s.modQueue q (fun x => { x with acts := x.acts.map (fun b => if b.handle = a.handle then { b with held := 0 } else b) })

/-! ### Taking an action -/

/-- PICK_CTL is taken (R105), after a transition that runs (R115). -/
def State.takePick (s : State) (t : Fin 8) (a : QAct) (g : Fin 8) (m : PickMode) : Take :=
  if (s.radio.get t).inTransit s.time.ticks then .hold 4 else
  let s := s.finishAct (tileQ t) a stDone s.nowT
  .took ((s.modPick g (fun x => { x with mode := m })).pickAbort g)

/-- FEM_LEVELS is taken (R91): the pattern is replaced at this tick, after a transition that runs (R115). -/
def State.takeFem (s : State) (t : Fin 8) (a : QAct) (index : Nat) (level : BitVec 8) : Take :=
  if (s.radio.get t).inTransit s.time.ticks then .hold 4 else
  let s := s.finishAct (tileQ t) a stDone s.nowT
  .took (s.modRes t (fun r =>
    { r with fem.pats := vmap r.fem.pats (fun i v => if i.val = index then level else v) }))

/-- CAL_SLOT is taken at S (R436, R437): on a tile that is not in its home state, or whose use does not allow CAL, it is
cancelled. -/
def State.takeCalSlot (s : State) (t : Fin 8) (a : QAct) (len : Nat) : Take :=
  let r := s.radio.get t
  let now := s.time.ticks
  if r.transit.isSome then .hold 4
  else if useAllows r.use .cal = false ∨ r.state ≠ r.home ∨ r.burst.isSome then .took (s.slotCancel t a.handle)
  else
    let d := transTicks r.state .cal
    let s := (s.takeAct (tileQ t) a).startTransit t now .cal (now + d) none
    let s := s.modRadio t (fun r => { r with
      burst := some { kind := .calSlot, handle := a.handle, startT := now + d, endT := now + d + len, muted := false } })
    .took (s.slotBegin t a.handle)

/-- RADIO_STATE with what a calibration slot that still runs on the tile needs (R439). -/
def State.takeState (s : State) (t : Fin 8) (a : QAct) (tgt : RState) (dwell : Nat) : Take :=
  if tgt ≠ .off ∧ s.pw.parked.getLsbD t.val then .refuse stBadState
  else match s.takeRadioState t a tgt dwell with
  | .took s => .took (if (s.cal.tiles.get t).running.isSome then s.slotEnd t false else s)
  | x => x

/-- A tile's action is taken. -/
def State.takeTile (s : State) (t : Fin 8) (a : QAct) : Take :=
  match a.act with
  | .radioState tgt dwell => s.takeState t a tgt dwell
  | .retune fc mode => s.takeRetune t a fc mode
  | .txBurst len => s.takeTxBurst t a len
  | .pickCtl g m => s.takePick t a g m
  | .femLevels i v => s.takeFem t a i v
  | .calSlot len => s.takeCalSlot t a len
  | _ => .refuse stBadState

/-- BANK_SWAP: at S its joining tiles start, at T it is taken (R173, R179). -/
def State.takeSwap (s : State) (a : QAct) : Take :=
  match s.swapOf a.handle with
  | none => .refuse stBadState
  | some w =>
    if w.begun then .took (s.swapTake w a)
    else if s.swapHeld w ≠ 0 then .hold (s.swapHeld w)
    else if (s.joins w).isEmpty then .took (s.swapTake w a)
    else .waits (s.swapBegin w)

/-- Apply an ANALYSER_CFG to a source (R236). -/
def State.anOp (s : State) (op : AnOp) (a : Fin 9) : State :=
  match op with
  | .apply => s.applySource a
  | .densitySwap => if h : a.val < 8 then s.askSwap [⟨a.val, h⟩] else s
  | .traceRestart => s.anRestart a

/-- Before an ANALYSER_CFG is taken, a BANK_SWAP of the same T in the device queue that is due and in its window is taken, so that the sources are
seen in the modes it sets (R50, R236). -/
def State.swapWith (s : State) (a : QAct) : State :=
  match (s.time.queues.get 8).acts.find? (fun b => decide (b.act.code = 0x10 ∧ b.time = a.time)) with
  | none => s
  | some b =>
    let inside := match b.window with
      | some w => (s.time.windows.get w).holds s.nowT
      | none => true
    if !inside || decide (Int.ofNat s.nowT < s.startOf 8 b) then s
    else match s.takeSwap b with
      | .took t => t
      | _ => s

/-- An action of the device queue is taken. -/
def State.takeDevice (s : State) (a : QAct) : Take :=
  match a.act with
  | .bankSwap .. => s.takeSwap a
  | .acqArm m w => if s.armOk m w then .took ((s.finishAct 8 a stDone s.nowT).arm m w) else .refuse stBadState
  | .softTrigger m => .took ((s.finishAct 8 a stDone s.nowT).softFire m 0x28 s.nowT)
  | .trigOutEdge p l =>
    if (s.aq.trigOut.get p).route then .refuse stBadState
    else
      let s := s.finishAct 8 a stDone s.nowT
      .took { s with aq.trigOut := vmod s.aq.trigOut p (fun x => { x with level := l }) }
  | .laneState m t => .took ((s.finishAct 8 a stDone s.nowT).laneState m t)
  | .analyserCfg m op =>
    if op = .densitySwap ∧ s.swapBusy (lanesOf m) = true then .refuse stBusy
    else .took ((sourcesOfMask m).foldl (fun s x => s.anOp op x) ((s.swapWith a).finishAct 8 a stDone s.nowT))
  | _ => .refuse stBadState

/-- Whether the device queue's head is due and not yet held or judged: it goes before the tiles' actions of the same tick
(R50). -/
def State.deviceDue (s : State) : Bool :=
  match s.headOf 8 with
  | none => false
  | some a => decide (a.held = 0) && decide (s.startOf 8 a ≤ Int.ofNat s.nowT)

/-- Whether the head of a queue is past its tolerance (R48, R51). -/
def State.isLate (s : State) (q : Fin 9) (a : QAct) : Bool :=
  decide (s.startOf q a + Int.ofNat (a.tol * 256) < Int.ofNat s.nowT)

/-- Whether a swap's head has begun and waits for its T. -/
def State.swapWaits (s : State) (a : QAct) : Bool :=
  match s.swapOf a.handle with
  | some w => w.begun
  | none => false

/-- Judge the head of a queue (R48, R50 to R52, R117, R118): before its S it waits; past its tolerance it is LATE; outside its
window it is ABORTED; else it is taken, refused or held. -/
def State.judge (s : State) (q : Fin 9) : State :=
  match s.headOf q with
  | none => s
  | some a =>
    if decide (q.val < 8) && s.deviceDue then s
    else if Int.ofNat s.nowT < s.startOf q a then (if a.held = 0 then s else s.unholdHead q a)
    else if s.isLate q a && !s.swapWaits a then s.discard q a stLate
    else
      let joins : Bool := match a.act, s.swapOf a.handle with
        | .bankSwap .., some w => !w.begun && !(s.joins w).isEmpty
        | _, _ => false
      let out : Bool := match a.window with
        | none => false
        | some w => !joins && !(s.time.windows.get w).holds s.nowT
      if out then s.discard q a stAborted
      else
        match (match fin? 8 q.val with
          | some t => s.takeTile t a
          | none => s.takeDevice a) with
        | .hold why => s.holdHead q a why
        | .refuse st =>
          let s := s.finishAct q a st s.nowT
          if a.act.code = 3 ∧ st = stNoResource then { s with hk.capCnt := satAdd s.hk.capCnt 1 } else s
        | .took s => s
        | .waits s => s

/-- Judge the head of a tile's queue where it is of a kind. -/
def State.judgeKind (s : State) (q : Fin 9) (kind : Nat) : State :=
  match s.headOf q with
  | none => s
  | some a => if a.act.code = kind then s.judge q else s

/-! ### Pass windows (R55 to R60) -/

/-- Change one window. -/
def State.modWin (s : State) (w : Fin 64) (f : Window → Window) : State :=
  { s with time.windows := vmod s.time.windows w f }

/-- Discard the actions bound to a window with ABORTED (R52, R128). -/
def State.dropBound (s : State) (w : Fin 64) : State :=
  (List.finRange 9).foldl (fun (s : State) q =>
    ((s.time.queues.get q).acts.filter (fun a => decide (a.window = some w))).foldl
      (fun s a => s.discard q a stAborted) s) s

/-- A window that is open closes at an instant: CLOSING for Z, the trigger source, the actions and channels bound to it (R52,
R60, R241, R258). -/
def State.winClose (s : State) (w : Fin 64) (t : Time) (deleted : Bool) : State :=
  let s := s.modWin w (fun x =>
    { x with state := .closing, closeT := some t, deleted := x.deleted || deleted, freeAt := cdiv t 256 + s.time.horizon })
  let s := s.fire 0x09 w.val t (s.windowSet t)
  (s.dropBound w).closeBound w t

/-- A window is found empty (R58): it enters CLOSING at once and never opens. -/
def State.winEmpty (s : State) (w : Fin 64) : State :=
  let s := s.modWin w (fun x => { x with state := .closing, empty := true, timeout := false, freeAt := s.time.ticks + s.time.horizon })
  (s.dropBound w).closeBound w s.nowT

/-- A window opens (R57, R59, R241, R439). With EDGE close it closes at open plus its maximum length unless an edge comes
first (R58). -/
def State.winOpen (s : State) (w : Fin 64) : State :=
  let s := s.modWin w (fun x => match x.closeMode, x.openT with
    | .edge .., some o => { x with state := .open, closeT := some (time72 (o + x.maxLen * 256)), timeout := true }
    | _, _ => { x with state := .open })
  let x := s.time.windows.get w
  let s := s.emitNow 0x0220 (0x0200 + w.val) (le 1 w.val ++ pb x.tag)
  let o := x.openT.getD s.nowT
  (s.fire 0x08 w.val o (s.windowSet o)).calYieldWin w s.time.ticks

/-- The open of a window becomes known (R58, R59): a LENGTH close follows it; a close at or before it makes the window
empty. -/
def State.winSetOpen (s : State) (w : Fin 64) (t : Time) : State :=
  let s := s.modWin w (fun x => { x with
    openT := some t
    closeT := match x.closeMode with
      | .length n => some (time72 (t + n * 256))
      | _ => x.closeT })
  match (s.time.windows.get w).closeT with
  | some c => if c ≤ t then s.winEmpty w else s
  | none => s

/-! ### Register values (R69) -/

def regActq (q : ActQueue) : Nat := q.lateCnt.toNat * 2 ^ 16 + q.acts.length
def regWinOpen (s : State) (hi : Bool) : Nat :=
  maskOf 32 (fun n => (match fin? 64 (n.val + 32 * b2n hi) with
    | some w => decide ((s.time.windows.get w).state = .open)
    | none => false))
def regTimeCtl (s : State) : Nat :=
  b2n s.time.synced * 128 + b2n s.time.armed.isSome * 64 + b2n (s.time.dspRuns && s.clk.dspSafe) * 32 +
  b2n s.time.ppsLost * 16 + b2n s.time.measure

end Sys2Proof.Machine
end

