-- ==== Sys2Proof/Machine/Actions.lean ====
section
/-! DEFINITION. Timed actions: their commands, and the kinds at the head of their queues (02_timebase_and_pass_windows.md R46
to R54, R67; 19_commands.md R532, R533, R545). -/

namespace Sys2Proof.Machine

/-- ACT_ENQUEUE (R46, R51, R170, R439, R468, R545): validated, given a handle, put into its queue by T; a slot of the tile
yields. -/
def execActEnqueue (h : CmdHdr) (queue kind : BitVec 8) (time : BitVec 72) (tol : BitVec 32) (window : BitVec 8)
    (params : List (BitVec 8)) (s : State) : Out :=
  .next (serve h
    { opcode := 0x0210, role := some .operator,
      params := pb queue ++ pb kind ++ pb time ++ pb tol ++ pb window ++ params }
    (fun s =>
      match fin? 9 queue.toNat, act? kind params with
      | some q, some a =>
        let hd := s.time.nextHandle
        let t := time.toNat
        checks
          [(stBadParam, decide (63 < window.toNat ∧ window ≠ 0xFF)),
           (stBadParam, a.onDevice != decide (q.val = 8)),
           (stBadState, s.hk.halt && a.haltRefused),
           (stNoResource, decide (256 ≤ (s.time.queues.get q).acts.length))] s (fun _ =>
            match s.enqRefusal q hd t a with
            | some st => refuse st s
            | none =>
              let s := { s with
                time.nextHandle := nextH hd
                time.outcomes := s.time.outcomes.filter (fun o => decide (o.handle ≠ hd)) }
              let x : QAct := { handle := hd, act := a, time := t, tol := tol.toNat, window := fin? 64 window.toNat }
              let s := s.enqueue q x
              let s := match a with
                | .bankSwap d c us => s.swapAdd (swapRun hd t d c us)
                | _ => s
              let s := match fin? 8 q.val with
                | none => s
                | some tile => s.calYieldAct tile (cdiv t 256 - s.leadOf tile a) (cdiv t 256)
              doneR (pb hd) s)
      | _, _ => refuse stBadParam s)
    s)

/-- ACT_CANCEL (R54, R180): a queued or held action is removed; one taken or discarded is refused. -/
def execActCancel (h : CmdHdr) (handle : BitVec 16) (s : State) : Out :=
  .next (serve h { opcode := 0x0211, role := some .operator, params := pb handle }
    (fun s => match s.findAct handle with
      | none => refuse stBadState s
      | some (q, a) =>
        let s := (s.dropAct q handle).keepOutcome handle 5 q a.time
        done (match a.act with
          | .bankSwap .. => s.swapDrop handle
          | .calSlot _ => (match fin? 8 q.val with
            | some t => s.slotCancel t handle
            | none => s)
          | _ => s))
    s)

/-- Queue, fill and LATE count of an ACT_QUERY. -/
def queryTail (s : State) (q : Nat) (t : Time) : List Byte :=
  match fin? 9 q with
  | none => []
  | some i =>
    let x := s.time.queues.get i
    le 1 q ++ le 2 x.acts.length ++ pb x.lateCnt ++ le 9 t

/-- ACT_QUERY (R533). The fields of an unknown handle are 0 (R521). -/
def execActQuery (h : CmdHdr) (handle : BitVec 16) (queue : BitVec 8) (s : State) : Out :=
  .next (serve h { opcode := 0x0212, role := some .operator, params := pb handle ++ pb queue }
    (fun s =>
      if handle = 0xFFFF then
        if 8 < queue.toNat then refuse stBadParam s else doneR (0xFF#8 :: queryTail s queue.toNat 0) s
      else match s.findAct handle with
        | some (q, a) => doneR ((if a.held = 0 then 0#8 else 1#8) :: queryTail s q.val a.time) s
        | none => match s.time.outcomes.find? (fun o => decide (o.handle = handle)) with
          | some o => doneR (o.state :: queryTail s o.queue.toNat o.time) s
          | none => doneR [6] s)
    s)

/-- ACTION_TOLERANCE_EXPIRY (R48, R51, R128): the head of a queue that is past its tolerance is discarded with LATE. -/
def execActionToleranceExpiry (q : Fin 9) (s : State) : Out :=
  .next (match s.headOf q with
    | none => s
    | some a => if s.isLate q a then s.judge q else s)

/-- ACTION_HOLD_RELEASE (R51, R127): a held head is judged again. -/
def execActionHoldRelease (q : Fin 9) (s : State) : Out :=
  .next (match s.headOf q with
    | none => s
    | some a => if a.held = 0 then s else s.judge q)

/-- RADIO_STATE at the head of a tile's queue (R112, R116, R117, R120). -/
def execRadioState (t : Fin 8) (s : State) : Out := .next (s.judgeKind (tileQ t) 0x01)

/-- RETUNE at the head of a tile's queue (R123 to R125). -/
def execRetune (t : Fin 8) (s : State) : Out := .next (s.judgeKind (tileQ t) 0x02)

/-- TX_BURST at the head of a tile's queue (R112, R118, R127, R128). -/
def execTxBurst (t : Fin 8) (s : State) : Out := .next (s.judgeKind (tileQ t) 0x03)

/-- PICK_CTL at the head of a tile's queue (R105). -/
def execPickCtl (t : Fin 8) (s : State) : Out := .next (s.judgeKind (tileQ t) 0x04)

/-- FEM_LEVELS at the head of a tile's queue (R91). -/
def execFemLevels (t : Fin 8) (s : State) : Out := .next (s.judgeKind (tileQ t) 0x05)

/-- CAL_SLOT at the head of a tile's queue (R436). -/
def execCalSlot (t : Fin 8) (s : State) : Out := .next (s.judgeKind (tileQ t) 0x06)

/-- BANK_SWAP at the head of the device queue (R170, R173, R179). -/
def execBankSwap (s : State) : Out := .next (s.judgeKind 8 0x10)

/-- ACQ_ARM at the head of the device queue (R66, R254). -/
def execAcqArm (s : State) : Out := .next (s.judgeKind 8 0x11)

/-- SOFT_TRIGGER at the head of the device queue (R241). -/
def execSoftTrigger (s : State) : Out := .next (s.judgeKind 8 0x12)

/-- TRIG_OUT_EDGE at the head of the device queue (R47, R248). -/
def execTrigOutEdge (s : State) : Out := .next (s.judgeKind 8 0x13)

/-- LANE_STATE at the head of the device queue (R322). -/
def execLaneState (s : State) : Out := .next (s.judgeKind 8 0x14)

/-- ANALYSER_CFG at the head of the device queue (R236). -/
def execAnalyserCfg (s : State) : Out := .next (s.judgeKind 8 0x15)

/-- SWAP_EFFECTIVE_SAMPLE (R100, R173 to R177): the swap that was taken takes effect at its s. -/
def execSwapEffectiveSample (s : State) : Out :=
  .next (match s.beam.swaps.find? (fun w => match w.effAt with
      | some e => decide (e ≤ s.time.ticks)
      | none => false) with
    | none => s
    | some w => match w.effAt with
      | none => s
      | some e =>
        let s := s.swapEffect w e
        if w.uses.isSome then s.relead else s.judgePicks)

end Sys2Proof.Machine
end

