-- ==== Sys2Proof/Machine/Beams.lean ====
section
/-! DEFINITION. Commands of the channelisers and the beam engine and the arrival of transmit samples (05_channelisers.md,
06_beam_engine.md, 12_zenfa_link.md R369, R370). BANK_SWAP is with the timed actions. -/

namespace Sys2Proof.Machine

/-! ### Channelisers (R152, R156, R157) -/

/-- CHAN_FRONT_SET (R102, R152): refused while a beam of the direction is enabled or element mode is active there. -/
def execChanFrontSet (h : CmdHdr) (dirs rx tx : BitVec 8) (s : State) : Out :=
  .next (serve h { opcode := 0x0260, role := some .operator, params := pb dirs ++ pb rx ++ pb tx }
    (fun s =>
      let live := fun (d : BeamDir) => d.active.element || d.active.beams.toList.any (fun b => b.enable)
      checks
        [(stBadParam, decide (3 < dirs.toNat ∨ 3 < rx.toNat ∨ 3 < tx.toNat)),
         (stBadState, (dirs.getLsbD 0 && live s.beam.rx) || (dirs.getLsbD 1 && live s.beam.tx))] s (fun _ =>
          done (State.judgePicks (State.rehorizon { s with chan := { s.chan with
            rxPreset := if dirs.getLsbD 0 then rx.setWidth 2 else s.chan.rxPreset
            txPreset := if dirs.getLsbD 1 then tx.setWidth 2 else s.chan.txPreset } }))))
    s)

/-- CHAN_INFO (R147 to R149, R157): mixed presets take the lower-coded one. -/
def execChanInfo (h : CmdHdr) (dir front narrow rate : BitVec 8) (s : State) : Out :=
  .next (serve h { opcode := 0x0261, role := some .operator, params := pb dir ++ pb front ++ pb narrow ++ pb rate }
    (fun s => checks
      [(stBadParam, decide (1 < dir.toNat ∨ 3 < front.toNat ∨ 3 < narrow.toNat ∨ 7 < rate.toNat))] s (fun _ =>
        let half := if dir = 0 then rxFrontHalf (front.setWidth 2) else txFrontHalf (front.setWidth 2)
        let g := half * 128 + nbDelay (narrow.setWidth 2) (rate.setWidth 3) * 256
        let p := min front.toNat narrow.toNat
        doneR (le 4 g ++ le 2 (bandQ16 p rate.toNat) ++ le 1 (([60, 80, 95, 110] : List Nat).getD p 0) ++
          le 1 (([10, 5, 2, 1] : List Nat).getD p 0)) s))
    s)

/-- HK_FILTER_SET (R156). -/
def execHkFilterSet (h : CmdHdr) (cls preset : BitVec 8) (s : State) : Out :=
  .next (serve h { opcode := 0x0908, role := some .installer, journal := true, params := pb cls ++ pb preset }
    (fun s => checks [(stBadParam, decide (1 < cls.toNat ∨ 3 < preset.toNat))] s (fun _ =>
      done (if cls = 0 then
          { s with chan.diodePreset := preset.setWidth 2, hk.regions := vmap s.hk.regions (fun _ x => { x with diodeF := Reset.hkFilter }) }
        else
          { s with chan.railPreset := preset.setWidth 2, hk.rails := vmap s.hk.rails (fun _ x => { x with filter := Reset.hkFilter }) })))
    s)

/-! ### Banks (R164, R169, R170, R183, R534) -/

/-- BEAM_CFG (R169). -/
def execBeamCfg (h : CmdHdr) (dir beam enable rate preset format flow : BitVec 8) (freq : BitVec 32) (shift : BitVec 8)
    (s : State) : Out :=
  .next (serve h
    { opcode := 0x0301, role := some .operator,
      params := pb dir ++ pb beam ++ pb enable ++ pb rate ++ pb preset ++ pb format ++ pb flow ++ pb freq ++ pb shift }
    (fun s => match fin? 32 beam.toNat with
      | none => refuse stBadParam s
      | some b => checks
        [(stBadParam, decide (1 < dir.toNat ∨ 1 < enable.toNat ∨ 7 < rate.toNat ∨ 3 < preset.toNat)),
         (stBadParam, decide (2 < format.toNat ∨ 63 < flow.toNat ∨ (dir = 0 ∧ 7 < shift.toNat)))] s (fun _ =>
          let c : BeamCfg :=
            { enable := decide (enable = 1), rate := rate.setWidth 3, preset := preset.setWidth 2,
              format := format.setWidth 2, flow := flow.setWidth 6, freq := freq, shift := shift.setWidth 3 }
          s.shadowSet (decide (dir = 1)) (fun k => { k with beams := k.beams.set b.val c b.isLt })))
    s)

/-- BEAM_WEIGHTS (R164). -/
def execBeamWeights (h : CmdHdr) (dir beam port first count : BitVec 8) (ptr : BitVec 32) (s : State) : Out :=
  .next (serve h
    { opcode := 0x0302, role := some .operator,
      params := pb dir ++ pb beam ++ pb port ++ pb first ++ pb count ++ pb ptr, ptrs := [(ptr.toNat, 4 * count.toNat)] }
    (fun s => checks
      [(stBadParam, decide (1 < dir.toNat ∨ 31 < beam.toNat ∨ (dir = 0 ∧ 1 < port.toNat))),
       (stBadParam, decide (count = 0 ∨ 64 < first.toNat + count.toNat))] s (fun _ =>
        let tx := decide (dir = 1)
        let bs := memRead 0 s.pup.mbRam ptr.toNat (4 * count.toNat)
        let ws := (chunks 4 count.toNat bs).map (fun c => BitVec.ofNat 32 (unle c))
        s.shadowSet tx (fun k => { k with
          weights := (ws.mapIdx (fun i w => (i, w))).foldl (fun m x =>
            memSet 0 m (weightIdx tx beam.toNat (first.toNat + x.1) port.toNat) x.2) k.weights })))
    s)

/-- BEAM_DELAYS (R160): inline or from mailbox RAM. -/
def execBeamDelays (h : CmdHdr) (dir first count form : BitVec 8) (delays : List (BitVec 16)) (ptr : BitVec 32)
    (s : State) : Out :=
  .next (serve h
    { opcode := 0x0303, role := some .operator,
      params := pb dir ++ pb first ++ pb count ++ pb form ++ (if form = 1 then pb ptr else delays.flatMap pb),
      ptrs := if form = 1 then [(ptr.toNat, 2 * count.toNat)] else [] }
    (fun s =>
      let ds := if form = 1 then
          (chunks 2 count.toNat (memRead 0 s.pup.mbRam ptr.toNat (2 * count.toNat))).map (fun c => BitVec.ofNat 16 (unle c))
        else delays
      checks
        [(stBadParam, decide (1 < dir.toNat ∨ 1 < form.toNat ∨ count = 0 ∨ 64 < first.toNat + count.toNat)),
         (stBadParam, decide (form = 0 ∧ (26 < count.toNat ∨ delays.length ≠ count.toNat))),
         (stBadParam, ds.any (fun d => decide (d.toInt < -1024 ∨ 1023 < d.toInt)))] s (fun _ =>
          s.shadowSet (decide (dir = 1)) (fun k => { k with
            delays := vmap k.delays (fun p d =>
              if first.toNat ≤ p.val ∧ p.val < first.toNat + count.toNat then
                (ds.getD (p.val - first.toNat) 0).setWidth 11 else d) })))
    s)

/-- ELEM_CFG (R168, R172). -/
def execElemCfg (h : CmdHdr) (dir mode rate preset format : BitVec 8) (flows : List (BitVec 8)) (txShift : BitVec 8)
    (s : State) : Out :=
  .next (serve h
    { opcode := 0x0304, role := some .operator,
      params := pb dir ++ pb mode ++ pb rate ++ pb preset ++ pb format ++ flows.flatMap pb ++ pb txShift }
    (fun s => checks
      [(stBadParam, decide (1 < dir.toNat ∨ 1 < mode.toNat ∨ 7 < rate.toNat ∨ 3 < preset.toNat ∨ 2 < format.toNat)),
       (stBadParam, decide (flows.length ≠ 8 ∨ 7 < txShift.toNat) || flows.any (fun f => decide (63 < f.toNat)))] s
      (fun _ =>
        s.shadowSet (decide (dir = 1)) (fun k => { k with
          element := decide (mode = 1)
          txShift := txShift.setWidth 3
          elem := { rate := rate.setWidth 3, preset := preset.setWidth 2, format := format.setWidth 2,
                    flows := Vector.ofFn (fun t => (flows.getD t.val 0).setWidth 6) } })))
    s)

/-- BEAM_BANK_COPY (R170). -/
def execBeamBankCopy (h : CmdHdr) (dirs : BitVec 8) (s : State) : Out :=
  .next (serve h { opcode := 0x0305, role := some .operator, params := pb dirs }
    (fun s =>
      let cp := fun (on : Bool) (d : BeamDir) => if on then { d with shadow := d.active } else d
      checks
        [(stBadParam, decide (3 < dirs.toNat)),
         (stBusy, (dirs.getLsbD 0 && s.beam.rx.lock.isSome) || (dirs.getLsbD 1 && s.beam.tx.lock.isSome))] s (fun _ =>
          done { s with beam := { s.beam with
            rx := cp (dirs.getLsbD 0) s.beam.rx, tx := cp (dirs.getLsbD 1) s.beam.tx } }))
    s)

/-- The 13-byte configuration of BEAM_QUERY (R535). -/
def beamCfgBytes (k : Bank) (b : Option (Fin 32)) : List Byte :=
  match b with
  | some i =>
    let c := k.beams.get i
    le 1 (b2n c.enable) ++ le 1 c.rate.toNat ++ le 1 c.preset.toNat ++ le 1 c.format.toNat ++ le 1 c.flow.toNat ++
      pb c.freq ++ le 1 c.shift.toNat ++ [0, 0, 0]
  | none =>
    let e := k.elem
    le 1 (b2n k.element) ++ le 1 e.rate.toNat ++ le 1 e.preset.toNat ++ le 1 e.format.toNat ++
      e.flows.toList.flatMap (fun f => le 1 f.toNat) ++ le 1 k.txShift.toNat

/-- BEAM_QUERY (R183, R535). -/
def execBeamQuery (h : CmdHdr) (dir bank beam : BitVec 8) (s : State) : Out :=
  .next (serve h { opcode := 0x0306, role := some .operator, params := pb dir ++ pb bank ++ pb beam }
    (fun s => checks
      [(stBadParam, decide (1 < dir.toNat ∨ 1 < bank.toNat ∨ (31 < beam.toNat ∧ beam ≠ 0xFF)))] s (fun _ =>
        let d := s.beam.dir (decide (dir = 1))
        let k := if bank = 0 then d.active else d.shadow
        doneR (beamCfgBytes k (fin? 32 beam.toNat) ++ le 4 (maskOf 32 (fun b => (k.beams.get b).enable)) ++
          pb s.beam.aper ++ le 9 (s.beam.swapAt * 256)) s))
    s)

/-! ### TX_IQ (R181, R354, R368 to R370) -/

/-- TX_IQ_PACKET: a packet of a bound, unshed transmit flow in its source's format; past its LIMIT it is discarded, a gap in
SEQ is counted, and its samples enter the buffer. -/
def execTxIqPacket (pkt : RxPkt) (s : State) : Out :=
  let fmtOk := decide (pkt.fmt.getLsbD 7 = false ∧ (pkt.fmt &&& 7#8).toNat < 3 ∧ (pkt.fmt >>> 3).toNat < 8)
  .next (match s.rxScreen pkt 63 fmtOk with
  | some t => t
  | none => match fin? 64 pkt.flow.toNat with
    | none => s
    | some f =>
      let x := s.link.txFlows.get f
      match s.txSrc x.src with
      | none => { s with link.unexp := satAdd s.link.unexp 1 }
      | some (elem, b, rate, preset, fmt) =>
        if (pkt.fmt &&& 7#8).toNat ≠ fmt.toNat ∨ (pkt.fmt >>> 3).toNat ≠ rate.toNat then
          { s with link.txFlows := vmod s.link.txFlows f (fun x => { x with badfmt := satAdd x.badfmt 1 }) }
        else
          let units := cdiv pkt.payload.length 64
          let n := x.count + BitVec.ofNat 32 units
          if (x.limit - n).toNat ≥ 2 ^ 31 then
            let first := !x.ovrSeen
            let s := { s with link.txFlows := vmod s.link.txFlows f (fun x =>
              { x with overrun := satAdd x.overrun 1, ovrSeen := true, seq := pkt.seq + 1 }) }
            if first then s.emitNow 0x0711 (0x0700 + f.val) (le 1 f.val) else s
          else
            let r := txSamples fmt elem pkt.payload
            let gap := decide (pkt.seq ≠ x.seq)
            let s := { s with link.txFlows := vmod s.link.txFlows f (fun x =>
              { x with
                count := n, seq := pkt.seq + 1, buf := x.buf + pkt.payload.length,
                gap := if gap then satAdd x.gap 1 else x.gap, badfmt := satAdd x.badfmt r.2 }) }
            s.txEnter f elem b rate preset (s.fullTicks pkt.time) pkt.payload.length r.1)

end Sys2Proof.Machine
end

