-- ==== Sys2Proof/Machine/Calibration.lean ====
section
/-! DEFINITION. Commands and events of calibration (15_calibration.md). -/

namespace Sys2Proof.Machine

/-- Flash writes forbidden by the temperature range (R472): a region's estimate lies outside it. -/
def State.tempForbidden (s : State) : Bool :=
  s.cal.rangeEn && s.hk.regions.toList.any (fun r =>
    decide (r.est ≠ 0x8000 ∧ (r.est.toInt < s.cal.rangeMin.toInt * 64 ∨ s.cal.rangeMax.toInt * 64 < r.est.toInt)))

/-- A journal write in progress: an entry on its way, a sector or the journal being erased (R562, R565). -/
def State.journalBusy (s : State) : Bool :=
  s.pup.jSector.isSome || (match s.pup.job with
    | .journalErase _ => true
    | _ => false) ||
  s.pup.busy.toList.any (fun b => match b with
    | some p => decide (p.waits = .journal)
    | none => false)

/-- Flash work of the firmware that keeps others off the flash. -/
def State.flashBusy (s : State) : Bool := s.journalBusy || decide (s.pup.job ≠ .none) || s.pup.stage.isSome

/-- CAL_RUN (R432, R440, R442): a calibration of each kind on each tile becomes pending. -/
def execCalRun (h : CmdHdr) (kinds tiles : BitVec 8) (deadline : BitVec 72) (count : BitVec 8) (fcs : List (BitVec 64))
    (s : State) : Out :=
  .next (serve h
    { opcode := 0x0801, role := some .operator,
      params := pb kinds ++ pb tiles ++ pb deadline ++ pb count ++ fcs.flatMap pb }
    (fun s => checks
      [(stBadParam, decide (4 < count.toNat ∨ fcs.length ≠ count.toNat ∨ kinds = 0 ∨ tiles = 0)),
       (stBadParam, fcs.any (fun f => decide (f.toNat < 1000000000 ∨ 6800000000 < f.toNat))),
       (stBusy, (maskBits 8 tiles.toNat).any (fun t => calKinds.any (fun k =>
         kinds.getLsbD k.bit && (s.calPending t k).isSome)))]
      s (fun _ =>
        let due := if deadline = 0 then s.nowT + 983040000 * 256 else deadline.toNat
        accepted ((maskBits 8 tiles.toNat).foldl (fun s t =>
          (calKinds.filter (fun k => kinds.getLsbD k.bit)).foldl (fun s k =>
            let c : CalPend :=
              { kind := k, deadline := due, missed := 0, overdue := false, fcs := if k = .stitchEq then fcs else [],
                work := s.calWork t k fcs.length }
            s.modCal t (fun x => { x with pending := x.pending ++ [c] })) s) s)))
    s)

/-- Abort a tile's calibration of a kind (R442): its slots yield, its claim ends, CAL_DONE says ABORTED. -/
def State.calAbortKind (s : State) (t : Fin 8) (k : CalKind) : State :=
  let s := (List.finRange 8).foldl (fun s u => s.slotYield u (fun r => decide (r.kind = k ∧ r.client = t))) s
  let s := match (s.cal.tiles.get t).claim with
    | some c => if c.kind = k then s.claimCut t else s
    | none => s
  s.calDone t k stAborted 0x8000 0

/-- CAL_ABORT (R442). -/
def execCalAbort (h : CmdHdr) (kinds tiles : BitVec 8) (s : State) : Out :=
  .next (serve h { opcode := 0x0802, role := some .operator, params := pb kinds ++ pb tiles }
    (fun s => done ((maskBits 8 tiles.toNat).foldl (fun s t =>
      (calKinds.filter (fun k => kinds.getLsbD k.bit && (s.calPending t k).isSome)).foldl (fun s k => s.calAbortKind t k) s) s))
    s)

/-- CAL_GAP_CFG (R437, R440). -/
def execCalGapCfg (h : CmdHdr) (windows : BitVec 64) (limit : BitVec 16) (s : State) : Out :=
  .next (serve h { opcode := 0x0803, role := some .installer, journal := true, params := pb windows ++ pb limit }
    (fun s => checks [(stBadParam, decide (0 < limit.toNat ∧ limit.toNat < 9))] s (fun _ =>
      done { s with cal.gapMask := windows, cal.claimLim := limit }))
    s)

/-- CAL_REF_CFG (R432, R450). -/
def execCalRefCfg (h : CmdHdr) (path level : BitVec 8) (s : State) : Out :=
  .next (serve h { opcode := 0x0804, role := some .installer, journal := true, params := pb path ++ pb level }
    (fun s => match fin? 64 path.toNat with
      | none => refuse stBadParam s
      | some p => checks [(stBadParam, decide (level.toInt < -60 ∨ -10 < level.toInt))] s (fun _ =>
          done { s with cal.refPath := p, cal.level := level }))
    s)

/-- The hold-up check of R448 on the last VHOLD_SENSE reading: what it leaves in HK_HOLD, and whether it passes. -/
def State.holdUp (s : State) : State × Bool :=
  let c := s.cal
  let v := c.vhold.toNat * c.divider.toNat
  let vm := c.vmin.toNat * 256
  let e := if vm ≤ v then c.capUf.toNat * (v * v - vm * vm) else 0
  let need := 3000000 * 65536 * (4 * c.eErase.toNat + 726 * c.ePage.toNat)
  let den := 2 * 1000000 * 65536 * 10
  ({ s with cal := { c with
      volt := BitVec.ofNat 16 (min 65535 (ratI v 256).toNat)
      energy := BitVec.ofNat 16 (min 65535 (ratI e den).toNat) } },
   c.capSet && decide (need ≤ e))

/-- CAL_STORE (R447 to R449): the checks, then the store starts by erasing its target slot. -/
def execCalStore (h : CmdHdr) (s : State) : Out :=
  .next (serve h { opcode := 0x0805, role := some .installer, journal := true, params := [] }
    (fun s =>
      if s.cal.store.isSome || s.flashBusy || s.pup.restarting then refuse stBusy s
      else if s.tempForbidden then refuse stTemp s
      else
        let hu := s.holdUp
        if hu.2 = false then ({ status := stHoldupLow }, hu.1)
        else
          let s := hu.1
          let va := s.calSlotValid false
          let vb := s.calSlotValid true
          let toB := if va && vb then seqLater (s.calSlotSeq false) (s.calSlotSeq true) else va
          let other := if toB then va else vb
          let run : StoreRun :=
            { slotB := toB, erased := 0, pages := 0, seq := if other then s.calSlotSeq (!toB) + 1 else 1,
              values := s.cal.values, kinds := s.cal.kinds, time := s.nowT,
              maxT := BitVec.ofInt 16 ((s.hk.regions.toList.map (fun r => r.est.toInt)).foldl max (-32768)) }
          accepted ({ s with cal.store := some run, cal.pagesN := 0, pup.job := .calStore }.firmwareDma .wait))
    s)

/-- CAL_HOLDUP_CFG (R448). -/
def execCalHoldupCfg (h : CmdHdr) (cap : BitVec 32) (vmin divider ePage eErase : BitVec 16) (s : State) : Out :=
  .next (serve h
    { opcode := 0x0806, role := some .installer, journal := true,
      params := pb cap ++ pb vmin ++ pb divider ++ pb ePage ++ pb eErase }
    (fun s => checks [(stBadParam, decide (ePage = 0 ∨ eErase = 0))] s (fun _ =>
      done { s with cal := { s.cal with
        capUf := cap, capSet := true, vmin := vmin, divider := divider, ePage := ePage, eErase := eErase } }))
    s)

/-- CAL_FLASH_CFG (R445, R472, R554): the slots overlap neither each other, nor the key record, nor the journal. -/
def execCalFlashCfg (h : CmdHdr) (offA offB : BitVec 16) (rmin rmax ren : BitVec 8) (s : State) : Out :=
  .next (serve h
    { opcode := 0x0807, role := some .installer, journal := true,
      params := pb offA ++ pb offB ++ pb rmin ++ pb rmax ++ pb ren }
    (fun s =>
      let a := offA.toNat * 65536
      let b := offB.toNat * 65536
      let meets := fun (x n : Nat) => decide ((a < x + n ∧ x < a + 262144) ∨ (b < x + n ∧ x < b + 262144))
      checks
        [(stBadParam, decide (a < b + 262144 ∧ b < a + 262144)),
         (stBadParam, meets 0x400000 0x40000 || meets 0x480000 4096 || meets 0x490000 4096),
         (stBadParam, decide (rmax.toInt < rmin.toInt ∨ 1 < ren.toNat)),
         (stBusy, s.cal.store.isSome)] s (fun _ =>
        done { s with cal := { s.cal with
          offA := offA, offB := offB, rangeMin := rmin, rangeMax := rmax, rangeEn := decide (ren = 1) } }))
    s)

/-- CAL_STATUS (R450, R452). -/
def execCalStatus (h : CmdHdr) (tile : BitVec 8) (s : State) : Out :=
  .next (serve h { opcode := 0x0808, role := some .operator, params := pb tile }
    (fun s => match fin? 8 tile.toNat with
      | none => refuse stBadParam s
      | some t =>
        let x := s.cal.tiles.get t
        doneR (le 4 (regCalStat s t) ++ le 4 (regCalCnt x) ++ le 4 (regCalMiss x) ++ le 4 (regCalStore s.cal)) s)
    s)

/-- Halfwords of a point of an object in the record (R542). -/
def State.calSetWords (s : State) (kind object : BitVec 8) (point : Nat) : Option (List Int) :=
  let run := fun (base n : Nat) => (List.range n).map (fun i => s.calHw (base + i))
  if kind.toNat < 4 then (fin? 64 object.toNat).map (fun p => run (pathBase p + point * pathSet) pathSet)
  else if kind = 4 then
    (fin? 8 object.toNat).map (fun t => (List.range 16).map (fun e => s.calHw (tileBase t + 9 * e + 4 + point)))
  else if kind = 5 then (fin? 8 object.toNat).map (fun t => run (tileBase t + 144 + 20 * point) 20)
  else if kind = 6 then
    (fin? 8 object.toNat).map (fun l => (List.range 4).flatMap (fun e => run (eqBase l e + 6 + 514 * point) 514))
  else if kind = 7 ∧ object = 0 then some (run (hkBase + 25 * point) 25)
  else none

/-- Bytes of the block CAL_SET_READ writes for a kind. -/
def calSetLen (kind : BitVec 8) : Nat :=
  if kind = 4 then 32 else if kind = 5 then 40 else if kind = 6 then 4112 else 50

/-- CAL_SET_READ (R542). -/
def execCalSetRead (h : CmdHdr) (kind object point : BitVec 8) (ptr : BitVec 32) (s : State) : Out :=
  .next (serve h
    { opcode := 0x0809, role := some .operator, params := pb kind ++ pb object ++ pb point ++ pb ptr,
      ptrs := [(ptr.toNat, calSetLen kind)] }
    (fun s =>
      if 4 < point.toNat then refuse stBadParam s
      else match s.calSetWords kind object point.toNat with
      | none => refuse stBadParam s
      | some ws =>
        let bs := ws.flatMap (leI 2)
        ({ status := stDone, results := le 2 bs.length, block := some (ptr.toNat, bs.length) },
          { s with pup.mbRam := memWrite 0 s.pup.mbRam ptr.toNat bs }))
    s)

/-! ### Events -/

/-- CAL_PLACEMENT_CHECK (R440): each millisecond the firmware judges a tile's pending calibrations, overdue ones first; not in
THERMAL_HALT nor during a restart (R468, R514). -/
def execCalPlacementCheck (t : Fin 8) (s : State) : Out :=
  let ps := (s.cal.tiles.get t).pending
  .next (if s.hk.halt || s.pup.restarting || s.pup.halted then s
    else (ps.filter (fun c => c.overdue) ++ ps.filter (fun c => !c.overdue)).foldl (fun s c => s.judgeCal t c) s)

/-- CAL_CLAIM_START (R88, R441): once CALBUS is free, the path is muted and its samples become flagged zeros. -/
def execCalClaimStart (t : Fin 8) (s : State) : Out :=
  .next (match (s.cal.tiles.get t).claim with
  | none => s
  | some c =>
    let held := match s.cal.bus with
      | .free => false
      | .calibration u => decide (u ≠ t)
      | .diag _ _ => true
    if c.running || held || decide (s.time.ticks < c.start) then s
    else
      let n := ((s.calPending t c.kind).bind (fun p => p.work.head?)).elim 0 (fun w => w.1)
      let orx := c.kind.usesOrx n
      let rx := !orx || decide (c.kind = .orx)
      let s := s.modCal t (fun x => { x with claim := some { c with running := true }, claims := satAdd x.claims 1 })
      let s := s.modPath c.path (fun p => { p with claimMute := true })
      let s := { s with cal.bus := .calibration t }
      let portB := decide (n = 1) && decide (c.kind = .rxIq ∨ c.kind = .gain ∨ c.kind = .array)
      let s := s.markBus c.path (!rx) (fun i => !orx && !portB && decide (i = c.path)) (fun i => !orx && portB && decide (i = c.path))
        (fun u => orx && decide (u = t))
      (if orx then s.modRes t (fun r =>
          { r with orx.reqCal := some (BitVec.ofNat 3 c.path.val) })
        else s).noteMutes)

/-- CAL_CLAIM_END (R441): the slot's path is done and unmuted. -/
def execCalClaimEnd (t : Fin 8) (s : State) : Out :=
  .next (match (s.cal.tiles.get t).claim with
  | none => s
  | some c =>
    if !c.running || decide (s.time.ticks < c.start + c.len) then s
    else
      let s := s.modPath c.path (fun p => { p with claimMute := false })
      let s := s.slotFree t
      let s := s.modCal t (fun x => { x with claim := none, done := satAdd x.done 1 })
      s.modPend t c.kind (fun p =>
        match p.work with
        | [] => p
        | w :: ws =>
          let left := w.2 &&& ~~~(1#8 <<< (c.path.val % 8))
          if left = 0 then { p with work := ws } else { p with work := (w.1, left) :: ws }))

/-- CALIBRATION_COMPLETE (R435, R443, R444, R451): the measurements of a calibration whose slots are done are judged; with a
failing check every value is discarded, else they are applied. -/
def execCalibrationComplete (t : Fin 8) (kind : Fin 8) (failing tm : BitVec 16) (results : List (BitVec 16 × BitVec 16))
    (s : State) : Out :=
  let k := calKinds.getD kind.val .hkTrim
  .next (match s.calPending t k with
  | none => s
  | some c =>
    if c.work.isEmpty = false then s
    else if failing ≠ 0 then s.calDone t k stImplausible tm failing
    else
      let s := s.calApply t k tm.toInt results
      let s := { s with cal.kinds := s.cal.kinds ||| (1#8 <<< k.bit) }
      s.calDone t k stDone tm 0)

end Sys2Proof.Machine
end

