-- ==== Sys2Proof/Machine/ClockOps.lean ====
section
/-! DEFINITION. Operations of the clocks: locks and their loss, the converter outputs, the load of device time at SYNC
(14_clocks.md). -/

namespace Sys2Proof.Machine

/-! ### PLLs (R413 to R415, R424 to R427) -/

/-- The PLLs there are: indices 6 and 7 are unused (R414). -/
def pllUsed (p : Fin 16) : Bool := decide (p.val ≠ 6 ∧ p.val ≠ 7)

/-- Whether a lane group has a lane out of RAGDOLL, so that its PLL runs (R321). -/
def State.groupOn (s : State) (p : Fin 16) : Bool :=
  (List.finRange 16).any (fun l =>
    decide (l.val / 8 + 3 = p.val) && (decide ((s.link.lanes.get l).pstate ≠ .ragdoll) || (s.link.lanes.get l).exitAt.isSome))

/-- Whether a PLL reports lock (R415). -/
def State.pllLock (s : State) (p : Fin 16) : Bool :=
  (s.clk.plls.get p).lock && (decide (p.val ≠ 3 ∧ p.val ≠ 4) || s.groupOn p)

/-- Whether the store is out of reach: its PLL faulted or relocking (R425, R426, R548). -/
def State.dramDown (s : State) : Bool := (s.clk.plls.get 5).fault || (s.clk.plls.get 5).busy

/-- Ticks in a millisecond. -/
def msTicks : Nat := 983040

/-- A PLL starts to relock (R424, R426). -/
def State.relock (s : State) (p : Fin 16) (planned : Bool) : State :=
  s.modPll p (fun x => { x with
    lock := false, planned := planned, busy := true, attempts := 1, relocked := false,
    retryAt := some (s.time.ticks + msTicks) })

/-- The lanes of a group lose block lock (R426). -/
def State.groupLost (s : State) (p : Fin 16) : State :=
  { s with link.lanes := vmap s.link.lanes (fun l (x : Lane) =>
      if l.val / 8 + 3 = p.val then
        { x with
          lock := false, cdr := false, hdrRun := 0, recent := [], slipDue := none
          lockLoss := if x.lock then satAdd x.lockLoss 1 else x.lockLoss
          lostAt := if x.lock then some s.time.ticks else x.lostAt }
      else x) }

/-- The tiles that a PLL's loss mutes (R426). -/
def pllTiles (p : Fin 16) : List (Fin 8) :=
  if p.val ≤ 1 then List.finRange 8 else (List.finRange 8).filter (fun t => decide (rfPll t = p))

/-- An acquisition channel loses the store (R426): it is IDLE, and the record in progress gets no header. -/
def State.storeLost (s : State) : State :=
  (List.finRange 16).foldl (fun s c =>
    let x := s.aq.chans.get c
    if x.isArmed then
      (s.modCh c (fun x => { x with state := .idle, record := none, samples := [], fill := 0, fillN := 0 })).emitNow 0x0604 (0x0600 + c.val)
        (le 1 c.val ++ pb x.recNo)
    else s) s

/-- A PLL loses lock without a planned relock (R426, R427): its fault, CLK_LOCK_LOST, the safe clock of its domain, the
consequences of its row, and the relock. -/
def State.pllLost (s : State) (p : Fin 16) : State :=
  let now := s.time.ticks
  let s := s.relock p false
  let s := s.modPll p (fun x => { x with
    fault := true, losses := satAdd x.losses 1,
    suspect := some (match x.suspect with
      | some a => min a (now - 64)
      | none => now - 64) })
  let s := s.emitNow 0x0110 (0x0100 + p.val) (le 1 p.val ++ le 8 s.nowT)
  let s := if p = 1 then { s with clk.dspSafe := true } else if p = 2 then { s with clk.mgmtSafe := true } else s
  let s := if p = 3 ∨ p = 4 then s.groupLost p else if p = 5 then s.storeLost else s
  let s : State := match fin? 8 (p.val - 8) with
    | some t => if 8 ≤ p.val then s.modRadio t (fun r => { r with lo := none }) else s
    | none => s
  ((pllTiles p).foldl (fun s t => s.claimCut t) s).noteMutes

/-- A relock ends (R424, R426): for DSP and MGMT the domain is back on its PLL, an RF synthesiser sets its phase (R423). A lock that boot makes emits nothing (R599). -/
def State.pllDone (s : State) (p : Fin 16) : State :=
  let x := s.clk.plls.get p
  let booting : Bool := x.planned && (match s.pup.boot with
    | some b => decide (b.cause = .boot)
    | none => false)
  let s := s.modPll p (fun x => { x with lock := true, busy := false, relocked := x.fault, retryAt := none, planned := false })
  let s := if p = 1 then { s with clk.dspSafe := false } else if p = 2 then { s with clk.mgmtSafe := false } else s
  let s : State := match fin? 8 (p.val - 8) with
    | some t => if 8 ≤ p.val then s.loConfirm t else s
    | none => s
  if booting then s
  else s.emitNow 0x0111 (0x0100 + p.val) (le 1 p.val ++ pb x.attempts ++ le 1 (b2n x.planned))

/-- Whether a planned relock of a PLL is refused (R425). -/
def State.relockRefused (s : State) (p : Fin 16) : Bool :=
  let armed := (List.finRange 16).any (fun c => (s.aq.chans.get c).isArmed)
  if p.val ≤ 1 then
    armed || (List.finRange 8).any (fun t => decide ((s.radio.get t).use ≠ .out)) ||
    (List.finRange 9).any (fun q => !(s.time.queues.get q).acts.isEmpty)
  else if p = 3 ∨ p = 4 then s.groupOn p
  else if p = 5 then
    armed ||
    (List.finRange 9).any (fun a => (List.finRange 4).any (fun o => match (s.an.src.get a).cfg.outs.get o with
      | some x => x.segment.isSome
      | none => false)) ||
    (List.finRange 64).any (fun c =>
      let x := s.dma.chans.get c
      decide (x.uses &&& 3#4 ≠ 0) && decide (x.state = .running ∨ x.state = .wait ∨ x.state = .stopping)) ||
    (List.finRange 8).any (fun t => (s.tdsp.get t).load.isSome)
  else if 8 ≤ p.val then
    match fin? 8 (p.val - 8) with
    | none => false
    | some t =>
      let r := s.radio.get t
      r.transit.isSome || decide (r.state ≠ .standby ∧ r.state ≠ .off ∧ r.state ≠ .sleep)
  else false

/-! ### Converter outputs (R416, R417, R419) -/

/-- The instant a converter output slews toward, in fraction units: DELAY, the trim of the band in force and SYNC_COMP, clamped. -/
def State.convTarget (s : State) (t : Fin 8) : Int :=
  let x := s.clk.conv.get t
  let trim := (x.trim.get (s.hk.tileBand.get t).toFin).toInt
  clampI (-503) 503 (x.delay.toInt + trim + Int.ofNat s.clk.syncComp.toNat)

/-- A change of DELAY or of the band starts the slew of an output (R417). -/
def State.convSlew (s : State) (t : Fin 8) : State :=
  let goal := s.convTarget t
  { s with clk.conv := vmod s.clk.conv t (fun x =>
      if x.now = goal then x else { x with stepAt := if x.stepAt ≤ s.time.ticks then s.time.ticks + 1024 else x.stepAt }) }

/-! ### The load at SYNC (R42, R419) -/

/-- An instant of the old device time in the new one. -/
def shN (d : Int) (x : Nat) : Nat := (Int.ofNat x + d).toNat

/-- A full time of the old device time in the new one. -/
def shT (d : Int) (x : Time) : Time := (Int.ofNat x + d * 256).toNat

/-- Samples with their times in the new device time. -/
def shS (d : Int) (l : List TSample) : List TSample := l.map (fun v => { v with time := shN d v.time })

/-- A pick with its instants moved. -/
def PickRun.shift (d : Int) (r : PickRun) : PickRun := { r with stamp := shT d r.stamp, first := shN d r.first }

/-- A tile's radio with its instants moved. -/
def Radio.shift (d : Int) (r : Radio) : Radio :=
  { r with
    transit := r.transit.map (fun x => { x with startAt := shN d x.startAt, via := x.via.map (shN d), till := shN d x.till })
    log := r.log.map (fun e => (shN d e.1, e.2))
    settles := r.settles.map (fun e => (shN d e.1, shN d e.2))
    lo := r.lo.map (fun x => { x with at_ := shN d x.at_ })
    burst := r.burst.map (fun b => { b with startT := shN d b.startT, endT := shN d b.endT })
    ending := r.ending.map (fun e => { e with actualEnd := shT d e.actualEnd })
    leadAt := r.leadAt.map (shN d)
    lagEnd := r.lagEnd.map (shN d)
    retune := match r.retune with
      | .none => .none
      | .glide a b n st start late => .glide a b n (shN d st) (shN d start) late
      | .large g start till => .large g (shN d start) (shN d till)
      | .lock start till => .lock (shN d start) (shN d till) }

/-- A tile's front-end resources with their instants moved. -/
def TileRes.shift (d : Int) (r : TileRes) : TileRes :=
  { r with
    orx.startAt := r.orx.startAt.map (shN d)
    orx.endAt := r.orx.endAt.map (shN d)
    rffe.seqStart := r.rffe.seqStart.map (shN d)
    det.deadTill := shT d r.det.deadTill
    det.line := shS d r.det.line }

/-- A pick group with its instants moved. -/
def PickGroup.shift (d : Int) (g : PickGroup) : PickGroup :=
  { g with phase := match g.phase with
      | .idle => .idle
      | .first r x => .first (r.shift d) (shN d x)
      | .second r x => .second (r.shift d) (shN d x)
      | .returning x => .returning (shN d x)
      | .hold x => .hold (shN d x) }

/-- A lane with its instants moved. -/
def Lane.shift (d : Int) (x : Lane) : Lane :=
  { x with
    exitAt := x.exitAt.map (shN d)
    bringAt := shN d x.bringAt
    slipDue := x.slipDue.map (shN d)
    lostAt := x.lostAt.map (shN d)
    downAt := x.downAt.map (shN d) }

/-- The link with its instants moved. -/
def LinkBlock.shift (d : Int) (l : LinkBlock) : LinkBlock :=
  { l with
    lanes := vmap l.lanes (fun _ x => x.shift d)
    start := l.start.map (fun r => { r with till := shN d r.till })
    markAt := shN d l.markAt
    idleAt := shN d l.idleAt
    held := l.held.map (fun p => { p with sent := shN d p.sent, first := shN d p.first })
    ackDue := l.ackDue.map (shN d)
    reads := l.reads.map (fun r => { r with sent := shN d r.sent })
    rxFlows := vmap l.rxFlows (fun _ f =>
      { f with rebound := f.rebound.map (shN d), pend := f.pend.map (fun p => { p with time := shN d p.time }) })
    txFlows := vmap l.txFlows (fun _ f => { f with creditAt := shN d f.creditAt }) }

/-- Firings and channels of the acquisition block with their instants moved. -/
def AqBlock.shift (d : Int) (a : AqBlock) : AqBlock :=
  let fs := fun (l : List Firing) => l.map (fun f => { f with time := shT d f.time })
  { a with
    units := vmap a.units (fun _ u =>
      { u with inbox := fs u.inbox, as := fs u.as, bs := fs u.bs, ignore := u.ignore.map (shT d) })
    trigIn := vmap a.trigIn (fun _ x => { x with last := x.last.map (shT d) })
    trigOut := vmap a.trigOut (fun _ x => { x with pulse := x.pulse.map (shN d) })
    levels := vmap a.levels (fun _ x =>
      let m := fun (y : Nat × Nat) => (shN d y.1, y.2)
      { x with line := shS d x.line, prev := x.prev.map m, a := m x.a, b := m x.b, due := x.due.map (fun y => (m y.1, m y.2)) })
    chans := vmap a.chans (fun _ c =>
      { c with
        closedAt := c.closedAt.map (shT d), endT := shN d c.endT, missT := shT d c.missT, armAt := shN d c.armAt
        newest := shN d c.newest
        record := c.record.map (fun r =>
          { r with trig := shT d r.trig, sample := shN d r.sample, endT := shN d r.endT, inrecT := shT d r.inrecT,
                   missT := shT d r.missT })
        samples := shS d c.samples }) }

/-- A source of the analyser with its instants moved. -/
def AnSource.shift (d : Int) (q : AnSource) : AnSource :=
  { q with
    lastAt := shN d q.lastAt
    swapReq := q.swapReq.map (shN d)
    nextFrame := shN d q.nextFrame
    line := shS d q.line
    gains := q.gains.map (fun g => (shN d g.1, g.2))
    recent := q.recent.map (fun r => (shN d r.1, r.2))
    old := q.old.map (fun o => (o.1, o.2.1, shN d o.2.2.1, shN d o.2.2.2)) }

/-- The beam engine with its instants moved. -/
def BeamBlock.shift (d : Int) (b : BeamBlock) : BeamBlock :=
  let dir := fun (x : BeamDir) =>
    { x with past := x.past.map (fun p => { p with till := shN d p.till }), validAt := vmap x.validAt (fun _ t => shN d t), elemAt := shN d x.elemAt }
  { b with
    rx := dir b.rx
    tx := dir b.tx
    swapAt := shN d b.swapAt
    swaps := b.swaps.map (fun w => if w.begun then { w with time := shT d w.time, due := shT d w.due, effAt := w.effAt.map (shN d) } else w)
    input := vmap b.input (fun _ l => l.map (fun x => { x with time := shN d x.time }))
    txNext := vmap b.txNext (fun _ t => shN d t) }

/-- Calibration with its instants moved. -/
def CalBlock.shift (d : Int) (c : CalBlock) : CalBlock :=
  { c with
    tiles := vmap c.tiles (fun _ x =>
      { x with
        pending := x.pending.map (fun p => { p with deadline := shT d p.deadline })
        placed := x.placed.map (fun r => { r with start := shN d r.start, stop := shN d r.stop })
        claim := x.claim.map (fun k => { k with start := shN d k.start }) })
    bus := match c.bus with
      | .diag m till => .diag m (shN d till)
      | b => b }

/-- Monitoring with its instants moved. -/
def HkBlock.shift (d : Int) (h : HkBlock) : HkBlock :=
  { h with
    regions := vmap h.regions (fun _ r => { r with evalAt := shN d r.evalAt })
    stepAt := shN d h.stepAt
    txLog := vmap h.txLog (fun _ l => l.map (fun x => (shN d x.1, shN d x.2)))
    shutAt := shN d h.shutAt
    roundAt := shN d h.roundAt }

/-- The Puppeteer with its instants moved. -/
def PupBlock.shift (d : Int) (p : PupBlock) : PupBlock :=
  { p with
    sessions := vmap p.sessions (fun _ x => match x with
      | .free => .free
      | .awaiting r n t => .awaiting r n (shN d t)
      | .opened r n t => .opened r n (shN d t))
    lockout := vmap p.lockout (fun _ x => x.map (shN d))
    boot := p.boot.map (fun b => { b with start := shN d b.start })
    faultTimes := p.faultTimes.map (shN d) }

/-- The state with every instant that counts a duration moved by d ticks: a load sets device time and changes no duration. The
times that the host gave, those of queued actions and of windows, are judged by the new device time. -/
def State.shiftTime (s : State) (d : Int) : State :=
  { s with
    time.queues := vmap s.time.queues (fun _ q => { q with acts := q.acts.map (fun a =>
      { a with
        heldSince := a.heldSince.map (shN d)
        time := match a.act with
          | .calSlot _ => shT d a.time
          | _ => a.time }) })
    time.windows := vmap s.time.windows (fun _ w => { w with freeAt := shN d w.freeAt })
    res := vmap s.res (fun _ r => r.shift d)
    pick := vmap s.pick (fun _ g => g.shift d)
    radio := vmap s.radio (fun _ r => r.shift d)
    beam := s.beam.shift d
    pd.paths := vmap s.pd.paths (fun _ p =>
      { p with lastAcc := shN d p.lastAcc, frozenAt := shN d p.frozenAt, past := p.past.map (fun o => (shN d o.1, o.2)) })
    an.src := vmap s.an.src (fun _ q => q.shift d)
    aq := s.aq.shift d
    tdsp := vmap s.tdsp (fun _ k => { k with timerAt := shN d k.timerAt })
    link := s.link.shift d
    dma.chans := vmap s.dma.chans (fun _ c =>
      { c with
        nextAt := shN d c.nextAt
        run := c.run.map (fun r => { r with fenceAt := r.fenceAt.map (shN d) }) })
    clk.plls := vmap s.clk.plls (fun _ p => { p with retryAt := p.retryAt.map (shN d), suspect := p.suspect.map (shN d) })
    clk.conv := vmap s.clk.conv (fun _ c => { c with stepAt := shN d c.stepAt })
    cal := s.cal.shift d
    hk := s.hk.shift d
    pw.entry := s.pw.entry.map (fun e => { e with since := shN d e.since, phase2 := e.phase2.map (shN d) })
    pup := s.pup.shift d }

/-- A receive and a transmit chain with nothing in them. -/
def RxChain.clear (c : RxChain) : RxChain :=
  { c with count := 0, hb1 := [], fd := [], hb2 := [], hb3 := [], outAt := -1, ports := [], elem := Narrow.zero }
def TxChain.clear (c : TxChain) : TxChain :=
  { c with hb3 := [], hb2 := [], fd := [], hb1 := [], cfr0 := [], cfr1 := [], cfr2 := [], live := [], fix := [], dac := [], elem := Narrow.zero }

/-- Every decimation and interpolation phase and every frame counter at phase zero at V (R419): the chains restart, beams give
their first output a group delay after it, frames begin on the new grid, and what was gathered on the old one ends. -/
def State.rephase (s : State) (v : Nat) : State :=
  let s := (List.finRange 64).foldl (fun (s : State) f => match (s.link.rxFlows.get f).pend with
    | some p => s.closePend f p.sub
    | none => s) s
  let s := { s with
    clk.loadedV := v
    chan.rx := vmap s.chan.rx (fun _ c => c.clear)
    chan.tx := vmap s.chan.tx (fun _ c => c.clear)
    res := vmap s.res (fun _ r => { r with det.line := [] })
    aq.levels := vmap s.aq.levels (fun _ d => d.clear)
    pd.tiles := vmap s.pd.tiles (fun _ x => { x with capBroken := x.capBroken || x.capBusy.isSome, cap := [] })
    beam := { s.beam with
      staged := Vector.replicate 32 [], outq := Vector.replicate 32 [], txNext := Vector.replicate 32 0, rxAt := -1, txAt := -1 } }
  let re := fun (b : BeamDir) =>
    { b with
      past := []
      elemAt := v + cdiv (nbDelay b.active.elem.preset b.active.elem.rate) (periodOf b.active.elem.rate) * periodOf b.active.elem.rate
      nb := vmap b.nb (fun _ _ => Narrow.zero)
      validAt := vmap b.validAt (fun i _ =>
        let c := b.active.beams.get i
        v + cdiv (nbDelay c.preset c.rate) (periodOf c.rate) * periodOf c.rate) }
  let s := { s with beam.rx := re s.beam.rx, beam.tx := re s.beam.tx }
  (List.finRange 9).foldl (fun s a =>
    s.modAn a (fun y => { y.restart with nextFrame := s.frameGrid a s.time.ticks, line := [], old := none })) s

/-- The armed value is loaded at a qualified edge (R42, R419): the crossing was at V:0, so that now it is V plus what has passed
since. -/
def State.loadTime (s : State) (v : Nat) (stamp : Time) (comp : BitVec 7) : State :=
  let now := (v + (s.nowT - stamp) / 256) % 2 ^ 64
  let d := Int.ofNat now - Int.ofNat s.time.ticks
  let s := s.shiftTime d
  let s := { s with
    time := { s.time with ticks := now, armed := none, armEnd := some stDone, synced := true, ppsLast := none, ppsReported := false }
    clk.syncComp := comp }
  let s := (List.finRange 8).foldl (fun (s : State) t =>
    let g := s.convTarget t
    { s with clk.conv := vmod s.clk.conv t (fun x => { x with now := g }) }) s
  (s.rephase v).emitNow 0x0201 0x02FF (le 8 v)

/-- The drift check of a qualified edge (R421). -/
def State.syncCheck (s : State) (stamp : Time) : State :=
  let q := s.clk.period * 256
  if s.time.synced = false ∨ q = 0 then s
  else
    let x := Int.ofNat stamp - Int.ofNat (s.clk.loadedV * 256) + Int.ofNat (q / 2)
    let e := Int.emod x (Int.ofNat q) - Int.ofNat (q / 2)
    let s := { s with clk.syncErr := BitVec.ofInt 32 e }
    if s.clk.limit.toNat < e.natAbs then
      ({ s with clk.drift := true } : State).emitNow 0x0112 0x01FF (leI 4 e ++ le 8 stamp)
    else s

/-! ### LOCKMON (R428) -/

/-- The PLLs in use: those boot locks, a lane group's while it runs, a tile's outside OFF and SLEEP. -/
def State.pllInUse (s : State) (p : Fin 16) : Bool :=
  if p = 3 ∨ p = 4 then s.groupOn p
  else if 8 ≤ p.val then
    match fin? 8 (p.val - 8) with
    | none => false
    | some t => decide ((s.radio.get t).state ≠ .off ∧ (s.radio.get t).state ≠ .sleep)
  else pllUsed p

/-- LOCKMON with ALL or OFF selected; with one PLL selected its lock, where the pin's density follows the phase detector. -/
def State.lockmon (s : State) : Bool :=
  if s.pw.held.getLsbD 9 then s.pw.lockLatch
  else if s.clk.lockmon = 7 then false
  else if s.clk.lockmon = 6 then
    s.clk.refOk && (List.finRange 16).all (fun p => !s.pllInUse p || s.pllLock p)
  else s.pllLock s.clk.lockmon.toFin

/-! ### Register values (R431) -/

def regPllStat (s : State) : Nat :=
  maskOf 16 (fun p => s.pllLock p) * 2 ^ 16 + maskOf 16 (fun p => (s.clk.plls.get p).fault)
def regSafe (c : ClkBlock) : Nat := b2n c.refOk * 8 + b2n c.fbosc * 4 + b2n c.mgmtSafe * 2 + b2n c.dspSafe
def regLossCnt (p : Pll) : Nat := p.retries.toNat * 2 ^ 16 + p.losses.toNat
def regConvOut (s : State) (t : Fin 8) : Nat :=
  let x := s.clk.conv.get t
  b2n x.en * 2 ^ 31 + (s.hk.tileBand.get t).toNat * 2 ^ 26 + x.div.toNat * 2 ^ 24 + s.clk.syncComp.toNat * 2 ^ 17 +
  x.delay.toNat
def regConvTrim (x : ConvOut) : Nat :=
  (x.trim.get 3).toNat * 2 ^ 24 + (x.trim.get 2).toNat * 2 ^ 16 + (x.trim.get 1).toNat * 2 ^ 8 + (x.trim.get 0).toNat
def regSyncStat (c : ClkBlock) : Nat := c.edges.toNat * 2 ^ 16 + c.rejected.toNat * 2 ^ 8 + b2n c.drift

end Sys2Proof.Machine
end

