-- ==== Sys2Proof/Machine/Clocks.lean ====
section
/-! DEFINITION. Commands and events of the clocks (14_clocks.md). -/

namespace Sys2Proof.Machine

/-- CK_CONV_SET (R416, R417): a signed field at its most negative code is unchanged. -/
def execCkConvSet (h : CmdHdr) (tiles en : BitVec 8) (delay : BitVec 16) (trim1 trim2 trim3 trim4 : BitVec 8) (s : State) :
    Out :=
  .next (serve h
    { opcode := 0x0110, role := some .installer, journal := true,
      params := pb tiles ++ pb en ++ pb delay ++ pb trim1 ++ pb trim2 ++ pb trim3 ++ pb trim4 }
    (fun s =>
      let ts := maskBits 8 tiles.toNat
      checks
        [(stBadParam, decide (1 < en.toNat ∧ en ≠ 0xFF)),
         (stBadParam, decide (delay ≠ 0x8000 ∧ (delay.toInt < -503 ∨ 503 < delay.toInt))),
         (stBadState, decide (en = 0) && ts.any (fun t => decide ((s.radio.get t).shown s.time.ticks ≠ .off)))] s (fun _ =>
          let s := { s with clk.conv := vmap s.clk.conv (fun t x =>
            if tiles.getLsbD t.val then
              { x with
                en := if en = 0xFF then x.en else decide (en = 1)
                delay := if delay = 0x8000 then x.delay else delay.setWidth 10
                trim := vmap x.trim (fun i v =>
                  let n := [trim1, trim2, trim3, trim4].getD i.val 0x80
                  if n = 0x80 then v else n) }
            else x) }
          done (ts.foldl (fun s t => s.convSlew t) s)))
    s)

/-- CK_SYNC_CFG (R421). -/
def execCkSyncCfg (h : CmdHdr) (period : BitVec 64) (limit : BitVec 16) (s : State) : Out :=
  .next (serve h { opcode := 0x0111, role := some .installer, journal := true, params := pb period ++ pb limit }
    (fun s => checks [(stBadParam, decide (2 ^ 40 ≤ period.toNat ∨ limit = 0))] s (fun _ =>
      done { s with clk.period := period.toNat, clk.limit := limit }))
    s)

/-- CK_LOCKMON_SEL (R428). -/
def execCkLockmonSel (h : CmdHdr) (sel : BitVec 8) (s : State) : Out :=
  .next (serve h { opcode := 0x0112, role := some .operator, params := pb sel }
    (fun s => checks [(stBadParam, decide (15 < sel.toNat))] s (fun _ =>
      done { s with clk.lockmon := sel.setWidth 4 }))
    s)

/-- CK_FAULT_ACK (R427): each named fault must be locked and relocked; then the faults, their SUSPECT and their mutes end. -/
def execCkFaultAck (h : CmdHdr) (plls : BitVec 16) (s : State) : Out :=
  .next (serve h { opcode := 0x0113, role := some .operator, params := pb plls }
    (fun s =>
      let bad := (maskBits 16 plls.toNat).any (fun p =>
        let x := s.clk.plls.get p
        x.fault && !(x.lock && x.relocked))
      checks [(stNotLocked, bad)] s (fun _ =>
        let s := s.noteMutes
        done { s with clk.plls := vmap s.clk.plls (fun p x =>
          if plls.getLsbD p.val ∧ x.fault then { x with fault := false, relocked := false, suspect := none } else x) }))
    s)

/-- CK_PLL_RELOCK (R424, R425): a planned relock. -/
def execCkPllRelock (h : CmdHdr) (pll : BitVec 8) (s : State) : Out :=
  .next (serve h { opcode := 0x0114, role := some .installer, journal := true, params := pb pll }
    (fun s => match fin? 16 pll.toNat with
      | none => refuse stBadParam s
      | some p => checks [(stBadParam, !pllUsed p), (stBadState, s.relockRefused p)] s (fun _ =>
          let s := s.relock p true
          accepted (if p = 1 then { s with clk.dspSafe := true }
            else if p = 2 then { s with clk.mgmtSafe := true } else s)))
    s)

/-- CK_STATUS (R429, R531). -/
def execCkStatus (h : CmdHdr) (s : State) : Out :=
  .next (serve h { opcode := 0x0115, role := some .operator, params := [] }
    (fun s => doneR
      (le 4 (regPllStat s) ++ le 4 (regSafe s.clk) ++ le 4 (regSyncStat s.clk) ++ pb s.clk.syncErr ++
        (List.finRange 8).flatMap (fun t => le 4 (regConvOut s t))) s)
    s)

/-- CK_REF_CFG (R412): only while every lane is in RAGDOLL. -/
def execCkRefCfg (h : CmdHdr) (source : BitVec 8) (s : State) : Out :=
  .next (serve h { opcode := 0x0116, role := some .installer, journal := true, params := pb source }
    (fun s => checks
      [(stBadParam, decide (1 < source.toNat)), (stBadState, s.groupOn 3 || s.groupOn 4)] s (fun _ =>
        done { s with clk.refSrc := decide (source = 1) }))
    s)

/-- REFCLK_MISSING_DETECT (R413): the safe clocks run from FBOSC, SYNCED clears, and every locked PLL counts as unlocked. -/
def execRefclkMissingDetect (s : State) : Out :=
  .next (if s.clk.refOk = false then s
    else
      let locked := (List.finRange 16).filter (fun p => pllUsed p && s.pllLock p)
      let s := { s with
        clk := { s.clk with refOk := false, fbosc := true, dspSafe := true, mgmtSafe := true, edge := none }
        time.synced := false }
      let s := s.emitNow 0x0113 0x01FF (le 8 s.nowT)
      locked.foldl (fun s p => s.pllLost p) s)

/-- REFCLK_RETURN (R413): the PLLs that are unlocked start to relock. -/
def execRefclkReturn (s : State) : Out :=
  .next (if s.clk.refOk then s
    else
      let s := { s with clk.refOk := true, clk.fbosc := false }
      let s := s.emitNow 0x0114 0x01FF (le 8 s.nowT)
      { s with clk.plls := vmap s.clk.plls (fun _ p =>
          if p.busy then { p with attempts := 1, retryAt := some (s.time.ticks + msTicks) } else p) })

/-- PLL_LOCK_LOSS (R426): a locked PLL becomes unlocked without a planned relock. -/
def execPllLockLoss (pll : Fin 16) (s : State) : Out :=
  .next (if pllUsed pll && s.pllLock pll then s.pllLost pll else s)

/-- PLL_RELOCK_RETRY (R426): a failed attempt is repeated 1 ms later. -/
def execPllRelockRetry (pll : Fin 16) (s : State) : Out :=
  let p := s.clk.plls.get pll
  .next (match p.retryAt with
    | none => s
    | some a =>
      if p.busy ∧ a ≤ s.time.ticks ∧ s.clk.refOk then
        s.modPll pll (fun x => { x with
          attempts := satAdd x.attempts 1, retries := satAdd x.retries 1, retryAt := some (s.time.ticks + msTicks) })
      else s)

/-- PLL_LOCK_ACQUIRED (R415, R424, R426): the relock ends; a lane PLL that its group has started locks, and so does the
synthesiser of a tile that leaves OFF or SLEEP. -/
def execPllLockAcquired (pll : Fin 16) (s : State) : Out :=
  let p := s.clk.plls.get pll
  .next (if s.clk.refOk = false then s
    else if p.busy then s.pllDone pll
    else if (pll = 3 ∨ pll = 4) ∧ p.lock = false ∧ s.groupOn pll then s.modPll pll (fun x => { x with lock := true })
    else match fin? 8 (pll.val - 8) with
      | some t => if 8 ≤ pll.val then s.lockUp t s.time.ticks else s
      | none => s)

/-- CONV_DELAY_SLEW_STEP (R417): one fraction unit every 1,024 ticks. -/
def execConvDelaySlewStep (t : Fin 8) (s : State) : Out :=
  let goal := s.convTarget t
  .next { s with clk.conv := vmod s.clk.conv t (fun x =>
    if x.now = goal ∨ s.time.ticks < x.stepAt then x
    else { x with now := if x.now < goal then x.now + 1 else x.now - 1, stepAt := x.stepAt + 1024 }) }

/-- SYNC_EDGE (R39, R418): the edge and whether the four samples before it read low. -/
def execSyncEdge (frac : BitVec 8) (lowBefore : Bool) (s : State) : Out :=
  .next (if s.clk.refOk then
      { s with clk.edge := some { stamp := s.nowT + frac.toNat, tick := s.time.ticks, lowOk := lowBefore } }
    else s)

/-- SYNC_QUALIFIED (R418, R419, R421): four REFCLK cycles after the edge it is qualified, counted and used, or rejected. R42
names the next qualified edge and not whether it may have risen before the arm: here an edge that is qualified after the arm is the
next one, whenever it rose (log 85). -/
def execSyncQualified (highAfter : Bool) (comp : BitVec 7) (s : State) : Out :=
  .next (match s.clk.edge with
    | none => s
    | some e =>
      if s.time.ticks < e.tick + 32 then s
      else
        let s := { s with clk.edge := none }
        if !(e.lowOk && highAfter) then { s with clk.rejected := satAdd s.clk.rejected 1 }
        else
          let s := { s with clk.edges := satAdd s.clk.edges 1 }
          match s.time.armed with
          | some a => s.loadTime a.value.toNat e.stamp comp
          | none => s.syncCheck e.stamp)

end Sys2Proof.Machine
end

