-- ==== Sys2Proof/Machine/PowerOps.lean ====
section
/-! DEFINITION. Operations of the power states: a refused entry, pad groups, what a tile loses with its domain, a wake request
(17_power_states.md R478 to R495). -/

namespace Sys2Proof.Machine

/-! ### Device states (R479) -/

/-- Whether the MGMT domain is powered and out of reset: RESET_N high in ACTIVE, PARK or DOZE. -/
def State.mgmtOn (s : State) : Bool := s.resetN && decide (s.pw.dev = .active ∨ s.pw.dev = .doze) && s.pw.vddio

/-- Whether a tile's domain is powered. -/
def State.tilePowered (s : State) (t : Fin 8) : Bool := s.mgmtOn && s.pw.tileOn.getLsbD t.val

/-- A phase-1 refusal (R486): the device is as it was, PW_REFUSED names the block and its reason. -/
def State.pwRefuse (s : State) (block reason : Nat) : State :=
  match s.pw.entry with
  | none => s
  | some e =>
    let s := { s with pw := { s.pw with
      entry := none, refusals := satAdd s.pw.refusals 1, reason := BitVec.ofNat 8 reason, refBlock := BitVec.ofNat 5 block } }
    s.emitNow 0x0910 0x09FF (le 1 (if e.toRetain then 2 else 1) ++ le 1 block ++ le 1 reason)

/-! ### Pad groups (R488, R581) -/

/-- Latch pad groups at the levels they drive; one that is held keeps its latched level. -/
def State.latchPads (s : State) (groups : BitVec 11) : State :=
  let new := groups &&& ~~~s.pw.held
  { s with pw := { s.pw with
      held := s.pw.held ||| groups
      femLatch := vmap s.pw.femLatch (fun t v => if new.getLsbD t.val then s.femLines t else v)
      trigLatch := if new.getLsbD 8 then BitVec.ofNat 4 (maskOf 4 (fun p => (s.aq.trigOut.get p).out)) else s.pw.trigLatch
      lockLatch := if new.getLsbD 9 then s.lockmon else s.pw.lockLatch } }

/-- Release pad groups. -/
def State.releasePads (s : State) (groups : BitVec 11) : State := { s with pw.held := s.pw.held &&& ~~~groups }

/-- The pad group of a tile. -/
def tilePads (t : Fin 8) : BitVec 11 := 1#11 <<< t.val

/-! ### PARK (R482, R483) -/

/-- What a tile loses with its domain (R482): its TDSP with memories and kernel, its estimator statistics and its counters. -/
def State.tileLost (s : State) (t : Fin 8) : State :=
  let mine := fun (p : Fin 64) => decide (tileOf p = t)
  let s := { s with
    tdsp := s.tdsp.set t.val Reset.tdsp t.isLt
    pd.tiles := vmod s.pd.tiles t (fun x =>
      { x with estBusy := none, stale := false, capBusy := none, capBroken := false, cap := [], reload := false })
    pd.paths := vmap s.pd.paths (fun p x =>
      if mine p then
        { x with
          statsN := 0, swaps := 0, accepted := 0, dPower := 0, dCrest := 0, dNeigh := 0, dOvl := 0, dInter := 0, dStale := 0
          dReject := 0, consecRej := 0, lastRej := 0, nmse := 0x8000, cfrResid := 0, satPd := 0 }
      else x)
    paths := vmap s.paths (fun p x => if mine p then { x with ovl := false, ovlCnt := 0 } else x)
    chan.satRx := vmap s.chan.satRx (fun p x => if mine p then 0 else x)
    chan.satTx := vmap s.chan.satTx (fun p x => if mine p then 0 else x)
    chan.rx := vmap s.chan.rx (fun p x => if mine p then Reset.rxChain else x)
    chan.tx := vmap s.chan.tx (fun p x => if mine p then Reset.txChain else x) }
  let s := s.modRes t (fun r =>
    { r with
      pcnt := Reset.res.pcnt
      orx.cnt := 0
      rffe.parity := 0
      rffe.overrun := 0
      det.cnt := 0
      det.busy := 0 })
  s.modRadio t (fun r =>
    { r with large := 0, glides := 0, held := 0, discarded := 0, fallback := 0, overbudget := 0, settleLast := 0 })

/-- A tile's domain goes off. -/
def State.tileOff (s : State) (t : Fin 8) : State :=
  let s := (s.latchPads (tilePads t)).tileLost t
  { s with pw.tileOn := s.pw.tileOn &&& ~~~(1#8 <<< t.val) }

/-! ### Wake requests (R489 to R491) -/

/-- A wake request of a source: in phase 1 of an entry it refuses it, in phase 2 it waits; from DOZE and RETAIN it starts the
wake, from a failed wake it starts again at step 1. -/
def State.wakeRequest (s : State) (source : BitVec 2) : State :=
  match s.pw.entry with
  | some e => if e.phase2.isSome then { s with pw.wakeLatch := some source } else s.pwRefuse 15 13
  | none =>
    if s.pw.wake.isSome then s
    else match s.pw.dev with
      | .doze => { s with pw.wake := some { step := 0, retry := false, source := source } }
      | .retain =>
        { s with
          pw := { s.pw with
            wake := some { step := 1, retry := false, source := source }, retried := 0, failed := false, failStep := 0 }
          pup.irq := s.pup.irq &&& ~~~(0x80#8) }
      | _ => s

/-! ### Register values (R494, R495) -/

def regWakeStatus (p : PwBlock) : Nat :=
  p.wakeCnt.toNat * 2 ^ 16 + p.retried.toNat * 2 ^ 8 + b2n p.failed * 128 + p.failStep.toNat * 16 + p.source.toNat * 4 +
  p.prev.toNat
def regWakeCtl (p : PwBlock) : Nat := b2n p.timerEn * 4 + b2n p.pinEn * 2
def regPwStat (p : PwBlock) : Nat :=
  (if p.entry.isSome then 3 else if p.dev = .doze then 2 else if p.parked ≠ 0 then 1 else 0) * 2 ^ 24 +
  p.parked.toNat * 2 ^ 16 + p.tileOn.toNat * 2 ^ 8 + b2n p.beamOn * 128 + b2n p.anlzOn * 64 + b2n p.acqOn * 32 +
  b2n p.linkOn * 16 + b2n p.dramSr * 8
def regPwRefuse (p : PwBlock) : Nat := p.refusals.toNat * 2 ^ 16 + p.reason.toNat * 2 ^ 8 + p.refBlock.toNat

end Sys2Proof.Machine
end

