-- ==== Sys2Proof/Machine/DmaOps.lean ====
section
/-! DEFINITION. Operations of the DMA engine: LOCAL memories, descriptors and their checks, the map of reshuffling, pacing, errors
(13_dma_and_check_units.md). -/

namespace Sys2Proof.Machine

/-- Change one channel. -/
def State.modDm (s : State) (c : Fin 64) (f : DmChan → DmChan) : State := { s with dma.chans := vmod s.dma.chans c f }

/-- Change one check unit. -/
def State.modCu (s : State) (u : Fin 8) (f : CheckUnit → CheckUnit) : State := { s with dma.units := vmod s.dma.units u f }

/-- State codes of R410. -/
def DmState.code : DmState → Nat
  | .idle => 0
  | .ready => 1
  | .running => 2
  | .wait => 3
  | .stopping => 4
  | .stopped => 5
  | .done => 6
  | .error => 7

/-! ### LOCAL memories (R382, R383, R313) -/

/-- The memory windows of R382 a LOCAL address can lie in, with the offset in it: mailbox RAM, the store, XM and YM of a tile. -/
inductive LocalMem where
  | mailbox (off : Nat)
  | store (addr : Nat)
  | xm (t : Fin 8) (off : Nat)
  | ym (t : Fin 8) (off : Nat)

/-- The memory an address lies in. -/
def localMem? (a : Nat) : Option LocalMem :=
  if 0x10010000 ≤ a ∧ a < 0x10020000 then some (.mailbox (a - 0x10010000))
  else if 0x40000000 ≤ a ∧ a < 0xC0000000 then some (.store a)
  else if 0x20000000 ≤ a then
    match fin? 8 ((a - 0x20000000) / 0x1000000) with
    | none => none
    | some t =>
      let o := (a - 0x20000000) % 0x1000000
      if 0x900000 ≤ o ∧ o < 0x940000 then some (.xm t (o - 0x900000))
      else if 0xA00000 ≤ o ∧ o < 0xA40000 then some (.ym t (o - 0xA00000)) else none
  else none

/-- Whether n bytes from a lie in LOCAL memory: in one window, since no two of them touch. -/
def localRange (a n : Nat) : Bool :=
  decide (n = 0) || (match localMem? a, localMem? (a + n - 1) with
    | some (.mailbox _), some (.mailbox _) => true
    | some (.store _), some (.store _) => true
    | some (.xm t _), some (.xm u _) => decide (t = u)
    | some (.ym t _), some (.ym u _) => decide (t = u)
    | _, _ => false)

/-- A byte of a memory of 32-bit words. -/
def wordByte (m : List (Nat × BitVec 32)) (off : Nat) : Byte := ((memGet 0 m (off / 4)) >>> (8 * (off % 4))).setWidth 8

/-- Write a byte into a memory of 32-bit words. -/
def setWordByte (m : List (Nat × BitVec 32)) (off : Nat) (b : Byte) : List (Nat × BitVec 32) :=
  let k := 8 * (off % 4)
  let w := memGet 0 m (off / 4)
  memSet 0 m (off / 4) ((w &&& ~~~(0xFF#32 <<< k)) ||| (b.setWidth 32 <<< k))

/-- Read a byte of LOCAL memory, as the external port sees it (R298). -/
def State.localByte (s : State) (a : Nat) : Byte :=
  match localMem? a with
  | some (.mailbox o) => memGet 0 s.pup.mbRam o
  | some (.store x) => memGet 0 s.aq.store x
  | some (.xm t o) => wordByte (s.tdsp.get t).xm o
  | some (.ym t o) => wordByte (s.tdsp.get t).ym o
  | none => 0

/-- Write a byte of LOCAL memory. -/
def State.setLocal (s : State) (a : Nat) (b : Byte) : State :=
  match localMem? a with
  | some (.mailbox o) => { s with pup.mbRam := memSet 0 s.pup.mbRam o b }
  | some (.store x) => { s with aq.store := memSet 0 s.aq.store x b }
  | some (.xm t o) => { s with tdsp := vmod s.tdsp t (fun k => { k with xm := setWordByte k.xm o b }) }
  | some (.ym t o) => { s with tdsp := vmod s.tdsp t (fun k => { k with ym := setWordByte k.ym o b }) }
  | none => s

/-- Write bytes of LOCAL memory from an address. -/
def State.setLocals (s : State) (a : Nat) : List Byte → State
  | [] => s
  | b :: bs => (s.setLocal a b).setLocals (a + 1) bs

/-- The tile whose TDSP memory an address lies in. -/
def localTile (a : Nat) : Option (Fin 8) :=
  match localMem? a with
  | some (.xm t _) => some t
  | some (.ym t _) => some t
  | _ => none

/-- Whether an address lies in a reserved TDSP region while it is reserved (R272). -/
def State.localReserved (s : State) (a : Nat) : Bool :=
  match localMem? a with
  | some (.xm t o) => decide (o < 0x20000) && s.estReg t
  | some (.ym t _) => s.estReg t
  | _ => false

/-- Whether n bytes from a meet a store segment (R250). -/
def State.inSegment (s : State) (a n : Nat) : Bool :=
  s.aq.segments.toList.any (fun x => match x with
    | some g => decide (a < g.base + g.len ∧ g.base < a + n)
    | none => false)

/-- Whether an access to an address must wait: the store while its PLL is faulted or relocking (R426), TDSP memory of a tile that is
LOADING (R383). -/
def State.localWaits (s : State) (a : Nat) : Bool :=
  match localMem? a with
  | some (.store _) => s.dramDown || s.pw.dramSr
  | some (.xm t _) => decide ((s.tdsp.get t).state = .loading)
  | some (.ym t _) => decide ((s.tdsp.get t).state = .loading)
  | _ => false

/-! ### Descriptors (R386, R387, R393, R394) -/

/-- A descriptor from its 32 bytes. -/
def descOf (b : List Byte) : Desc :=
  let f := fun (o n : Nat) => unle ((b.drop o).take n)
  { src := BitVec.ofNat 64 (f 0 8), dst := BitVec.ofNat 64 (f 8 8), bytes := f 16 3, cu := BitVec.ofNat 3 (f 19 1),
    flags := BitVec.ofNat 32 (f 20 4), next := BitVec.ofNat 32 (f 24 4), aux := BitVec.ofNat 32 (f 28 4) }

def Desc.irq (d : Desc) : Bool := d.flags.getLsbD 0
def Desc.fence (d : Desc) : Bool := d.flags.getLsbD 1
def Desc.check (d : Desc) : Bool := d.flags.getLsbD 2
def Desc.last (d : Desc) : Bool := d.flags.getLsbD 3
def Desc.append (d : Desc) : Bool := d.flags.getLsbD 4
def Desc.srcKind (d : Desc) : Nat := bitsOf d.flags.toNat 6 5
def Desc.dstKind (d : Desc) : Nat := bitsOf d.flags.toNat 8 7
def Desc.shuffle (d : Desc) : Nat := bitsOf d.flags.toNat 10 9
def Desc.shDir (d : Desc) : Bool := d.flags.getLsbD 11
def Desc.elem (d : Desc) : Nat := [2, 3, 4, 8].getD (bitsOf d.flags.toNat 13 12) 2
def Desc.planes (d : Desc) : Nat := bitsOf d.flags.toNat 19 14 + 1
def Desc.nine (d : Desc) : Bool := d.flags.getLsbD 20
def Desc.convert (d : Desc) : Bool := d.flags.getLsbD 21
def Desc.fold (d : Desc) : Nat := bitsOf d.flags.toNat 23 22

/-- Field width of BITPLANE, which is the bytes of a packed group of eight. -/
def Desc.field (d : Desc) : Nat := if d.nine then 9 else 12

/-- Instants of PLANE. -/
def Desc.instants (d : Desc) : Nat := d.bytes / (d.elem * d.planes)

/-- Bytes the destination receives. -/
def Desc.outLen (d : Desc) : Nat :=
  if d.shuffle = 2 then (if d.shDir then d.bytes / d.field * 16 else d.bytes / 16 * d.field) else d.bytes

/-- The runs of addresses that hold `planes` planes of n bytes a stride apart, or one run. -/
def Desc.runs (d : Desc) (base : Nat) (planar : Bool) (n : Nat) : List (Nat × Nat) :=
  if planar then (List.range d.planes).map (fun p => (base + p * d.aux.toNat, d.instants * d.elem)) else [(base, n)]

/-- Source and destination runs: the planes are at the source on interleave, at the destination on de-interleave. -/
def Desc.srcRuns (d : Desc) : List (Nat × Nat) := d.runs d.src.toNat (decide (d.shuffle = 1) && d.shDir) d.bytes
def Desc.dstRuns (d : Desc) : List (Nat × Nat) := d.runs d.dst.toNat (decide (d.shuffle = 1) && !d.shDir) d.outLen

/-- The source offsets [lo, hi) that destination byte `o` is made of, counting destination bytes through its runs. -/
def Desc.needs (d : Desc) (o : Nat) : Nat × Nat :=
  if d.shuffle = 1 then
    let e := d.elem
    let a := if d.shDir then
        let i := o / (e * d.planes)
        let p := o / e % d.planes
        p * d.aux.toNat + i * e + o % e
      else
        let p := o / (d.instants * e)
        let r := o % (d.instants * e)
        (r / e * d.planes + p) * e + r % e
    (a, a + 1)
  else if d.shuffle = 2 then
    let f := d.field
    if d.shDir then
      let g := o / 16
      let k := o / 2 % 8
      (g * f + f * k / 8, g * f + (f * k + f - 1) / 8 + 1)
    else
      let g := o / f
      let j := o % f
      (g * 16 + 2 * (8 * j / f), g * 16 + 2 * ((8 * j + 7) / f) + 2)
  else (o, o + 1)

/-- A 16-bit value from its two bytes at a source offset. -/
def half16 (rd : Nat → Byte) (x : Nat) : Nat := (rd x).toNat + 256 * (rd (x + 1)).toNat

/-- The field that pack makes of a 16-bit value (R394): its low bits, or Q1.11 with CONVERT. -/
def Desc.packField (d : Desc) (v : Nat) : Nat :=
  if d.convert then
    let x : Int := (BitVec.ofNat 16 v).toInt
    ((clampI (-2048) 2047 (Int.fdiv (x + 8) 16)) % 4096).toNat
  else v % 2 ^ d.field

/-- The destination byte `o` of a descriptor from its source bytes (R393, R394). -/
def Desc.outByte (d : Desc) (rd : Nat → Byte) (o : Nat) : Byte :=
  if d.shuffle = 2 then
    let f := d.field
    if d.shDir then
      let g := o / 16
      let k := o / 2 % 8
      let bits := (List.range f).foldl (fun a i =>
        let b := f * k + i
        a + (if (rd (g * f + b / 8)).getLsbD (b % 8) then 2 ^ i else 0)) 0
      let x : BitVec 16 := BitVec.ofInt 16 (if bits < 2 ^ (f - 1) then (bits : Int) else (bits : Int) - 2 ^ f)
      let x := if d.convert then x <<< 4 else x
      if o % 2 = 0 then x.setWidth 8 else (x >>> 8).setWidth 8
    else
      let g := o / f
      BitVec.ofNat 8 ((List.range 8).foldl (fun a i =>
        let b := 8 * (o % f) + i
        a + (if (d.packField (half16 rd (g * 16 + 2 * (b / f)))).testBit (b % f) then 2 ^ i else 0)) 0)
  else rd (d.needs o).1

/-! ### Checks at the fetch (R402) -/

/-- Whether a run of LOCAL addresses meets a condition somewhere that holds of whole windows or halves of them: checked at its first
and last byte. -/
def runEnds (r : Nat × Nat) : List Nat := if r.2 = 0 then [] else [r.1, r.1 + r.2 - 1]

/-- Where the result of APPEND goes: directly after the descriptor's data (R406). -/
def Desc.appendAt (d : Desc) : Nat :=
  match d.dstRuns.getLast? with
  | some r => r.1 + r.2
  | none => d.dst.toNat

/-- A descriptor with an invalid field or combination (R382, R386, R387). -/
def Desc.malformed (d : Desc) (raw : List Byte) (ring : Bool) : Bool :=
  let sk := d.srcKind
  let dk := d.dstKind
  let word3 := (raw.getD 19 0).toNat
  decide (d.bytes = 0) || decide (8 ≤ word3) || decide (2 ^ 24 ≤ d.flags.toNat) ||
  decide (sk = 2 ∨ sk = 3 ∨ dk = 3 ∨ (sk = 1 ∧ dk = 1)) ||
  decide (sk = 0 ∧ 2 ^ 32 ≤ d.src.toNat) || decide (dk = 0 ∧ 2 ^ 32 ≤ d.dst.toNat) || decide (dk = 2 ∧ d.dst ≠ 0) ||
  decide (d.shuffle = 3) || decide (d.fold = 3) ||
  (d.append && (!d.last || decide (dk = 2))) ||
  decide (d.fold = 2 ∧ d.shuffle = 1) ||
  decide (d.shuffle = 2 ∧ d.convert = true ∧ d.nine = true) ||
  decide (d.shuffle ≠ 1 ∧ d.fold ≠ 2 ∧ d.aux ≠ 0) || (ring && decide (d.next ≠ 0))

/-- SHAPE (R393, R394). -/
def Desc.misshaped (d : Desc) : Bool :=
  if d.shuffle = 1 then
    decide (d.bytes % (d.elem * d.planes) ≠ 0) || decide (d.aux.toNat < d.instants * d.elem)
  else if d.shuffle = 2 then decide (d.bytes % (if d.shDir then d.field else 16) ≠ 0)
  else false

/-- The runs a descriptor writes, with the result of APPEND. -/
def Desc.writes (d : Desc) (crc : BitVec 2) : List (Nat × Nat) :=
  if d.append then d.dstRuns ++ [(d.appendAt, if crc = 2 then 2 else 4)] else d.dstRuns

/-- The cause with which a descriptor fails at its fetch, 0 where it does not. -/
def State.descCause (s : State) (c : Fin 64) (addr : Nat) : Nat :=
  let x := s.dma.chans.get c
  let raw := (List.range 32).map (fun i => s.localByte (addr + i))
  let d := descOf raw
  let u : Fin 8 := d.cu.toFin
  let crc := (s.dma.units.get u).crc
  let local_ := fun (r : List (Nat × Nat)) => r.all (fun r => localRange r.1 r.2)
  let inStore := fun (a : BitVec 64) => match localMem? a.toNat with
    | some (.store _) => true
    | _ => false
  let w := d.writes crc
  if addr % 32 ≠ 0 ∨ localRange addr 32 = false ∨ d.malformed raw x.ring then 1
  else if (decide (d.srcKind = 0) && !local_ d.srcRuns) || (decide (d.dstKind = 0) && !local_ w) then 2
  else if (decide (d.srcKind = 0) && inStore d.src && !x.uses.getLsbD 0) ||
      (decide (d.dstKind = 0) && inStore d.dst && !x.uses.getLsbD 1) ||
      (decide (d.srcKind = 1) && !x.uses.getLsbD 2) || (decide (d.dstKind = 1) && !x.uses.getLsbD 3) then 3
  else if decide (d.dstKind = 0) && w.any (fun r => s.inSegment r.1 r.2) then 4
  else if decide (d.dstKind = 0) && w.any (fun r => (runEnds r).any (fun a => s.localReserved a)) then 5
  else if d.misshaped then 6
  else if d.check && (decide (u.val = 7) || decide ((s.dma.units.get u).owner ≠ none ∧ (s.dma.units.get u).owner ≠ some c) ||
      decide (x.cu ≠ none ∧ x.cu ≠ some u)) then 7
  else 0

/-! ### Bursts (R390) -/

/-- The run that destination byte `o` lies in, as its address there and what is left of the run. -/
def Desc.place (d : Desc) (o : Nat) : Nat × Nat :=
  let n := match d.dstRuns with
    | r :: _ => max 1 r.2
    | [] => 1
  let a := match d.dstRuns[o / n]? with
    | some r => r.1
    | none => 0
  (a + o % n, n - o % n)

/-- The span of source offsets that destination bytes [o, o + k) are made of. -/
def Desc.span (d : Desc) (o k : Nat) : Nat × Nat :=
  (List.range k).foldl (fun (x : Nat × Nat) i =>
    let y := d.needs (o + i)
    (if i = 0 then y.1 else min x.1 y.1, max x.2 y.2)) (0, 0)

/-- How many of the k bytes from o one MEM_RD_REQ of at most 4,096 bytes supplies (log 45). -/
def Desc.oneRead (d : Desc) (o : Nat) : Nat → Nat
  | 0 => 0
  | k + 1 =>
    let x := d.span o (k + 1)
    if x.2 - x.1 ≤ 4096 then k + 1 else d.oneRead o k

/-- Length of the burst at destination byte `o`: to the next multiple of B, the end of the run or that of the descriptor. -/
def Desc.burstLen (d : Desc) (b o : Nat) : Nat :=
  let p := d.place o
  let n := min (d.outLen - o) (min p.2 (b - p.1 % b))
  if d.srcKind = 1 ∧ d.shuffle ≠ 0 then d.oneRead o n else n

/-- Ticks from the start of a burst to the start of the next (R385). -/
def burstTicks (c : DmChan) : Nat := cdiv (64 * c.burst.toNat * 98304) (100 * c.rate.toNat)

/-! ### Pacing (R395 to R397) -/

/-- A channel samples its request: the level of its queue against HIGH and LOW. -/
def State.sampleReq (s : State) (c : Fin 64) : State :=
  let x := s.dma.chans.get c
  if !x.paced then s.modDm c (fun x => { x with req := true })
  else
    let level := ((s.tdsp.get x.paceT).fill.get (if x.paceQ then 1 else 0)).toNat
    s.modDm c (fun x => { x with
      req := if x.high.toNat ≤ level then true else if level ≤ x.low.toNat then false else x.req })

/-- The channel that a queue paces. -/
def State.pacedBy (s : State) (t : Fin 8) (q : Bool) : Option (Fin 64) :=
  (List.finRange 64).find? (fun c =>
    let x := s.dma.chans.get c
    x.configured && x.paced && decide (x.paceT = t) && decide (x.paceQ = q))

/-- A level changes: a channel that waits to start a burst samples it. -/
def State.levelChanged (s : State) (t : Fin 8) (q : Bool) : State :=
  match s.pacedBy t q with
  | none => s
  | some c => match (s.dma.chans.get c).run with
    | some r => if r.burst.isSome then s else s.sampleReq c
    | none => s.sampleReq c

/-! ### Release, error and stop (R400 to R402, R404) -/

/-- The check unit a channel holds is released with no result. -/
def State.cuRelease (s : State) (c : Fin 64) : State :=
  match (s.dma.chans.get c).cu with
  | none => s
  | some u => (s.modCu u (fun x => { x with owner := none })).modDm c (fun x => { x with cu := none })

/-- The address of the descriptor in progress or next (R410). -/
def DmChan.descAt (x : DmChan) : BitVec 32 := if x.ring then x.base + BitVec.ofNat 32 (32 * x.head.toNat) else x.desc

/-- A channel fails (R402). -/
def State.dmError (s : State) (c : Fin 64) (cause : Nat) : State :=
  let x := s.dma.chans.get c
  let written := match x.run with
    | some r => if r.desc.dstKind = 2 then 0 else r.moved
    | none => 0
  let s := s.cuRelease c
  let s := { s with link.reads := s.link.reads.filter (fun r => decide (r.chan ≠ c)) }
  let s := s.modDm c (fun x => { x with state := .error, cause := BitVec.ofNat 4 cause, run := none })
  s.emitNow 0x0C03 (0x0C00 + c.val) (le 1 c.val ++ le 1 cause ++ pb x.descAt ++ le 4 written)

/-- A channel becomes STOPPED and says where it would go on: the next descriptor, or HEAD (R400, R401). -/
def State.dmStopped (s : State) (c : Fin 64) (reason : Nat) : State :=
  let s := s.modDm c (fun x => { x with state := .stopped, run := none })
  let x := s.dma.chans.get c
  s.emitNow 0x0C02 (0x0C00 + c.val) (le 1 c.val ++ le 1 reason ++ le 1 (b2n x.countOk) ++
    (if x.ring then le 4 x.head.toNat else pb x.desc))

/-- TAIL of a ring is set (R388): a waiting channel goes on. -/
def State.setTail (s : State) (c : Fin 64) (v : BitVec 12) : State :=
  s.modDm c (fun x =>
    { x with tail := v, state := if x.state = .wait ∧ x.head ≠ v then .running else x.state })

/-- Whether a ring's length may change (R389). -/
def DmState.isStopped : DmState → Bool
  | .ready => true
  | .stopped => true
  | .done => true
  | .error => true
  | _ => false

/-- A window write to DM_RING_LEN (R389, R410). -/
def State.ringLen (s : State) (c : Fin 64) (v : BitVec 32) : State :=
  s.modDm c (fun x =>
    let n := bitsOf v.toNat 12 0
    if x.state.isStopped && decide (1 ≤ n ∧ n ≤ 4096) then
      { x with len := BitVec.ofNat 13 n, head := 0, tail := 0, killed := false }
    else { x with rlenIgn := true })

/-- A window write to DM_RING_PTR (R410). -/
def State.ringPtr (s : State) (c : Fin 64) (v : BitVec 32) : State :=
  let n := bitsOf v.toNat 11 0
  if n < (s.dma.chans.get c).len.toNat then s.setTail c (BitVec.ofNat 12 n) else s

/-! ### Register values (R410) -/

def regDmAdmit (d : DmaBlock) : Nat := (d.chans.toList.map (fun c => if c.configured then c.rate.toNat else 0)).sum
def regDmRun (d : DmaBlock) (hi : Bool) : Nat :=
  maskOf 32 (fun i => match fin? 64 (i.val + 32 * b2n hi) with
    | some c => decide ((d.chans.get c).state = .running ∨ (d.chans.get c).state = .wait)
    | none => false)
def regDmCfg (x : DmChan) : Nat :=
  x.burst.toNat * 2 ^ 16 + x.uses.toNat * 2 ^ 12 + b2n x.paceQ * 2 ^ 11 + x.paceT.val * 2 ^ 8 + b2n x.paced * 2 ^ 7 +
  (match x.boundT with
   | some t => t.val
   | none => 15) * 8 + b2n x.evtEn * 4 + b2n x.ring
def regDmPace (x : DmChan) : Nat := x.high.toNat * 2 ^ 16 + x.low.toNat
def regDmPtr (x : DmChan) : Nat := x.head.toNat * 2 ^ 16 + x.tail.toNat
def regDmStat (x : DmChan) : Nat :=
  x.cause.toNat * 2 ^ 28 + b2n x.countOk * 2 ^ 27 + b2n x.rlenIgn * 2 ^ 26 +
  (match x.cu with
   | some u => 2 ^ 25 + u.val * 2 ^ 22
   | none => 0) + b2n x.req * 2 ^ 21 + x.state.code
def regDmFence (x : DmChan) : Nat := x.fenceMax.toNat * 2 ^ 16 + x.fenceLast.toNat
def regCuStat (u : CheckUnit) : Nat :=
  (match u.owner with
   | some c => 2 ^ 31 + c.val * 2 ^ 24
   | none => 0) + b2n u.valid

end Sys2Proof.Machine
end

