-- ==== Sys2Proof/Machine/Dma.lean ====
section
/-! DEFINITION. Commands and events of the DMA engine and the check units, and the replies to host reads
(13_dma_and_check_units.md, 12_zenfa_link.md R374 to R377). -/

namespace Sys2Proof.Machine

/-- A channel a host command may name: CH63 belongs to the Puppeteer (R407). -/
def hostChan (v : BitVec 8) : Option (Fin 64) := if v.toNat < 63 then fin? 64 v.toNat else none

/-! ### Configuration (R381, R384, R389, R395) -/

/-- The budgets of a configuration (R381, R384): the engine, the store, the link in each direction. -/
def State.dmFits (s : State) (c : Fin 64) : Bool :=
  let x := s.dma.chans.get c
  decide (regDmAdmit s.dma ≤ 48000) && s.storeFits &&
  [false, true].all (fun tx =>
    linkReserve x tx = 0 ||
    (admitted s tx && decide (10 ^ 15 + memRate s tx ≤ lanesIn s tx * lanePayload s.link.rate * 1152 * 1000000 / 1153)))

/-- DM_CHAN_CFG. -/
def execDmChanCfg (h : CmdHdr) (channel op mode : BitVec 8) (base : BitVec 32) (len : BitVec 16) (burst uses : BitVec 8)
    (rate : BitVec 16) (paceTile paceQ : BitVec 8) (high low : BitVec 16) (bound evt : BitVec 8) (s : State) : Out :=
  .next (serve h
    { opcode := 0x0C01, role := some .operator,
      params := pb channel ++ pb op ++ pb mode ++ pb base ++ pb len ++ pb burst ++ pb uses ++ pb rate ++ pb paceTile ++
        pb paceQ ++ pb high ++ pb low ++ pb bound ++ pb evt }
    (fun s => match hostChan channel with
      | none => refuse stBadParam s
      | some c =>
        let x := s.dma.chans.get c
        let busy := !x.state.isStopped && decide (x.state ≠ .idle)
        if op = 1 then
          checks [(stBadState, busy)] s (fun _ =>
            done (s.modDm c (fun x => { x with configured := false, state := .idle, run := none })))
        else
          let b := 64 * burst.toNat
          let paced := decide (paceTile ≠ 0xFF)
          let bad := decide (1 < op.toNat ∨ 1 < mode.toNat ∨ burst = 0 ∨ 64 < burst.toNat ∨ 16 ≤ uses.toNat ∨ rate = 0 ∨
              48000 < rate.toNat ∨ 1 < evt.toNat) ||
            decide (7 < bound.toNat ∧ bound ≠ 0xFF) || decide (7 < paceTile.toNat ∧ paceTile ≠ 0xFF) ||
            (decide (mode = 1) && decide (base.toNat % 32 ≠ 0 ∨ len = 0 ∨ 4096 < len.toNat)) ||
            (paced && decide (1 < paceQ.toNat ∨ high.toNat < b ∨ low.toNat + 1 < b ∨ high.toNat ≤ low.toNat))
          let q := decide (paceQ = 1)
          let pt : Fin 8 := (paceTile.setWidth 3 : BitVec 3).toFin
          let taken := paced && (match s.pacedBy pt q with
            | some k => decide (k ≠ c)
            | none => false)
          let t := s.modDm c (fun x =>
            { x with
              state := .ready, configured := true, ring := decide (mode = 1)
              base := if mode = 1 then base else x.base
              len := if mode = 1 then len.setWidth 13 else x.len
              head := 0, tail := 0, killed := false, run := none
              burst := burst.setWidth 7, uses := uses.setWidth 4, rate := rate
              paced := paced, paceT := if paced then pt else 0, paceQ := paced && q
              high := if paced then high else BitVec.ofNat 16 b
              low := if paced then low else BitVec.ofNat 16 (b - 1)
              boundT := if bound = 0xFF then none else some (bound.setWidth 3 : BitVec 3).toFin
              evtEn := decide (evt = 1), req := !paced })
          checks [(stBadParam, bad), (stBadParam, taken), (stBadState, busy), (stNoResource, !t.dmFits c)] s (fun _ =>
            done (if paced then t.sampleReq c else t)))
    s)

/-! ### Starting and stopping (R388, R400, R401, R403, R544) -/

/-- Whether DM_START uses its address for a channel (R544). -/
def DmChan.needsAddr (x : DmChan) : Bool :=
  !x.ring && (decide (x.state = .ready ∨ x.state = .done) || (decide (x.state = .stopped) && x.killed))

/-- A channel starts or resumes (R403). -/
def DmChan.start (addr : BitVec 32) (x : DmChan) : DmChan :=
  let ended := !x.ring && decide (x.state = .stopped) && !x.killed && decide (x.desc = 0)
  { x with
    desc := if x.needsAddr then addr else x.desc
    state := if ended then .done else if x.ring && decide (x.head = x.tail) then .wait else .running
    bytes := 0, countOk := true, killed := false, run := none }

/-- DM_START. -/
def execDmStart (h : CmdHdr) (chans : BitVec 64) (addr : BitVec 32) (s : State) : Out :=
  .next (serve h { opcode := 0x0C02, role := some .operator, params := pb chans ++ pb addr }
    (fun s =>
      let cs := maskBits 64 chans.toNat
      let bad := cs.any (fun c =>
        let x := s.dma.chans.get c
        !x.state.isStopped || (x.ring && x.killed))
      checks
        [(stBadParam, chans.getLsbD 63),
         (stBadParam, decide (1 < (cs.filter (fun c => (s.dma.chans.get c).needsAddr)).length)), (stBadState, bad)] s
        (fun _ => done (cs.foldl (fun s c => s.modDm c (DmChan.start addr)) s)))
    s)

/-- DM_TAIL. -/
def execDmTail (h : CmdHdr) (channel : BitVec 8) (tail : BitVec 16) (s : State) : Out :=
  .next (serve h { opcode := 0x0C03, role := some .operator, params := pb channel ++ pb tail }
    (fun s => match hostChan channel with
      | none => refuse stBadParam s
      | some c => checks [(stBadParam, decide ((s.dma.chans.get c).len.toNat ≤ tail.toNat))] s (fun _ =>
          done (s.setTail c (tail.setWidth 12))))
    s)

/-- A channel is asked to stop: it finishes the descriptor in progress, if there is one (R400). -/
def State.dmStop (s : State) (c : Fin 64) : State :=
  let x := s.dma.chans.get c
  if x.state = .running ∨ x.state = .wait then
    if x.run.isSome then s.modDm c (fun x => { x with state := .stopping }) else s.dmStopped c 1
  else s

/-- CH_STOP. -/
def execChStop (h : CmdHdr) (chans : BitVec 64) (s : State) : Out :=
  .next (serve h { opcode := 0x0C04, role := some .operator, params := pb chans }
    (fun s => checks [(stBadParam, chans.getLsbD 63)] s (fun _ =>
      accepted ((maskBits 64 chans.toNat).foldl (fun s c => s.dmStop c) s)))
    s)

/-- A channel is killed (R401): of the burst in flight any bytes may have landed (log 44). -/
def State.dmKill (s : State) (c : Fin 64) : State :=
  let x := s.dma.chans.get c
  if !x.configured then s
  else
    let s := match x.run with
      | none => s
      | some r =>
        match r.burst with
        | none => s
        | some _ =>
          if r.desc.dstKind = 0 then
            let a := (r.desc.place r.moved).1
            (List.range r.data.length).foldl (fun (s : State) i =>
              if Config.killLanded s.free i then s.setLocal (a + i) (r.data.getD i 0) else s) s
          else s
    let s := s.cuRelease c
    let s := { s with link.reads := s.link.reads.filter (fun r => decide (r.chan ≠ c)) }
    let s := s.modDm c (fun x =>
      { x with
        countOk := false, killed := true, bytes := Config.killCount s.free 0, doneCnt := Config.killCount s.free 1 })
    ({ s with free := s.free + 1 } : State).dmStopped c 2

/-- CH_KILL. -/
def execChKill (h : CmdHdr) (chans : BitVec 64) (s : State) : Out :=
  .next (serve h { opcode := 0x0C05, role := some .operator, params := pb chans }
    (fun s => checks [(stBadParam, chans.getLsbD 63)] s (fun _ =>
      done ((maskBits 64 chans.toNat).foldl (fun s c => s.dmKill c) s)))
    s)

/-- DM_STATUS. -/
def execDmStatus (h : CmdHdr) (channel : BitVec 8) (s : State) : Out :=
  .next (serve h { opcode := 0x0C06, role := some .operator, params := pb channel }
    (fun s => match hostChan channel with
      | none => refuse stBadParam s
      | some c =>
        let x := s.dma.chans.get c
        doneR (le 4 (regDmStat x) ++ pb x.descAt ++ pb x.bytes ++ pb x.doneCnt ++ le 2 x.head.toNat ++ le 2 x.tail.toNat) s)
    s)

/-! ### Check units (R404 to R407) -/

/-- A check unit a host command may name. -/
def hostUnit (v : BitVec 8) : Option (Fin 8) := if v.toNat < 7 then fin? 8 v.toNat else none

/-- CU_CFG. -/
def execCuCfg (h : CmdHdr) (unit crc : BitVec 8) (s : State) : Out :=
  .next (serve h { opcode := 0x0C10, role := some .operator, params := pb unit ++ pb crc }
    (fun s => match hostUnit unit with
      | none => refuse stBadParam s
      | some u => checks [(stBadParam, decide (2 < crc.toNat)), (stBusy, (s.dma.units.get u).owner.isSome)] s (fun _ =>
          done (s.modCu u (fun x => { x with crc := crc.setWidth 2 }))))
    s)

/-- CU_STATUS. -/
def execCuStatus (h : CmdHdr) (unit : BitVec 8) (s : State) : Out :=
  .next (serve h { opcode := 0x0C11, role := some .operator, params := pb unit }
    (fun s => match hostUnit unit with
      | none => refuse stBadParam s
      | some u =>
        let x := s.dma.units.get u
        doneR (le 4 (regCuStat x) ++ pb x.seed ++ pb x.result ++ pb x.bytes) s)
    s)

/-! ### Descriptors and bursts (R388, R390 to R398) -/

/-- The engine is powered. -/
def State.dmOn (s : State) : Bool := s.mgmtOn && s.pw.acqOn

/-- The first CHECK descriptor of a stream binds its unit, with the fold (R404, R405). -/
def State.cuBind (s : State) (c : Fin 64) (d : Desc) : State :=
  if !d.check || (s.dma.chans.get c).cu.isSome then s
  else
    let u : Fin 8 := d.cu.toFin
    let fold : BitVec 32 :=
      if d.fold = 1 then (if d.dstKind = 2 then d.src.setWidth 32 else d.dst.setWidth 32)
      else if d.fold = 2 then d.aux else 0
    let s := s.modCu u (fun x =>
      { x with owner := some c, seed := cuInit x.crc fold, reg := cuInit x.crc fold, valid := false, bytes := 0 })
    s.modDm c (fun x => { x with cu := some u })

/-- DESCRIPTOR_FETCH: the next descriptor is read and checked; one that fails puts the channel into ERROR (R402). -/
def execDescriptorFetch (c : Fin 64) (s : State) : Out :=
  let x := s.dma.chans.get c
  .next (if !s.dmOn || decide (x.state ≠ .running) || x.run.isSome then s
    else if x.ring && decide (x.head = x.tail) then s.modDm c (fun x => { x with state := .wait })
    else
      let a := x.descAt.toNat
      if s.localWaits a then s
      else
        let cause := s.descCause c a
        if cause ≠ 0 then s.dmError c cause
        else
          let d := descOf ((List.range 32).map (fun i => s.localByte (a + i)))
          let s := s.cuBind c d
          let r : DescRun := { desc := d, addr := a, moved := 0, burst := none, lo := 0, data := [], fenceAt := none }
          s.modDm c (fun x => { x with run := some r }))

/-- A MEM_WR of bytes to a host address (R374). -/
def State.memWr (s : State) (c : Fin 64) (a : Nat) (bs : List Byte) : State :=
  s.sendRel 0x13 c.val 0 (le 8 a ++ le 2 bs.length ++ List.replicate 6 0 ++ padTo (cdiv bs.length 4 * 4) bs)

/-- The lowest TAG that no outstanding read uses (R374). -/
def State.freeTag (s : State) : Option Nat :=
  (List.range 32).find? (fun k => s.link.reads.all (fun r => decide (r.tag.toNat ≠ k)))

/-- The channel of a burst about to start may start it: its request is asserted and R385 allows (R396); neither end waits. -/
def State.burstReady (s : State) (c : Fin 64) (r : DescRun) : Bool :=
  let x := s.dma.chans.get c
  decide (x.state = .running ∨ x.state = .stopping) && r.burst.isNone && decide (r.moved < r.desc.outLen) && x.req &&
  decide (x.nextAt ≤ s.time.ticks) &&
  !(decide (r.desc.srcKind = 0) && s.localWaits r.desc.src.toNat) &&
  !(decide (r.desc.dstKind = 0) && s.localWaits r.desc.dst.toNat)

/-- DMA_BURST_START. A LOCAL source gives the burst's bytes at once, and a HOST destination takes them as one MEM_WR; a HOST source
is asked by one MEM_RD_REQ. -/
def execDmaBurstStart (c : Fin 64) (s : State) : Out :=
  .next (match (s.dma.chans.get c).run with
  | none => s
  | some r =>
    let s := if r.burst.isNone then s.sampleReq c else s
    let x := s.dma.chans.get c
    if !s.dmOn || !s.burstReady c r then s
    else
      let d := r.desc
      let n := d.burstLen (64 * x.burst.toNat) r.moved
      let started := fun (s : State) (lo : Nat) (data : List Byte) => s.modDm c (fun x =>
        { x with
          run := some { r with burst := some n, lo := lo, data := data }
          nextAt := s.time.ticks + burstTicks x })
      if d.srcKind = 0 then
        let data := (List.range n).map (fun i => d.outByte (fun k => s.localByte (d.src.toNat + k)) (r.moved + i))
        let s := started s 0 data
        if d.dstKind = 1 then s.memWr c (d.place r.moved).1 data else s
      else match s.freeTag with
        | none => s
        | some tag =>
          let sp := d.span r.moved n
          let a := d.src.toNat + sp.1
          let s := started s sp.1 []
          let q : MemRead :=
            { tag := BitVec.ofNat 8 tag, chan := c, addr := BitVec.ofNat 64 a, bytes := sp.2 - sp.1, got := [],
              sent := s.time.ticks }
          let s := { s with link.reads := s.link.reads ++ [q] }
          s.sendRel 0x14 c.val 0 (le 8 a ++ le 2 (sp.2 - sp.1) ++ le 1 tag ++ [0]))

/-- MEM_RD_DATA_PACKET (R374, R377): a portion continues the read with its TAG; the last one completes it, a FAULT portion fails the
channel, a portion that no read waits for is counted as late. -/
def execMemRdDataPacket (pkt : RxPkt) (s : State) : Out :=
  .next (match s.rxScreen pkt 63 (decide (pkt.fmt &&& 0x87#8 = 7)) with
  | some t => t
  | none =>
    let r := s.relAccept pkt.seq
    let s := r.1
    if !r.2 then s
    else
      let f := fun (o n : Nat) => unle ((pkt.payload.drop o).take n)
      let n := f 8 2
      match s.link.reads.find? (fun m => decide (m.tag.toNat = f 10 1 ∧ m.chan.val = pkt.flow.toNat ∧
          f 12 4 = m.got.length ∧ f 0 8 = m.addr.toNat + m.got.length)) with
      | none => { s with link.memLate := satAdd s.link.memLate 1 }
      | some m =>
        let others := s.link.reads.filter (fun y => decide (y.tag ≠ m.tag))
        if f 11 1 = 1 then
          ({ s with link := { s.link with reads := others, memFaults := satAdd s.link.memFaults 1 } } : State).dmError m.chan 9
        else
          let got := m.got ++ ((pkt.payload.drop 16).take n).take (m.bytes - m.got.length)
          if got.length < m.bytes then { s with link.reads := { m with got := got } :: others }
          else
            let s := { s with link.reads := others }
            s.modDm m.chan (fun x => { x with run := x.run.map (fun r =>
              { r with data := (List.range (r.burst.getD 0)).map (fun i =>
                  r.desc.outByte (fun k => got.getD (k - r.lo) 0) (r.moved + i)) }) }))

/-- MEM_READ_TIMEOUT (R377). -/
def execMemReadTimeout (tag : Fin 32) (s : State) : Out :=
  .next (match s.link.reads.find? (fun m => decide (m.tag.toNat = tag.val)) with
  | none => s
  | some m =>
    if s.time.ticks < m.sent + s.link.memTo.toNat then s
    else
      let s := { s with link := { s.link with
        reads := s.link.reads.filter (fun y => decide (y.tag ≠ m.tag)), memTouts := satAdd s.link.memTouts 1 } }
      s.dmError m.chan 8)

/-- The engine subtracts a burst's bytes from the level of its queue (R396, R397). -/
def State.levelTaken (s : State) (c : Fin 64) (n : Nat) : State :=
  let x := s.dma.chans.get c
  if !x.paced then s
  else
    let q : Fin 2 := if x.paceQ then 1 else 0
    { s with tdsp := vmod s.tdsp x.paceT (fun k =>
        { k with fill := vmod k.fill q (fun v => v - BitVec.ofNat 32 (min v.toNat n)), fillSub := vmod k.fillSub q (fun v => v + n) }) }

/-- DMA_BURST_END: the burst's bytes are written, fed to the check unit and counted; the level falls and the request is sampled. -/
def execDmaBurstEnd (c : Fin 64) (s : State) : Out :=
  .next (match (s.dma.chans.get c).run with
  | none => s
  | some r =>
    match r.burst with
    | none => s
    | some n =>
      if !s.dmOn || decide (r.data.length ≠ n) then s
      else
        let d := r.desc
        let s := if d.dstKind = 0 then s.setLocals (d.place r.moved).1 r.data else s
        let s := match (s.dma.chans.get c).cu with
          | some u => if d.check then
              s.modCu u (fun x => { x with reg := r.data.foldl (cuByte x.crc) x.reg, bytes := x.bytes + BitVec.ofNat 32 n })
              else s
          | none => s
        let s := s.modDm c (fun x =>
          { x with
            bytes := if d.dstKind = 2 then x.bytes else x.bytes + BitVec.ofNat 32 n
            run := some { r with moved := r.moved + n, burst := none, data := [] } })
        (s.levelTaken c n).sampleReq c)

/-- Whether the acknowledgement a FENCE waits for may have arrived: for a HOST destination the link has acknowledged every MEM_WR of the channel
(R398). -/
def State.fenceHere (s : State) (c : Fin 64) (d : Desc) : Bool :=
  let mine := fun (p : Packet) => decide (p.type = 0x13 ∧ p.flow.toNat = c.val)
  decide (d.dstKind ≠ 1) || (s.link.held.all (fun h => !mine h.pkt) && s.link.waiting.all (fun p => !mine p))

/-- The descriptor is complete (R388, R398, R400, R406): its result and its DM_DONE, the DMA interrupt, and the channel goes on, waits,
ends or stops. -/
def State.dmComplete (s : State) (c : Fin 64) (r : DescRun) (wait : Nat) : State :=
  let d := r.desc
  let x := s.dma.chans.get c
  let result : Option (BitVec 32) := if !d.last then none else match x.cu with
    | some u => some (cuResult (s.dma.units.get u).crc (s.dma.units.get u).reg)
    | none => none
  let s := match x.cu, result with
    | some u, some v =>
      (s.modCu u (fun k => { k with result := v, valid := true, owner := none })).modDm c (fun x => { x with cu := none })
    | _, _ => s
  let s := s.modDm c (fun x =>
    { x with
      doneCnt := satAdd x.doneCnt 1, run := none
      desc := if x.ring then x.desc else d.next
      head := if x.ring then BitVec.ofNat 12 ((x.head.toNat + 1) % x.len.toNat) else x.head
      fenceLast := if d.fence then BitVec.ofNat 16 (min wait 65535) else x.fenceLast
      fenceMax := if d.fence then BitVec.ofNat 16 (max x.fenceMax.toNat (min wait 65535)) else x.fenceMax })
  let s := if d.irq && x.evtEn then
      s.emitNow 0x0C01 (0x0C00 + c.val)
        (le 1 c.val ++ le 1 (b2n result.isSome + 2 * b2n d.fence) ++ le 4 r.addr ++ pb (result.getD 0))
    else s
  let s := if d.irq then (match x.boundT with
      | some t => { s with tdsp := vmod s.tdsp t (fun k => { k with pend := k.pend ||| 4#5 }) }
      | none => s)
    else s
  if x.state = .stopping then s.dmStopped c 1
  else if x.ring then
    let y := s.dma.chans.get c
    if y.head = y.tail then s.modDm c (fun x => { x with state := .wait }) else s
  else if d.next = 0 then s.modDm c (fun x => { x with state := .done })
  else s

/-- DESCRIPTOR_COMPLETE: the last write leaves the engine, with the result of APPEND; with FENCE it completes once the acknowledgement
is here. -/
def execDescriptorComplete (c : Fin 64) (s : State) : Out :=
  .next (match (s.dma.chans.get c).run with
  | none => s
  | some r =>
    let d := r.desc
    if !s.dmOn || r.burst.isSome || decide (r.moved < d.outLen) then s
    else match r.fenceAt with
      | some since => if s.fenceHere c d then s.dmComplete c r (s.time.ticks - since) else s
      | none =>
        let s := if !d.append then s else match (s.dma.chans.get c).cu with
          | none => s
          | some u =>
            let k := s.dma.units.get u
            let bs := (le 4 (cuResult k.crc k.reg).toNat).take (if k.crc = 2 then 2 else 4)
            if d.dstKind = 1 then s.memWr c d.appendAt bs else s.setLocals d.appendAt bs
        if d.fence && decide (d.dstKind ≠ 2) then
          s.modDm c (fun x => { x with run := some { r with fenceAt := some s.time.ticks } })
        else s.dmComplete c r 0)

/-! ### Ring registers (R389, R410) -/

/-- DM_RING_LEN_WRITE. -/
def execDmRingLenWrite (ch : Fin 64) (data : BitVec 32) (s : State) : Out := .next (if s.mgmtOn then s.ringLen ch data else s)

/-- DM_RING_PTR_WRITE. -/
def execDmRingPtrWrite (ch : Fin 64) (data : BitVec 32) (s : State) : Out := .next (if s.mgmtOn then s.ringPtr ch data else s)

end Sys2Proof.Machine
end

