-- ==== Sys2Proof/Machine/PupOps.lean ====
section
/-! DEFINITION. Operations of the Puppeteer: images and boot, restarts, the key record, sessions and the change journal
(18_puppeteer.md, 20_roles.md). -/

namespace Sys2Proof.Machine

/-! ### Images in flash (R497 to R499, R566, R567) -/

/-- Flash address of an image slot. -/
def slotBase (slotB : Bool) : Nat := if slotB then 0x100000 else 0

/-- The header of the image in a slot and its fields. -/
def State.imgHdr (s : State) (slotB : Bool) : List Byte := s.flashRead (slotBase slotB) 256
def State.imgVersion (s : State) (slotB : Bool) : BitVec 32 := BitVec.ofNat 32 (unle ((s.imgHdr slotB).drop 8 |>.take 4))
def State.imgSeq (s : State) (slotB : Bool) : BitVec 32 := BitVec.ofNat 32 (unle ((s.imgHdr slotB).drop 12 |>.take 4))

/-- The rollback floor in force: the last word written (R567). -/
def State.otpFloorNow (s : State) : Nat := (s.otp.floor.reverse.findSome? (fun w => w)).elim 0 (fun w => w.toNat)

/-- Why the ROM skips the image of a slot: 0 it accepts it, else the code of HP_BOOT.CAUSE (R499, R520). A payload length that no
image has fails the digest. -/
def State.imageCause (s : State) (slotB : Bool) : Nat :=
  let hd := s.imgHdr slotB
  let f := fun (o n : Nat) => unle ((hd.drop o).take n)
  let zero := fun (o n : Nat) => ((hd.drop o).take n).all (fun b => decide (b = 0))
  if f 0 4 ≠ 0x4B505054 ∨ zero 21 11 = false ∨ zero 64 128 = false then 1
  else match fin? 4 (f 20 1) with
    | none => 2
    | some k =>
      let key := s.otp.keys.get k
      if !key.written || key.failed || !ecdsaOk key.key (hd.take 192) (hd.drop 192) then 2
      else if key.revoked then 3
      else if f 8 4 < s.otpFloorNow then 4
      else
        let n := f 4 4
        if n % 4 ≠ 0 ∨ 458752 < n ∨ sha256 (s.flashRead (slotBase slotB + 256) n) ≠ (hd.drop 32).take 32 then 5 else 0

/-- The slots in the order BOOTMODE tries them (R497). -/
def State.bootOrder (s : State) : List Bool :=
  if s.pup.mode = 0 then (if seqLater (s.imgSeq true) (s.imgSeq false) then [true, false] else [false, true])
  else if s.pup.mode = 1 then [false]
  else if s.pup.mode = 2 then [true]
  else []

/-- Bit of a slot in a mask of two. -/
def slotBit (slotB : Bool) : BitVec 2 := if slotB then 2 else 1

/-- The ROM boots from the first image it accepts, in an order, or enters recovery (R499, R500). An image booted for the first
time after staging is on trial (R517). -/
def State.romBoot (s : State) (cause : BootCause) (order : List Bool) (fallback fromWake : Bool) (start : Nat) : State :=
  let bad := order.takeWhile (fun b => decide (s.imageCause b ≠ 0))
  let s := match bad.getLast? with
    | none => s
    | some b => { s with pup.cause := BitVec.ofNat 4 (s.imageCause b) }
  match order.drop bad.length with
  | [] =>
    { s with pup := { s.pup with
        recovery := true, ready := false, restarting := false, boot := none, fwVer := 0 } }
  | b :: _ =>
    { s with pup := { s.pup with
        recovery := false, slotB := b, fwVer := s.imgVersion b, jBoot := s.pup.jBoot + 1
        fresh := s.pup.fresh &&& ~~~(slotBit b)
        boot := some
          { cause := cause, slotB := b, trial := decide (s.pup.fresh &&& slotBit b ≠ 0), fallback := fallback, start := start,
            fromWake := fromWake } } }

/-! ### Reset and power-down -/

/-- What no reset and no loss of supply touches: the queue of commands, flash, OTP, the counts of draws and of boots, a slot's
trial mark, a JOURNAL_ERASE that was cut. -/
def State.keepFixed (new old : State) : State :=
  { new with
    pending := old.pending
    free := old.free
    otp := old.otp
    pup := { new.pup with
      flash := old.pup.flash
      nonces := old.pup.nonces, jBoot := old.pup.jBoot, fresh := old.pup.fresh, jTorn := old.pup.jTorn } }

/-- A JOURNAL_ERASE that a reset or a loss of power cuts leaves the journal empty; its entry is written at the next boot with
ABORTED (R565). -/
def State.cutErase (s : State) : State :=
  match s.pup.job with
  | .journalErase _ =>
    let e := s.pup.busy.toList.findSome? (fun b => match b with
      | some p => if p.waits = .jErase then p.entry else none
      | none => none)
    let s := s.flashErase 0x400000 0x40000
    { s with pup := { s.pup with jBoot := 0, jTorn := e.map (fun e => { e with status := stAborted }) } }
  | _ => s

/-- The machine in reset or without power: every field at its reset value (R14, R480, R481). -/
def State.cold (s : State) : State := State.reset.keepFixed s.cutErase

/-! ### The change journal (R560 to R565) -/

/-- The 64 bytes of an entry at an index. -/
def JEntry.bytes (e : JEntry) (index : Nat) : List Byte :=
  let b := le 4 index ++ le 9 e.time ++ [e.flags, e.role, e.session, e.source, e.status] ++ pb e.opcode ++ pb e.seq ++
    pb e.plen ++ pb e.boot ++ padTo 32 e.digest
  b ++ pb (crc32c (BitVec.ofNat 32 index) b)

/-- Flash address of an index. -/
def jAddr (index : Nat) : Nat := 0x400000 + (index % 4096) * 64

/-- Oldest index held (R562). -/
def jOldest (next : Nat) : Nat := if next = 0 then 0 else 64 * ((next - 1) / 64 + 2) - 4096

/-- Write an entry at the next index; the first of a sector starts the erase of the sector after it. -/
def State.writeEntry (s : State) (e : JEntry) : State :=
  let i := s.pup.jNext.toNat
  let s := s.flashWrite (jAddr i) (e.bytes i)
  { s with pup := { s.pup with
      jNext := s.pup.jNext + 1
      jSector := if i % 64 = 0 then some ((i / 64 + 1) % 64) else s.pup.jSector } }

/-- A gap entry (R561, R563). -/
def State.gapEntry (s : State) (n : Nat) : JEntry :=
  { time := s.nowT, flags := BitVec.ofNat 8 (b2n s.time.synced + 2 * b2n s.pup.recovery + 4), role := 0xFF, session := 0,
    source := 0, status := 0, opcode := 0, seq := BitVec.ofNat 16 (min n 65535), plen := 0, boot := s.pup.jBoot,
    digest := sha256 [] }

/-- Put an entry into the buffer (R563): one that finds no room is lost; the first after a loss follows the gap entry. -/
def State.bufferEntry (s : State) (e : JEntry) : State :=
  let add := if s.pup.jGap = 0 then [e] else [s.gapEntry s.pup.jGap, e]
  if s.pup.jBuf.length + add.length ≤ 64 then
    { s with pup := { s.pup with jBuf := s.pup.jBuf ++ add, jGap := 0 } }
  else { s with pup := { s.pup with jDropped := satAdd s.pup.jDropped 1, jGap := s.pup.jGap + 1 } }

/-- The next index after a boot: one above the highest with a correct CRC (R564). -/
def State.jScan (s : State) : Nat :=
  (List.range 4096).foldl (fun m i =>
    let b := s.flashRead (0x400000 + i * 64) 64
    let k := unle (b.take 4)
    if unle (b.drop 60) = (crc32c (BitVec.ofNat 32 k) (b.take 60)).toNat ∧ k % 4096 = i then max m (k + 1) else m) 0

/-! ### Role keys (R553 to R556) -/

/-- Flash address of a slot of the key record. -/
def keyBase (slotB : Bool) : Nat := if slotB then 0x490000 else 0x480000

/-- Whether a slot holds a valid key record, and its SEQ. -/
def State.keyValid (s : State) (slotB : Bool) : Bool :=
  let b := s.flashRead (keyBase slotB) 256
  decide (unle (b.take 4) = 0x4B524B59) &&
  decide (unle (b.drop 252) = (crc32c (BitVec.ofNat 32 (keyBase slotB)) (b.take 252)).toNat)
def State.keySeq (s : State) (slotB : Bool) : BitVec 32 := BitVec.ofNat 32 (unle (s.flashRead (keyBase slotB + 4) 4))

/-- The slot in use, none while both are invalid. -/
def State.keySlot (s : State) : Option Bool :=
  let va := s.keyValid false
  let vb := s.keyValid true
  if va || vb then some (vb && (!va || seqLater (s.keySeq true) (s.keySeq false))) else none

/-- The wrapped form of a role's key, and back (log 40). -/
def wrapKey (r : Nat) (key : List Byte) : List Byte := xorBytes key (be 32 (Config.keyWrap r).toNat)

/-- The key in force for a role. -/
def State.roleKey (s : State) (r : Nat) : List Byte :=
  match s.keySlot with
  | none => be 32 (Config.factoryKey r).toNat
  | some b => wrapKey r (s.flashRead (keyBase b + 8 + 32 * r) 32)

/-- The record that holds the keys in force with one of them replaced, for a slot, with a SEQ. -/
def State.keyRecord (s : State) (slotB : Bool) (seq : BitVec 32) (r : Nat) (key : List Byte) : List Byte :=
  let b := le 4 0x4B524B59 ++ pb seq ++
    (List.range 3).flatMap (fun i => wrapKey i (if i = r then key else s.roleKey i)) ++ List.replicate 148 0
  b ++ pb (crc32c (BitVec.ofNat 32 (keyBase slotB)) b)

/-! ### Sessions (R557 to R559) -/

/-- Role codes of R546. -/
def role? (c : Nat) : Option Role := [Role.operator, .installer, .maker][c]?

/-- Lifetime of a role's sessions in seconds. -/
def lifetime : Role → Nat
  | .operator => 86400
  | .installer => 3600
  | .maker => 600

/-- Ticks of a second. -/
def secTicks : Nat := 983040000

/-- A session ends: its handle is free and SESSION_ENDED names the cause; one that awaits authentication is freed silently. -/
def State.endSession (s : State) (i : Fin 8) (cause : Nat) : State :=
  let x := s.pup.sessions.get i
  let s := { s with pup.sessions := s.pup.sessions.set i.val .free i.isLt }
  match x with
  | .opened r _ _ => s.emitNow 0x0A01 0x0AFF (le 1 (i.val + 1) ++ le 1 r.rank ++ le 1 cause)
  | _ => s

/-- Every session ends. -/
def State.endSessions (s : State) (cause : Nat) : State := (List.finRange 8).foldl (fun s i => s.endSession i cause) s

/-! ### Commands in progress -/

/-- The mailbox whose command waits for something. -/
def State.waiter (s : State) (w : WaitFor) : Option (Fin 4) :=
  (List.finRange 4).find? (fun m => match s.pup.busy.get m with
    | some p => decide (p.waits = w)
    | none => false)

/-- Events that a command in progress causes wait for its response (R505). -/
def State.emitFor (s : State) (m : Fin 4) (f : State → State) : State :=
  match s.pup.busy.get m with
  | none => f s
  | some p =>
    let s := f { s with pup.inCmd := true, pup.heldEvts := [] }
    { s with pup := { s.pup with
        inCmd := false, heldEvts := []
        busy := s.pup.busy.set m.val (some { p with events := p.events ++ s.pup.heldEvts }) m.isLt } }

/-! ### Restart (R513 to R515) -/

/-- A TDSP_LOAD in progress is abandoned: the kernel state is EMPTY and TDSP_LOADED reports ABORTED (R514). -/
def State.loadAbort (s : State) (t : Fin 8) : State :=
  match (s.tdsp.get t).load with
  | none => s
  | some l =>
    let s := { s with tdsp := vmod s.tdsp t (fun k => { k with load := none, image := none, state := .empty }) }
    let s := (s.modPdTile t (fun x => { x with reload := false })).pdRefresh t
    s.emitNow 0x0B01 (0x0B00 + t.val) (le 1 t.val ++ [stAborted] ++ pb l.img.kid)

/-- Before a restart the firmware stops CH63 with CH_STOP, which releases CU7 (R400, R407, R513); the address of its next descriptor is the
firmware's own (log 70). -/
def State.firmwareStop (s : State) : State :=
  let x := s.dma.chans.get 63
  if x.state = .running ∨ x.state = .wait then
    let a := Config.killCount s.free 2
    let s := { (s.firmwareDma .stopped) with free := s.free + 1 }
    s.emitNow 0x0C02 0x0C3F (le 1 63 ++ le 1 3 ++ le 1 (b2n x.countOk) ++ pb a)
  else s

/-- The Puppeteer restarts: READY clears, sessions end, a kernel load, a staging and the flash work of the firmware are abandoned;
the ROM boots from an order of slots. A store cut short reports ABORTED once the mailboxes return. -/
def State.restart (s : State) (cause : BootCause) (order : List Bool) : State :=
  let s := s.firmwareStop
  let s := { s with pup := { s.pup with
    ready := false, restarting := true, restarts := satAdd s.pup.restarts 1
    lockstep := s.pup.lockstep || decide (cause = BootCause.lockstep)
    stage := none
    job := match s.pup.job with
      | .journalErase n => .journalErase n
      | _ => .none } }
  let s := s.endSessions 3
  let s := (List.finRange 8).foldl (fun s t => s.loadAbort t) s
  s.romBoot cause order false false s.time.ticks

/-- What a fault of the Puppeteer cuts (R513): a CALBUS diagnosis and the RFFE transfers of commands. -/
def State.cutWork (s : State) : State :=
  let s := match s.cal.bus with
    | .diag _ _ => { (s.clearMarks) with cal.bus := .free }
    | _ => s
  { s with res := vmap s.res (fun _ r => { r with rffe.run := none, rffe.queue := [], rffe.listOp := false }) }

/-- A lockstep fault or a watchdog expiry (R513, R515): the slot in use boots again, then those of BOOTMODE; the third within 60 s
halts the Puppeteer in ROM. -/
def State.faultRestart (s : State) (cause : BootCause) : State :=
  if !s.mgmtOn || s.pup.halted then s
  else
    let now := s.time.ticks
    let times := s.pup.faultTimes.filter (fun t => decide (now < t + 60 * secTicks))
    let s := s.restart cause (s.pup.slotB :: s.bootOrder.filter (fun b => b != s.pup.slotB))
    let s := { s with pup.faultTimes := now :: times }
    let s := s.cutWork
    if 2 ≤ times.length then
      { s with pup := { s.pup with halted := true, restarting := false, boot := none } }
    else s

/-! ### Register values (R520, R570) -/

def regHpStat (p : PupBlock) : Nat :=
  b2n p.ringErr * 64 + b2n p.frameErr * 32 + b2n p.halted * 16 + b2n p.lockstep * 8 + b2n p.recovery * 4 +
  b2n p.restarting * 2 + b2n p.ready
def regHpBoot (p : PupBlock) : Nat :=
  p.restarts.toNat * 2 ^ 16 + p.rejected.toNat * 2 ^ 10 + p.mode.toNat * 2 ^ 8 + p.cause.toNat * 16 + b2n p.slotB
/-- FACTORY_KEYS reads its reset value until firmware has selected the keys at a boot (R14, R446). -/
def regHpSess (s : State) : Nat :=
  let ss := s.pup.sessions
  b2n (s.keySlot.isNone || !(s.pup.ready || s.pup.restarting || s.pup.halted)) * 2 ^ 24 +
  maskOf 3 (fun r => match s.pup.lockout.get r with
    | some t => decide (s.time.ticks < t)
    | none => false) * 2 ^ 16 +
  maskOf 8 (fun i => match ss.get i with
    | .awaiting .. => true
    | _ => false) * 2 ^ 8 +
  maskOf 8 (fun i => match ss.get i with
    | .opened .. => true
    | _ => false)
def regJrnlStat (p : PupBlock) : Nat :=
  p.jDropped.toNat * 2 ^ 16 + b2n (p.jSector.isSome || (match p.job with
    | .journalErase _ => true
    | _ => false)) * 2 ^ 8 + p.jBuf.length
def hpId : Nat := 0x4B596480
def hpRev : Nat := 0x00004101

end Sys2Proof.Machine
end

