-- ==== Sys2Proof/Machine/Flags.lean ====
section
/-! DEFINITION. Arithmetic of the TDSP with its saturations and flags: halves, rounding, products, accumulators, Z and N
(10_tile_dsp.md R276, R277, R287 to R291, R303). -/

namespace Sys2Proof.Machine

/-! ### Words and halves -/

/-- The halves of a D register: I in bits [15:0], Q in [31:16] (R275). -/
def dI (w : BitVec 32) : Int := (w.setWidth 16 : BitVec 16).toInt
def dQ (w : BitVec 32) : Int := ((w >>> 16).setWidth 16 : BitVec 16).toInt

/-- A D register from its halves. -/
def dPack (i q : Int) : BitVec 32 := (BitVec.ofInt 16 q).setWidth 32 <<< 16 ||| (BitVec.ofInt 16 i).setWidth 32

/-- Saturation of a half, and whether it saturates. -/
def sat16 (x : Int) : Int := clampI (-32768) 32767 x
def clips16 (x : Int) : Bool := decide (x < -32768 ∨ 32767 < x)

/-- Saturation of an accumulator component at −2^39 and 2^39 − 1 (R276), and whether it saturates. -/
def sat40 (x : Int) : Int := clampI (-(2 ^ 39)) (2 ^ 39 - 1) x
def clips40 (x : Int) : Bool := decide (x < -(2 ^ 39) ∨ 2 ^ 39 - 1 < x)

/-- An arithmetic shift right by k with round half up (R288). -/
def shrHalfUp (x : Int) (k : Nat) : Int := if k = 0 then x else Int.fdiv (x + 2 ^ (k - 1)) (2 ^ k)

/-! ### Sticky bits of STATUS -/

/-- SAT (bit 2) and ASAT (bit 3) of STATUS (R277). -/
def satBit (b : Bool) : Nat := if b then 4 else 0
def asatBit (b : Bool) : Nat := if b then 8 else 0

/-- The result that sets sticky bits, where there are any. -/
def stickyRes (bits : Nat) : List InFlight :=
  if bits = 0 then [] else [{ reg := .sticky, val := bits, valQ := 0, left := 1, mac := false }]

/-! ### Z and N -/

/-- Z in bit 0 and N in bit 1 of a 32-bit result (R303). -/
def znBits (r : BitVec 32) : Nat := b2n (decide (r = 0)) + 2 * b2n r.msb

/-- The result that sets Z and N. -/
def znRes (r : BitVec 32) : InFlight := { reg := .zn, val := znBits r, valQ := 0, left := 1, mac := false }

/-! ### Results -/

/-- A result in a D register, usable from bundle i + n. -/
def dRes (d : Fin 16) (v : BitVec 32) (n : Nat) : InFlight := { reg := .d d, val := v.toNat, valQ := 0, left := n, mac := false }

/-- A result in an accumulator, usable from i + 2. -/
def accRes (a : Fin 8) (i q : Int) (mac : Bool) : InFlight := { reg := .acc a, val := i, valQ := q, left := 2, mac := mac }

/-- A pair of halves, saturated, with SAT. -/
def pairRes (d : Fin 16) (i q : Int) (n : Nat) : List InFlight :=
  dRes d (dPack (sat16 i) (sat16 q)) n :: stickyRes (satBit (clips16 i || clips16 q))

/-! ### Products and accumulation (R287) -/

/-- The complex product of two D registers, the second conjugated with CJ. -/
def cprod (x y : BitVec 32) (cj : Bool) : Int × Int :=
  let yq := if cj then -dQ y else dQ y
  (dI x * dI y - dQ x * yq, dI x * yq + dQ x * dI y)

/-- Accumulate a pair into an accumulator's value: loaded with Z, subtracted with NEG, saturated with ASAT. -/
def accum (a : Fin 8) (old add : Int × Int) (neg z : Bool) : List InFlight :=
  let add := if neg then (-add.1, -add.2) else add
  let base := if z then (0, 0) else old
  let i := base.1 + add.1
  let q := base.2 + add.2
  accRes a (sat40 i) (sat40 q) true :: stickyRes (asatBit (clips40 i || clips40 q))

/-! ### Block floating point (R289, R290) -/

/-- The gain MVAD applies: SHIFT, or EXP under AUTO, each two's complement of 4 bits. -/
def mvadGain (scale : BitVec 32) : Int :=
  if scale.getLsbD 4 then ((scale >>> 8).setWidth 4 : BitVec 4).toInt else (scale.setWidth 4 : BitVec 4).toInt

/-- A component that MVAD produces before saturation. -/
def mvadComp (a : Int) (e : Int) : Int := shrHalfUp a (15 - e).toNat

/-- The k of R290: m × 2^k lies in [16,384, 32,768). -/
def bfpShift (m : Nat) : Int := 14 - (Nat.log2 m : Int)

/-- EXP and LAST after BFPEND, in their bits of SCALE: LAST takes EXP, and EXP moves by k, clamped, where m > 0. -/
def bfpScale (scale : BitVec 32) (m : Nat) : BitVec 32 :=
  let e : BitVec 4 := (scale >>> 8).setWidth 4
  let new : BitVec 4 := if m = 0 then e else BitVec.ofInt 4 (clampI (-8) 7 (e.toInt + bfpShift m))
  new.setWidth 32 <<< 8 ||| e.setWidth 32 <<< 12

end Sys2Proof.Machine
end

