-- ==== Sys2Proof/Machine/Operands.lean ====
section
/-! DEFINITION. Operands of the TDSP: register codes, pointer updates and addressing modes, loads through the write buffer
(10_tile_dsp.md R271, R275, R277, R284 to R286, R298). -/

namespace Sys2Proof.Machine

/-! ### Registers (R275, R277) -/

/-- Whether a loop level is active: its count is not 0. -/
def Tdsp.active (k : Tdsp) (l : Fin 2) : Bool := decide (k.lc.get l ≠ 0)

/-- STATUS as it reads: LA0 and LA1 in bits 6 and 7. -/
def Tdsp.statusNow (k : Tdsp) : BitVec 32 :=
  (k.status &&& 0x3F#32) ||| BitVec.ofNat 32 (b2n (k.active 0) * 64 + b2n (k.active 1) * 128)

/-- IMASK as it reads: bit 1 is 1 while adaptation is enabled in the tile (R294). -/
def Tdsp.imaskNow (k : Tdsp) (est : Bool) : BitVec 5 := (k.imask &&& 0x1D#5) ||| (if est then 2#5 else 0#5)

/-- The value MV reads by a register code; none where the code is illegal. M registers are signed. -/
def Tdsp.readCode (k : Tdsp) (est : Bool) (c : BitVec 6) : Option (BitVec 32) :=
  let n := c.toNat
  let i : Fin 8 := (c.setWidth 3 : BitVec 3).toFin
  if n < 16 then some (k.d.get (c.setWidth 4 : BitVec 4).toFin)
  else if n < 24 then some ((k.p.get i).setWidth 32)
  else if n < 32 then some ((k.m.get i).signExtend 32)
  else if n < 40 then some ((k.l.get i).setWidth 32)
  else if n < 48 then some ((k.b.get i).setWidth 32)
  else if n = 0x30 then some ((k.lc.get 0).setWidth 32)
  else if n = 0x33 then some ((k.lc.get 1).setWidth 32)
  else if n = 0x31 then some ((k.ls.get 0).setWidth 32)
  else if n = 0x34 then some ((k.ls.get 1).setWidth 32)
  else if n = 0x32 then some ((k.le.get 0).setWidth 32)
  else if n = 0x35 then some ((k.le.get 1).setWidth 32)
  else if n = 0x38 then some k.scale
  else if n = 0x39 then some k.statusNow
  else if n = 0x3A then some ((k.imaskNow est).setWidth 32)
  else if n = 0x3B then some (k.iret.setWidth 32)
  else none

/-- The register a code names; none where it is illegal. -/
def regOf (c : BitVec 6) : Option TReg :=
  let n := c.toNat
  let i : Fin 8 := (c.setWidth 3 : BitVec 3).toFin
  if n < 16 then some (.d (c.setWidth 4 : BitVec 4).toFin)
  else if n < 24 then some (.p i)
  else if n < 32 then some (.m i)
  else if n < 40 then some (.l i)
  else if n < 48 then some (.b i)
  else if n = 0x30 then some (.lc 0)
  else if n = 0x33 then some (.lc 1)
  else if n = 0x31 then some (.ls 0)
  else if n = 0x34 then some (.ls 1)
  else if n = 0x32 then some (.le 0)
  else if n = 0x35 then some (.le 1)
  else if n = 0x38 then some .scale
  else if n = 0x39 then some .status
  else if n = 0x3A then some .imask
  else if n = 0x3B then some .iret
  else none

/-- A write by LI or MV, usable from i + 1. -/
def codeRes (r : TReg) (v : BitVec 32) : InFlight := { reg := r, val := v.toNat, valQ := 0, left := 1, mac := false }

/-- Land a result in its register: a write to L or B keeps bits [1:0] at 0, one to STATUS its written bits [5:0], one to SCALE its
defined bits, one to IMASK all but bit 1 (R275, R277, R294). -/
def Tdsp.land (k : Tdsp) (x : InFlight) : Tdsp :=
  let n : BitVec 32 := BitVec.ofInt 32 x.val
  match x.reg with
  | .d i => { k with d := k.d.set i.val n i.isLt }
  | .acc i =>
    { k with accI := k.accI.set i.val (BitVec.ofInt 40 x.val) i.isLt, accQ := k.accQ.set i.val (BitVec.ofInt 40 x.valQ) i.isLt }
  | .p i => { k with p := k.p.set i.val (n.setWidth 18) i.isLt }
  | .m i => { k with m := k.m.set i.val (n.setWidth 18) i.isLt }
  | .l i => { k with l := k.l.set i.val (n.setWidth 18 &&& 0x3FFFC#18) i.isLt }
  | .b i => { k with b := k.b.set i.val (n.setWidth 18 &&& 0x3FFFC#18) i.isLt }
  | .lc i => { k with lc := k.lc.set i.val (n.setWidth 17) i.isLt }
  | .ls i => { k with ls := k.ls.set i.val (n.setWidth 15) i.isLt }
  | .le i => { k with le := k.le.set i.val (n.setWidth 15) i.isLt }
  | .scale => { k with scale := if x.valQ = 1 then (k.scale &&& 0x1F#32) ||| (n &&& 0xFF00#32) else n &&& 0xFF1F#32 }
  | .status => { k with status := n &&& 0x3F#32 }
  | .imask => { k with imask := n.setWidth 5 &&& 0x1D#5 }
  | .iret => { k with iret := n.setWidth 15 }
  | .zn => { k with status := (k.status &&& ~~~(3#32)) ||| n }
  | .sticky => { k with status := k.status ||| n }
  | .bfp => { k with bfpMax := if x.valQ = 0 then max k.bfpMax x.val.toNat else 0 }
  | .ie => { k with status := if x.val = 0 then k.status &&& ~~~(0x10#32) else k.status ||| 0x10#32 }
  | .pc =>
    if x.valQ = 2 then k
    else if x.valQ = 1 then { k with pc := n.setWidth 15, status := (k.status ||| 0x10#32) &&& ~~~(0x20#32) }
    else { k with pc := n.setWidth 15 }

/-! ### Pointers (R284, R285) -/

/-- P after an update by M bytes under R285. -/
def updPtr (p l b : BitVec 18) (m : Int) : BitVec 18 :=
  if l = 0 then BitVec.ofInt 18 ((p.toNat : Int) + m)
  else BitVec.ofInt 18 ((b.toNat : Int) + ((p.toNat : Int) - (b.toNat : Int) + m) % (l.toNat : Int))

/-- A pointer of a kernel after an update by M bytes. -/
def Tdsp.stepPtr (k : Tdsp) (p : Fin 8) (m : Int) : BitVec 18 := updPtr (k.p.get p) (k.l.get p) (k.b.get p) m

/-- The result that updates a pointer. -/
def ptrRes (p : Fin 8) (v : BitVec 18) : InFlight := { reg := .p p, val := v.toNat, valQ := 0, left := 1, mac := false }

/-- The address used by an addressing mode and the pointer's update, if any (R284). -/
def Tdsp.address (k : Tdsp) (am : AddrMode) : BitVec 18 × Option (BitVec 18) :=
  let p := k.p.get am.p
  let byM := k.stepPtr am.p (k.m.get am.km.toFin).toInt
  match am.md.toNat with
  | 0 => (p, none)
  | 1 => (p, some byM)
  | 2 => (byM, some byM)
  | _ => (p, some (k.stepPtr am.p (4 * am.km.toInt)))

/-- The pointer result of an addressing mode. -/
def Tdsp.addressRes (k : Tdsp) (am : AddrMode) : List InFlight :=
  match (k.address am).2 with
  | some v => [ptrRes am.p v]
  | none => []

/-! ### Memory (R271, R272, R298) -/

/-- The word of a byte address: bits [1:0] are ignored. -/
def wordOf (a : BitVec 18) : Nat := a.toNat / 4

/-- Whether a word lies in a region that is reserved while `est` holds (R272). -/
def wordReserved (est inY : Bool) (w : Nat) : Bool := est && (inY || decide (w < 0x8000))

/-- The word a load of the TDSP sees: the newest buffered store to it, else memory (R298). -/
def Tdsp.loadWord (k : Tdsp) (inY : Bool) (w : Nat) : BitVec 32 :=
  match k.wbuf.reverse.find? (fun e => (e.inY == inY) && decide (e.addr = w)) with
  | some e => e.val
  | none => if inY then memGet 0 k.ym w else memGet 0 k.xm w

/-- The oldest entry of the write buffer reaches its memory. -/
def Tdsp.drainOne (k : Tdsp) : Tdsp :=
  match k.wbuf with
  | [] => k
  | e :: rest =>
    if e.inY then { k with wbuf := rest, ym := memSet 0 k.ym e.addr e.val }
    else { k with wbuf := rest, xm := memSet 0 k.xm e.addr e.val }

end Sys2Proof.Machine
end

