-- ==== Sys2Proof/Machine/TdspOps.lean ====
section
/-! DEFINITION. The exposed pipeline of the TDSP: bundles and what lands at their end, loops, faults, kernel I/O, messages, start
and registers (10_tile_dsp.md R274, R278 to R283, R292 to R302, R309, R313). -/

namespace Sys2Proof.Machine

/-- Change one TDSP. -/
def State.modK (s : State) (t : Fin 8) (f : Tdsp → Tdsp) : State := { s with tdsp := vmod s.tdsp t f }

/-! ### The end of a bundle (R279, R280, R292, R297, R298) -/

/-- Whether a control transfer waits to take effect: the next bundle is one of its delay slots. -/
def Tdsp.inDelay (k : Tdsp) : Bool := k.flight.any (fun x => decide (x.reg = TReg.pc))

/-- Whether a loop level ends at the bundle at pc. -/
def Tdsp.loopEnds (k : Tdsp) : Bool :=
  (List.finRange 2).any (fun l => k.active l && decide (k.le.get l = k.pc))

/-- One level at its end bundle: count down and return, or clear the count (R292). Answers the next bundle where it returns. -/
def Tdsp.loopLevel (k : Tdsp) (l : Fin 2) (at_ : BitVec 15) : Tdsp × Option (BitVec 15) :=
  if k.active l && decide (k.le.get l = at_) then
    if k.lc.get l = 1 then ({ k with lc := k.lc.set l.val 0 l.isLt }, none)
    else ({ k with lc := k.lc.set l.val (k.lc.get l - 1) l.isLt }, some (k.ls.get l))
  else (k, none)

/-- The loop hardware at the end of the bundle at an address: level 0 first, level 1 where level 0 falls through (R293). -/
def Tdsp.loopHw (k : Tdsp) (at_ : BitVec 15) : Tdsp × Option (BitVec 15) :=
  let r := k.loopLevel 0 at_
  match r.2 with
  | some _ => r
  | none => r.1.loopLevel 1 at_

/-- The pending loop return or fall-through takes effect. -/
def Tdsp.loopReturn (k : Tdsp) : Tdsp :=
  if !k.loopDue then k
  else
    let r := k.loopHw k.pc
    { r.1 with loopDue := false, pc := r.2.getD (r.1.pc + 1) }

/-- Results that are due land in the order issued; the others come one bundle nearer (R279, R280). -/
def Tdsp.landDue (k : Tdsp) (all : List InFlight) : Tdsp :=
  let due := all.filter (fun x => decide (x.left ≤ 1))
  let rest := all.filter (fun x => decide (1 < x.left))
  due.foldl Tdsp.land { k with flight := rest.map (fun x => { x with left := x.left - 1 }) }

/-- What the move slot of a bundle does: its results, the memories it loads from, its stores, the cause of a fault (0 none). -/
structure Move where
  res    : List InFlight := []
  loadX  : Bool := false
  loadY  : Bool := false
  stores : List WrEntry := []
  fault  : Nat := 0

/-- The write buffer in a bundle: the oldest entry reaches memory unless the move slot loads from that memory; the bundle's stores
enter (R298). -/
def Tdsp.buffer (k : Tdsp) (m : Move) : Tdsp :=
  let held := match k.wbuf with
    | [] => true
    | e :: _ => if e.inY then m.loadY else m.loadX
  let k := if held then k else k.drainOne
  { k with wbuf := k.wbuf ++ m.stores }

/-- Stretches with IE = 0 (R297): the one that passes 4,096 bundles is counted. -/
def Tdsp.countDi (k : Tdsp) : Tdsp :=
  if k.status.getLsbD 4 then { k with diRun := 0 }
  else { k with diRun := k.diRun + 1, longDi := if k.diRun = 4096 then satAdd k.longDi 1 else k.longDi }

/-- A bundle ends: move results and then compute results join those in flight, due ones land, and the next bundle is the branch
target that lands, a loop's business, or the one after. -/
def Tdsp.endBundle (k : Tdsp) (m : Move) : Tdsp :=
  let at_ := k.pc
  let branch := k.flight.any (fun x => decide (x.reg = TReg.pc ∧ x.left ≤ 1 ∧ x.valQ ≠ 2))
  let k := k.countDi.buffer m
  let k := { k with issuedC := false, curC := [] }.landDue (k.flight ++ m.res ++ k.curC)
  if branch then (k.loopHw at_).1
  else if k.loopEnds then { k with loopDue := true }
  else { k with pc := at_ + 1 }

/-- A stalled cycle counts as a bundle (R283): due results land and the write buffer drains. -/
def Tdsp.stallCycle (k : Tdsp) : Tdsp := (k.drainOne).landDue k.flight

/-! ### Issue -/

/-- Whether a tile's kernel issues bundles: it runs, nothing stalls it, its tile is powered and no halt holds. -/
def State.kRuns (s : State) (t : Fin 8) : Bool :=
  let k := s.tdsp.get t
  decide (k.state = .running) && decide (k.stall = .none) && s.tilePowered t && !s.hk.halt

/-- Whether a bundle address lies in the kernel's PM range. -/
def Tdsp.inRange (k : Tdsp) (a : Nat) : Bool :=
  match k.image with
  | some i => decide (i.pmOff ≤ a ∧ a < i.pmOff + i.pmLen)
  | none => false

/-- A kernel faults (R274): the bundle takes no effect, the state is FAULT, TDSP_FAULT and TDSP_STOPPED say so. Causes: 1 ILLEGAL, 2
SLOT, 3 PM_RANGE, 4 RES_MEM. -/
def State.kFault (s : State) (t : Fin 8) (cause : Nat) : State :=
  let pc := (s.tdsp.get t).pc
  let s := s.modK t (fun k =>
    { (k.halt .fault) with cause := BitVec.ofNat 4 cause, faultPc := pc, faults := satAdd k.faults 1 })
  let s := s.emitNow 0x0B03 (0x0B00 + t.val) (le 1 t.val ++ le 1 cause ++ le 2 pc.toNat)
  s.emitNow 0x0B04 (0x0B00 + t.val) (le 1 t.val ++ le 1 4)

/-- The TDSP at the start of a bundle: a bundle whose move slot has not been named ends with NOP there, and a loop's end is settled. -/
def Tdsp.atStart (k : Tdsp) : Tdsp := (if k.issuedC then k.endBundle {} else k).loopReturn

/-- The compute slot of the next bundle: its results, or none where its encoding is illegal. -/
def State.compute (s : State) (t : Fin 8) (f : Tdsp → Option (List InFlight)) : State :=
  if !s.kRuns t then s
  else
    let s := s.modK t Tdsp.atStart
    let k := s.tdsp.get t
    if !k.inRange k.pc.toNat then s.kFault t 3
    else match f k with
      | none => s.kFault t 1
      | some rs => s.modK t (fun k => { k with issuedC := true, curC := rs })

/-- The move slot of a bundle ends it; what it does beside the TDSP's registers follows. -/
def State.move (s : State) (t : Fin 8) (f : State → Tdsp → Move) (after : State → State) : State :=
  if !s.kRuns t then s
  else
    let s := s.modK t (fun k => if k.issuedC then k else k.loopReturn)
    let k := s.tdsp.get t
    if !k.inRange k.pc.toNat then s.kFault t 3
    else
      let m := f s k
      if m.fault ≠ 0 then s.kFault t m.fault else after (s.modK t (fun k => k.endBundle m))

/-! ### Control transfers (R282) -/

/-- Whether the bundle at pc is one of the last two of an active loop's body. -/
def Tdsp.loopTail (k : Tdsp) : Bool :=
  (List.finRange 2).any (fun l => k.active l && decide ((k.ls.get l).toNat ≤ k.pc.toNat ∧ k.pc.toNat ≤ (k.le.get l).toNat ∧
    (k.le.get l).toNat ≤ k.pc.toNat + 1))

/-- A control transfer to a bundle: `kind` 0 a jump, 1 RETI, 2 a branch not taken. In a forbidden position it faults. -/
def Tdsp.transfer (k : Tdsp) (target : BitVec 15) (kind : Nat) (res : List InFlight) : Move :=
  if k.inDelay || k.loopTail then { fault := 2 }
  else { res := { reg := .pc, val := target.toNat, valQ := kind, left := 3, mac := false } :: res }

/-! ### The accumulator a MAC-class instruction sees (R281) -/

/-- The value of an accumulator, and with chaining the one a MAC of the bundle before leaves. -/
def Tdsp.acc (k : Tdsp) (a : Fin 8) : Int × Int := ((k.accI.get a).toInt, (k.accQ.get a).toInt)
def Tdsp.accMac (k : Tdsp) (a : Fin 8) : Int × Int :=
  match k.flight.find? (fun x => decide (x.reg = .acc a) && x.mac && decide (x.left = 1)) with
  | some x => (x.val, x.valQ)
  | none => k.acc a

/-- The accumulator 4h + j and the register 4q + j. -/
def acc4 (h : Fin 2) (j : Fin 4) : Fin 8 := ⟨4 * h.val + j.val, by omega⟩
def win4 (q : Fin 4) (j : Fin 4) : Fin 16 := ⟨4 * q.val + j.val, by omega⟩

/-- The four MACs of CMAC4 and FTAP. -/
def Tdsp.mac4 (k : Tdsp) (h : Fin 2) (q : Fin 4) (c : Fin 16) (f : TFlags) : List InFlight :=
  (List.finRange 4).flatMap (fun j =>
    accum (acc4 h j) (k.accMac (acc4 h j)) (cprod (k.d.get (win4 q j)) (k.d.get c) f.cj) f.neg f.z)

/-! ### Messages (R302) -/

/-- Messages in the FIFO go out as TDSP_MSG while the Puppeteer runs; the first carries the count dropped since the last. -/
def State.drainMsgs (s : State) (t : Fin 8) : State :=
  if !s.pup.ready then s
  else
    let k := s.tdsp.get t
    let s := s.modK t (fun k => { k with msgs := [], msgLost := if k.msgs.isEmpty then k.msgLost else 0 })
    (k.msgs.foldl (fun (r : State × BitVec 16) m =>
      (r.1.emitNow 0x0B02 (0x0B00 + t.val)
        (le 1 t.val ++ pb m.code ++ pb m.pc ++ pb m.val ++ pb m.seq ++ pb r.2), 0#16)) (s, k.msgLost)).1

/-- EVT puts a message into the FIFO. -/
def State.kernelMsg (s : State) (t : Fin 8) (code : BitVec 8) (pc : BitVec 15) (val : BitVec 32) : State :=
  let s := s.modK t (fun k =>
    if k.msgs.length < 16 then
      { k with msgs := k.msgs ++ [{ code := code, pc := pc.setWidth 16, val := val, seq := k.msgSeq }], msgSeq := k.msgSeq + 1 }
    else { k with msgLost := satAdd k.msgLost 1, msgDrop := satAdd k.msgDrop 1 })
  s.drainMsgs t

/-! ### Start (R275, R309) -/

/-- The registers of a kernel at its start, running from an entry. -/
def Tdsp.begin (k : Tdsp) (entry : Nat) : Tdsp :=
  { k with
    state := .running, stall := .none, flight := [], curC := [], issuedC := false, loopDue := false, wbuf := []
    d := Vector.replicate 16 0, accI := Vector.replicate 8 0, accQ := Vector.replicate 8 0, p := Vector.replicate 8 0
    m := Vector.replicate 8 0, l := Vector.replicate 8 0, b := Vector.replicate 8 0, lc := Vector.replicate 2 0
    ls := Vector.replicate 2 0, le := Vector.replicate 2 0, scale := 0, status := 0x10
    imask := match k.image with
      | some i => i.claims
      | none => 0
    iret := 0, pc := BitVec.ofNat 15 entry, bfpMax := 0, diRun := 0, timer := 0 }

/-- Whether a kernel may start: one is loaded and R308 does not hold it. -/
def State.kernelReady (s : State) (t : Fin 8) : Bool :=
  let k := s.tdsp.get t
  decide (k.state ≠ .empty ∧ k.state ≠ .loading) && (match k.image with
    | some i => !(i.resUse && s.estReg t)
    | none => false)

/-! ### Register values (R313) -/

def KState.code : KState → Nat
  | .empty => 0
  | .loaded => 1
  | .running => 2
  | .idle => 3
  | .stopped => 4
  | .fault => 5
  | .loading => 6

def regTdspStat (s : State) (t : Fin 8) : Nat :=
  let k := s.tdsp.get t
  let res := match k.image with
    | some i => i.resUse
    | none => false
  (if k.state = .fault then k.faultPc else k.pc).toNat * 2 ^ 16 + k.cause.toNat * 2 ^ 8 + b2n k.dbPend * 128 + b2n res * 64 +
  b2n (s.estReg t) * 32 + b2n (k.status.getLsbD 4) * 16 + k.state.code
/-- TDSP_SHARE: the shares of the last interval of 10 ms that is over; before one is over, the reset value (log 43). -/
def regTdspShare (s : State) (t : Fin 8) : Nat :=
  let w := s.time.ticks / 9830400
  if w = 0 then 0 else
  (Config.tdspShare 0 t.val w).toNat * 2 ^ 16 + (Config.tdspShare 1 t.val w).toNat
def regTdspKid (k : Tdsp) : Nat :=
  match k.image with
  | some i => i.kid.toNat
  | none => 0
def regTdspCnt (k : Tdsp) : Nat :=
  k.faults.toNat * 2 ^ 24 + k.estStops.toNat * 2 ^ 16 + k.msgDrop.toNat * 2 ^ 8 + k.longDi.toNat

end Sys2Proof.Machine
end

