-- ==== Sys2Proof/Machine/Thermal.lean ====
section
/-! DEFINITION. Temperature, voltage and process monitoring: model updates and thresholds, throttle, shutdown and THERMAL_HALT,
bands, slow rounds and the HK_ commands (16_thermal.md). -/

namespace Sys2Proof.Machine

/-! ### Regions -/

/-- Change one region. -/
def State.modRegion (s : State) (r : Fin 12) (f : Region → Region) : State := { s with hk.regions := vmod s.hk.regions r f }

/-- The highest estimate: 0x8000, lower than every reading, where there is none. -/
def State.hottest (s : State) : BitVec 16 :=
  BitVec.ofInt 16 ((s.hk.regions.toList.map (fun r => r.est.toInt)).foldl max (-32768))

/-- The region with the highest estimate, the lowest of equals (R461). -/
def State.hotRegion (s : State) : Nat := (s.hk.regions.toList.findIdx? (fun r => decide (r.est = s.hottest))).getD 0

/-- Thresholds in 1/64 °C (R460). -/
def warnTrip : Int × Int := (6400, 6144)
def throttleTrip : Int × Int := (6912, 6656)
def shutTrip : Int × Int := (7552, 6400)
def cutAt : Int := 7872

/-- One evaluation of a threshold (R460): four in a row trip or release it. -/
def Trip.eval (x : Trip) (th : Int × Int) (est : Int) : Trip :=
  if (if x.tripped then decide (est ≤ th.2) else decide (th.1 ≤ est)) then
    if x.run = 3 then { tripped := !x.tripped, run := 0 } else { x with run := x.run + 1 }
  else { x with run := 0 }

/-! ### Throttle (R462 to R466) -/

/-- Overlap steps in force. -/
def State.overlapStep (s : State) : BitVec 2 :=
  if s.hk.applied.contains (2 : BitVec 3) then 2 else if s.hk.applied.contains (1 : BitVec 3) then 1 else 0

/-- Whether a beam is suppressed (R465). -/
def State.beamHalved (s : State) (tx : Bool) (b : Fin 32) : Bool := s.hk.halved && (s.beam.dir tx).active.halved b

/-- The narrowband stages of the beams whose suppression changes restart at the next grid sample (R153, R465), up to which it is as it
was. -/
def State.halveDir (s : State) (tx : Bool) : State :=
  let d := s.beam.dir tx
  let eff := s.grid4 s.time.ticks
  let p : PastBank :=
    { till := eff, bank := d.active, aper := s.beam.aper, clear := BitVec.ofNat 32 (maskOf 32 d.active.halved), elems := false,
      cut := false, halved := s.hk.halved }
  let s := s.modDir tx (fun d => { d with past := d.past ++ [p] })
  if tx then s else s.cutChannels d.active d.active eff d.active.halved false

/-- BEAM_HALVE is applied or reverted. -/
def State.setHalve (s : State) (on : Bool) : State :=
  { (s.halveDir false).halveDir true with hk.halved := on }

/-- PD_PAUSE is applied or reverted. -/
def State.setPause (s : State) (on : Bool) : State :=
  (List.finRange 8).foldl (fun s t => (s.modPdTile t (fun x => { x with throttle := on })).pdRefresh t) s

/-- The effect of a step code that is applied or reverted, and THERMAL_THROTTLE: NO_EFFECT is set where BEAM_HALVE, as it is
applied, suppresses no beam (R463 to R465). -/
def State.stepEffect (s : State) (code : BitVec 3) (on : Bool) : State :=
  let hit := (List.finRange 32).any (fun b => s.beam.rx.active.halved b || s.beam.tx.active.halved b)
  let s := if code = 1 ∨ code = 2 then s.throttleOverlap s.overlapStep
    else if code = 3 then s.setPause on
    else if code = 4 then s.setHalve on
    else s
  s.emitNow 0x0902 0x09FF
    (le 1 code.toNat ++ le 1 (b2n on) ++ le 1 (b2n (on && decide (code = 4) && !hit)) ++ pb s.hottest)

/-- The next throttle step is applied, where one is left (R462, R463). -/
def State.applyStep (s : State) : State :=
  match s.hk.order.find? (fun c => !s.hk.applied.contains c) with
  | none => s
  | some c => ({ s with hk.applied := s.hk.applied ++ [c] } : State).stepEffect c true

/-- The last step applied is reverted (R464). -/
def State.revertStep (s : State) : State :=
  match s.hk.applied.getLast? with
  | none => s
  | some c => ({ s with hk.applied := s.hk.applied.dropLast } : State).stepEffect c false

/-- One STEP_INTERVAL from now. -/
def State.nextStep (s : State) : State := { s with hk.stepAt := s.time.ticks + s.hk.interval.toNat * 983040 }

/-- The throttle trips (R463, R464). In THERMAL_HALT its steps go on and act on nothing (R468). -/
def State.throttleOn (s : State) : State :=
  let s := { s with hk := { s.hk with throttle := true, throttles := satAdd s.hk.throttles 1, reverting := false } }
  let s := if s.hk.applied.isEmpty then s.applyStep else s
  s.nextStep

/-- The throttle is released (R464): the steps applied are reverted, the first at once. -/
def State.startRevert (s : State) : State :=
  (({ s with hk.reverting := true } : State).revertStep).nextStep

/-- The throttle is released (R464). -/
def State.throttleOff (s : State) : State := ({ s with hk.throttle := false } : State).startRevert

/-- THROTTLE_STEP (R463): one interval after the last, the next step where the hottest region is still at 108 °C. -/
def execThrottleStep (s : State) : Out :=
  .next (if s.mgmtOn && s.hk.throttle && decide (s.hk.stepAt ≤ s.time.ticks) then
      (if throttleTrip.1 ≤ s.hottest.toInt then s.applyStep else s).nextStep
    else s)

/-- THROTTLE_REVERT (R464): one interval after the last reversion, the next. -/
def execThrottleRevert (s : State) : Out :=
  .next (if s.mgmtOn && !s.hk.throttle && s.hk.reverting && !s.hk.applied.isEmpty &&
        decide (s.hk.stepAt ≤ s.time.ticks) then s.revertStep.nextStep
    else s)

/-! ### Shutdown and THERMAL_HALT (R467 to R470) -/

/-- Whether a page of a calibration store is being programmed: its four blocks are erased (R445, R449). -/
def State.pageRuns (s : State) : Bool :=
  match s.cal.store with
  | some r => decide (4 ≤ r.erased) && decide (s.pup.job = .calStore)
  | none => false

/-- Shutdown trips (R467): the events and lines, streaming stops, every tile is muted, claims end, a store's erase stops, and an
entry into DOZE or RETAIN in phase 1 is refused (R441, R449, R486). -/
def State.shutdownOn (s : State) (r : Fin 12) (est : BitVec 16) : State :=
  let s := { s with hk.shutdowns := satAdd s.hk.shutdowns 1 }
  if s.hk.shutdown || s.hk.halt then s
  else
    let s := { s with
      hk.shutdown := true
      hk.cut := 0
      hk.shutAt := s.time.ticks + 4425
      pup.irq := s.pup.irq ||| 0x40#8 }
    let s := s.emitNow 0x0903 (0x0900 + r.val) (le 1 r.val ++ pb est)
    let s := (List.finRange 8).foldl (fun s t => s.claimCut t) s.noteMutes
    let s := if s.pageRuns then s else s.storeEnd stAborted
    match s.pw.entry with
    | some e => if e.phase2.isSome then s else s.pwRefuse 14 10
    | none => s

/-- 123 °C before step 5 (R469): steps 1 and 3 are cut short, the page in progress is left partly written. `trip` says that the
packet of step 1 may still be under way. -/
def State.shutCut (s : State) (trip : Bool) : State :=
  if !s.hk.shutdown then s
  else
    let page := s.pageRuns
    let s := { s with hk := { s.hk with
      cut := s.hk.cut ||| BitVec.ofNat 3 (b2n (trip && s.link.up) + 4 * b2n page)
      shutAt := if page then max s.hk.shutAt (s.time.ticks + 2458) else s.hk.shutAt } }
    if page then s.storeEnd stAborted else s

/-- Step 4 on a tile: OUT in OFF, what it had begun ends. -/
def State.tileShut (s : State) (t : Fin 8) : State :=
  let now := s.time.ticks
  let s := s.slotEnd t false
  let s := s.endBurst t now true
  let pend := (s.radio.get t).transit.bind (fun x => x.done)
  let s := s.modRadio t (fun r =>
    ({ (r.endRetune now) with
      state := .off, transit := none, next := none, use := .out, burst := none, leadAt := none, lagEnd := none, txPat := none
      lo := none }).note now (some .off))
  let s := match pend with
    | some a => s.actionDone (tileQ t) a.handle a.kind.toNat a.time stAborted s.nowT
    | none => s
  let s := s.burstEnd t
  let s := s.modPll (rfPll t) (fun p => { p with lock := false, busy := false, retryAt := none, planned := false })
  let s := s.modRes t (fun r =>
    { r with
      orx.user := .none
      orx.busy := false
      orx.startAt := none
      orx.endAt := none
      orx.reqCal := none
      orx.reqKern := none })
  s.modPdTile t (fun x => { x with estBusy := none, stale := false, capBusy := none, capBroken := false, cap := [] })

/-- Steps 4 and 5 (R467): queued actions are ABORTED, tiles are OUT in OFF, the mask is 0x00, beam and element flows end, sources
stop, THERMAL_HALT is entered. -/
def State.enterHalt (s : State) : State :=
  let eff := s.grid4 s.time.ticks
  let s := (List.finRange 9).foldl (fun (s : State) (q : Fin 9) =>
    (s.time.queues.get q).acts.foldl (fun (s : State) a => s.discard q a stAborted) s) s
  let s := (s.beam.swaps.filter (fun w => w.effAt.isSome)).foldl (fun (s : State) w => s.swapEffect w (w.effAt.getD eff)) s.endPicks
  let s := (List.finRange 8).foldl (fun s t => s.tileShut t) s
  let old := s.beam.aper
  let gone := fun (d : BeamDir) => { d with past := d.past ++
    [{ till := eff, bank := d.active, aper := old, clear := 0xFFFFFFFF, elems := true, cut := true, halved := s.hk.halved }] }
  let s := { s with beam := { s.beam with aper := 0, swapAt := eff, swaps := [], rx := gone s.beam.rx, tx := gone s.beam.tx } }
  let s := s.emit 0x0302 0x03FF (eff * 256) (pb old ++ le 1 0 ++ le 2 0xFFFF)
  let s := (List.finRange 64).foldl (fun (s : State) f =>
    let s := if (s.link.rxFlows.get f).src.isBeam then unbindRx s f.val else s
    if (s.link.txFlows.get f).src.isBeam then unbindTx s f.val else s) s
  let s := (s.sourcesLost (fun _ => true)).relead.rehorizon.checkStitch
  let s := { s with hk := { s.hk with shutdown := false, halt := true } }
  s.emitNow 0x0904 0x09FF (le 1 s.hk.cut.toNat)

/-- THERMAL_HALT_ENTRY (R467, R469): once the ramp and the page in progress are done and the tiles have had 2,458 ticks. -/
def execThermalHaltEntry (s : State) : Out :=
  .next (if s.mgmtOn && s.hk.shutdown && decide (s.hk.shutAt ≤ s.time.ticks) && !s.pageRuns then s.enterHalt else s)

/-- HK_RESUME (R470). -/
def execHkResume (h : CmdHdr) (s : State) : Out :=
  .next (serve h { opcode := 0x0904, role := some .operator, params := [] }
    (fun s =>
      if !s.hk.halt || s.hk.regions.toList.any (fun r => r.shut.tripped) then refuse stBadState s
      else
        let s := { s with hk := { s.hk with halt := false, cut := 0 } }
        done (s.emitNow 0x0905 0x09FF (pb s.hottest)))
    s)

/-! ### Bands (R265, R417, R318, R471) -/

/-- Band code after an evaluation, 0 for band 1 to 3 for band 4: it rises above a limit and falls 2 °C below it. -/
def bandNext (cur : Nat) (est : Int) : Nat :=
  let up := max cur (b2n (decide (5440 < est)) + b2n (decide (6080 < est)) + b2n (decide (6720 < est)))
  let a := if up = 3 ∧ est ≤ 6592 then 2 else up
  let b := if a = 2 ∧ est ≤ 5952 then 1 else a
  if b = 1 ∧ est ≤ 5312 then 0 else b

/-- The band of a tile changes. -/
def State.setTileBand (s : State) (t : Fin 8) (n : Nat) : State :=
  let old := (s.hk.tileBand.get t).toNat
  if old = n then s
  else
    let s := ({ s with hk.tileBand := s.hk.tileBand.set t.val (BitVec.ofNat 2 n) t.isLt } : State).convSlew t
    s.emitNow 0x0907 (0x0900 + t.val) (le 1 t.val ++ le 1 (old + 1) ++ le 1 (n + 1))

/-- The band of the lanes changes. -/
def State.setLinkBand (s : State) (n : Nat) : State :=
  let old := s.hk.linkBand.toNat
  if old = n then s
  else ({ s with hk.linkBand := BitVec.ofNat 2 n } : State).emitNow 0x0907 0x090A (le 1 8 ++ le 1 (old + 1) ++ le 1 (n + 1))

/-- The refresh band changes (R265). -/
def State.setDramBand (s : State) (n : Nat) : State :=
  let old := s.hk.dramBand.toNat
  if old = n then s
  else ({ s with hk.dramBand := BitVec.ofNat 2 n } : State).emitNow 0x0606 0x06FF
    (le 1 (old + 1) ++ le 1 (n + 1) ++ pb (s.hk.regions.get 11).est)

/-- The band users of a region follow its estimate while selection is enabled. -/
def State.followBands (s : State) (r : Fin 12) (est : Int) : State :=
  if !s.hk.bandSel then s
  else match fin? 8 r.val with
    | some t => s.setTileBand t (bandNext (s.hk.tileBand.get t).toNat est)
    | none =>
      if r = 10 then s.setLinkBand (bandNext s.hk.linkBand.toNat est)
      else if r = 11 then s.setDramBand (bandNext s.hk.dramBand.toNat est)
      else s

/-! ### Model update (R454 to R461) -/

/-- Values kept against temperature follow their region's estimate (R443). -/
def State.calTemp (s : State) (r : Fin 12) (est : Int) : State :=
  match fin? 8 r.val with
  | some t => s.modCal t (fun x => { x with temp := est })
  | none => if r = 9 then { s with cal.tempE := est } else s

/-- A threshold of a region changes: the device threshold follows (R461). -/
def State.warnChange (s : State) (r : Fin 12) (est : BitVec 16) : State :=
  let on := s.hk.regions.toList.any (fun x => x.warn.tripped)
  if on = s.hk.warned then s
  else
    let s := { s with hk := { s.hk with warned := on, warns := if on then satAdd s.hk.warns 1 else s.hk.warns } }
    s.emitNow 0x0901 (0x0900 + r.val) (le 1 r.val ++ le 1 (b2n on) ++ pb est)

def State.throttleChange (s : State) : State :=
  let on := s.hk.regions.toList.any (fun x => x.throttle.tripped)
  if on = s.hk.throttle then s else if on then s.throttleOn else s.throttleOff

/-- Whether shutdown is tripped in some region. -/
def State.shutTripped (s : State) : Bool := s.hk.regions.toList.any (fun x => x.shut.tripped)

/-- THERMAL_EVALUATION of a region: its model after an interval at a mean power, then its thresholds and bands (R455, R460, R469,
R471). The estimate, which rests on factory values, comes with the event (log 38), as do the power monitor's samples of the interval, which
the SWIFT filter averages (R156). -/
def execThermalEvaluation (r : Fin 12) (est : BitVec 16) (powers : List (BitVec 12)) (s : State) : Out :=
  let x := s.hk.regions.get r
  .next (if s.mgmtOn && x.seen && decide (x.evalAt ≤ s.time.ticks) then
      let e := est.toInt
      let f := x.powerF.run 4 powers
      let power := Config.powerMw r.val f.2.sum f.2.length
      let was := s.shutTripped
      let dt := if 6400 ≤ x.est.toInt then 19661 else 983040
      let amb := s.hk.ta.toInt * 256 + s.hk.bias
      let args : List Int := [dt, power.toNat, s.hk.rha.toNat, s.hk.ch.toNat, e, x.nodeS, x.nodeH, amb]
      let nS := Config.thermalS r.val args
      let nH := Config.thermalH r.val args
      let s := s.modRegion r (fun x =>
        { x with
          est := est, pwr := power, powerF := f.1, nodeS := nS, nodeH := nH
          warn := x.warn.eval warnTrip e, throttle := x.throttle.eval throttleTrip e, shut := x.shut.eval shutTrip e
          wasShut := x.wasShut || x.shut.tripped
          evalAt := s.time.ticks + (if 6400 ≤ e then 19661 else 983040) })
      let s := (s.calTemp r e).followBands r e
      let s := (s.warnChange r est).throttleChange
      let trip := s.shutTripped && !was
      let s := if trip then s.shutdownOn r est else s
      if cutAt ≤ e then s.shutCut trip else s
    else s)

/-! ### Slow rounds (R457 to R459, R473, R474) -/

/-- A region's diode in a slow round. -/
def State.diodeRound (s : State) (r : Fin 12) (d : BitVec 16) : State :=
  let x := s.hk.regions.get r
  let v := d.toInt
  let bad := decide (v < -3840 ∨ 10240 < v)
  let s := s.modRegion r (fun x => { x with diode := d, fault := bad })
  let report := fun (s : State) (fault : Bool) =>
    let s := { s with hk := { s.hk with
      diverge := s.hk.diverge ||| (1#12 <<< r.val), diverges := satAdd s.hk.diverges 1 } }
    s.emitNow 0x0908 (0x0900 + r.val) (le 1 r.val ++ pb d ++ pb x.est ++ le 1 (b2n fault))
  if bad then (if x.fault then s else report s true)
  else if !x.seen then
    s.modRegion r (fun x => { x with est := d, nodeS := v, nodeH := v, seen := true, bigE := 0, evalAt := s.time.ticks })
  else
    let e := v - x.est.toInt
    let big := if 320 < e.natAbs then x.bigE + 1 else 0
    let s := { s with hk.bias := clampI (-327680) 327680 (s.hk.bias + e) }
    if big = 3 then
      report (s.modRegion r (fun x => { x with est := d, nodeS := v, bigE := 0 })) false
    else
      s.modRegion r (fun x =>
        { x with est := BitVec.ofInt 16 (x.est.toInt + ratI e 2), nodeS := x.nodeS + ratI e 4, bigE := big })

/-- Nominal voltages in mV (R473). -/
def railNominal : List Nat := [750, 850, 1000, 900, 1200, 850, 1200, 1100, 1800, 800]

/-- A rail after a measurement (R473): each change needs two rounds in a row. -/
def Rail.measure (x : Rail) (nom : Nat) (mv : BitVec 16) : Rail :=
  let dev := (Int.ofNat mv.toNat - Int.ofNat nom).natAbs * 100
  let toF := if 8 * nom < dev then x.runF + 1 else 0
  let x := { x with mv := mv, runF := toF }
  let step := fun (hit : Bool) (next : RailState) =>
    if hit then (if 1 ≤ x.run then { x with state := next, run := 0 } else { x with run := x.run + 1 }) else { x with run := 0 }
  match x.state with
  | .ok => if 2 ≤ toF then { x with state := .fault, run := 0 } else step (decide (4 * nom < dev)) .warn
  | .warn => if 2 ≤ toF then { x with state := .fault, run := 0 } else step (decide (dev ≤ 2 * nom)) .ok
  | .fault => step (decide (dev ≤ 6 * nom)) .warn

/-- A rail in a slow round: entering FAULT sets its bit and emits RAIL_FAULT. -/
def State.railRound (s : State) (k : Fin 10) (mv : BitVec 16) : State :=
  let old := s.hk.rails.get k
  let new := old.measure (railNominal.getD k.val 0) mv
  let s := { s with hk.rails := s.hk.rails.set k.val new k.isLt }
  if new.state = .fault ∧ old.state ≠ .fault then
    ({ s with hk.vstat := s.hk.vstat ||| (1#10 <<< k.val) } : State).emitNow 0x0906 (0x0900 + k.val) (le 1 k.val ++ pb mv)
  else s

/-- The housekeeping channels take their samples since the last round at the length of their preset (R155, R156). -/
def State.hkSamples (s : State) (diodes volts : List (List (BitVec 12))) : State :=
  { s with hk := { s.hk with
    regions := vmap s.hk.regions (fun r x =>
      { x with diodeF := (x.diodeF.run (s.chan.diodePreset.toNat + 4) (diodes.getD r.val [])).1 })
    rails := vmap s.hk.rails (fun k x =>
      { x with filter := (x.filter.run (s.chan.railPreset.toNat + 4) (volts.getD k.val [])).1 }) } }

/-- SLOW_ROUND: 12 diodes, 10 rails, 12 process monitors and VHOLD_SENSE, every 10 ms. The samples of each diode and rail since the last round,
oldest first, pass its filter, whose last output is the reading (R155, R156). -/
def execSlowRound (diodes volts : List (List (BitVec 12))) (counts devs : List (BitVec 16)) (vhold : BitVec 16) (s : State) : Out :=
  .next (if s.mgmtOn && decide (s.hk.roundAt ≤ s.time.ticks) then
      let s := s.hkSamples diodes volts
      let s := { s with
        hk.roundAt := s.time.ticks + 9830400
        cal.vhold := vhold
        hk.regions := vmap s.hk.regions (fun r x => { x with procCnt := counts.getD r.val 0, procDev := devs.getD r.val 0 }) }
      let s := (List.finRange 12).foldl (fun s r => s.diodeRound r (Config.diodeTemp r.val (s.hk.regions.get r).diodeF.out)) s
      (List.finRange 10).foldl (fun s k => s.railRound k (Config.railMv k.val (s.hk.rails.get k).filter.out)) s
    else s)

/-! ### Register values (R477) -/

def regThermStat (s : State) : Nat :=
  s.hotRegion * 2 ^ 20 + b2n s.hk.halt * 2 ^ 19 + b2n s.hk.shutdown * 2 ^ 18 + b2n s.hk.throttle * 2 ^ 17 +
  b2n s.hk.warned * 2 ^ 16 + s.hk.diverge.toNat
def regThrSteps (h : HkBlock) : Nat :=
  h.applied.length * 2 ^ 24 + h.duty.toNat * 2 ^ 16 +
  (List.range 5).foldl (fun a i => a + (h.order.getD i 7).toNat * 8 ^ i) 0
def regHkBand (h : HkBlock) : Nat :=
  b2n h.bandSel * 2 ^ 20 + h.linkBand.toNat * 2 ^ 18 + h.dramBand.toNat * 2 ^ 16 +
  (List.finRange 8).foldl (fun a t => a + (h.tileBand.get t).toNat * 4 ^ t.val) 0
def regThermCnt (h : HkBlock) : Nat :=
  h.warns.toNat * 2 ^ 24 + h.throttles.toNat * 2 ^ 16 + h.shutdowns.toNat * 2 ^ 8 + h.diverges.toNat
def regHkModel (h : HkBlock) : Nat := h.ch.toNat * 2 ^ 16 + h.rha.toNat
def regHkAmb (h : HkBlock) : Nat := (BitVec.ofInt 16 (ratI h.bias 256)).toNat * 2 ^ 16 + h.ta.toNat
def regHkTemp (x : Region) : Nat := x.diode.toNat * 2 ^ 16 + x.est.toNat
def regHkVolt (x : Rail) : Nat :=
  (match x.state with
   | .ok => 0
   | .warn => 1
   | .fault => 2) * 2 ^ 16 + x.mv.toNat
def regHkProc (x : Region) : Nat := x.procDev.toNat * 2 ^ 16 + x.procCnt.toNat

/-! ### Commands (R475, R542) -/

/-- HK_MODEL_CFG (R456). -/
def execHkModelCfg (h : CmdHdr) (rha ch ta : BitVec 16) (s : State) : Out :=
  .next (serve h
    { opcode := 0x0901, role := some .installer, journal := true, params := pb rha ++ pb ch ++ pb ta }
    (fun s => checks
      [(stBadParam, decide (rha.toNat < 10 ∨ 5000 < rha.toNat)), (stBadParam, decide (ch.toNat < 1 ∨ 10000 < ch.toNat)),
       (stBadParam, decide (ta.toInt < -3200 ∨ 5440 < ta.toInt))] s (fun _ =>
        done { s with hk := { s.hk with rha := rha, ch := ch, ta := ta } }))
    s)

/-- The step codes of a list that 0xFF ends: what follows the end is 0xFF too. -/
def stepList : List (BitVec 8) → Option (List (BitVec 3))
  | [] => some []
  | c :: cs =>
    if c = 0xFF then (if cs.all (fun x => decide (x = 0xFF)) then some [] else none)
    else if 1 ≤ c.toNat ∧ c.toNat ≤ 5 then (stepList cs).map (fun l => BitVec.ofNat 3 c.toNat :: l)
    else none

/-- Whether a step list is one of R462: each code once, OVERLAP_0 after OVERLAP_50. -/
def stepsOk (l : List (BitVec 3)) : Bool :=
  !hasDup (l.map (fun c => c.toNat)) && (!l.contains 2 || (l.takeWhile (fun c => decide (c ≠ 2))).contains 1)

/-- HK_THROTTLE_CFG (R462, R463, R466). -/
def execHkThrottleCfg (h : CmdHdr) (steps : List (BitVec 8)) (interval : BitVec 16) (duty : BitVec 8) (s : State) : Out :=
  .next (serve h
    { opcode := 0x0902, role := some .installer, journal := true, params := padTo 5 steps ++ pb interval ++ pb duty }
    (fun s => checks
      [(stBadParam, decide (interval.toNat < 1 ∨ 10000 < interval.toNat)),
       (stBadParam, decide (duty.toNat < 10 ∨ 90 < duty.toNat)),
       (stBadParam, match stepList (padTo 5 steps) with
          | some l => !stepsOk l
          | none => true),
       (stBadState, s.hk.throttle)] s (fun _ =>
        done { s with hk := { s.hk with
          order := (stepList (padTo 5 steps)).getD [], interval := interval, duty := duty } }))
    s)

/-- HK_BAND_CFG (R471): while selection is disabled every user is in band 4. -/
def execHkBandCfg (h : CmdHdr) (enable : BitVec 8) (s : State) : Out :=
  .next (serve h { opcode := 0x0903, role := some .installer, journal := true, params := pb enable }
    (fun s => checks [(stBadParam, decide (1 < enable.toNat))] s (fun _ =>
      let s := { s with hk.bandSel := decide (enable = 1) }
      done (if enable = 1 then s
        else (((List.finRange 8).foldl (fun s t => s.setTileBand t 3) s).setLinkBand 3).setDramBand 3)))
    s)

/-- HK_STATUS (R475, R528). -/
def execHkStatus (h : CmdHdr) (s : State) : Out :=
  .next (serve h { opcode := 0x0905, role := some .operator, params := [] }
    (fun s => doneR
      (le 4 (regThermStat s) ++ le 4 (regThrSteps s.hk) ++ le 4 (regHkBand s.hk) ++ le 4 s.hk.vstat.toNat ++
        le 4 (regThermCnt s.hk)) s)
    s)

/-- HK_READ (R475). -/
def execHkRead (h : CmdHdr) (cls : BitVec 8) (s : State) : Out :=
  .next (serve h { opcode := 0x0906, role := some .operator, params := pb cls }
    (fun s => checks [(stBadParam, decide (3 < cls.toNat))] s (fun _ =>
      let rs := s.hk.regions.toList
      doneR
        (if cls = 0 then rs.flatMap (fun x => le 4 (regHkTemp x))
         else if cls = 1 then rs.flatMap (fun x => le 4 x.pwr.toNat)
         else if cls = 2 then s.hk.rails.toList.flatMap (fun x => le 4 (regHkVolt x))
         else rs.flatMap (fun x => le 4 (regHkProc x))) s))
    s)

end Sys2Proof.Machine
end

