-- ==== Sys2Proof/Machine/Puppeteer.lean ====
section
/-! DEFINITION. Supplies and reset, boot and restart of the Puppeteer, the host port's own registers, firmware images, flash work
and the journal's writes (18_puppeteer.md, 20_roles.md R560 to R565, 21_package_and_pins.md R579, 22_electrical.md R585). -/

namespace Sys2Proof.Machine

/-! ### Supplies and RESET_N (R481, R497, R578, R579, R585) -/

/-- POWER_UP_VDDIO: VDDIO and the AO supply are in range, and the pads take their reset-low states. -/
def execPowerUpVddio (s : State) : Out :=
  .next (if s.pw.vddio then s else { s with pw := { s.pw with vddio := true, padsReset := true } })

/-- Rails that may be off in RETAIN (R578): VDD_SRAM while no bank, VDD_DRAM while no unit is retained. -/
def State.railSpare (s : State) (rail : Fin 10) : Bool :=
  rail.val = 0 || (decide (2 ≤ rail.val ∧ rail.val ≤ 6)) || (rail.val = 1 && decide (s.pw.retain = 0)) ||
  (rail.val = 7 && decide (s.aq.retain = 0))

/-- SUPPLY_REMOVED (R481, R585): a rail that RETAIN does not allow to be off takes the device to OFF, where nothing is kept. -/
def execSupplyRemoved (rail : Fin 10) (s : State) : Out :=
  .next (if decide (s.pw.dev = .retain) && s.railSpare rail then s
    else
      let io := s.pw.vddio && decide (rail.val < 8)
      let high := s.resetN
      let s := s.cold
      { s with resetN := high, pw.dev := .off, pw.vddio := io, pw.padsReset := io })

/-- RESET_N_ASSERT (R481): every state ends and every pad group is released. -/
def execResetNAssert (s : State) : Out :=
  .next (if !s.resetN then s
    else if !s.pw.vddio then { s with resetN := false }
    else if s.pw.dev = .off then { s with resetN := false }
    else s.cold)

/-- RESET_N_RELEASE (R41, R413, R424, R497): BOOTMODE is sampled, device time starts at 0:0 on the safe clock, the PLLs of boot
relock, and the ROM starts. -/
def execResetNRelease (bootmode : BitVec 2) (refclk : Bool) (s : State) : Out :=
  .next (if s.resetN || !s.pw.vddio then s
    else
      let s := { s with
        resetN := true
        pw := { s.pw with dev := .active, padsReset := false }
        pup.mode := bootmode
        time.dspRuns := true
        clk := { s.clk with refOk := refclk, fbosc := !refclk, mgmtSafe := true, dspSafe := true } }
      let s := [0, 1, 2, 5].foldl (fun (s : State) (p : Fin 16) => s.relock p true) s
      s.romBoot .boot s.bootOrder false false s.time.ticks)

/-! ### Boot and restart (R499, R513 to R519) -/

/-- Cause codes of PUPPETEER_UP. -/
def BootCause.code : BootCause → Nat
  | .boot => 1
  | .fwRestart => 2
  | .lockstep => 3
  | .watchdog => 4

/-- Whether the boot that runs may set READY: the PLLs of a boot are locked, the commands that FW_RESTART lets complete are
answered. -/
def State.bootDone (s : State) (b : BootRun) : Bool :=
  match b.cause with
  | .boot => !s.clk.refOk || ([0, 1, 2, 5] : List (Fin 16)).all (fun p => (s.clk.plls.get p).lock)
  | .fwRestart => s.pup.busy.toList.all (fun x => x.isNone)
  | _ => true

/-- What firmware does with the journal and the calibration values when it starts from reset or a wake: the next index, the entry of
a cut JOURNAL_ERASE, the record in use (R446, R564, R565). After a wake from RETAIN with bank 7 the values are those it held. -/
def State.bootAdopt (s : State) (b : BootRun) : State :=
  if b.cause ≠ .boot then s
  else
    let s := { s with pup.jNext := BitVec.ofNat 32 s.jScan }
    let s := match s.pup.jTorn with
      | none => s
      | some e => { (s.writeEntry e) with pup.jTorn := none }
    if b.fromWake && s.pw.bank7Ok then s else s.calBoot

/-- Commands that a fault interrupted before their commit are answered INTERNAL; those that wait for their journal entry, and a
JOURNAL_ERASE, go on (R513). -/
def State.bootAnswers (s : State) (b : BootRun) : State :=
  if b.cause ≠ .lockstep ∧ b.cause ≠ .watchdog then s
  else (List.finRange 4).foldl (fun (s : State) m => match s.pup.busy.get m with
    | some p => if p.waits = .journal ∨ p.waits = .jErase then s else s.complete m stInternal [] none
    | none => s) s

/-- FIRMWARE_READY (R446, R493, R513, R519): the firmware adopts the configuration, sets READY and emits PUPPETEER_UP; after a wake
from RETAIN PW_WOKE too; a store that the restart cut reports ABORTED. -/
def execFirmwareReady (s : State) : Out :=
  .next (match s.pup.boot with
  | none => s
  | some b =>
    if !s.mgmtOn || s.pup.halted || !s.bootDone b then s
    else
      let s := s.bootAdopt b
      let s := { s with pup := { s.pup with ready := true, restarting := false, recovery := false, boot := none } }
      let s := s.emitNow 0x0102 0x01FF
        (le 1 b.cause.code ++ le 1 (b2n b.slotB) ++ le 1 (b2n b.fallback) ++ pb s.pup.fwVer ++
          le 2 ((s.time.ticks - b.start) / 983040))
      let s := (List.finRange 8).foldl (fun (s : State) (t : Fin 8) => s.drainMsgs t) s
      let s := if b.cause = .boot then s else s.storeEnd stAborted
      let s := if b.fromWake then
          let s := { s with pw := { s.pw with wakeCnt := satAdd s.pw.wakeCnt 1, prev := 1 } }
          s.emitNow 0x0912 0x09FF
            (le 1 1 ++ le 1 s.pw.source.toNat ++ le 1 s.pw.retried.toNat ++ pb s.pw.sleepCnt ++ le 1 (b2n s.pw.bank7Ok))
        else s
      s.bootAnswers b)

/-- TRIAL_BOOT_TIMEOUT (R517): an image on trial has not set READY within 300 ms: the ROM boots the other slot. -/
def execTrialBootTimeout (s : State) : Out :=
  .next (match s.pup.boot with
  | none => s
  | some b =>
    if !s.mgmtOn || !b.trial || decide (s.time.ticks < b.start + 294912000) then s
    else
      let s := { s with pup.rejected := s.pup.rejected ||| slotBit b.slotB }
      s.romBoot b.cause [!b.slotB] true b.fromWake b.start)

/-- WATCHDOG_EXPIRY: 100 ms without service (R513, R515). -/
def execWatchdogExpiry (s : State) : Out := .next (s.faultRestart .watchdog)

/-- LOCKSTEP_FAULT (R496, R513, R515). -/
def execLockstepFault (s : State) : Out := .next (s.faultRestart .lockstep)

/-! ### The host port's registers (R503, R507, R510, R520) -/

/-- Whether the host port answers beyond its AO registers: not in RETAIN, nor in a wake before READY (R509). -/
def State.portOpen (s : State) : Bool :=
  s.mgmtOn && !(match s.pup.boot with
    | some b => b.fromWake
    | none => false)

/-- A write that the port ignores outside (R509). -/
def State.portWrite (s : State) (f : State → State) : State :=
  if s.portOpen then f s else if s.pw.vddio ∧ s.resetN then { s with pup.frameErr := true } else s

/-- HP_MB_CTAIL is written: the doorbell (R503, R507). -/
def State.doorbell (s : State) (m : Fin 4) (data : BitVec 32) : State :=
  let c : BitVec 6 := data.setWidth 6
  if s.pup.mbCfg.getLsbD m.val || decide (32 < (c - s.pup.chead.get m).toNat) then { s with pup.ringErr := true }
  else { s with pup.ctail := s.pup.ctail.set m.val c m.isLt }

/-- HP_MB_CFG is written: a binding changes only while its mailbox is empty. -/
def State.bindMb (s : State) (data : BitVec 32) : State :=
  let v : BitVec 4 := data.setWidth 4
  if (List.finRange 4).any (fun m =>
      (v.getLsbD m.val != s.pup.mbCfg.getLsbD m.val) && decide (s.pup.chead.get m ≠ s.pup.ctail.get m)) then
    { s with pup.ringErr := true }
  else { s with pup.mbCfg := v }

/-- HP_WAKE_CTL is written (R489, R494). -/
def State.wakeCtl (s : State) (data : BitVec 32) : State :=
  let s := { s with pw := { s.pw with timerEn := data.getLsbD 2, pinEn := data.getLsbD 1 } }
  if data.getLsbD 0 then s.wakeRequest 2 else s

/-- Whether the AO registers answer: in every state but OFF. -/
def State.aoOn (s : State) : Bool := s.resetN && s.pw.vddio && decide (s.pw.dev ≠ .off)

/-- MB_DOORBELL (R503). -/
def execMbDoorbell (mb : Fin 4) (data : BitVec 32) (s : State) : Out := .next (s.portWrite (fun s => s.doorbell mb data))

/-- A write of HP_MB_CFG (R507). -/
def execHpMbCfgWrite (data : BitVec 32) (s : State) : Out := .next (s.portWrite (fun s => s.bindMb data))

/-- A write of HP_EVT_RD (R510): a value ahead of HP_EVT_WR is ignored. -/
def execHpEvtRdWrite (data : BitVec 32) (s : State) : Out := .next (s.portWrite (fun s => s.releaseEvts (data.setWidth 9)))

/-- A write of HP_WAKE_CTL (R489). -/
def execHpWakeCtlWrite (data : BitVec 32) (s : State) : Out := .next (if s.aoOn then s.wakeCtl data else s)

/-- A write of HP_PAD_RELEASE (R488, R581): each 1 releases its group. -/
def execHpPadReleaseWrite (data : BitVec 32) (s : State) : Out :=
  .next (if s.aoOn then s.releasePads (data.setWidth 11) else s)

/-! ### Class 0x01 commands (R516 to R518, R531) -/

/-- SYS_INFO. -/
def execSysInfo (h : CmdHdr) (s : State) : Out :=
  .next (serve h { opcode := 0x0101, role := some .operator, params := [] }
    (fun s => doneR (le 4 hpId ++ le 4 hpRev ++ pb s.pup.fwVer ++ le 4 (regHpBoot s.pup) ++ pb s.pup.restarts) s)
    s)

/-- The bytes of a chunk cut at page boundaries, each with its flash address. -/
def pagesOf : Nat → Nat → List Byte → List (Nat × List Byte)
  | 0, _, _ => []
  | n + 1, a, bs =>
    if bs.isEmpty then [] else
      let k := 256 - a % 256
      (a, bs.take k) :: pagesOf n (a + k) (bs.drop k)

/-- FW_STAGE (R516): a chunk of an image for the slot not in use. The chunk at offset 0 erases the slot and is held. -/
def execFwStage (h : CmdHdr) (offset length ptr : BitVec 32) (final : BitVec 8) (s : State) : Out :=
  let n := length.toNat
  .next (serve h
    { opcode := 0x0102, role := some .installer, journal := true, params := pb offset ++ pb length ++ pb ptr ++ pb final,
      ptrs := [(ptr.toNat, n)] }
    (fun s =>
      let o := offset.toNat
      let want := match s.pup.stage with
        | some x => x.next
        | none => 0
      let bytes := memRead 0 s.pup.mbRam ptr.toNat n
      checks
        [(stBadState, s.hk.halt),
         (stBadParam, decide (n < 4 ∨ 32768 < n ∨ n % 4 ≠ 0 ∨ 1 < final.toNat ∨ 459008 < o + n)),
         (stBadParam, decide (o ≠ 0 ∧ o ≠ want)),
         (stBusy, s.cal.store.isSome || s.journalBusy || decide (s.pup.job ≠ .none)),
         (stTemp, s.tempForbidden)] s (fun _ =>
        if o = 0 then
          let b := !s.pup.slotB
          ({ status := stDone, wait := some .fwStage },
            { s with pup := { s.pup with
                stage := some { slotB := b, next := n, held := bytes, todo := [], final := decide (final = 1), checked := false }
                fresh := s.pup.fresh &&& ~~~(slotBit b), rejected := s.pup.rejected &&& ~~~(slotBit b)
                job := .stageErase 0 } })
        else
          ({ status := stDone, wait := some .fwStage },
            { s with pup := { s.pup with
                stage := s.pup.stage.map (fun x =>
                  { x with
                    next := o + n, final := decide (final = 1), todo := pagesOf 130 (slotBase x.slotB + o) bytes })
                job := .stageWrite } })))
    s)

/-- FW_RESTART (R513, R517). -/
def execFwRestart (h : CmdHdr) (slot : BitVec 8) (s : State) : Out :=
  .next (serve h { opcode := 0x0103, role := some .installer, journal := true, params := pb slot }
    (fun s =>
      let b := if slot = 0 then s.pup.slotB else decide (slot = 2)
      checks [(stBadParam, decide (2 < slot.toNat)), (stBadParam, decide (s.imageCause b ≠ 0))] s (fun _ =>
        accepted (s.restart .fwRestart [b])))
    s)

/-- FW_SLOT_INFO. -/
def execFwSlotInfo (h : CmdHdr) (s : State) : Out :=
  .next (serve h { opcode := 0x0104, role := some .operator, params := [] }
    (fun s => doneR ([false, true].flatMap (fun b =>
      le 1 (b2n (decide (s.imageCause b = 0))) ++ pb (s.imgVersion b) ++ pb (s.imgSeq b) ++
        le 1 (b2n (decide (s.pup.rejected &&& slotBit b ≠ 0))))) s)
    s)

/-! ### Flash work (R449, R516, R556, R562, R565) -/

/-- The command that waits for flash work is answered. -/
def State.flashAnswer (s : State) (w : WaitFor) (st : BitVec 8) : State :=
  match s.waiter w with
  | some m => s.complete m st [] none
  | none => s

/-- The pages of a staged chunk are all programmed: after the FINAL chunk the image is verified, the rest of the held chunk and then
the header page follow; after them the slot holds the image (R516). -/
def State.stageNext (s : State) (x : StageRun) : State :=
  if !x.todo.isEmpty then s
  else if !x.final then ({ s with pup.job := .none } : State).flashAnswer .fwStage stDone
  else if x.checked then
    let s := { s with pup := { s.pup with job := .none, stage := none, fresh := s.pup.fresh ||| slotBit x.slotB } }
    let ev := fun (s : State) => s.emitNow 0x0103 0x01FF
      (le 1 (b2n x.slotB) ++ pb (s.imgVersion x.slotB) ++ pb (s.imgSeq x.slotB))
    match s.waiter .fwStage with
    | some m => (s.emitFor m ev).complete m stDone [] none
    | none => ev s
  else if (s.flashWrite (slotBase x.slotB) x.held).imageCause x.slotB = 0 then
    let a := slotBase x.slotB
    { s with pup := { s.pup with
        stage := some { x with checked := true, todo := pagesOf 130 (a + 256) (x.held.drop 256) ++ [(a, x.held.take 256)] }
        job := .stageWrite } }
  else ({ s with pup := { s.pup with job := .none, stage := none } } : State).flashAnswer .fwStage stBadParam

/-- One page of a staged image. -/
def State.stagePage (s : State) : State :=
  match s.pup.stage with
  | none => { s with pup.job := .none }
  | some x =>
    match x.todo with
    | [] => s
    | (a, bs) :: rest =>
      let x := { x with todo := rest }
      ({ (s.flashWrite a bs) with pup.stage := some x } : State).stageNext x

/-- A key record is complete (R556): KEY_SET is answered, and the sessions of its role other than the issuer end. -/
def State.keyDone (s : State) (r : Nat) (issuer : BitVec 8) : State :=
  let s := { s with pup.job := .none }
  let fin := fun (s : State) => (List.finRange 8).foldl (fun (s : State) i =>
    match s.pup.sessions.get i with
    | .opened x _ _ => if x.rank = r ∧ issuer.toNat ≠ i.val + 1 then s.endSession i 1 else s
    | _ => s) s
  match s.waiter .keySet with
  | some m => (s.emitFor m fin).complete m stDone [] none
  | none => fin s

/-- FLASH_PROGRAM_DONE: a page is programmed, and the next follows or the work ends. After a thermal shutdown the device waits 2,458
ticks more (R467). -/
def execFlashProgramDone (s : State) : Out :=
  .next (if !s.mgmtOn then s
    else match s.pup.job with
    | .calStore =>
      match s.cal.store with
      | some r =>
        if r.erased < 4 then s
        else
          let s := s.storePage r
          if s.hk.shutdown then { s with hk.shutAt := max s.hk.shutAt (s.time.ticks + 2458) } else s
      | none => s
    | .keyRecord b bytes r issuer 1 =>
      { (s.flashWrite (keyBase b + 8) (bytes.drop 8)) with pup.job := .keyRecord b bytes r issuer 2 }
    | .keyRecord b bytes r issuer 2 => (s.flashWrite (keyBase b) (bytes.take 8)).keyDone r issuer
    | .stageWrite => s.stagePage
    | _ => s)

/-- JOURNAL_ERASE has erased its last sector (R565): entry 0 records it, and it answers DONE. -/
def State.eraseDone (s : State) : State :=
  let s := { s with pup := { s.pup with job := .none, jNext := 0, jBoot := 0 } }
  match s.waiter .jErase with
  | none => s
  | some m =>
    match s.pup.busy.get m with
    | none => s
    | some p =>
      let s := match p.entry with
        | some e => s.writeEntry { e with status := stDone, time := s.nowT, boot := 0 }
        | none => s
      s.answer m { p with status := stDone, entry := none }

/-- FLASH_ERASE_DONE: a block or sector is erased; the firmware's own work first, else the sector ahead of the journal. -/
def execFlashEraseDone (s : State) : Out :=
  let ahead := match s.pup.jSector with
    | some k => { (s.flashErase (0x400000 + k * 4096) 4096) with pup.jSector := none }
    | none => s
  .next (if !s.mgmtOn then s
    else match s.pup.job with
    | .calStore =>
      match s.cal.store with
      | some r => if r.erased < 4 then s.storeSector r else ahead
      | none => ahead
    | .keyRecord b bytes r issuer 0 =>
      { (s.flashErase (keyBase b) 4096) with pup.job := .keyRecord b bytes r issuer 1 }
    | .journalErase n =>
      let s := { (s.flashErase (0x400000 + n * 4096) 4096) with pup.job := .journalErase (n + 1) }
      if n = 63 then s.eraseDone else s
    | .stageErase n =>
      match s.pup.stage with
      | none => { s with pup.job := .none }
      | some x =>
        let s := s.flashErase (slotBase x.slotB + n * 65536) 65536
        if n = 15 then s.stageNext x else { s with pup.job := .stageErase (n + 1) }
    | _ => ahead)

/-! ### The journal's writes (R560 to R563) -/

/-- Whether the Puppeteer writes the journal: it runs, or finishes the commands in progress before an FW_RESTART. -/
def State.writesJournal (s : State) : Bool :=
  s.mgmtOn && !s.pup.halted && (s.pup.ready || s.pup.recovery || (match s.pup.boot with
    | some b => decide (b.cause = .fwRestart)
    | none => false)) &&
  (match s.pup.job with
   | .journalErase _ => false
   | _ => true)

/-- JOURNAL_ENTRY_WRITE: the entry of a mailbox's command is written, or buffered while the flash-write range forbids it, and the
command is answered. -/
def execJournalEntryWrite (mb : Fin 4) (s : State) : Out :=
  .next (match s.pup.busy.get mb with
  | none => s
  | some p =>
    if p.waits ≠ .journal ∨ s.writesJournal = false then s
    else match p.entry with
      | none => s.answer mb p
      | some e =>
        if s.tempForbidden then (s.bufferEntry e).answer mb p
        else if !s.pup.jBuf.isEmpty then s
        else
          let s := if s.pup.jGap = 0 then s
            else { (s.writeEntry (s.gapEntry s.pup.jGap)) with pup.jGap := 0 }
          (s.writeEntry e).answer mb p)

/-- JOURNAL_BUFFER_DRAIN (R563): once the range allows, the oldest buffered entry is written. -/
def execJournalBufferDrain (s : State) : Out :=
  .next (if !s.writesJournal || s.tempForbidden then s
    else match s.pup.jBuf with
      | [] => s
      | e :: rest => ({ s with pup.jBuf := rest } : State).writeEntry e)

end Sys2Proof.Machine
end

