-- ==== Sys2Proof/Machine/Jtag.lean ====
section
/-! DEFINITION. The JTAG TAP: its instructions, the boundary register and what it captures and drives (21_package_and_pins.md R582). -/

namespace Sys2Proof.Machine

/-! ### The boundary register

Cell 0 belongs to FEM_CTL0[0]; the 344 cells follow the scanned balls of R574, R576 and R577 in row-major order. -/

/-- The output cells of the outputs whose level the state gives, each with that level: TRIG_OUT0 at L33, TRIG_OUT2 at L34, LOCKMON at L35,
TRIG_OUT1 at M33, TRIG_OUT3 at M34, HOST_IRQ_N at AW21, FAULT_N at AY21. Row K has 120 cells, the inputs of row L 7, the lanes 48. -/
def State.knownCells (s : State) : List (Nat × Bool) :=
  let trig := fun (p : Fin 4) => if s.pw.held.getLsbD 8 then s.pw.trigLatch.getLsbD p.val else (s.aq.trigOut.get p).out
  (List.finRange 8).flatMap (fun t => (List.finRange 8).map (fun k => (femCell t k, (s.femLines t).getLsbD k.val))) ++
  [(128, trig 0), (131, trig 2), (134, s.lockmon), (137, trig 1), (140, trig 3), (194, !s.hostIrq), (211, !s.faultN)]

/-- What the boundary register captures: the levels that the state gives, and for the other cells what the balls carry. -/
def State.capture (s : State) : BitVec 344 :=
  s.knownCells.foldl (fun v c => (v &&& ~~~(1#344 <<< c.1)) ||| (if c.2 then 1#344 <<< c.1 else 0)) (Config.jtagPins s.free)

/-- An instruction enters the instruction register while the TAP has power and TRST_N is high. -/
def State.tapIr (s : State) (ir : BitVec 8) (f : State → State) : State :=
  if s.jtagOn && !s.jtag.trstLow then f { s with jtag.ir := ir } else s

/-- An instruction that selects the boundary register: the balls are captured, then the cells shifted in take their place. -/
def State.scan (s : State) (ir : BitVec 8) (cells : BitVec 344) : State :=
  s.tapIr ir (fun t => { t with jtag.captured := s.capture, jtag.boundary := cells, free := s.free + 1 })

/-- An instruction that selects the bypass register, which captures 0. -/
def State.byp (s : State) (ir : BitVec 8) : State := s.tapIr ir (fun t => { t with jtag.captured := 0 })

/-! ### Instructions -/

/-- JTAG_TRST: while TRST_N is low the TAP stays reset, with IDCODE selected. -/
def execJtagTrst (low : Bool) (s : State) : Out :=
  .next (if low then { s with jtag.trstLow := true, jtag.ir := 2 } else { s with jtag.trstLow := false })

/-- EXTEST: the scanned balls drive the boundary register. -/
def execExtest (cells : BitVec 344) (s : State) : Out := .next (s.scan 0 cells)

/-- SAMPLE/PRELOAD: the balls are sampled, the boundary register is loaded, nothing is driven. -/
def execSamplePreload (cells : BitVec 344) (s : State) : Out := .next (s.scan 1 cells)

/-- IDCODE: the register reads 0x0000_0001. -/
def execIdcode (s : State) : Out := .next (s.tapIr 2 (fun t => { t with jtag.captured := 1 }))

/-- EXTEST_PULSE (IEEE 1149.6). -/
def execExtestPulse (cells : BitVec 344) (s : State) : Out := .next (s.scan 3 cells)

/-- EXTEST_TRAIN (IEEE 1149.6). -/
def execExtestTrain (cells : BitVec 344) (s : State) : Out := .next (s.scan 4 cells)

/-- HIGHZ: the scanned outputs are at high impedance and the bypass register is selected. -/
def execHighz (s : State) : Out := .next (s.byp 5)

/-- CLAMP: the boundary register keeps driving and the bypass register is selected. -/
def execClamp (s : State) : Out := .next (s.byp 6)

/-- BYPASS: 0xFF and every code that R582 gives no other instruction. -/
def execBypass (code : BitVec 8) (s : State) : Out := .next (if code.toNat < 7 then s else s.byp code)

/-- The level of a FEM_CTL ball, none at high impedance: HIGHZ releases it. -/
def State.femBall (s : State) (t k : Fin 8) : Option Bool :=
  if s.jtagOn && decide (s.jtag.ir = 5) then none else some ((s.femLines t).getLsbD k.val)

end Sys2Proof.Machine
end

