-- ==== Sys2Proof/Machine/Paths.lean ====
section
/-! DEFINITION. Commands and events of the transceiver paths, front-end lines, RFFE masters, detectors and the polarisation
pick (03_transceiver_paths.md). PICK_CTL and FEM_LEVELS are with the timed actions. -/

namespace Sys2Proof.Machine

/-- PATH_SET (R74, R75, R79, R107). -/
def execPathSet (h : CmdHdr) (paths : BitVec 64) (atten gain port : BitVec 8) (s : State) : Out :=
  .next (serve h
    { opcode := 0x0240, role := some .operator, params := pb paths ++ pb atten ++ pb gain ++ pb port }
    (fun s =>
      let ps := maskBits 64 paths.toNat
      checks
        [(stBadParam, decide ((30 < atten.toNat ∧ atten ≠ 0xFF) ∨ (40 < gain.toNat ∧ gain ≠ 0xFF) ∨
            (1 < port.toNat ∧ port ≠ 0xFF))),
         (stBadState, decide (port ≠ 0xFF) && ps.any (fun p => (s.groupOf (tileOf p)).isSome))] s (fun _ =>
          done (ps.foldl (fun s p =>
            let c := (s.paths.get p).ctl
            let a := if atten = 0xFF then c &&& 0x1F#32 else atten.setWidth 32
            let g := if gain = 0xFF then c &&& 0x7F00#32 else gain.setWidth 32 <<< 8
            let b := if port = 0xFF then c &&& 0x10000#32 else port.setWidth 32 <<< 16
            s.writePaCtl p (a ||| g ||| b)) s)))
    s)

/-- PATH_GET (R107). -/
def execPathGet (h : CmdHdr) (path : BitVec 8) (s : State) : Out :=
  .next (serve h { opcode := 0x0241, role := some .operator, params := pb path }
    (fun s => match fin? 64 path.toNat with
      | none => refuse stBadParam s
      | some p =>
        let x := s.paths.get p
        doneR (le 1 x.atten ++ le 1 (min 40 (bitsOf x.ctl.toNat 14 8)) ++ le 1 (b2n x.portNow) ++ le 4 (regPaStat s p)) s)
    s)

/-- An ORX select line parameter. -/
def selLine (v : BitVec 8) : Option (Fin 8) := fin? 8 v.toNat

/-- FEM_PATTERN_SET (R83, R89 to R91): the table changes at once. -/
def execFemPatternSet (h : CmdHdr) (tiles : BitVec 8) (pats : List (BitVec 8)) (od : BitVec 8) (lead lag : BitVec 16)
    (sel0 sel1 sel2 : BitVec 8) (s : State) : Out :=
  .next (serve h
    { opcode := 0x0242, role := some .installer, journal := true,
      params := pb tiles ++ pats.flatMap pb ++ pb od ++ pb lead ++ pb lag ++ pb sel0 ++ pb sel1 ++ pb sel2 }
    (fun s =>
      let ts := maskBits 8 tiles.toNat
      checks
        [(stBadParam, decide (pats.length ≠ 10 ∨ 2047 < lead.toNat ∨ 2047 < lag.toNat)),
         (stBadParam, [sel0, sel1, sel2].any (fun v => decide (7 < v.toNat ∧ v ≠ 0xFF))),
         (stBadState, ts.any (fun t => decide ((s.radio.get t).shown s.time.ticks = .tx)))] s (fun _ =>
          done (ts.foldl (fun s t => s.modRes t (fun r => { r with fem := {
            pats := Vector.ofFn (fun k => pats.getD k.val 0)
            cfg := (lag.setWidth 32 <<< 19) ||| (lead.setWidth 32 <<< 8) ||| od.setWidth 32
            sel := Vector.ofFn (fun k => selLine ([sel0, sel1, sel2].getD k.val 0xFF)) } })) s)))
    s)

/-! ### RFFE (R93 to R96, R533) -/

/-- RFFE_XFER (R95): the operator may run a list of reads only; the command waits for the list. Lists of several mailboxes run in the order in
which they came. -/
def execRffeXfer (h : CmdHdr) (tile count : BitVec 8) (ops : List RffeOp) (s : State) : Out :=
  let reads := ops.all rffeReads
  .next (serve h
    { opcode := 0x0243, role := some (if reads then .operator else .installer), journal := !reads,
      params := pb tile ++ pb count ++ ops.flatMap rffeBytes, needInd := true }
    (fun s => match fin? 8 tile.toNat with
      | none => refuse stBadParam s
      | some t => checks
        [(stBadParam, decide (count = 0 ∨ 32 < count.toNat ∨ ops.length ≠ count.toNat)),
         (stBadParam, ops.any (fun o => !rffeOk o))] s (fun _ =>
          ({ status := stDone, wait := some (.rffe t) },
            s.modRes t (fun r =>
              { r with rffe := r.rffe.take { mb := h.mb, base := h.indirect.toNat, count := ops.length, done := 0 } }))))
    s)

/-- The list of a tile's master ends: its command is answered with the count of operations completed (R95). -/
def State.rffeEnd (s : State) (t : Fin 8) (r : RffeRun) (st : BitVec 8) (n : Nat) : State :=
  let s := s.modRes t (fun x => { x with rffe := x.rffe.next })
  s.complete r.mb st (le 1 n) (some (r.base, 2 + 24 * r.count))

/-- RFFE_OPERATION_DONE (R95, R96): the operation on the bus completes. A retune sequence that started while a list ran comes
after the list's current operation. Read data go back into the parameter block. -/
def execRffeOperationDone (t : Fin 8) (parity : Bool) (data : List (BitVec 8)) (s : State) : Out :=
  let x := (s.res.get t).rffe
  .next (
    if 0 < x.seqLeft ∧ x.listOp = false then
      s.modRes t (fun r =>
        { r with
          rffe.seqLeft := r.rffe.seqLeft - 1
          rffe.seqStart := if r.rffe.seqLeft = 1 then none else r.rffe.seqStart })
    else match x.run with
    | none => s
    | some r =>
      let at_ := r.base + 2 + 24 * r.done
      let kind := memGet 0 s.pup.mbRam at_
      let n := (memGet 0 s.pup.mbRam (at_ + 4)).toNat
      let reads := decide (kind = 1 ∨ kind = 4 ∨ kind = 6)
      if reads && parity then
        let s := s.modRes t (fun r => { r with rffe.parity := satAdd r.rffe.parity 1 })
        (s.rffeEnd t r stAborted r.done).rffeFault t 1 r.done
      else
        let s := if reads then { s with pup.mbRam := memWrite 0 s.pup.mbRam (at_ + 8) (padTo (min n 16) data) } else s
        if r.done + 1 = r.count then s.rffeEnd t r stDone r.count
        else s.modRes t (fun y =>
          { y with
            rffe.run := some { r with done := r.done + 1 }
            rffe.listOp := false }))

/-- RFFE_RETUNE_SEQ (R94, R96). -/
def execRffeRetuneSeq (h : CmdHdr) (tile count divWr divRd : BitVec 8) (ops : List RffeOp) (s : State) : Out :=
  .next (serve h
    { opcode := 0x0244, role := some .installer, journal := true,
      params := pb tile ++ pb count ++ pb divWr ++ pb divRd ++ ops.flatMap rffeBytes, needInd := true }
    (fun s => match fin? 8 tile.toNat with
      | none => refuse stBadParam s
      | some t => checks
        [(stBadParam, decide (8 < count.toNat ∨ ops.length ≠ count.toNat)),
         (stBadParam, ops.any (fun o => !rffeOk o || rffeReads o)),
         (stBadParam, decide (393216 < 10 * seqTicks divWr ops))] s (fun _ =>
          done (s.modRes t (fun r =>
            { r with
              rffe.seq := ops
              rffe.divWr := divWr
              rffe.divRd := divRd }))))
    s)

/-- RFFE_SEQ_OVERRUN (R96): a sequence has not ended 40 µs after its start. -/
def execRffeSeqOverrun (t : Fin 8) (s : State) : Out :=
  let x := (s.res.get t).rffe
  .next (match x.seqStart with
  | none => s
  | some st =>
    if x.seqOver ∨ x.seqLeft = 0 ∨ 10 * (s.time.ticks - st) ≤ 393216 then s
    else
      let s := s.modRes t (fun r => { r with rffe.seqOver := true, rffe.overrun := satAdd r.rffe.overrun 1 })
      s.rffeFault t 2 (x.seq.length - x.seqLeft))

/-! ### Detectors and groups (R97 to R105) -/

/-- A new configuration of a detector ends the picks that it leads: one that runs, since its samples are not there any more; with the detector
disabled a hold too, since the group then stays on its home port (R100; log 64). -/
def State.endLed (s : State) (t : Fin 8) (disabled : Bool) : State :=
  (List.finRange 8).foldl (fun (s : State) g =>
    let ends : Bool := match (s.pick.get g).phase with
      | .first r _ | .second r _ => decide (r.lead = t)
      | .idle => false
      | _ => disabled && decide (s.leadTile g = some t)
    if ends then s.pickAbort g else s) s

/-- Whether every enabled group that a tile leads fits. -/
def State.ledFit (s : State) (t : Fin 8) : Bool :=
  (List.finRange 8).all (fun g => !(s.pick.get g).enabled || decide (s.leadTile g ≠ some t) || s.groupFits g)

/-- PREAMBLE_CFG (R97, R102, R253): H of 0 disables. -/
def execPreambleCfg (h : CmdHdr) (det beam : BitVec 8) (ptr : BitVec 32) (half thr : BitVec 16) (evt : BitVec 8)
    (s : State) : Out :=
  .next (serve h
    { opcode := 0x0245, role := some .operator,
      params := pb det ++ pb beam ++ pb ptr ++ pb half ++ pb thr ++ pb evt,
      ptrs := if half = 0 then [] else [(ptr.toNat, 8 * half.toNat)] }
    (fun s => match fin? 8 det.toNat, fin? 32 beam.toNat with
      | some t, some b =>
        let ws := (chunks 4 (2 * half.toNat) (memRead 0 s.pup.mbRam ptr.toNat (8 * half.toNat))).map (fun c =>
          BitVec.ofNat 32 (unle c))
        let set := fun (s : State) => State.rehorizon (s.modRes t (fun r =>
          { r with
            det.enabled := decide (half ≠ 0), det.beam := b, det.half := half.setWidth 9, det.thr := thr,
            det.evt := decide (evt = 1), det.template := ws, det.line := [] }))
        let u := set s
        checks
          [(stBadParam, decide (half ≠ 0 ∧ (half.toNat < 16 ∨ 256 < half.toNat))),
           (stBadParam, decide (thr = 0 ∨ 1 < evt.toNat)), (stBadParam, !u.ledFit t), (stBadParam, !u.chansFit)] s
          (fun _ => done (set (s.endLed t (decide (half = 0)))).judgePicks)
      | _, _ => refuse stBadParam s)
    s)

/-- PICK_GROUP_CFG (R100, R102): groups are disjoint. -/
def execPickGroupCfg (h : CmdHdr) (group tiles home bias : BitVec 8) (hold : BitVec 32) (enable : BitVec 8) (s : State) :
    Out :=
  .next (serve h
    { opcode := 0x0246, role := some .installer, journal := true,
      params := pb group ++ pb tiles ++ pb home ++ pb bias ++ pb hold ++ pb enable }
    (fun s => match fin? 8 group.toNat with
      | none => refuse stBadParam s
      | some g =>
        let s0 := s.modPick g (fun x =>
          { x with
            tiles := tiles, home := decide (home = 1), bias := bias.setWidth 5, hold := hold.setWidth 24,
            enabled := decide (enable = 1), latOk := true })
        checks
          [(stBadParam, decide (1 < home.toNat ∨ 24 < bias.toNat ∨ hold = 0 ∨ 16777215 < hold.toNat ∨ 1 < enable.toNat)),
           (stBadParam, (List.finRange 8).any (fun k => decide (k ≠ g) && decide ((s.pick.get k).tiles &&& tiles ≠ 0))),
           (stBadParam, decide (enable = 1) && !s0.groupFits g)] s (fun _ =>
            let s := if (s.pick.get g).enabled then s.pickAbort g else s
            let s := s.modPick g (fun x =>
              { x with
                tiles := tiles, home := decide (home = 1), bias := bias.setWidth 5, hold := hold.setWidth 24,
                enabled := decide (enable = 1), latOk := true, phase := .idle })
            let s := { s with paths := vmap s.paths (fun p x => match s.groupOf (tileOf p) with
              | some _ => x
              | none => { x with portNow := s.ownPort p }) }
            done (if enable = 1 then s.groupPort g (s.pick.get g).rest else s)))
    s)

/-- ORX_COUPLING_SET (R84, R85, R205). Attenuation and settle time are held for each path; TL_ORX_CTL shows those of the path that is
selected (log 94). -/
def execOrxCouplingSet (h : CmdHdr) (path coupling : BitVec 8) (delay : BitVec 16) (atten : BitVec 8)
    (settle : BitVec 16) (s : State) : Out :=
  .next (serve h
    { opcode := 0x0247, role := some .installer, journal := true,
      params := pb path ++ pb coupling ++ pb delay ++ pb atten ++ pb settle }
    (fun s => match fin? 64 path.toNat with
      | none => refuse stBadParam s
      | some p => checks
        [(stBadParam, decide (4095 < delay.toNat ∨ 20 < atten.toNat ∨ 4095 < settle.toNat))] s (fun _ =>
          let was := (s.paths.get p).coupling.isNone
          let s := s.modPath p (fun x =>
            { x with
              coupling := some coupling, routeDelay := delay, orxAtten := atten, orxSettle := settle })
          let s := s.modRes (tileOf p) (fun r =>
            if r.orx.sel = idxOf p ∧ r.orx.busy = false then { r with orx.atten := atten.setWidth 5, orx.settle := settle.setWidth 12 } else r)
          let s := if was then s.modPd p (fun x => { x with lastAcc := s.time.ticks }) else s
          done (s.pdRefresh (tileOf p))))
    s)

/-- Whether a beam produces samples (R99). -/
def State.beamRuns (s : State) (b : Fin 32) : Bool := !s.beam.rx.active.element && (s.rxBeam b).enable

/-- PREAMBLE_DETECTION (R97, R98, R101, R103): the detector's next peak is stamped, counted, offered as a trigger, and starts a pick or is
reported now. The switch takes place at the first tick that is not before the end of the first half and D_pick (log 64). -/
def execPreambleDetection (t : Fin 8) (s : State) : Out :=
  let d := (s.res.get t).det
  let period := periodOf (s.rxBeam d.beam).rate
  .next (if !d.enabled || !s.beamRuns d.beam then s
  else match d.peak period with
  | none => s
  | some (first, before, after, c) =>
    let st := peakStamp period first before c after
    let set := s.windowSet st
    let power := c.power d.half.toNat
    let run : PickRun :=
      { lead := t, stamp := st, windows := BitVec.ofNat 64 set, rho := c.rho, first := first, num := power.1, den := power.2 }
    let s := s.modRes t (fun r =>
      { r with
        det.deadTill := st + 2 * d.half.toNat * period * 256
        det.cnt := satAdd r.det.cnt 1 })
    let s := s.fire 0x20 t.val st set
    match s.groupOf t with
    | none => s.emitPreamble t st set c.rho 0 run.home 0x8000
    | some g =>
      let x := s.pick.get g
      if s.leadTile g ≠ some t ∨ x.mode ≠ .auto ∨ x.latOk = false then s.emitPreamble t st set c.rho 0 run.home 0x8000
      else match x.phase with
      | .idle =>
        let sw := cdiv st 256 + d.half.toNat * period + s.dPick d.beam
        s.modPick g (fun x => { x with phase := .first run sw })
      | _ =>
        let s := s.modRes t (fun r => { r with det.busy := satAdd r.det.busy 1 })
        s.emitPreamble t st set c.rho 4 run.home 0x8000)

/-- PICK_SWITCH (R101): the group's selectors move to the other port. -/
def execPickSwitch (g : Fin 8) (s : State) : Out :=
  .next (match (s.pick.get g).phase with
  | .first r sw =>
    if s.time.ticks < sw then s
    else
      let s := s.groupPort g (!(s.pick.get g).home)
      s.modPick g (fun x => { x with phase := .second r s.time.ticks })
  | _ => s)

/-- PICK_DECISION (R101, R102): once the second half has been received, with fewer than H/2 samples measured the pick is void; else the other
port stays where C_other reaches C_home and the bias. The hold is counted from the decision (log 64). -/
def execPickDecision (g : Fin 8) (s : State) : Out :=
  let x := s.pick.get g
  .next (match x.phase with
  | .second r sw =>
    if !s.secondDone r then s
    else
      let xs := s.secondHalf r sw
      let c := (corrOf xs).power xs.length
      let other := BitVec.ofInt 16 (log16 c.1 c.2)
      let now := s.time.ticks
      if 2 * xs.length < (s.res.get r.lead).det.half.toNat then
        let s := (s.pickReport g 3 (if xs.isEmpty then 0x8000 else other)).pickCount g (fun c => { c with void := satAdd c.void 1 })
        (s.groupPort g x.home).modPick g (fun x => { x with phase := .idle })
      else
        let keeps := keepsOther c (r.num, r.den) x.bias.toNat
        let s := s.pickReport g (if keeps then 2 else 1) other
        let port := x.home != keeps
        let s := s.pickCount g (fun c => if port then { c with b := satAdd c.b 1 } else { c with a := satAdd c.a 1 })
        s.modPick g (fun x => { x with phase := if keeps then .hold (now + x.hold.toNat) else .returning (now + 8) })
  | _ => s)

/-- PICK_RETURN_HOME (R101, R103): eight ticks after the decision the selectors are home, and the hold runs on. -/
def execPickReturnHome (g : Fin 8) (s : State) : Out :=
  let x := s.pick.get g
  .next (match x.phase with
  | .returning t =>
    if s.time.ticks < t then s
    else (s.groupPort g x.home).modPick g (fun x => { x with phase := .hold (t - 8 + x.hold.toNat) })
  | _ => s)

/-- PICK_HOLD_END (R103): the burst ends with the hold, or as the lead tile leaves RX, and the group returns home. -/
def execPickHoldEnd (g : Fin 8) (s : State) : Out :=
  let x := s.pick.get g
  let left : Bool := match s.leadTile g with
    | some t => decide ((s.radio.get t).shown s.time.ticks ≠ .rx)
    | none => true
  .next (match x.phase with
  | .hold till =>
    if decide (s.time.ticks < till) && !left then s
    else (s.groupPort g x.home).modPick g (fun x => { x with phase := .idle })
  | _ => s)

end Sys2Proof.Machine
end

