-- ==== Sys2Proof/Machine/Power.lean ====
section
/-! DEFINITION. Commands and events of the power states: PARK, entry to DOZE and RETAIN, wake (17_power_states.md R478 to R495). -/

namespace Sys2Proof.Machine

/-! ### Entry, phase 1 (R484 to R486) -/

/-- The block asked at a position of the order of R484. -/
def blockAt (k : Nat) : Nat := [9, 10, 11, 8, 0, 1, 2, 3, 4, 5, 6, 7, 12, 13, 14].getD (k - 1) 16

/-- An entry that starts. -/
def newEntry (toRetain ragdoll : Bool) (now : Nat) : Entry :=
  { toRetain := toRetain, ragdoll := ragdoll, asked := 1, since := now, phase2 := none, evtSlot := 0 }

/-- PW_STATE_SET (R484, R489): an entry starts, and target ACTIVE wakes the device from DOZE. -/
def execPwStateSet (h : CmdHdr) (target lane : BitVec 8) (s : State) : Out :=
  .next (serve h { opcode := 0x0910, role := some .operator, params := pb target ++ pb lane }
    (fun s => checks
      [(stBadParam, decide (2 < target.toNat)), (stBadParam, decide (target = 1 ∧ lane ≠ 1 ∧ lane ≠ 2))] s (fun _ =>
        accepted (if target = 0 then (if s.pw.dev = .doze then s.wakeRequest 2 else s)
          else if s.pw.entry.isSome || s.pw.wake.isSome || decide (s.pw.dev = .doze ∧ target = 1) then s
          else { s with pw.entry := some (newEntry (decide (target = 2)) (decide (target = 1 ∧ lane = 2)) s.time.ticks) })))
    s)

/-- Device actions that keep an entry from MGMT's agreement. -/
def entryBlocks (toRetain : Bool) : Act → Bool
  | .trigOutEdge .. => toRetain
  | .laneState .. => toRetain
  | _ => true

/-- Why a block refuses an entry, 0 where it agrees (R484, R485). -/
def State.entryReason (s : State) (e : Entry) (block : Nat) : Nat :=
  if block = 9 then
    (if s.pw.anlzOn && (List.finRange 8).any (fun t => decide (s.laneMode t ≠ .off)) then 5 else 0)
  else if block = 10 then (if s.pw.acqOn && (List.finRange 16).any (fun c => (s.aq.chans.get c).isArmed) then 1 else 0)
  else if block = 11 then
    (if s.pw.acqOn && s.dma.chans.toList.any (fun c =>
        decide (c.state = .running ∨ c.state = .wait ∨ c.state = .stopping)) then 2 else 0)
  else if block = 8 then
    (if s.pw.beamOn && [s.beam.rx, s.beam.tx].any (fun d =>
        d.active.element || d.active.beams.toList.any (fun b => b.enable)) then 6 else 0)
  else if block = 12 then (if s.pw.linkOn && !s.link.held.isEmpty then 7 else 0)
  else if block = 13 then 0
  else if block = 14 then
    (if s.journalBusy || decide (s.pup.job = .calStore) then 8
     else if (s.time.queues.get 8).acts.any (fun a => entryBlocks e.toRetain a.act) then 4
     else if e.toRetain && (List.finRange 64).any (fun w => decide ((s.time.windows.get w).state ≠ .free)) then 9
     else if s.hk.shutdown || s.hk.halt then 10 else 0)
  else match fin? 8 block with
    | none => 0
    | some t =>
      let r := s.radio.get t
      if s.pw.tileOn.getLsbD t.val &&
          (decide (r.use ≠ .out ∨ r.state ≠ .off) || r.transit.isSome || !(s.time.queues.get (tileQ t)).acts.isEmpty) then 3
      else 0

/-- A block agrees: the next is asked, and after the last PW_ENTERING is emitted (R487). -/
def State.entryAgree (s : State) (e : Entry) : State :=
  if e.asked < 15 then { s with pw.entry := some { e with asked := e.asked + 1, since := s.time.ticks } }
  else
    let units : Nat := if e.toRetain then s.aq.retain.toNat else 0xFF
    let s := s.emitNow 0x0911 0x09FF
      (le 1 (if e.toRetain then 2 else 1) ++ le 2 s.pw.retain.toNat ++ le 1 units)
    { s with pw.entry := some { e with asked := 16, phase2 := some s.time.ticks, evtSlot := s.pup.evtWr - 1 } }

/-- BLOCK_ENTRY_ANSWER: the block now asked agrees or refuses by its row of R484. `ok` says for DRAM that self-refresh is confirmed;
any other block that has no reason to refuse and does not agree has not answered. LINK waits 1 ms for its acknowledgements. -/
def execBlockEntryAnswer (block : Fin 15) (ok : Bool) (s : State) : Out :=
  .next (match s.pw.entry with
  | none => s
  | some e =>
    if e.phase2.isSome || decide (blockAt e.asked ≠ block.val) then s
    else
      let why := s.entryReason e block.val
      if why = 7 then (if s.time.ticks < e.since + msTicks then s else s.pwRefuse 12 7)
      else if why ≠ 0 then s.pwRefuse block.val why
      else if ok then s.entryAgree e
      else if block.val = 13 then s.pwRefuse 13 11 else s)

/-- BLOCK_ANSWER_TIMEOUT (R484): no answer within 1 ms refuses with TIMEOUT. -/
def execBlockAnswerTimeout (s : State) : Out :=
  .next (match s.pw.entry with
  | none => s
  | some e =>
    if e.phase2.isSome || decide (s.time.ticks < e.since + msTicks) then s
    else if s.entryReason e (blockAt e.asked) = 7 then s.pwRefuse 12 7
    else s.pwRefuse (blockAt e.asked) 12)

/-! ### Entry, phase 2 (R487, R488) -/

/-- DOZE is entered: the tile groups are latched, the tiles, BEAM, ANLZ and ACQ go off, the lanes go to their state with the
reliable class held as across a link down, DRAM into self-refresh. -/
def State.enterDoze (s : State) (e : Entry) : State :=
  let s := (List.finRange 8).foldl (fun s t => if s.pw.tileOn.getLsbD t.val then s.tileOff t else s) s
  let goal : LaneTarget := if e.ragdoll then .ragdoll else .standby
  let on := maskOf 16 (fun k => let x := s.link.lanes.get k; decide (x.pstate = .on) || x.exitAt.isSome)
  let before := s.link.active
  let s := { s with link := { s.link with active := 0, rxActive := 0 } }
  let s := if s.link.up then s.linkDown before else s
  { s with
    link.lanes := vmap s.link.lanes (fun _ x => x.sleepNow goal)
    pw := { s.pw with
      entry := none, dev := .doze, beamOn := false, anlzOn := false, acqOn := false, dramSr := true
      lanesOn := BitVec.ofNat 16 on, enteredAt := s.time.ticks } }

/-- What bank 7 holds across RETAIN for the firmware to restore (R490): every setting made by installer-role commands, the
calibration values in force, the journal buffer (R563). -/
def State.restoreBank7 (s old : State) : State :=
  { s with
    clk := { s.clk with
      conv := vmap s.clk.conv (fun t x =>
        let y := old.clk.conv.get t
        { x with en := y.en, div := y.div, delay := y.delay, trim := y.trim })
      period := old.clk.period, limit := old.clk.limit, refSrc := old.clk.refSrc }
    time := { s.time with
      measure := old.time.measure, epoch := old.time.epoch, polFalling := old.time.polFalling, edgeEvt := old.time.edgeEvt }
    res := vmap s.res (fun t r =>
      let o := old.res.get t
      { r with fem := { o.fem with sel := r.fem.sel }, rffe := { r.rffe with divWr := o.rffe.divWr, divRd := o.rffe.divRd, seq := o.rffe.seq } })
    pick := vmap s.pick (fun g x =>
      let o := old.pick.get g
      { x with tiles := o.tiles, home := o.home, bias := o.bias, hold := o.hold, enabled := o.enabled })
    paths := vmap s.paths (fun p x =>
      let o := old.paths.get p
      { x with coupling := o.coupling, routeDelay := o.routeDelay, orxAtten := o.orxAtten, orxSettle := o.orxSettle })
    radio := vmap s.radio (fun t r => { r with band := (old.radio.get t).band })
    pd := { s.pd with
      tiles := vmap s.pd.tiles (fun t x =>
        let o := old.pd.tiles.get t
        { x with gate := o.gate, timing := o.timing, limit := o.limit, est := o.est, cfr := o.cfr, pulse := o.pulse, pulseFor := o.pulseFor })
      paths := vmap s.pd.paths (fun p x =>
        let o := old.pd.paths.get p
        { x with nb1 := o.nb1, nb2 := o.nb2, active := o.active }) }
    an.src := vmap s.an.src (fun a x => { x with refOffset := (old.an.src.get a).refOffset })
    chan := { s.chan with railPreset := old.chan.railPreset, diodePreset := old.chan.diodePreset }
    link := { s.link with
      rate := old.link.rate, minLanes := old.link.minLanes, auto := old.link.auto, manual := old.link.manual
      timeout := old.link.timeout, swing := old.link.swing, evtRoute := old.link.evtRoute, replayT := old.link.replayT
      holdMs := old.link.holdMs, memTo := old.link.memTo
      lanes := vmap s.link.lanes (fun k x => { x with presets := (old.link.lanes.get k).presets }) }
    cal := { s.cal with
      values := old.cal.values, tempE := old.cal.tempE, factory := old.cal.factory, slotB := old.cal.slotB
      seq := old.cal.seq, kinds := old.cal.kinds, gapMask := old.cal.gapMask, claimLim := old.cal.claimLim
      refPath := old.cal.refPath, level := old.cal.level, capUf := old.cal.capUf, capSet := old.cal.capSet
      vmin := old.cal.vmin, divider := old.cal.divider, ePage := old.cal.ePage, eErase := old.cal.eErase
      offA := old.cal.offA, offB := old.cal.offB, rangeMin := old.cal.rangeMin, rangeMax := old.cal.rangeMax
      rangeEn := old.cal.rangeEn }
    hk := { s.hk with
      rha := old.hk.rha, ch := old.hk.ch, ta := old.hk.ta, order := old.hk.order, interval := old.hk.interval
      duty := old.hk.duty, bandSel := old.hk.bandSel }
    pup := { s.pup with jBuf := old.pup.jBuf, jGap := old.pup.jGap } }

/-- RETAIN is entered: the pads are latched, and only the AO registers, the selected SRAM banks and the selected store units are kept
(R267, R480, R494, R495). -/
def State.enterRetain (s : State) : State :=
  let s := s.latchPads 0x7FF
  let s := s.endSessions 3
  let p := s.pw
  let new := s.cold
  let kept : PwBlock :=
    { new.pw with
      dev := .retain, retain := p.retain, wakeCnt := p.wakeCnt, retried := p.retried, failed := p.failed, failStep := p.failStep
      source := p.source, prev := p.prev, timerEn := p.timerEn, pinEn := p.pinEn, timer := p.timer, sleepCnt := p.sleepCnt
      held := p.held, femLatch := p.femLatch, trigLatch := p.trigLatch, lockLatch := p.lockLatch
      bank7Ok := p.retain.getLsbD 7, padsReset := false, tileOn := 0, beamOn := false, anlzOn := false, acqOn := false
      linkOn := false, dramSr := true, lanesOn := 0 }
  let new := { new with
    resetN := true
    pw := kept
    aq := { new.aq with
      retain := s.aq.retain
      store := s.aq.store.filter (fun c => s.aq.retain.getLsbD ((c.1 - 0x40000000) / 0x10000000)) }
    pup := { new.pup with
      mode := s.pup.mode
      mbRam := if p.retain.getLsbD 8 then s.pup.mbRam else new.pup.mbRam } }
  if p.retain.getLsbD 7 then new.restoreBank7 s else new

/-- A wake request latched in phase 2 starts the wake at once. -/
def State.wakeLatched (s : State) (latch : Option (BitVec 2)) : State :=
  match latch with
  | none => s
  | some src => ({ s with pw.wakeLatch := none } : State).wakeRequest src

/-- ENTRY_PHASE2_PROCEED (R487): PW_ENTERING is acknowledged, or 1 ms has passed. -/
def execEntryPhase2Proceed (s : State) : Out :=
  .next (match s.pw.entry with
  | none => s
  | some e =>
    match e.phase2 with
    | none => s
    | some since =>
      if (s.pup.evtRd - (e.evtSlot + 1)).toNat ≤ 256 ∨ since + msTicks ≤ s.time.ticks then
        let latch := s.pw.wakeLatch
        let s := { s with pw := { s.pw with entry := none, wakeLatch := none } }
        (if e.toRetain then s.enterRetain else s.enterDoze e).wakeLatched latch
      else s)

/-! ### PARK (R482, R483) -/

/-- PW_PARK: the tiles of the mask are parked, the others unparked. -/
def execPwPark (h : CmdHdr) (tiles : BitVec 8) (s : State) : Out :=
  .next (serve h { opcode := 0x0911, role := some .operator, params := pb tiles }
    (fun s =>
      let new := tiles &&& ~~~s.pw.parked
      let bad := (maskBits 8 new.toNat).any (fun t =>
        let r := s.radio.get t
        decide (r.use ≠ .out ∨ r.state ≠ .off) || r.transit.isSome || s.pw.unparking.getLsbD t.val)
      checks [(stBadState, bad)] s (fun _ =>
        let back := s.pw.parked &&& ~~~tiles
        let s := { s with pw := { s.pw with parked := tiles, unparking := s.pw.unparking ||| back } }
        done ((maskBits 8 new.toNat).foldl (fun s t =>
          (if s.pw.tileOn.getLsbD t.val then s.tileOff t else s).emitNow 0x0913 (0x0900 + t.val) (le 1 t.val ++ le 1 1)) s)))
    s)

/-- TILE_UNPARK_COMPLETE (R483): the tile is powered, its configuration restored, its pads released. -/
def execTileUnparkComplete (t : Fin 8) (s : State) : Out :=
  .next (if s.mgmtOn && s.pw.unparking.getLsbD t.val then
      let bit := 1#8 <<< t.val
      let s := { s with pw := { s.pw with unparking := s.pw.unparking &&& ~~~bit } }
      let s := if s.pw.dev = .doze then s
        else { (s.releasePads (tilePads t)) with pw.tileOn := s.pw.tileOn ||| bit, pw.held := s.pw.held &&& ~~~(tilePads t) }
      s.emitNow 0x0913 (0x0900 + t.val) (le 1 t.val ++ le 1 0)
    else s)

/-! ### Settings and status (R492) -/

/-- PW_RETAIN_CFG. -/
def execPwRetainCfg (h : CmdHdr) (banks : BitVec 16) (s : State) : Out :=
  .next (serve h { opcode := 0x0912, role := some .operator, params := pb banks }
    (fun s => checks [(stBadParam, decide (512 ≤ banks.toNat))] s (fun _ =>
      done { s with pw.retain := banks.setWidth 9 }))
    s)

/-- PW_WAKE_CFG. -/
def execPwWakeCfg (h : CmdHdr) (pinEn timerEn : BitVec 8) (timer : BitVec 32) (s : State) : Out :=
  .next (serve h
    { opcode := 0x0913, role := some .installer, journal := true, params := pb pinEn ++ pb timerEn ++ pb timer }
    (fun s => checks [(stBadParam, decide (1 < pinEn.toNat ∨ 1 < timerEn.toNat))] s (fun _ =>
      done { s with pw := { s.pw with pinEn := decide (pinEn = 1), timerEn := decide (timerEn = 1), timer := timer } }))
    s)

/-- PW_STATUS. -/
def execPwStatus (h : CmdHdr) (s : State) : Out :=
  .next (serve h { opcode := 0x0914, role := some .operator, params := [] }
    (fun s => doneR (le 4 (regPwStat s.pw) ++ le 4 (regPwRefuse s.pw) ++ le 4 s.pw.retain.toNat ++
      le 4 (regWakeStatus s.pw) ++ le 4 s.pw.held.toNat) s)
    s)

/-! ### Wake (R489 to R491) -/

/-- WAKE_PIN_EDGE: a rising edge on WAKE, held for 2 AO cycles. -/
def execWakePinEdge (heldTwo : Bool) (s : State) : Out :=
  .next (if heldTwo && s.pw.pinEn && s.resetN && s.pw.vddio then s.wakeRequest 1 else s)

/-- SLEEP_TIMER_EXPIRY: HP_SLEEP_TIMER counts from RETAIN entry (R494). -/
def execSleepTimerExpiry (s : State) : Out :=
  .next (if s.pw.dev = .retain ∧ s.pw.timerEn ∧ s.pw.timer.toNat ≤ s.pw.slept then s.wakeRequest 3 else s)

/-- DOZE_WAKE_COMPLETE (R488, R489): the domains are on, DRAM is out of self-refresh, the lanes return, PW_WOKE, and the groups of
the tiles whose patterns are restored are released. -/
def execDozeWakeComplete (s : State) : Out :=
  .next (match s.pw.wake with
  | none => s
  | some w =>
    if s.pw.dev ≠ .doze then s
    else
      let on := ~~~(s.pw.parked ||| s.pw.unparking)
      let slept := (s.time.ticks - s.pw.enteredAt) / 30000
      let now := s.time.ticks
      let s := { s with
        pw := { s.pw with
          dev := .active, wake := none, tileOn := on, beamOn := true, anlzOn := true, acqOn := true, dramSr := false
          wakeCnt := satAdd s.pw.wakeCnt 1, prev := 2, source := w.source, retried := 0 }
        link.lanes := vmap s.link.lanes (fun k (x : Lane) => if s.pw.lanesOn.getLsbD k.val then x.toState now .on else x) }
      let s := s.emitNow 0x0912 0x09FF (le 1 2 ++ le 1 w.source.toNat ++ le 1 0 ++ le 4 (sat32 slept) ++ le 1 0)
      s.releasePads (on.setWidth 11))

/-- The wake from RETAIN ends: the domains run on their PLLs, which the planned relocks follow, the flash group is released and the
ROM starts (R424, R490). -/
def State.wakeUp (s : State) (w : WakeRun) : State :=
  let s := { s with
    time := { s.time with ticks := 0, dspRuns := true }
    clk := { s.clk with refOk := true, fbosc := false, mgmtSafe := true, dspSafe := true }
    pw := { s.pw with
      wake := none, dev := .active, source := w.source, sleepCnt := BitVec.ofNat 32 (sat32 s.pw.slept), slept := 0
      tileOn := 0xFF, beamOn := true, anlzOn := true, acqOn := true, linkOn := true, dramSr := false } }
  let s := [1, 2, 5].foldl (fun (s : State) (p : Fin 16) => (s.relock p true).pllDone p) (s.relock 0 true)
  (s.releasePads (1#11 <<< 10)).romBoot .boot s.bootOrder false true s.time.ticks

/-- WAKE_STEP_READY (R490): the next step starts, and after step 4 the Puppeteer. -/
def execWakeStepReady (s : State) : Out :=
  .next (match s.pw.wake with
  | none => s
  | some w =>
    if s.pw.dev ≠ .retain then s
    else if w.step < 4 then { s with pw.wake := some { w with step := w.step + 1, retry := false } }
    else s.wakeUp w)

/-- WAKE_STEP_TIMEOUT (R491): the step is retried once; then the wake fails, back in RETAIN. -/
def execWakeStepTimeout (s : State) : Out :=
  .next (match s.pw.wake with
  | none => s
  | some w =>
    if s.pw.dev ≠ .retain then s
    else if !w.retry then
      { s with pw := { s.pw with
          wake := some { w with retry := true }, retried := s.pw.retried ||| (1#4 <<< (w.step - 1)) } }
    else
      { s with
        pw := { s.pw with wake := none, failed := true, failStep := BitVec.ofNat 3 w.step, source := w.source }
        pup.irq := s.pup.irq ||| 0x80#8 })

end Sys2Proof.Machine
end

