-- ==== Sys2Proof/Machine/Predistortion.lean ====
section
/-! DEFINITION. Commands and events of coupled predistortion and captures of the observation receiver
(07_predistortion.md; 03_transceiver_paths.md R84; 10_tile_dsp.md R301). -/

namespace Sys2Proof.Machine

/-- The little-endian words of n words of mailbox RAM at an offset. -/
def ramWords (s : State) (a n : Nat) : List (BitVec 32) :=
  (chunks 4 n (memRead 0 s.pup.mbRam a (4 * n))).map (fun b => BitVec.ofNat 32 (unle b))

/-- A coefficient set from its 128 words, unlisted words reading 0. -/
def setOf (ws : List (BitVec 32)) : List (Nat × BitVec 32) := memWrite 0 [] 0 (ws.take 128)

/-- The paths a 64-bit mask names. -/
def pathsOf (m : BitVec 64) : List (Fin 64) := maskBits 64 m.toNat

/-- The tiles a mask names. -/
def tilesOf (m : BitVec 8) : List (Fin 8) := maskBits 8 m.toNat

/-- A flag parameter "0, 1 or unchanged" is out of its codes. -/
def badFlagU (v : BitVec 8) : Bool := decide (1 < v.toNat ∧ v ≠ 0xFF)

/-- The flag after such a parameter. -/
def flagU (v : BitVec 8) (old : Bool) : Bool := if v = 0xFF then old else decide (v = 1)

/-- Whether a transmit beam is enabled or transmit element mode active (R187). -/
def State.txActive (s : State) : Bool :=
  s.beam.tx.active.element || s.beam.tx.active.beams.toList.any (fun b => b.enable)

/-- PD_CHAIN_SET (R187). -/
def execPdChainSet (h : CmdHdr) (inserted : BitVec 8) (s : State) : Out :=
  .next (serve h { opcode := 0x0401, role := some .operator, params := pb inserted }
    (fun s => checks [(stBadParam, decide (1 < inserted.toNat)), (stBadState, s.txActive)] s (fun _ =>
      done { s with pd.chain := decide (inserted = 1) }))
    s)

/-- Set the switches of one path (R188, R205): adaptation switched on starts its FREEZE_TIME anew, and ends a halt. -/
def State.pdPathSet (s : State) (pdEn cfrEn adaptEn evtSwap : BitVec 8) (p : Fin 64) : State :=
  let x := s.pd.paths.get p
  let on := decide (adaptEn = 1) && (!x.adaptEn || decide (x.state = .halted))
  let s := s.modPd p (fun x => { x with
    pdEn := flagU pdEn x.pdEn
    cfrEn := flagU cfrEn x.cfrEn
    adaptEn := flagU adaptEn x.adaptEn
    evtSwap := flagU evtSwap x.evtSwap
    lastAcc := if on then s.time.ticks else x.lastAcc
    consecRej := if on then 0 else x.consecRej })
  let t := s.pd.tiles.get (tileOf p)
  if on && (s.paths.get p).coupling.isSome && !t.throttle && !t.reload then s.setPd p .adapting
  else if on && (s.paths.get p).coupling.isSome then s.setPd p .paused
  else s.setPd p (s.pdWant p)

/-- A kernel that uses reserved regions is stopped where adaptation is on in its tile (R308). -/
def State.estStop (s : State) (t : Fin 8) : State :=
  let k := s.tdsp.get t
  let uses := match k.image with
    | some i => i.resUse
    | none => false
  if s.estReg t && uses && (decide (k.state = .running) || decide (k.state = .idle)) then
    let s := s.kernelStop t 3
    { s with tdsp := vmod s.tdsp t (fun k => { k with estStops := satAdd k.estStops 1 }) }
  else s

/-- PD_PATH_SET (R188, R205, R308). -/
def execPdPathSet (h : CmdHdr) (paths : BitVec 64) (pdEn cfrEn adaptEn evtSwap : BitVec 8) (s : State) : Out :=
  .next (serve h { opcode := 0x0402, role := some .operator,
                   params := pb paths ++ pb pdEn ++ pb cfrEn ++ pb adaptEn ++ pb evtSwap }
    (fun s => checks [(stBadParam, badFlagU pdEn || badFlagU cfrEn || badFlagU adaptEn || badFlagU evtSwap)] s
      (fun _ =>
        let s := (pathsOf paths).foldl (fun s p => s.pdPathSet pdEn cfrEn adaptEn evtSwap p) s
        done ((List.finRange 8).foldl (fun s t => s.estStop t) s)))
    s)

/-- A neighbour of a path: another path, or none. -/
def nbOk (p : Fin 64) (q : BitVec 8) : Bool := decide (q = 0xFF ∨ (q.toNat < 64 ∧ q.toNat ≠ p.val))

/-- PD_NEIGHBOUR_SET (R195, R196). -/
def execPdNeighbourSet (h : CmdHdr) (path q1 q2 : BitVec 8) (s : State) : Out :=
  .next (serve h { opcode := 0x0403, role := some .installer, journal := true, params := pb path ++ pb q1 ++ pb q2 }
    (fun s => match fin? 64 path.toNat with
      | none => refuse stBadParam s
      | some p => checks [(stBadParam, !nbOk p q1 || !nbOk p q2), (stBadState, (s.pd.paths.get p).adaptEn)] s (fun _ =>
          done (s.modPd p (fun x =>
            { x with nbNew := if q1 = x.nb1 ∧ q2 = x.nb2 then none else some (q1, q2) }))))
    s)

/-- PD_GATE_SET (R198, R200, R201, R205, R206). -/
def execPdGateSet (h : CmdHdr) (tiles gate cfMin cfMax margin : BitVec 8) (capSkip freeze clear : BitVec 16)
    (lambda : BitVec 8) (s : State) : Out :=
  .next (serve h { opcode := 0x0404, role := some .installer, journal := true,
                   params := pb tiles ++ pb gate ++ pb cfMin ++ pb cfMax ++ pb margin ++ pb capSkip ++ pb freeze ++
                     pb clear ++ pb lambda }
    (fun s => checks
      [(stBadParam, decide (160 < gate.toNat ∨ 40 < margin.toNat ∨ freeze = 0 ∨ clear = 0))] s (fun _ =>
        let s := (tilesOf tiles).foldl (fun s t => s.modPdTile t (fun x => { x with
          gate := margin ++ cfMax ++ cfMin ++ gate
          timing := freeze ++ capSkip
          est := lambda ++ clear ++ x.est.setWidth 8 })) s
        done s))
    s)

/-- PD_LIMIT_SET (R202). -/
def execPdLimitSet (h : CmdHdr) (tiles gain phase nmse peak rejectMax : BitVec 8) (s : State) : Out :=
  .next (serve h { opcode := 0x0405, role := some .installer, journal := true,
                   params := pb tiles ++ pb gain ++ pb phase ++ pb nmse ++ pb peak ++ pb rejectMax }
    (fun s => checks
      [(stBadParam, decide (gain = 0 ∨ 60 < gain.toNat ∨ phase = 0 ∨ 45 < phase.toNat)),
       (stBadParam, decide (nmse.toNat < 10 ∨ 60 < nmse.toNat))] s (fun _ =>
        done ((tilesOf tiles).foldl (fun s t => s.modPdTile t (fun x => { x with
          limit := rejectMax ++ nmse ++ phase ++ gain
          est := (x.est >>> 8).setWidth 24 ++ peak })) s)))
    s)

/-- PD_CFR_SET (R193, R194): the threshold, and the pulse loaded, cleared or unchanged. -/
def execPdCfrSet (h : CmdHdr) (tiles thr : BitVec 8) (ptr : BitVec 32) (s : State) : Out :=
  let keep := decide (ptr = 0xFFFFFFFF)
  let clear := decide (ptr = 0)
  .next (serve h { opcode := 0x0406, role := some .installer, journal := true,
                   params := pb tiles ++ pb thr ++ pb ptr,
                   ptrs := if keep || clear then [] else [(ptr.toNat, 260)] }
    (fun s => checks [(stBadParam, decide (200 < thr.toNat))] s (fun _ =>
      let pulse := ramWords s ptr.toNat 65
      done ((tilesOf tiles).foldl (fun s t =>
        let b := (s.radio.get t).band
        s.modPdTile t (fun x => { x with
          cfr := thr
          pulse := if keep then x.pulse else if clear then none else some pulse
          pulseFor := if clear then b else x.pulseFor })) s)))
    s)

/-- PD_COEF_LOAD (R204). -/
def execPdCoefLoad (h : CmdHdr) (path : BitVec 8) (ptr : BitVec 32) (s : State) : Out :=
  .next (serve h { opcode := 0x0407, role := some .installer, journal := true, params := pb path ++ pb ptr,
                   ptrs := [(ptr.toNat, 512)] }
    (fun s => match fin? 64 path.toNat with
      | none => refuse stBadParam s
      | some p =>
        let set := setOf (ramWords s ptr.toNat 128)
        done ((s.modPd p (fun x => { x with pending := some set, statsN := 0 })).pdStale p))
    s)

/-- PD_COEF_READ (R208): BAD_STATE for a pending set where there is none. -/
def execPdCoefRead (h : CmdHdr) (path set : BitVec 8) (ptr : BitVec 32) (s : State) : Out :=
  .next (serve h { opcode := 0x0408, role := some .operator, params := pb path ++ pb set ++ pb ptr,
                   ptrs := [(ptr.toNat, 512)] }
    (fun s => match fin? 64 path.toNat with
      | none => refuse stBadParam s
      | some p =>
        let put := fun (ws : List (Nat × BitVec 32)) =>
          let bs := (memRead 0 ws 0 128).flatMap pb
          (({ status := stDone, block := some (ptr.toNat, 512) } : Reply),
            { s with pup.mbRam := memWrite 0 s.pup.mbRam ptr.toNat bs })
        let x := s.pd.paths.get p
        if set = 0 then put x.active
        else if set = 1 then (match x.pending with
          | some ws => put ws
          | none => refuse stBadState s)
        else refuse stBadParam s)
    s)

/-- PD_STATUS (R208, R210). -/
def execPdStatus (h : CmdHdr) (path : BitVec 8) (s : State) : Out :=
  .next (serve h { opcode := 0x0409, role := some .operator, params := pb path }
    (fun s => match fin? 64 path.toNat with
      | none => refuse stBadParam s
      | some p =>
        let x := s.pd.paths.get p
        doneR (le 4 (regPdStat x) ++ le 4 (regPdAcc x) ++ le 4 (regPdDisc x) ++ le 4 (regPdDisc2 x) ++
          le 4 x.nmse.toNat) s)
    s)

/-! ### Captures -/

/-- Whether the capture of the user chosen may start now: the select lines have settled, and for predistortion the burst is
past CAP_SKIP with 8,192 ticks left (R84, R198). A kernel is served in any state (R301). -/
def State.orxReady (s : State) (t : Fin 8) : Bool :=
  let o := (s.res.get t).orx
  let settled := match o.startAt with
    | some a => decide (a ≤ s.time.ticks)
    | none => false
  settled && (match o.user with
    | .none => false
    | .calibration => decide ((s.radio.get t).state = .cal)
    | .kernel => true
    | .predistortion => !s.muteOn t && match s.txBurstNow t with
      | some b => decide (b.startT + (s.pd.tiles.get t).capSkip ≤ s.time.ticks ∧ s.time.ticks + 8192 ≤ b.endT)
      | none => false)

/-- An ORX capture starts for the user chosen in the order of R31 (R84, R198). -/
def execOrxCaptureStart (t : Fin 8) (s : State) : Out :=
  let s := s.orxServe t
  let o := (s.res.get t).orx
  .next (if !o.busy && s.orxReady t then
    let s := s.modRes t (fun x => { x with orx := { x.orx with
      busy := true
      startAt := some s.time.ticks
      endAt := if o.user = .calibration then none else some (s.time.ticks + 8192) } })
    if o.user = .predistortion then
      s.modPdTile t (fun x => { x with capBusy := some o.sel, capBroken := s.muteOn t, cap := [] })
    else s
  else s)

/-- The samples of a capture on the grid from an index on (R199), oldest first; indices without one are zeros. -/
def capFill : List CapSample → Int → Nat → List CapSample
  | _, _, 0 => []
  | [], n, k + 1 => { index := n, u := (0, 0), x := (0, 0), q1 := (0, 0), q2 := (0, 0) } :: capFill [] (n + 1) k
  | v :: vs, n, k + 1 =>
    if v.index = n then v :: capFill vs (n + 1) k
    else { index := n, u := (0, 0), x := (0, 0), q1 := (0, 0), q2 := (0, 0) } :: capFill (v :: vs) (n + 1) k

/-- The 16,384 samples of the capture that a tile has taken. -/
def State.capSamples (s : State) (t : Fin 8) : List CapSample :=
  let n0 := 2 * (Int.ofNat ((s.res.get t).orx.startAt.getD s.time.ticks) - Int.ofNat s.clk.loadedV)
  capFill ((s.pd.tiles.get t).cap.reverse.filter (fun v => decide (n0 ≤ v.index))) n0 16384

/-- A sample in the F16 layout (R350). -/
def f16Word (v : Cplx) : BitVec 32 := BitVec.ofInt 16 v.2 ++ BitVec.ofInt 16 v.1

/-- Whether an ORX word holds a code at either end of its 14 bits. -/
def orxFull (w : BitVec 32) : Bool :=
  let at_ := fun (v : Int) => decide (v = -32768 ∨ 32764 ≤ v)
  at_ (w.extractLsb' 0 16).toInt || at_ (w.extractLsb' 16 16).toInt

/-- Whether num / den is at least q quarters of a decibel. -/
def quarterDb (num den : Nat) (q : Int) : Bool :=
  if 0 ≤ q then decide (den ^ 40 * 10 ^ q.toNat ≤ num ^ 40) else decide (den ^ 40 ≤ num ^ 40 * 10 ^ (-q).toNat)

/-- Whether the mean power of samples is at least q quarters of a decibel over full scale. -/
def meanDb (xs : List Cplx) (q : Int) : Bool := quarterDb (xs.map pwr).sum (xs.length * 2 ^ 30) q

/-- Whether the peak-to-mean ratio of samples lies within a range in quarters of a decibel. -/
def crestWithin (xs : List Cplx) (lo hi : Nat) : Bool :=
  let sum := max 1 (xs.map pwr).sum
  let peak := (xs.map pwr).foldl max 0 * xs.length
  quarterDb peak sum (Int.ofNat lo) && quarterDb sum (max 1 peak) (-(Int.ofNat hi))

/-- The first gate of R200 that a capture of a path fails, 1 to 5, or 0, over its samples and the words of the ORX. -/
def State.pdGate (s : State) (p : Fin 64) (vs : List CapSample) (words : List (BitVec 32)) : Nat :=
  let t := tileOf p
  let x := s.pd.tiles.get t
  let y := s.pd.paths.get p
  let from_ := (s.res.get t).orx.startAt.getD s.time.ticks
  let floor : Int := -(Int.ofNat (bitsOf x.gate.toNat 7 0))
  let low := floor - 4 * Int.ofNat (bitsOf x.gate.toNat 31 24)
  if x.capBroken || (s.radio.get t).leaves .tx from_ (from_ + 8191) then 1
  else if words.any orxFull then 2
  else if !meanDb (vs.map (fun v => v.u)) floor then 3
  else if !crestWithin (vs.map (fun v => v.x)) (bitsOf x.gate.toNat 15 8) (bitsOf x.gate.toNat 23 16) then 4
  else if decide (y.nb1 ≠ 0xFF) && !meanDb (vs.map (fun v => v.q1)) low then 5
  else if decide (y.nb2 ≠ 0xFF) && !meanDb (vs.map (fun v => v.q2)) low then 5
  else 0

/-- The route delay of a path in whole samples, rounded half up (R85, R199). -/
def Path.delaySamples (x : Path) : Nat := (x.routeDelay.toNat + 64) / 128

/-- The streams of a capture as they stand in YM (R199), the ORX words shifted by the route delay. -/
def capWords (delay : Nat) (vs : List CapSample) (words : List (BitVec 32)) : List (BitVec 32) :=
  let y := (words.drop delay).take 16384
  y ++ List.replicate (16384 - y.length) 0 ++ vs.map (fun v => f16Word v.u) ++ vs.map (fun v => f16Word v.q1) ++
  vs.map (fun v => f16Word v.q2)

/-- A predistortion capture ends (R199, R200, R201): its streams are in YM; the first gate it fails discards it, else it is
accepted and the estimator starts. -/
def State.pdCaptureEnd (s : State) (p : Fin 64) (words : List (BitVec 32)) : State :=
  let t := tileOf p
  let vs := s.capSamples t
  let delay := (s.paths.get p).delaySamples
  let g := s.pdGate p vs ((words.drop delay).take 16384)
  let s := { s with tdsp := vmod s.tdsp t (fun k => { k with ym := memWrite 0 k.ym 0 (capWords delay vs words) }) }
  let s := s.modPdTile t (fun x => { x with
    capBusy := none, capBroken := false, cap := [], next := idxOf p + 1, estBusy := if g = 0 then some (idxOf p) else x.estBusy
    stale := if g = 0 then false else x.stale })
  let s := s.modPd p (fun x =>
    match g with
    | 0 => { x with accepted := satAdd x.accepted 1, lastAcc := s.time.ticks, statsN := x.statsN + 1, nmse := Config.nmse s.free }
    | 1 => { x with dInter := satAdd x.dInter 1 }
    | 2 => { x with dOvl := satAdd x.dOvl 1 }
    | 3 => { x with dPower := satAdd x.dPower 1 }
    | 4 => { x with dCrest := satAdd x.dCrest 1 }
    | _ => { x with dNeigh := satAdd x.dNeigh 1 })
  ({ s with free := s.free + 1 } : State).setPd p (s.pdWant p)

/-- A kernel capture ends (R301): its words are in the XM bank, DONE is set and KCAP raised. -/
def State.kernelCaptureEnd (s : State) (t : Fin 8) (words : List (BitVec 32)) : State :=
  { s with tdsp := vmod s.tdsp t (fun k => { k with
      xm := memWrite 0 k.xm (k.capBank.toNat * 16384) (words.take 16384)
      capBusy := false
      capDone := true
      pend := k.pend ||| 0x10#5 }) }

/-- An ORX capture completes and the next user is served (R84, R200, R301), with the words that the ORX has given from its start on. A
predistortion capture is judged 64 ticks after its end. -/
def execOrxCaptureEnd (t : Fin 8) (words : List (BitVec 32)) (s : State) : Out :=
  let o := (s.res.get t).orx
  let after := if o.user = .predistortion then 64 else 0
  let due := match o.endAt with
    | some e => decide (e + after ≤ s.time.ticks)
    | none => true
  .next (if o.busy && due then
    let s := match o.user with
      | .predistortion => s.pdCaptureEnd (pathAt t o.sel) words
      | .kernel => s.kernelCaptureEnd t words
      | _ => s
    let s := s.modRes t (fun x => { x with orx := { x.orx with
      busy := false, user := .none, startAt := none, endAt := none, cnt := satAdd x.orx.cnt 1
      reqCal := if o.user = .calibration then none else x.orx.reqCal
      reqKern := if o.user = .kernel then none else x.orx.reqKern } })
    s.orxServe t
  else s)

/-- The plausibility checks that an estimate fails: bit 0 GAIN, 1 PHASE, 2 NMSE, 3 PEAK (R202), from values in 1/64
dB, 1/64 degree (R209). -/
def PdTile.failing (x : PdTile) (dGain dPhase nmse peak : BitVec 16) : Nat :=
  let gain := bitsOf x.limit.toNat 7 0
  let phase := bitsOf x.limit.toNat 15 8
  let nm := bitsOf x.limit.toNat 23 16
  let pk := bitsOf x.est.toNat 7 0
  b2n (decide (gain * 64 < dGain.toInt.natAbs * 10)) + 2 * b2n (decide (phase * 64 < dPhase.toInt.natAbs)) +
  4 * b2n (decide (-(64 * nm : Nat) < nmse.toInt)) + 8 * b2n (decide (-(64 * pk : Nat) < peak.toInt * 10))

/-- The estimator ends (R202 to R205): a stale estimate is discarded, an implausible one rejected, else the set is pending, unless the path is
no longer adapting: one that has frozen meanwhile still is, since its capture was accepted in ADAPTING (log 17). -/
def execEstimationDone (t : Fin 8) (dGain dPhase nmse peak : BitVec 16) (words : List (BitVec 32)) (s : State) : Out :=
  let x := s.pd.tiles.get t
  .next (match x.estBusy with
  | none => s
  | some i =>
    let p := pathAt t i
    let s := s.modPdTile t (fun x => { x with estBusy := none, stale := false })
    if x.stale then (s.modPd p (fun y => { y with dStale := satAdd y.dStale 1 })).orxServe t
    else
      let f := x.failing dGain dPhase nmse peak
      let adapts := fun (y : PdPath) => decide (y.state = .adapting ∨ y.state = .frozen)
      let s : State := if f = 0 then s.modPd p (fun y => { y with pending := if adapts y then some (setOf words) else y.pending, consecRej := 0 })
        else
          let s : State := s.modPd p (fun y => { y with
            dReject := satAdd y.dReject 1, lastRej := BitVec.ofNat 4 f, consecRej := satAdd y.consecRej 1 })
          let s : State := s.emitNow 0x0402 (0x0400 + p.val)
            (le 1 p.val ++ [stImplausible] ++ le 1 f ++ [0] ++ pb dGain ++ pb dPhase ++ pb nmse ++ pb peak)
          if x.rejectMax ≠ 0 ∧ x.rejectMax ≤ (s.pd.paths.get p).consecRej.toNat ∧ (s.pd.paths.get p).adaptEn then
            s.setPd p .halted
          else s
      s.orxServe t)

/-- No capture has been accepted for FREEZE_TIME (R205). -/
def execFreezeTimeExpiry (p : Fin 64) (s : State) : Out :=
  .next (if (s.pd.paths.get p).state = .adapting then s.setPd p (s.pdWant p) else s)

/-- FROZEN has lasted STATS_CLEAR (R206): the statistics are cleared, no coefficient changes. -/
def execStatsClearExpiry (p : Fin 64) (s : State) : Out :=
  let x := s.pd.paths.get p
  .next (if x.state = .frozen ∧ x.frozenAt + (s.pd.tiles.get (tileOf p)).clearTicks ≤ s.time.ticks then
    s.modPd p (fun x => { x with statsN := 0 })
  else s)

end Sys2Proof.Machine
end

