-- ==== Sys2Proof/Machine/RadioStates.lean ====
section
/-! DEFINITION. Tile radio states: the ends of transitions, bursts and retunes, and their commands (04_radio_states.md). -/

namespace Sys2Proof.Machine

/-- TRANSITION_COMPLETE (R113 to R115, R117): the state is in force at the end of its time; on a way through STANDBY, STANDBY is. -/
def execTransitionComplete (t : Fin 8) (s : State) : Out :=
  .next (match (s.radio.get t).transit with
    | none => s
    | some x =>
      if x.till ≤ s.time.ticks then (s.reach t).checkStitch
      else if x.lockAt ≤ s.time.ticks then s.lockUp t x.lockAt
      else s)

/-- BURST_LENGTH_END (R120, R436): the burst has held its state for its length, and the tile starts home. -/
def execBurstLengthEnd (t : Fin 8) (s : State) : Out :=
  let r := s.radio.get t
  .next (match r.burst with
    | none => s
    | some b =>
      if r.transit.isSome ∨ s.time.ticks < b.endT then s
      else
        let s := s.endBurst t b.endT false
        let s := if b.kind = .calSlot then s.slotEnd t true else s
        (s.goHome t s.time.ticks).orxServe t)

/-- TX_LEAD_START (R89, R118): the TX pattern is driven. -/
def execTxLeadStart (t : Fin 8) (s : State) : Out :=
  .next (match (s.radio.get t).leadAt with
    | none => s
    | some a => if a ≤ s.time.ticks then s.modRadio t (fun r => { r with leadAt := none, txPat := some true }) else s)

/-- TX_LAG_END (R89, R121): the STANDBY pattern follows, unless the next burst drives its TX pattern by then. -/
def execTxLagEnd (t : Fin 8) (s : State) : Out :=
  let now := s.time.ticks
  let lead := s.txLead t
  .next (match (s.radio.get t).lagEnd with
    | none => s
    | some a =>
      if now < a then s
      else s.modRadio t (fun r =>
        let again : Bool := match r.burst with
          | some b => decide (b.kind = .tx) && r.leadAt.isNone && decide (b.startT ≤ now + lead)
          | none => false
        let home := r.transit.isNone && decide (r.state ≠ .tx)
        { r with lagEnd := none, txPat := if again || r.txPat.isNone then r.txPat else if home then none else some false }))

/-- GLIDE_STEP_CONFIRM (R123, R124, R423): the next step starts at the confirmation; the last one completes the retune and sets the
phase. -/
def execGlideStepConfirm (t : Fin 8) (s : State) : Out :=
  .next (match (s.radio.get t).retune with
    | .glide base tgt left _ start _ =>
      if left ≤ 1 then
        ((s.modRadio t (fun r => { (r.endRetune s.time.ticks) with
          settleLast := BitVec.ofNat 24 (min (2 ^ 24 - 1) (s.time.ticks - start)) })).loConfirm t).checkStitch
      else s.glideStep t base tgt (left - 1) start
    | _ => s)

/-- GLIDE_STEP_OVERBUDGET (R124). -/
def execGlideStepOverbudget (t : Fin 8) (s : State) : Out :=
  .next (match (s.radio.get t).retune with
    | .glide base tgt left at_ start false =>
      if at_ + 5899 ≤ s.time.ticks then
        s.modRadio t (fun r => { r with retune := .glide base tgt left at_ start true, overbudget := satAdd r.overbudget 1 })
      else s
    | _ => s)

/-- GLIDE_STEP_TIMEOUT (R124): the synthesiser falls back to a large relock on the target. -/
def execGlideStepTimeout (t : Fin 8) (s : State) : Out :=
  .next (match (s.radio.get t).retune with
    | .glide _ tgt _ at_ start _ => if at_ + 44237 ≤ s.time.ticks then s.glideFallback t tgt start else s
    | _ => s)

/-- A large retune or a relock of a tile is confirmed (R125, R194, R423): locked, its time kept, its phase set, the pulse
made anew. -/
def State.retuneDone (s : State) (t : Fin 8) (start : Nat) : State :=
  let b := (s.radio.get t).band
  let s := s.modPll (rfPll t) (fun p => { p with lock := true })
  let s := s.modRadio t (fun r => { (r.endRetune s.time.ticks) with
    settleLast := BitVec.ofNat 24 (min (2 ^ 24 - 1) (s.time.ticks - start)) })
  let s := s.modPdTile t (fun x => { x with pulseFor := b, regen := false })
  (s.loConfirm t).checkStitch

/-- LARGE_RETUNE_COMPLETE (R113, R124, R125). -/
def execLargeRetuneComplete (t : Fin 8) (s : State) : Out :=
  .next (match (s.radio.get t).retune with
    | .large _ start till => if till ≤ s.time.ticks then s.retuneDone t start else s
    | .lock start _ => s.retuneDone t start
    | _ => s)

/-- TILE_HOME_SET (R119): the home state for APERTURE use. -/
def execTileHomeSet (h : CmdHdr) (tiles home : BitVec 8) (s : State) : Out :=
  .next (serve h { opcode := 0x0250, role := some .operator, params := pb tiles ++ pb home }
    (fun s => checks [(stBadParam, decide (home ≠ 2 ∧ home ≠ 3))] s (fun _ =>
      done { s with radio := vmap s.radio (fun t r =>
        if tiles.getLsbD t.val then { r with apHomeRx := decide (home = 3) } else r) }))
    s)

/-- TILE_STATE_GET (R131, R532). -/
def execTileStateGet (h : CmdHdr) (tile : BitVec 8) (s : State) : Out :=
  .next (serve h { opcode := 0x0251, role := some .operator, params := pb tile }
    (fun s => match fin? 8 tile.toNat with
      | none => refuse stBadParam s
      | some t =>
        let r := s.radio.get t
        doneR (le 4 (regTlState s t) ++ le 8 r.fc ++ le 4 (regTlTxhold r) ++ pb r.band) s)
    s)

/-- Whether a used bandwidth keeps the limit of R71 for the tile's frequency and for every RETUNE queued on it. -/
def State.bandOk (s : State) (t : Fin 8) (band : Nat) : Bool :=
  let r := s.radio.get t
  (!r.fcSet || bandFits r.fc band) &&
  (s.time.queues.get (tileQ t)).acts.all (fun a => match a.act with
    | .retune fc _ => bandFits fc band
    | _ => true)

/-- TILE_BAND_SET (R71, R194): the pulse follows at the tile's first burst boundary. -/
def execTileBandSet (h : CmdHdr) (tiles : BitVec 8) (band : BitVec 32) (s : State) : Out :=
  .next (serve h { opcode := 0x0252, role := some .installer, journal := true, params := pb tiles ++ pb band }
    (fun s =>
      let ts := maskBits 8 tiles.toNat
      checks
        [(stBadParam, decide (band.toNat < 1000000 ∨ 800000000 < band.toNat)),
         (stBadParam, ts.any (fun t => !s.bandOk t band.toNat))] s (fun _ =>
          done (ts.foldl (fun s t =>
            if (s.radio.get t).band = band then s
            else (s.modRadio t (fun r => { r with band := band })).modPdTile t (fun x => { x with regen := true })) s)))
    s)

end Sys2Proof.Machine
end

