-- ==== Sys2Proof/Machine/Tdsp.lean ====
section
/-! DEFINITION. The instructions of the TDSP: the compute slot (R303) and the move slot (R304) of a bundle, the loop return, interrupts
and the timer (10_tile_dsp.md). A compute-slot row opens a bundle, a move-slot row ends it. -/

namespace Sys2Proof.Machine

/-- A compute slot whose encoding is always legal. -/
def State.comp (s : State) (t : Fin 8) (f : Tdsp → List InFlight) : Out := .next (s.compute t (fun k => some (f k)))

/-- A move slot that only moves. -/
def State.mov (s : State) (t : Fin 8) (f : State → Tdsp → Move) : Out := .next (s.move t f id)

/-! ### Compute slot (R287 to R291, R303) -/

/-- NOP in either slot. -/
def execNop (t : Fin 8) (moveSlot : Bool) (s : State) : Out :=
  if moveSlot then s.mov t (fun _ _ => {}) else s.comp t (fun _ => [])

/-- CMAC. -/
def execCmac (t : Fin 8) (a : Fin 8) (x y : Fin 16) (f : TFlags) (s : State) : Out :=
  s.comp t (fun k => accum a (k.accMac a) (cprod (k.d.get x) (k.d.get y) f.cj) f.neg f.z)

/-- CMAC4. -/
def execCmac4 (t : Fin 8) (h : Fin 2) (q : Fin 4) (c : Fin 16) (f : TFlags) (s : State) : Out :=
  s.comp t (fun k => k.mac4 h q c f)

/-- FTAP (R291): the four taps, and the window shifts by one place. -/
def execFtap (t : Fin 8) (h : Fin 2) (q : Fin 4) (c n : Fin 16) (f : TFlags) (s : State) : Out :=
  s.comp t (fun k => k.mac4 h q c f ++
    [dRes (win4 q 3) (k.d.get (win4 q 2)) 1, dRes (win4 q 2) (k.d.get (win4 q 1)) 1, dRes (win4 q 1) (k.d.get (win4 q 0)) 1,
     dRes (win4 q 0) (k.d.get n) 1])

/-- RMAC2: the halves as two reals. -/
def execRmac2 (t : Fin 8) (a : Fin 8) (x y : Fin 16) (neg z : Bool) (s : State) : Out :=
  s.comp t (fun k =>
    accum a (k.accMac a) (dI (k.d.get x) * dI (k.d.get y), dQ (k.d.get x) * dQ (k.d.get y)) neg z)

/-- CPWR: the power joins I; Q is unchanged, or 0 with Z. -/
def execCpwr (t : Fin 8) (a : Fin 8) (x : Fin 16) (z : Bool) (s : State) : Out :=
  s.comp t (fun k =>
    let w := k.d.get x
    accum a (k.accMac a) (dI w * dI w + dQ w * dQ w, 0) false z)

/-- CMPY. -/
def execCmpy (t : Fin 8) (d x y : Fin 16) (cj : Bool) (s : State) : Out :=
  s.comp t (fun k =>
    let p := cprod (k.d.get x) (k.d.get y) cj
    pairRes d (shrHalfUp p.1 15) (shrHalfUp p.2 15) 2)

/-- CADD. -/
def execCadd (t : Fin 8) (d x y : Fin 16) (s : State) : Out :=
  s.comp t (fun k =>
    let u := k.d.get x
    let v := k.d.get y
    pairRes d (dI u + dI v) (dQ u + dQ v) 1)

/-- CSUB. -/
def execCsub (t : Fin 8) (d x y : Fin 16) (s : State) : Out :=
  s.comp t (fun k =>
    let u := k.d.get x
    let v := k.d.get y
    pairRes d (dI u - dI v) (dQ u - dQ v) 1)

/-- CONJ: the conjugate, or with NEG the negation. -/
def execConj (t : Fin 8) (d x : Fin 16) (neg : Bool) (s : State) : Out :=
  s.comp t (fun k =>
    let u := k.d.get x
    pairRes d (if neg then -dI u else dI u) (-dQ u) 1)

/-- SHRA. -/
def execShra (t : Fin 8) (d x : Fin 16) (n : BitVec 4) (s : State) : Out :=
  s.comp t (fun k =>
    let u := k.d.get x
    pairRes d (shrHalfUp (dI u) n.toNat) (shrHalfUp (dQ u) n.toNat) 1)

/-- AND. -/
def execAnd (t : Fin 8) (d x y : Fin 16) (s : State) : Out := s.comp t (fun k => [dRes d (k.d.get x &&& k.d.get y) 1])

/-- OR. -/
def execOr (t : Fin 8) (d x y : Fin 16) (s : State) : Out := s.comp t (fun k => [dRes d (k.d.get x ||| k.d.get y) 1])

/-- XOR. -/
def execXor (t : Fin 8) (d x y : Fin 16) (s : State) : Out := s.comp t (fun k => [dRes d (k.d.get x ^^^ k.d.get y) 1])

/-- IADD: wrapping, with Z and N. -/
def execIadd (t : Fin 8) (d x y : Fin 16) (s : State) : Out :=
  s.comp t (fun k =>
    let r := k.d.get x + k.d.get y
    [dRes d r 1, znRes r])

/-- ISUB: wrapping, with Z and N. -/
def execIsub (t : Fin 8) (d x y : Fin 16) (s : State) : Out :=
  s.comp t (fun k =>
    let r := k.d.get x - k.d.get y
    [dRes d r 1, znRes r])

/-- ICMP: Z and N of the difference. -/
def execIcmp (t : Fin 8) (x y : Fin 16) (s : State) : Out := s.comp t (fun k => [znRes (k.d.get x - k.d.get y)])

/-- MVAD (R289, R290): under AUTO the largest magnitude is recorded before saturation. -/
def execMvad (t : Fin 8) (d : Fin 16) (a : Fin 8) (s : State) : Out :=
  s.comp t (fun k =>
    let e := mvadGain k.scale
    let i := mvadComp (k.acc a).1 e
    let q := mvadComp (k.acc a).2 e
    pairRes d i q 2 ++
      (if k.scale.getLsbD 4 then
        [{ reg := .bfp, val := (max i.natAbs q.natAbs : Nat), valQ := 0, left := 1, mac := false }] else []))

/-- MVDA: a shift of more than 8 is an illegal encoding. -/
def execMvda (t : Fin 8) (a : Fin 8) (d : Fin 16) (sh : BitVec 4) (s : State) : Out :=
  .next (s.compute t (fun k =>
    if 8 < sh.toNat then none
    else some [accRes a (dI (k.d.get d) * 2 ^ (15 + sh.toNat)) (dQ (k.d.get d) * 2 ^ (15 + sh.toNat)) false]))

/-- ACCADD. -/
def execAccadd (t : Fin 8) (a b : Fin 8) (neg : Bool) (s : State) : Out :=
  s.comp t (fun k => (accum a (k.acc a) (k.acc b) neg false).map (fun x => { x with mac := false }))

/-- ACCCLR. -/
def execAccclr (t : Fin 8) (mask : BitVec 8) (s : State) : Out :=
  s.comp t (fun _ => (maskBits 8 mask.toNat).map (fun a => accRes a 0 0 false))

/-- BFPEND. -/
def execBfpend (t : Fin 8) (s : State) : Out :=
  s.comp t (fun k =>
    [{ reg := .scale, val := (bfpScale k.scale k.bfpMax).toNat, valQ := 1, left := 1, mac := false },
     { reg := .bfp, val := 0, valQ := 1, left := 1, mac := false }])

/-! ### Loads and stores (R284, R298, R304) -/

/-- A load by an addressing mode: usable from i + 3; one from a reserved region faults. -/
def loadMove (t : Fin 8) (inY : Bool) (d : Fin 16) (am : AddrMode) (s : State) (k : Tdsp) : Move :=
  let w := wordOf (k.address am).1
  if wordReserved (s.estReg t) inY w then { fault := 4 }
  else { res := dRes d (k.loadWord inY w) 3 :: k.addressRes am, loadX := !inY, loadY := inY }

/-- A store by an addressing mode. -/
def storeMove (t : Fin 8) (inY : Bool) (d : Fin 16) (am : AddrMode) (s : State) (k : Tdsp) : Move :=
  let w := wordOf (k.address am).1
  if wordReserved (s.estReg t) inY w then { fault := 4 }
  else { res := k.addressRes am, stores := [{ inY := inY, addr := w, val := k.d.get d }] }

/-- LDX. -/
def execLdx (t : Fin 8) (d : Fin 16) (am : AddrMode) (s : State) : Out := s.mov t (loadMove t false d am)

/-- LDY. -/
def execLdy (t : Fin 8) (d : Fin 16) (am : AddrMode) (s : State) : Out := s.mov t (loadMove t true d am)

/-- LDXY: both memories at once, each pointer updated by its M if its u is 1. -/
def execLdxy (t : Fin 8) (a b : Fin 16) (px mx : Fin 8) (ux : Bool) (py my : Fin 8) (uy : Bool) (s : State) : Out :=
  s.mov t (fun s k =>
    let wx := wordOf (k.p.get px)
    let wy := wordOf (k.p.get py)
    if wordReserved (s.estReg t) false wx || wordReserved (s.estReg t) true wy then { fault := 4 }
    else
      { res := [dRes a (k.loadWord false wx) 3, dRes b (k.loadWord true wy) 3] ++
          (if ux then [ptrRes px (k.stepPtr px (k.m.get mx).toInt)] else []) ++
          (if uy then [ptrRes py (k.stepPtr py (k.m.get my).toInt)] else [])
        loadX := true, loadY := true })

/-- STX. -/
def execStx (t : Fin 8) (r : Fin 16) (am : AddrMode) (s : State) : Out := s.mov t (storeMove t false r am)

/-- STY. -/
def execSty (t : Fin 8) (r : Fin 16) (am : AddrMode) (s : State) : Out := s.mov t (storeMove t true r am)

/-! ### Register moves and pointers (R275, R285, R304) -/

/-- LI: an illegal code faults. -/
def execLi (t : Fin 8) (code : BitVec 6) (imm : BitVec 18) (s : State) : Out :=
  s.mov t (fun _ _ => match regOf code with
    | some r => { res := [codeRes r (imm.signExtend 32)] }
    | none => { fault := 1 })

/-- LIH. -/
def execLih (t : Fin 8) (d : Fin 16) (imm : BitVec 16) (s : State) : Out :=
  s.mov t (fun _ k => { res := [dRes d (imm.setWidth 32 <<< 16 ||| (k.d.get d &&& 0xFFFF#32)) 1] })

/-- MV: an illegal code faults. -/
def execMv (t : Fin 8) (dst src : BitVec 6) (s : State) : Out :=
  s.mov t (fun s k => match regOf dst, k.readCode (s.estReg t) src with
    | some r, some v => { res := [codeRes r v] }
    | _, _ => { fault := 1 })

/-- PADD: by an M register, or by a signed immediate in bytes. -/
def execPadd (t : Fin 8) (p : Fin 8) (form : Bool) (m : Fin 8) (imm : BitVec 18) (s : State) : Out :=
  s.mov t (fun _ k => { res := [ptrRes p (k.stepPtr p (if form then imm.toInt else (k.m.get m).toInt))] })

/-! ### Kernel I/O (R300, R301, R397) -/

/-- The value an IOR reads; none where the address is not listed. A write-only address reads 0. -/
def State.iorValue (s : State) (t : Fin 8) (addr : Nat) : Option (BitVec 32) :=
  let k := s.tdsp.get t
  match addr with
  | 0 => some k.dbell
  | 1 => some k.timer
  | 2 => some (BitVec.ofNat 32 s.time.ticks)
  | 3 => some k.timeHi
  | 4 => some (k.fill.get 0)
  | 5 => some (k.fill.get 1)
  | 6 => some 0
  | 7 => some (BitVec.ofNat 32 (b2n k.capBusy + 2 * b2n k.capDone + 4 * b2n k.capRef))
  | 8 => some (k.pend.setWidth 32)
  | _ => none

/-- What an IOR does beside its result: TIO_DBELL is cleared with its request, TIO_TIME latches the high ticks, a fill's count of
subtractions starts anew. -/
def State.iorEffect (s : State) (t : Fin 8) (addr : Nat) : State :=
  match addr with
  | 0 => s.modK t (fun k => { k with dbell := 0, dbPend := false, pend := k.pend &&& ~~~(1#5) })
  | 2 => s.modK t (fun k => { k with timeHi := BitVec.ofNat 32 (s.time.ticks / 2 ^ 32) })
  | 4 => s.modK t (fun k => { k with fillSub := k.fillSub.set 0 0 })
  | 5 => s.modK t (fun k => { k with fillSub := k.fillSub.set 1 0 })
  | _ => s

/-- IOR. -/
def State.ior (s : State) (t : Fin 8) (d : Fin 16) (addr : Nat) : Out :=
  .next (s.move t (fun s _ => match s.iorValue t addr with
      | some v => { res := [dRes d v 3] }
      | none => { fault := 1 })
    (fun s => s.iorEffect t addr))

/-- A kernel asks for an ORX capture (R301). -/
def State.kernelCapture (s : State) (t : Fin 8) (v : BitVec 32) : State :=
  let k := s.tdsp.get t
  let bank : BitVec 2 := (v >>> 16).setWidth 2
  if k.capBusy || wordReserved (s.estReg t) false (bank.toNat * 16384) then s.modK t (fun k => { k with capRef := true })
  else
    let s := s.modK t (fun k => { k with capBusy := true, capDone := false, capRef := false, capBank := bank })
    (s.modRes t (fun r => { r with orx.reqKern := some (v.setWidth 3) })).orxServe t

/-- What an IOW does: the timer's interval starts, a fill takes the value less the subtractions since the kernel's last access, a
capture is asked for; a read-only address ignores it. -/
def State.iowEffect (s : State) (t : Fin 8) (addr : Nat) (v : BitVec 32) : State :=
  let fill := fun (q : Fin 2) =>
    (s.modK t (fun k =>
      { k with fill := k.fill.set q.val (v - BitVec.ofNat 32 (min v.toNat (k.fillSub.get q))) q.isLt, fillSub := k.fillSub.set q.val 0 q.isLt })).levelChanged t (decide (q = 1))
  match addr with
  | 1 => s.modK t (fun k => { k with timer := v, timerAt := s.time.ticks })
  | 4 => fill 0
  | 5 => fill 1
  | 6 => s.kernelCapture t v
  | _ => s

/-- IOW. -/
def State.iow (s : State) (t : Fin 8) (r : Fin 16) (addr : Nat) : Out :=
  let v := (s.tdsp.get t).d.get r
  let v := if (s.tdsp.get t).issuedC then v else ((s.tdsp.get t).loopReturn).d.get r
  .next (s.move t (fun _ _ => if addr ≤ 8 then {} else { fault := 1 }) (fun s => s.iowEffect t addr v))

/-- IOR of TIO_DBELL. -/
def execIorTioDbell (t : Fin 8) (d : Fin 16) (s : State) : Out := s.ior t d 0

/-- IOR of TIO_TIME or another I/O address. -/
def execIorTioTime (t : Fin 8) (d : Fin 16) (addr : BitVec 8) (s : State) : Out := s.ior t d addr.toNat

/-- IOR of TIO_FILLk. -/
def execIorTioFill (t : Fin 8) (d : Fin 16) (k : Fin 2) (s : State) : Out := s.ior t d (4 + k.val)

/-- IOW of TIO_FILLk. -/
def execIowTioFill (t : Fin 8) (r : Fin 16) (k : Fin 2) (s : State) : Out := s.iow t r (4 + k.val)

/-- IOW of TIO_TIMER or another I/O address. -/
def execIowTioTimer (t : Fin 8) (r : Fin 16) (addr : BitVec 8) (s : State) : Out := s.iow t r addr.toNat

/-- IOW of TIO_CAP. -/
def execIowTioCap (t : Fin 8) (r : Fin 16) (s : State) : Out := s.iow t r 6

/-! ### Flow (R279, R282, R292 to R296) -/

/-- IEN. -/
def execIen (t : Fin 8) (e : Bool) (s : State) : Out :=
  s.mov t (fun _ _ => { res := [{ reg := .ie, val := b2n e, valQ := 0, left := 1, mac := false }] })

/-- Whether a branch condition holds; none for the illegal one. -/
def Tdsp.cond (k : Tdsp) (c : BitVec 3) : Option Bool :=
  let z := k.status.getLsbD 0
  let n := k.status.getLsbD 1
  match c.toNat with
  | 0 => some true
  | 1 => some z
  | 2 => some !z
  | 3 => some n
  | 4 => some !n
  | 5 => some (!n && !z)
  | 6 => some (k.status.getLsbD 2)
  | _ => none

/-- BR. -/
def execBr (t : Fin 8) (cond : BitVec 3) (target : BitVec 15) (s : State) : Out :=
  s.mov t (fun _ k => match k.cond cond with
    | none => { fault := 1 }
    | some b => k.transfer target (if b then 0 else 2) [])

/-- CALL. -/
def execCall (t : Fin 8) (d : Fin 16) (target : BitVec 15) (s : State) : Out :=
  s.mov t (fun _ k => k.transfer target 0 [dRes d ((k.pc + 3).setWidth 32) 1])

/-- RET. -/
def execRet (t : Fin 8) (r : Fin 16) (s : State) : Out :=
  s.mov t (fun _ k => k.transfer ((k.d.get r).setWidth 15) 0 [])

/-- RETI. -/
def execReti (t : Fin 8) (s : State) : Out := s.mov t (fun _ k => k.transfer k.iret 1 [])

/-- LOOP: a start of 0, an end before the start, or bits beside a register count are illegal. -/
def execLoop (t : Fin 8) (lv : Fin 2) (form : Bool) (start : BitVec 4) (stop count : BitVec 10) (s : State) : Out :=
  s.mov t (fun _ k =>
    if start = 0 ∨ stop.toNat < start.toNat ∨ (form = true ∧ 16 ≤ count.toNat) then { fault := 1 }
    else
      let r : Nat := if form then ((k.d.get (count.setWidth 4 : BitVec 4).toFin).setWidth 16).toNat else count.toNat
      let n : Nat := if r = 0 then (if form then 65536 else 1024) else r
      { res := [codeRes (.lc lv) (BitVec.ofNat 32 n), codeRes (.ls lv) ((k.pc + start.setWidth 15).setWidth 32),
          codeRes (.le lv) ((k.pc + stop.setWidth 15).setWidth 32)] })

/-- LOOP_RETURN: a loop's end bundle has ended. -/
def execLoopReturn (t : Fin 8) (s : State) : Out := .next (if s.kRuns t then s.modK t Tdsp.loopReturn else s)

/-- MVLP: LC, LS and LE at three words from the pointer, which is updated by 12. -/
def execMvlp (t : Fin 8) (lv : Fin 2) (restore inY : Bool) (p : Fin 8) (s : State) : Out :=
  s.mov t (fun s k =>
    let a := k.p.get p
    let w := [wordOf a, wordOf (a + 4), wordOf (a + 8)]
    if w.any (fun x => wordReserved (s.estReg t) inY x) then { fault := 4 }
    else
      let up := ptrRes p (k.stepPtr p 12)
      if restore then
        let rd := fun (i : Nat) => k.loadWord inY (w.getD i 0)
        { res := [{ codeRes (.lc lv) (rd 0) with left := 3 }, { codeRes (.ls lv) (rd 1) with left := 3 },
            { codeRes (.le lv) (rd 2) with left := 3 }, up]
          loadX := !inY, loadY := inY }
      else
        { res := [up]
          stores := [{ inY := inY, addr := w.getD 0 0, val := (k.lc.get lv).setWidth 32 },
            { inY := inY, addr := w.getD 1 0, val := (k.ls.get lv).setWidth 32 },
            { inY := inY, addr := w.getD 2 0, val := (k.le.get lv).setWidth 32 }] })

/-- SYNC (R299): it stalls while the buffer holds entries. -/
def execSync (t : Fin 8) (s : State) : Out :=
  .next (s.move t (fun _ _ => {}) (fun s => s.modK t (fun k => if k.wbuf.isEmpty then k else { k with stall := .sync })))

/-- SYNC_BUFFER_DRAINED: the stalled cycles pass, one entry each. -/
def execSyncBufferDrained (t : Fin 8) (s : State) : Out :=
  .next (if (s.tdsp.get t).stall = .sync ∧ s.tilePowered t = true ∧ s.hk.halt = false then
      s.modK t (fun k => { (k.wbuf.foldl (fun k _ => k.stallCycle) k) with stall := .none })
    else s)

/-- IDLE: issue stalls until an interrupt is taken. -/
def execIdle (t : Fin 8) (s : State) : Out :=
  .next (s.move t (fun _ _ => {}) (fun s => s.modK t (fun k => { k with stall := .idle, state := .idle })))

/-- EVT. -/
def execEvt (t : Fin 8) (r : Fin 16) (code : BitVec 8) (s : State) : Out :=
  let k := if (s.tdsp.get t).issuedC then s.tdsp.get t else (s.tdsp.get t).loopReturn
  .next (s.move t (fun _ _ => {}) (fun s => s.kernelMsg t code k.pc (k.d.get r)))

/-! ### Interrupts (R294, R295) and the timer (R300) -/

/-- The claimed source to take, in order of priority, as its IMASK bit and its place in the image's list of entries: KCAP, DMA, TIMER,
DOORBELL. -/
def Tdsp.source (k : Tdsp) : Option (Nat × Nat) :=
  match k.image with
  | none => none
  | some i =>
    [(4, 3), (2, 1), (3, 2), (0, 0)].find? (fun x =>
      k.pend.getLsbD x.1 && k.imask.getLsbD x.1 && i.claims.getLsbD x.1)

/-- TDSP_INTERRUPT_ENTRY: every result in flight lands, IRET takes the next bundle, IE is cleared, INISR set, and the kernel's entry runs.
The request of a source other than DOORBELL, which its read clears, ends. -/
def execTdspInterruptEntry (t : Fin 8) (s : State) : Out :=
  let k := (s.tdsp.get t).atStart
  .next (if decide (k.state ≠ .running ∧ k.state ≠ .idle) || !s.tilePowered t || s.hk.halt || decide (k.stall = .sync) ||
        k.inDelay || k.loopTail || !k.status.getLsbD 4 then s
    else match k.source, k.image with
      | some x, some i =>
        let k := ((k.landDue k.flight).landDue (k.landDue k.flight).flight)
        let k := k.landDue k.flight
        s.modK t (fun _ =>
          { k with
            state := .running, stall := .none, iret := k.pc, pc := BitVec.ofNat 15 (i.isr.getD x.2 0)
            status := (k.status &&& ~~~(0x10#32)) ||| 0x20#32
            pend := if x.1 = 0 then k.pend else k.pend &&& ~~~(1#5 <<< x.1) })
      | _, _ => s)

/-- TIO_TIMER_EXPIRY: the interval has passed; the next begins. -/
def execTioTimerExpiry (t : Fin 8) (s : State) : Out :=
  let k := s.tdsp.get t
  .next (if s.tilePowered t && decide (k.timer ≠ 0 ∧ k.timerAt + k.timer.toNat ≤ s.time.ticks) then
      s.modK t (fun k => { k with pend := k.pend ||| 8#5, timerAt := k.timerAt + k.timer.toNat })
    else s)

end Sys2Proof.Machine
end

