-- ==== Sys2Proof/Machine/TdspCmd.lean ====
section
/-! DEFINITION. The commands of the TDSP: loading, starting, stopping and unloading kernels, the doorbell (10_tile_dsp.md R305 to R311). -/

namespace Sys2Proof.Machine

/-! ### Kernel images (R305, R306) -/

/-- The bytes of an image in the store. -/
def State.storeBytes (s : State) (a n : Nat) : List Byte := memRead 0 s.aq.store a n

/-- A field of the header of the image at a store address. -/
def State.imgField (s : State) (a o n : Nat) : Nat := unle (s.storeBytes (a + o) n)

/-- The bytes of the PM, XM and YM parts of an image. -/
def State.imgLen (s : State) (a : Nat) : Nat := s.imgField a 16 4 + s.imgField a 24 4 + s.imgField a 32 4

/-- Whether a region of XM or YM lies in its memory, whole words. -/
def dataFits (off n : Nat) : Bool := decide (off % 4 = 0 ∧ n % 4 = 0 ∧ off + n ≤ 262144)

/-- The image as TDSP_LOAD reads it. -/
def State.imgRead (s : State) (a : Nat) : KImage :=
  { kid := BitVec.ofNat 32 (s.imgField a 8 4), resUse := (s.imgField a 6 2).testBit 0, pmOff := s.imgField a 12 4,
    pmLen := s.imgField a 16 4 / 8, entry := s.imgField a 36 2, claims := BitVec.ofNat 5 (s.imgField a 38 2),
    isr := (List.range 4).map (fun i => s.imgField a (40 + 2 * i) 2) }

/-- The claim bits in the order of the ISR entries. -/
def claimBit (i : Nat) : Nat := [0, 2, 3, 4].getD i 0

/-- Whether R306 lets an image in: every region in its memory, and outside the reserved regions unless RES_USE; every entry in the PM
range; reserved fields 0; the CRC right; the whole of it in the store outside every segment. -/
def State.imgOk (s : State) (a : Nat) : Bool :=
  let f := s.imgField a
  let k := s.imgRead a
  let pmEnd := k.pmOff + k.pmLen
  let inPm := fun (e : Nat) => decide (k.pmOff ≤ e ∧ e < pmEnd)
  decide (0x40000000 ≤ a ∧ a + 64 ≤ 0xC0000000) &&
  decide (f 0 4 = 0x4B545350 ∧ f 4 2 = 64 ∧ f 6 2 < 2) &&
  decide (8192 ≤ k.pmOff ∧ k.pmOff ≤ 32767 ∧ f 16 4 % 8 = 0 ∧ pmEnd ≤ 32768) &&
  dataFits (f 20 4) (f 24 4) && dataFits (f 28 4) (f 32 4) &&
  (k.resUse || decide ((f 24 4 = 0 ∨ 0x20000 ≤ f 20 4) ∧ f 32 4 = 0)) &&
  inPm k.entry && decide (f 38 2 &&& 0xFFE2 = 0) &&
  (List.range 4).all (fun i => if k.claims.getLsbD (claimBit i) then inPm (k.isr.getD i 0) else decide (k.isr.getD i 0 = 0)) &&
  (s.storeBytes (a + 48) 12).all (fun b => decide (b = 0)) &&
  decide (a + 64 + s.imgLen a ≤ 0xC0000000) && !s.inSegment a (64 + s.imgLen a) &&
  decide (f 60 4 = (crc32c (BitVec.ofNat 32 k.pmOff)
    (s.storeBytes a 60 ++ s.storeBytes (a + 64) (s.imgLen a))).toNat)

/-! ### Loading (R307, R308) -/

/-- The estimator of a tile pauses for a load: an estimation in progress is abandoned and counted. -/
def State.estPause (s : State) (t : Fin 8) : State :=
  let s := match (s.pd.tiles.get t).estBusy with
    | none => s
    | some i =>
      (s.modPd (pathAt t i) (fun x => { x with dStale := satAdd x.dStale 1 })).modPdTile t
        (fun x => { x with estBusy := none, stale := false })
  (s.modPdTile t (fun x => { x with reload := true })).pdRefresh t

/-- A load is accepted: the kernel stops, the estimator pauses, the copy begins. -/
def State.loadBegin (s : State) (t : Fin 8) (a : Nat) (start : Bool) : State :=
  let l : KLoad := { img := s.imgRead a, addr := a, start := start }
  ((s.kernelStop t 2).estPause t).modK t (fun k => { k with state := .loading, image := none, load := some l })

/-- TDSP_LOAD. -/
def execTdspLoad (h : CmdHdr) (tile : BitVec 8) (addr : BitVec 32) (start : BitVec 8) (s : State) : Out :=
  .next (serve h { opcode := 0x0B01, role := some .installer, journal := true, params := pb tile ++ pb addr ++ pb start }
    (fun s => match fin? 8 tile.toNat with
      | none => refuse stBadParam s
      | some t =>
        let a := addr.toNat
        checks
          [(stBadParam, decide (1 < start.toNat)), (stBadParam, !s.imgOk a),
           (stBadState, decide ((s.radio.get t).use ≠ .out)),
           (stBadState, (s.imgRead a).resUse && s.estReg t),
           (stBusy, s.tdsp.toList.any (fun k => k.load.isSome)), (stBusy, s.dramDown)] s
          (fun _ => accepted (s.loadBegin t a (decide (start = 1)))))
    s)

/-- The words of part of an image. -/
def State.imgWords (s : State) (a n : Nat) : List (BitVec 32) :=
  (List.range (n / 4)).map (fun i => BitVec.ofNat 32 (unle (s.storeBytes (a + 4 * i) 4)))

/-- TDSP_LOAD_COMPLETE: the copy is done, the estimator resumes, TDSP_LOADED is emitted; with START the kernel starts at ENTRY. PM is held
as words, two to a bundle. -/
def execTdspLoadComplete (t : Fin 8) (s : State) : Out :=
  .next (match (s.tdsp.get t).load with
  | none => s
  | some l =>
    if s.dramDown || !s.pup.ready then s
    else
      let f := s.imgField l.addr
      let base := l.addr + 64
      let pm := s.imgWords base (f 16 4)
      let xm := s.imgWords (base + f 16 4) (f 24 4)
      let ym := s.imgWords (base + f 16 4 + f 24 4) (f 32 4)
      let s := s.modK t (fun k =>
        { k with
          state := .loaded, image := some l.img, load := none
          pm := memWrite 0 k.pm (2 * l.img.pmOff) pm
          xm := memWrite 0 k.xm (f 20 4 / 4) xm
          ym := memWrite 0 k.ym (f 28 4 / 4) ym })
      let s := (s.modPdTile t (fun x => { x with reload := false })).pdRefresh t
      let s := s.emitNow 0x0B01 (0x0B00 + t.val) (le 1 t.val ++ [stDone] ++ pb l.img.kid)
      if l.start && s.kernelReady t then s.modK t (fun k => k.begin l.img.entry) else s)

/-- TDSP_START (R309). -/
def execTdspStart (h : CmdHdr) (tile : BitVec 8) (entry : BitVec 16) (s : State) : Out :=
  .next (serve h { opcode := 0x0B02, role := some .installer, journal := true, params := pb tile ++ pb entry }
    (fun s => match fin? 8 tile.toNat with
      | none => refuse stBadParam s
      | some t =>
        let k := s.tdsp.get t
        match k.image with
        | none => refuse stBadState s
        | some i =>
          let e := if entry = 0 then i.entry else entry.toNat
          checks [(stBadParam, !k.inRange e), (stBadState, !s.kernelReady t)] s (fun _ =>
            done (s.modK t (fun k => k.drainAll.begin e))))
    s)

/-- TDSP_STOP (R309). -/
def execTdspStop (h : CmdHdr) (tile : BitVec 8) (s : State) : Out :=
  .next (serve h { opcode := 0x0B03, role := some .installer, journal := true, params := pb tile }
    (fun s => match fin? 8 tile.toNat with
      | none => refuse stBadParam s
      | some t => done (s.kernelStop t 1))
    s)

/-- TDSP_DOORBELL: the value waits in TIO_DBELL and raises DOORBELL (R294, R300). -/
def execTdspDoorbell (h : CmdHdr) (tile : BitVec 8) (value : BitVec 32) (s : State) : Out :=
  .next (serve h { opcode := 0x0B04, role := some .operator, params := pb tile ++ pb value }
    (fun s => match fin? 8 tile.toNat with
      | none => refuse stBadParam s
      | some t => checks [(stBusy, (s.tdsp.get t).dbPend)] s (fun _ =>
          done (s.modK t (fun k => { k with dbell := value, dbPend := true, lastDb := value, pend := k.pend ||| 1#5 }))))
    s)

/-- TDSP_STATUS. -/
def execTdspStatus (h : CmdHdr) (tile : BitVec 8) (s : State) : Out :=
  .next (serve h { opcode := 0x0B05, role := some .operator, params := pb tile }
    (fun s => match fin? 8 tile.toNat with
      | none => refuse stBadParam s
      | some t =>
        let k := s.tdsp.get t
        doneR (le 4 (regTdspStat s t) ++ le 4 (regTdspShare s t) ++ le 4 (regTdspKid k) ++ le 4 (regTdspCnt k)) s)
    s)

/-- TDSP_UNLOAD: the kernel is stopped and its regions freed. -/
def execTdspUnload (h : CmdHdr) (tile : BitVec 8) (s : State) : Out :=
  .next (serve h { opcode := 0x0B06, role := some .installer, journal := true, params := pb tile }
    (fun s => match fin? 8 tile.toNat with
      | none => refuse stBadParam s
      | some t => checks [(stBusy, decide ((s.tdsp.get t).state = .loading))] s (fun _ =>
          done ((s.kernelStop t 1).modK t (fun k => { k with state := .empty, image := none }))))
    s)

end Sys2Proof.Machine
end

