-- ==== Sys2Proof/Machine/Registers.lean ====
section
/-! DEFINITION. The register map (R34): what a read of each word answers and does, what a write does, by the access codes of R12 and the
register tables of each chapter. Addresses of words are multiples of 4. -/

namespace Sys2Proof.Machine

/-! ### Words and arrays -/

/-- What a read of a word answers, and the state it leaves. -/
abbrev Rd := Nat × State

/-- A word that a read leaves alone. -/
def State.ro (s : State) (v : Nat) : Rd := (v, s)

/-- The element of an array of n blocks of so many bytes at a base that an offset lies in, and the offset in it. -/
def slot? (n base size o : Nat) : Option (Fin n × Nat) :=
  if base ≤ o then (fin? n ((o - base) / size)).map (fun i => (i, (o - base) % size)) else none

/-- The first of several arrays that answers, else an unassigned word, which reads 0 (R13). -/
def State.firstOf (s : State) (l : List (Option Rd)) : Rd := (l.findSome? (fun x => x)).getD (s.ro 0)

/-! ### Reads: host port (R494, R520, R570) -/

/-- The AO registers of R494 with HP_ID and HP_REV: those that answer in RETAIN. -/
def State.rdAo (s : State) (o : Nat) : Option Rd :=
  match o with
  | 0x00 => some (s.ro hpId)
  | 0x04 => some (s.ro hpRev)
  | 0x100 => some (regWakeStatus s.pw, { s with pw.wakeCnt := 0 })
  | 0x104 => some (s.ro s.pw.held.toNat)
  | 0x108 => some (s.ro (regWakeCtl s.pw))
  | 0x10C => some (s.ro s.pw.timer.toNat)
  | 0x110 => some (s.ro s.pw.sleepCnt.toNat)
  | _ => none

def State.rdHp (s : State) (o : Nat) : Rd :=
  let p := s.pup
  match o with
  | 0x08 => s.ro (regHpStat p)
  | 0x0C => s.ro p.irq.toNat
  | 0x10 => s.ro p.irqEn.toNat
  | 0x20 => s.ro p.evtWr.toNat
  | 0x24 => s.ro p.evtRd.toNat
  | 0x28 => (p.evtLost.toNat, { s with pup.evtLost := 0 })
  | 0x30 => s.ro p.mbCfg.toNat
  | 0x80 => s.ro (regHpBoot p)
  | 0x84 => s.ro p.fwVer.toNat
  | 0x90 => s.ro (regHpSess s)
  | 0x94 => s.ro p.jNext.toNat
  | 0x98 => s.ro (jOldest p.jNext.toNat)
  | 0x9C => (regJrnlStat p, { s with pup.jDropped := 0 })
  | _ => match s.rdAo o, slot? 4 0x40 8 o with
    | some r, _ => r
    | none, some (m, 0) => s.ro (p.ctail.get m).toNat
    | none, some (m, _) => s.ro (p.chead.get m).toNat
    | none, none => s.ro 0

/-! ### Reads: tiles (R69, R110, R133, R158, R210, R313, R452) -/

def State.rdPath (s : State) (p : Fin 64) (o : Nat) : Rd :=
  let x := s.paths.get p
  match o with
  | 0x00 => s.ro x.ctl.toNat
  | 0x04 => s.ro (regPaStat s p)
  | 0x08 => (x.ovlCnt.toNat, s.modPath p (fun x => { x with ovlCnt := 0 }))
  | 0x0C => s.ro (regPwr (s.chan.rx.get p).pwr)
  | 0x10 => s.ro (regPwr (s.chan.tx.get p).pwr)
  | _ => s.ro 0

def State.rdPdPath (s : State) (p : Fin 64) (o : Nat) : Rd :=
  let x := s.pd.paths.get p
  match o with
  | 0x00 => s.ro (regPdCtl x)
  | 0x04 => s.ro (regPdStat x)
  | 0x08 => (regPdAcc x, s.modPd p (fun x => { x with swaps := 0, accepted := 0 }))
  | 0x0C => (regPdDisc x, s.modPd p (fun x => { x with dPower := 0, dCrest := 0, dNeigh := 0, dOvl := 0 }))
  | 0x10 => (regPdDisc2 x, s.modPd p (fun x => { x with dInter := 0, dStale := 0, dReject := 0 }))
  | 0x14 => s.ro x.nmse.toNat
  | 0x18 => (regPdSat x, s.modPd p (fun x => { x with cfrResid := 0, satPd := 0 }))
  | _ => s.ro 0

/-- The coefficient windows of a path: the active set, and the pending one (R210). -/
def State.rdPdSet (s : State) (p : Fin 64) (o : Nat) : Rd :=
  let x := s.pd.paths.get p
  if o < 0x200 then s.ro (memGet 0 x.active (o / 4)).toNat
  else match x.pending with
    | some ws => s.ro (memGet 0 ws ((o - 0x200) / 4)).toNat
    | none => s.ro 0

/-- Front-end registers of a tile. -/
def State.rdFront (s : State) (t : Fin 8) (o : Nat) : Option Rd :=
  let r := s.res.get t
  match o with
  | 0x1100 => some (s.ro (regPickCfg s t))
  | 0x1104 => some (s.ro (regPickHold s t))
  | 0x1108 => some (s.ro (regPickLat s t))
  | 0x110C => some (r.pcnt.a.toNat, s.modRes t (fun r => { r with pcnt.a := 0 }))
  | 0x1110 => some (r.pcnt.b.toNat, s.modRes t (fun r => { r with pcnt.b := 0 }))
  | 0x1114 => some (regPickMisc r.pcnt, s.modRes t (fun r => { r with pcnt := { r.pcnt with abort := 0, void := 0 } }))
  | 0x1120 => some (s.ro (regPreCfg r.det))
  | 0x1124 => some (s.ro r.det.thr.toNat)
  | 0x1128 => some (r.det.cnt.toNat, s.modRes t (fun r => { r with det.cnt := 0 }))
  | 0x112C => some (r.det.busy.toNat, s.modRes t (fun r => { r with det.busy := 0 }))
  | 0x1168 => some (s.ro r.fem.cfg.toNat)
  | 0x116C => some (s.ro (regFemNow s t))
  | 0x1180 => some (s.ro (regOrxCtl r.orx))
  | 0x1184 => some (r.orx.cnt.toNat, s.modRes t (fun r => { r with orx.cnt := 0 }))
  | 0x11A0 => some (s.ro (regRffeCtl r.rffe))
  | 0x11A4 => some (regRffeErr r.rffe, s.modRes t (fun r => { r with rffe := { r.rffe with overrun := 0, parity := 0 } }))
  | _ => (slot? 10 0x1140 4 o).map (fun x => s.ro (r.fem.pats.get x.1).toNat)

/-- Radio, channeliser and calibration registers of a tile, and its action queue. TL_SYN_FC_LO latches TL_SYN_FC_HI. -/
def State.rdRadio (s : State) (t : Fin 8) (o : Nat) : Option Rd :=
  let r := s.radio.get t
  match o with
  | 0x1000 => some (regActq (s.time.queues.get (tileQ t)), s.modQueue (tileQ t) (fun q => { q with lateCnt := 0 }))
  | 0x1200 => some (s.ro (regTlState s t))
  | 0x1204 => some (r.fc % 2 ^ 32, s.modRadio t (fun r => { r with fcHiLatch := BitVec.ofNat 32 (r.fc / 2 ^ 32) }))
  | 0x1208 => some (s.ro r.fcHiLatch.toNat)
  | 0x120C => some (regRetuneCnt r, s.modRadio t (fun r => { r with large := 0, glides := 0 }))
  | 0x1210 => some (regTlTxhold r, s.modRadio t (fun r => { r with discarded := 0, held := 0 }))
  | 0x1214 => some (regSynErr r, s.modRadio t (fun r => { r with fallback := 0, overbudget := 0 }))
  | 0x1218 => some (s.ro r.settleLast.toNat)
  | 0x1300 => some (s.ro (regChFront s.chan))
  | 0x1600 => some (s.ro (regCalStat s t))
  | 0x1604 => some (regCalCnt (s.cal.tiles.get t), s.modCal t (fun x => { x with ended := 0, done := 0 }))
  | 0x1608 => some (regCalMiss (s.cal.tiles.get t), s.modCal t (fun x => { x with claims := 0 }))
  | _ => match slot? 8 0x1310 4 o, slot? 8 0x1330 4 o with
    | some (i, _), _ =>
      let p := pathOf t i
      some ((s.chan.satRx.get p).toNat, { s with chan.satRx := vmod s.chan.satRx p (fun _ => 0) })
    | none, some (i, _) =>
      let p := pathOf t i
      some ((s.chan.satTx.get p).toNat, { s with chan.satTx := vmod s.chan.satTx p (fun _ => 0) })
    | none, none => none

/-- Predistortion and TDSP registers of a tile. -/
def State.rdPdTile (s : State) (t : Fin 8) (o : Nat) : Option Rd :=
  let x := s.pd.tiles.get t
  let k := s.tdsp.get t
  match o with
  | 0x1400 => some (s.ro (regPdTile s t))
  | 0x1404 => some (s.ro x.gate.toNat)
  | 0x1408 => some (s.ro x.timing.toNat)
  | 0x140C => some (s.ro x.limit.toNat)
  | 0x1410 => some (s.ro x.est.toNat)
  | 0x1414 => some (s.ro x.cfr.toNat)
  | 0x1500 => some (s.ro (regTdspStat s t))
  | 0x1504 => some (s.ro (regTdspShare s t))
  | 0x1508 => some (s.ro (regTdspKid k))
  | 0x150C => some (s.ro k.lastDb.toNat)
  | 0x1510 => some (regTdspCnt k, s.modK t (fun k => { k with faults := 0, estStops := 0, msgDrop := 0, longDi := 0 }))
  | _ => none

/-- The word of a memory of words that an offset in its window of 256 KiB names. -/
def rdMem (m : List (Nat × BitVec 32)) (o : Nat) : Nat := if o < 0x40000 then (memGet 0 m (o / 4)).toNat else 0

def State.rdTile (s : State) (t : Fin 8) (o : Nat) : Rd :=
  let k := s.tdsp.get t
  if o < 0x1800 then s.firstOf [s.rdFront t o, s.rdRadio t o, s.rdPdTile t o]
  else if o < 0x800000 then s.firstOf
    [(slot? 8 0x1800 0x20 o).map (fun x => s.rdPdPath (pathOf t x.1) x.2),
     (slot? 8 0x20000 0x40 o).map (fun x => s.rdPath (pathOf t x.1) x.2),
     (slot? 8 0x30000 0x400 o).map (fun x => s.rdPdSet (pathOf t x.1) x.2)]
  else if o < 0x900000 then s.ro (rdMem k.pm (o - 0x800000))
  else if o < 0xA00000 then s.ro (rdMem k.xm (o - 0x900000))
  else s.ro (rdMem k.ym (o - 0xA00000))

/-! ### Reads: beam engine, analyser, acquisition (R185, R240, R270) -/

/-- The word windows of the shadow banks, whether transmit, and the key of the word in its bank: a weight, or the delay of a path. -/
inductive ShadowWord where
  | weight (tx : Bool) (key : Nat)
  | delay (tx : Bool) (p : Fin 64)

/-- The shadow word at an offset of the beam engine's block. -/
def shadowWord? (o : Nat) : Option ShadowWord :=
  if 0x100000 ≤ o ∧ o < 0x104000 then some (.weight false ((o - 0x100000) / 4))
  else if 0x110000 ≤ o ∧ o < 0x112000 then some (.weight true ((o - 0x110000) / 4))
  else match slot? 64 0x120000 4 o, slot? 64 0x120100 4 o with
    | some (p, _), _ => some (.delay false p)
    | none, some (p, _) => some (.delay true p)
    | none, none => none

/-- The shadow bank of a direction. -/
def State.shadowOf (s : State) (tx : Bool) : Bank := if tx then s.beam.tx.shadow else s.beam.rx.shadow

def State.rdBe (s : State) (o : Nat) : Rd :=
  let b := s.beam
  match o with
  | 0x0000 => s.ro (regBeStat b)
  | 0x0010 => s.ro (regBeEn b.rx)
  | 0x0014 => s.ro (regBeEn b.tx)
  | 0x0020 => (b.swapAt % 2 ^ 32, { s with beam.hiLatch := BitVec.ofNat 32 (b.swapAt / 2 ^ 32) })
  | 0x0024 => s.ro b.hiLatch.toNat
  | _ => match shadowWord? o with
    | some (.weight tx k) => s.ro (memGet 0 (s.shadowOf tx).weights k).toNat
    | some (.delay tx p) => s.ro ((s.shadowOf tx).delays.get p).toNat
    | none => s.firstOf
      [(slot? 32 0x100 4 o).map (fun x => ((b.rx.sat.get x.1).toNat, { s with beam.rx.sat := vmod b.rx.sat x.1 (fun _ => 0) })),
       (slot? 32 0x180 4 o).map (fun x => ((b.tx.sat.get x.1).toNat, { s with beam.tx.sat := vmod b.tx.sat x.1 (fun _ => 0) })),
       (slot? 64 0x200 4 o).map (fun x => ((b.txpSat.get x.1).toNat, { s with beam.txpSat := vmod b.txpSat x.1 (fun _ => 0) })),
       (slot? 32 0x300 4 o).map (fun x => ((b.txUfl.get x.1).toNat, { s with beam.txUfl := vmod b.txUfl x.1 (fun _ => 0), beam.uflSeen := b.uflSeen &&& ~~~(1#32 <<< x.1.val) })),
       (slot? 32 0x380 4 o).map (fun x =>
         ((b.txLate.get x.1).toNat, { s with beam.txLate := vmod b.txLate x.1 (fun _ => 0) }))]

def State.rdLane (s : State) (l : Fin 8) (o : Nat) : Rd :=
  let a := laneSrc l
  let q := s.an.src.get a
  let put := fun (f : AnSource → AnSource) => { s with an.src := vmod s.an.src a f }
  match o with
  | 0x00 => s.ro (regAnLaneCfg s l)
  | 0x04 => s.ro (regAnLaneStat s l)
  | 0x08 => (q.frames.toNat, put (fun q => { q with frames := 0 }))
  | 0x0C => (q.blanked.toNat, put (fun q => { q with blanked := 0 }))
  | 0x10 => s.ro (regMaskStat s l)
  | 0x30 => s.ro (regDensStat q)
  | 0x34 => s.ro q.density.frames.toNat
  | _ => s.firstOf [(slot? 4 0x20 4 o).map (fun x => ((q.masks.get x.1).enters.toNat,
      put (fun q => { q with masks := vmod q.masks x.1 (fun m => { m with enters := 0 }) })))]

def State.rdAn (s : State) (o : Nat) : Rd :=
  match o with
  | 0x1000 => s.ro (regStitchStat s)
  | 0x1004 => s.ro s.an.stitch.j.toNat
  | _ => s.firstOf [(slot? 8 0 0x100 o).map (fun x => s.rdLane x.1 x.2)]

def State.rdChan (s : State) (c : Fin 16) (o : Nat) : Rd :=
  let x := s.aq.chans.get c
  match o with
  | 0x00 => s.ro (regChStat x)
  | 0x04 => s.ro x.records.toNat
  | 0x08 => (x.missed.toNat, s.modCh c (fun x => { x with missed := 0 }))
  | 0x0C => (x.short.toNat, s.modCh c (fun x => { x with short := 0 }))
  | 0x10 => (regChDead x, s.modCh c (fun x => { x with deadMax := 0 }))
  | _ => s.ro 0

def State.rdAq (s : State) (o : Nat) : Rd :=
  match o with
  | 0x0000 => s.ro (regAqStat s)
  | 0x0004 => s.ro (mbUp s.storeUsed)
  | 0x0008 => s.ro s.aq.retain.toNat
  | 0x0500 => (regTriginStat s.aq, { s with aq.trigIn := vmap s.aq.trigIn (fun _ x => { x with closeN := 0 }) })
  | _ => s.firstOf
    [(slot? 16 0x100 0x20 o).map (fun x => s.rdChan x.1 x.2),
     (slot? 16 0x400 4 o).map (fun x => ((s.aq.units.get x.1).cnt.toNat,
       { s with aq.units := vmod s.aq.units x.1 (fun u => { u with cnt := 0 }) })),
     (slot? 16 0x440 4 o).map (fun x => s.ro (sat32 (s.aq.units.get x.1).hzn))]

/-! ### Reads: DMA, check units, link (R339, R380, R410) -/

def State.rdDmChan (s : State) (c : Fin 64) (o : Nat) : Rd :=
  let x := s.dma.chans.get c
  match o with
  | 0x00 => s.ro (regDmCfg x)
  | 0x04 => s.ro (regDmPace x)
  | 0x08 => s.ro x.rate.toNat
  | 0x0C => s.ro x.base.toNat
  | 0x10 => s.ro x.len.toNat
  | 0x14 => s.ro (regDmPtr x)
  | 0x18 => s.ro (regDmStat x)
  | 0x1C => s.ro x.descAt.toNat
  | 0x20 => s.ro x.bytes.toNat
  | 0x24 => (x.doneCnt.toNat, s.modDm c (fun x => { x with doneCnt := 0 }))
  | 0x28 => (regDmFence x, s.modDm c (fun x => { x with fenceMax := 0 }))
  | _ => s.ro 0

def State.rdDm (s : State) (o : Nat) : Rd :=
  match o with
  | 0x0000 => s.ro (regDmAdmit s.dma)
  | 0x0004 => s.ro (regDmRun s.dma false)
  | 0x0008 => s.ro (regDmRun s.dma true)
  | _ => s.firstOf [(slot? 64 0x100 0x40 o).map (fun x => s.rdDmChan x.1 x.2)]

def State.rdCu (s : State) (o : Nat) : Rd :=
  match slot? 8 0 0x20 o with
  | none => s.ro 0
  | some (u, r) =>
    let x := s.dma.units.get u
    s.ro (match r with
      | 0x00 => x.crc.toNat
      | 0x04 => regCuStat x
      | 0x08 => x.seed.toNat
      | 0x0C => x.result.toNat
      | 0x10 => x.bytes.toNat
      | _ => 0)

def State.rdLkLane (s : State) (l : Fin 16) (o : Nat) : Rd :=
  let x := s.link.lanes.get l
  match o with
  | 0x00 => s.ro (regLaneStat x)
  | 0x04 => (regLaneBlk x, s.modLane l (fun x => { x with slips := 0 }))
  | 0x08 => (regLaneErr x, s.modLane l (fun x => { x with invHdr := 0, lockLoss := 0, downs := 0 }))
  | 0x0C => (regLaneEq x, s.modLane l (fun x => { x with freezes := 0 }))
  | 0x10 => s.ro (regPrbsCtl x)
  | 0x14 => s.ro (sat32 x.prbs.err)
  | 0x18 => (x.prbs.bits % 2 ^ 32, s.modLane l (fun x => { x with prbs.hiLatch := BitVec.ofNat 32 (x.prbs.bits / 2 ^ 32) }))
  | 0x1C => s.ro x.prbs.hiLatch.toNat
  | _ => s.ro 0

def State.rdTxFlow (s : State) (f : Fin 64) (o : Nat) : Rd :=
  let x := s.link.txFlows.get f
  match o with
  | 0x00 => s.ro (regFlowCfg (decide (x.src ≠ .none)) x.shed x.prio x.lenMax)
  | 0x04 => s.ro x.limit.toNat
  | 0x08 => (x.overrun.toNat * 2 ^ 16 + x.gap.toNat * 2 ^ 8 + x.badfmt.toNat,
      { s with link.txFlows := vmod s.link.txFlows f (fun x => { x with overrun := 0, gap := 0, badfmt := 0, ovrSeen := false }) })
  | _ => s.ro (if x.src = .none then 0 else bufferOf x.charge / 1024)

def State.rdRxFlow (s : State) (f : Fin 64) (o : Nat) : Rd :=
  let x := s.link.rxFlows.get f
  if o = 0 then s.ro (regFlowCfg (decide (x.src ≠ .none)) x.shed x.prio x.lenMax) else s.ro x.seq.toNat

def State.rdLk (s : State) (o : Nat) : Rd :=
  let l := s.link
  match o with
  | 0x0000 => s.ro (regLkStat l)
  | 0x0004 => s.ro (l.farGood.toNat * 2 ^ 16 + l.nearGood.toNat)
  | 0x0008 => (l.shedCnt.toNat * 2 ^ 16 + l.streamLost.toNat, { s with link := { l with shedCnt := 0, streamLost := 0 } })
  | 0x1000 => s.ro (l.held.length * 2 ^ 16 + l.relSeq.toNat)
  | 0x1004 => s.ro l.relRx.toNat
  | 0x1008 => (l.replays.toNat * 2 ^ 16 + l.naks.toNat, { s with link := { l with replays := 0, naks := 0 } })
  | 0x100C => (l.flushed.toNat, { s with link.flushed := 0 })
  | 0x1010 => (l.crcErr.toNat * 2 ^ 16 + l.framing.toNat * 2 ^ 8 + l.unexp.toNat,
      { s with link := { l with crcErr := 0, framing := 0, unexp := 0 } })
  | 0x1014 => s.ro (b2n l.evtRoute * 2 ^ 31 + l.replayT.toNat)
  | 0x1020 => s.ro (regAdmit s false)
  | 0x1024 => s.ro (regAdmit s true)
  | 0x1030 => (regMemStat l, { s with link := { l with memTouts := 0, memFaults := 0, memLate := 0 } })
  | _ => s.firstOf
    [(slot? 16 0x100 0x20 o).map (fun x => s.rdLkLane x.1 x.2),
     (slot? 64 0x1100 8 o).map (fun x => s.rdRxFlow x.1 x.2),
     (slot? 64 0x1300 16 o).map (fun x => s.rdTxFlow x.1 x.2)]

/-! ### Reads: clocks, monitoring, power (R69, R158, R431, R452, R477, R495) -/

def State.rdCk (s : State) (o : Nat) : Rd :=
  let c := s.clk
  match o with
  | 0x0000 => s.ro (regPllStat s)
  | 0x0004 => s.ro (regSafe c)
  | 0x0200 => (regSyncStat c, { s with clk := { c with edges := 0, rejected := 0 } })
  | 0x0204 => s.ro c.syncErr.toNat
  | 0x0210 => s.ro c.lockmon.toNat
  | 0x0220 => s.ro (b2n c.refSrc)
  | 0x1000 => s.ro (regTimeCtl s)
  | 0x1004 => (s.time.ticks % 2 ^ 32, { s with time.hiLatch := BitVec.ofNat 32 (s.time.ticks / 2 ^ 32) })
  | 0x1008 => s.ro s.time.hiLatch.toNat
  | 0x100C => s.ro s.time.ppsPhase.toNat
  | 0x1010 => s.ro s.time.ppsFreq.toNat
  | 0x1014 => (s.time.ppsRejected.toNat * 2 ^ 16 + s.time.ppsAccepted.toNat,
      { s with time := { s.time with ppsRejected := 0, ppsAccepted := 0 } })
  | 0x1018 => (regActq (s.time.queues.get 8), s.modQueue 8 (fun q => { q with lateCnt := 0 }))
  | 0x1020 => s.ro (regWinOpen s false)
  | 0x1024 => s.ro (regWinOpen s true)
  | 0x1028 => s.ro (sat32 s.time.horizon)
  | _ => s.firstOf
    [(slot? 16 0x40 4 o).map (fun x => (regLossCnt (c.plls.get x.1), s.modPll x.1 (fun p => { p with retries := 0, losses := 0 }))),
     (slot? 8 0x100 4 o).map (fun x => s.ro (regConvOut s x.1)),
     (slot? 8 0x120 4 o).map (fun x => s.ro (regConvTrim (c.conv.get x.1)))]

def State.rdHk (s : State) (o : Nat) : Rd :=
  let h := s.hk
  match o with
  | 0x0000 => s.ro (regThermStat s)
  | 0x0004 => s.ro (regThrSteps h)
  | 0x0008 => s.ro h.interval.toNat
  | 0x000C => s.ro (regHkBand h)
  | 0x0010 => (regThermCnt h, { s with hk := { h with warns := 0, throttles := 0, shutdowns := 0, diverges := 0 } })
  | 0x0014 => (h.capCnt.toNat, { s with hk.capCnt := 0 })
  | 0x0018 => s.ro (regHkModel h)
  | 0x001C => s.ro (regHkAmb h)
  | 0x0040 => s.ro (regHkFilt s.chan)
  | 0x0100 => s.ro (regCalStore s.cal)
  | 0x0104 => s.ro s.cal.seq.toNat
  | 0x0108 => s.ro (regHold s.cal)
  | 0x0340 => s.ro h.vstat.toNat
  | 0x0800 => s.ro (regPwStat s.pw)
  | 0x0804 => (regPwRefuse s.pw, { s with pw.refusals := 0 })
  | 0x0808 => s.ro s.pw.retain.toNat
  | _ => s.firstOf
    [(slot? 12 0x200 4 o).map (fun x => s.ro (regHkTemp (h.regions.get x.1))),
     (slot? 12 0x280 4 o).map (fun x => s.ro (h.regions.get x.1).pwr.toNat),
     (slot? 10 0x300 4 o).map (fun x => s.ro (regHkVolt (h.rails.get x.1))),
     (slot? 12 0x380 4 o).map (fun x => s.ro (regHkProc (h.regions.get x.1)))]

/-! ### The map (R34, R35) -/

/-- A word of a byte memory. -/
def rdBytes (m : List (Nat × Byte)) (a : Nat) : Nat := unle (memRead 0 m a 4)

/-- The row of R34 an address lies in, as its number in the order of that table with one row a tile block. -/
def mapRow (a : Nat) : Option Nat :=
  if a < 0x100000 then some 0
  else if 0x10000000 ≤ a ∧ a < 0x10010000 then some 1
  else if 0x10010000 ≤ a ∧ a < 0x10020000 then some 2
  else if 0x20000000 ≤ a ∧ a < 0x28000000 then some 3
  else if 0x30000000 ≤ a ∧ a < 0x38000000 then some (4 + (a - 0x30000000) / 0x1000000)
  else if 0x40000000 ≤ a ∧ a < 0xC0000000 then some 12
  else none

/-- A read of the word at an address: what it answers and leaves. An address outside the map reads 0. -/
def State.regRead (s : State) (a : Nat) : Rd :=
  match mapRow a with
  | none => s.ro 0
  | some 0 => s.ro (rdBytes s.pup.pupMem a)
  | some 1 => s.rdHp (a - 0x10000000)
  | some 2 => s.ro (rdBytes s.pup.mbRam (a - 0x10010000))
  | some 3 => match fin? 8 ((a - 0x20000000) / 0x1000000) with
    | some t => s.rdTile t ((a - 0x20000000) % 0x1000000)
    | none => s.ro 0
  | some 4 => s.rdBe (a % 0x1000000)
  | some 5 => s.rdAn (a % 0x1000000)
  | some 6 => s.rdAq (a % 0x1000000)
  | some 7 => s.rdDm (a % 0x1000000)
  | some 8 => s.rdCu (a % 0x1000000)
  | some 9 => s.rdLk (a % 0x1000000)
  | some 10 => s.rdCk (a % 0x1000000)
  | some 11 => s.rdHk (a % 0x1000000)
  | some _ => s.ro (rdBytes s.aq.store a)

/-! ### Writes -/

/-- Writes of the AO registers (R494): HP_PAD_RELEASE, HP_WAKE_CTL and HP_SLEEP_TIMER. -/
def State.wrAo (s : State) (o : Nat) (v : BitVec 32) : State :=
  match o with
  | 0x104 => s.releasePads (v.setWidth 11)
  | 0x108 => s.wakeCtl v
  | 0x10C => { s with pw.timer := v }
  | _ => s

/-- HP_STAT is written: RING_ERR and FRAME_ERR clear, and LOCKSTEP unless the Puppeteer is halted (R513, R515). -/
def State.wrHpStat (s : State) (v : BitVec 32) : State :=
  { s with pup := { s.pup with
      ringErr := s.pup.ringErr && !v.getLsbD 6
      frameErr := s.pup.frameErr && !v.getLsbD 5
      lockstep := s.pup.lockstep && (!v.getLsbD 3 || s.pup.halted) } }

def State.wrHp (s : State) (o : Nat) (v : BitVec 32) : State :=
  match o with
  | 0x08 => s.wrHpStat v
  | 0x0C => { s with pup.irq := s.pup.irq &&& ~~~(v.setWidth 8) }
  | 0x10 => { s with pup.irqEn := v.setWidth 8 }
  | 0x24 => s.releaseEvts (v.setWidth 9)
  | 0x30 => s.bindMb v
  | _ => match slot? 4 0x40 8 o with
    | some (m, 0) => s.doorbell m v
    | _ => s.wrAo o v

/-- Writes of a tile's registers and memories: RW and W1C fields, XM and YM (R110, R313). -/
def State.wrTile (s : State) (t : Fin 8) (o : Nat) (v : BitVec 32) : State :=
  match o with
  | 0x1124 => s.modRes t (fun r => { r with det.thr := v.setWidth 16 })
  | 0x1168 => s.modRes t (fun r => { r with fem.cfg := v &&& 0x3FFFFFFF#32 })
  | 0x11A0 => s.modRes t (fun r => { r with rffe := { r.rffe with divRd := (v >>> 8).setWidth 8, divWr := v.setWidth 8 } })
  | _ =>
    if 0x900000 ≤ o ∧ o < 0x940000 then s.modK t (fun k => { k with xm := memSet 0 k.xm ((o - 0x900000) / 4) v })
    else if 0xA00000 ≤ o ∧ o < 0xA40000 then s.modK t (fun k => { k with ym := memSet 0 k.ym ((o - 0xA00000) / 4) v })
    else match slot? 10 0x1140 4 o, slot? 8 0x20000 0x40 o with
      | some (k, _), _ => s.modRes t (fun r => { r with fem.pats := vmod r.fem.pats k (fun _ => v.setWidth 8) })
      | none, some (i, 0) => s.writePaCtl (pathOf t i) v
      | none, some (i, 4) => s.modPath (pathOf t i) (fun x => { x with ovl := x.ovl && !v.getLsbD 0 })
      | _, _ => s

/-- A write of a shadow word (R163, R168, R185). -/
def Bank.setWord (b : Bank) (w : ShadowWord) (v : BitVec 32) : Bank :=
  match w with
  | .weight _ k => { b with weights := memSet 0 b.weights k v }
  | .delay _ p => { b with delays := vmod b.delays p (fun _ => v.setWidth 11) }

def ShadowWord.tx : ShadowWord → Bool
  | .weight tx _ => tx
  | .delay tx _ => tx

def State.wrBe (s : State) (o : Nat) (v : BitVec 32) : State :=
  match shadowWord? o with
  | none => s
  | some w =>
    if w.tx then { s with beam.tx.shadow := s.beam.tx.shadow.setWord w v }
    else { s with beam.rx.shadow := s.beam.rx.shadow.setWord w v }

/-- AN_DENS_STAT.SAT is W1C. -/
def State.wrAn (s : State) (o : Nat) (v : BitVec 32) : State :=
  match slot? 8 0 0x100 o with
  | some (l, 0x30) => { s with an.src := vmod s.an.src (laneSrc l) (fun q => { q with sat := q.sat && !v.getLsbD 0 }) }
  | _ => s

/-- DM_RING_LEN, DM_RING_PTR.TAIL and DM_STAT.RLEN_IGN. -/
def State.wrDm (s : State) (o : Nat) (v : BitVec 32) : State :=
  match slot? 64 0x100 0x40 o with
  | some (c, 0x10) => s.ringLen c v
  | some (c, 0x14) => s.ringPtr c v
  | some (c, 0x18) => s.modDm c (fun x => { x with rlenIgn := x.rlenIgn && !v.getLsbD 26 })
  | _ => s

/-- CK_SYNC_STAT.DRIFT, CK_LOCKMON and CK_TIME_CTL.PPS_LOST. -/
def State.wrCk (s : State) (o : Nat) (v : BitVec 32) : State :=
  match o with
  | 0x0200 => { s with clk.drift := s.clk.drift && !v.getLsbD 0 }
  | 0x0210 => { s with clk.lockmon := v.setWidth 4 }
  | 0x1000 => { s with time.ppsLost := s.time.ppsLost && !v.getLsbD 4 }
  | _ => s

/-- HK_THERM_STAT.DIVERGE, whose bit a valid reading must precede (R458), and HK_VSTAT. -/
def State.wrHk (s : State) (o : Nat) (v : BitVec 32) : State :=
  match o with
  | 0x0000 =>
    let ok := BitVec.ofNat 12 (maskOf 12 (fun r => !(s.hk.regions.get r).fault))
    { s with hk.diverge := s.hk.diverge &&& ~~~(v.setWidth 12 &&& ok) }
  | 0x0340 => { s with hk.vstat := s.hk.vstat &&& ~~~(v.setWidth 10) }
  | _ => s

/-- A write of the word at an address, as far as its register takes writes (R12, R13). R34 names row 0 ROM and SRAM without saying which part is
which: the whole row is kept as memory that takes writes (DESIGN CHOICE, log 98). -/
def State.regWrite (s : State) (a : Nat) (v : BitVec 32) : State :=
  match mapRow a with
  | some 0 => { s with pup.pupMem := memWrite 0 s.pup.pupMem a (le 4 v.toNat) }
  | some 1 => s.wrHp (a - 0x10000000) v
  | some 2 => { s with pup.mbRam := memWrite 0 s.pup.mbRam (a - 0x10010000) (le 4 v.toNat) }
  | some 3 => match fin? 8 ((a - 0x20000000) / 0x1000000) with
    | some t => s.wrTile t ((a - 0x20000000) % 0x1000000) v
    | none => s
  | some 4 => s.wrBe (a % 0x1000000) v
  | some 5 => s.wrAn (a % 0x1000000) v
  | some 7 => s.wrDm (a % 0x1000000) v
  | some 10 => s.wrCk (a % 0x1000000) v
  | some 11 => s.wrHk (a % 0x1000000) v
  | some 12 => { s with aq.store := memWrite 0 s.aq.store a (le 4 v.toNat) }
  | _ => s

/-- Words read one after another from an address upwards. -/
def State.regReads (s : State) (a : Nat) : Nat → List Nat × State
  | 0 => ([], s)
  | n + 1 =>
    let r := s.regRead a
    let rest := r.2.regReads (a + 4) n
    (r.1 :: rest.1, rest.2)

/-- Words written one after another from an address upwards. -/
def State.regWrites (s : State) (a : Nat) : List (BitVec 32) → State
  | [] => s
  | v :: vs => (s.regWrite a v).regWrites (a + 4) vs

end Sys2Proof.Machine
end

