-- ==== Sys2Proof/Machine/RegCmd.lean ====
section
/-! DEFINITION. Access to registers: SPI frames, single accesses, the register window commands and CALBUS diagnostics (00_scope.md R12,
02_timebase_and_pass_windows.md R69, 18_puppeteer.md R508, R509, 19_commands.md R548, R549). -/

namespace Sys2Proof.Machine

/-! ### Single accesses (R12, R69) -/

/-- A read of the word at an address by a port: outside the times of R509 only HP_ID, HP_REV and the AO registers answer; what it answers is
kept in `rdata`. -/
def State.portRead (s : State) (a : Nat) : State :=
  let r := if s.portOpen then s.regRead (a / 4 * 4)
    else if s.aoOn ∧ mapRow a = some 1 then ((s.rdAo ((a - 0x10000000) / 4 * 4)).getD (s.ro 0)) else s.ro 0
  { r.2 with pup.rdata := BitVec.ofNat 32 r.1 }

/-- The status that a word refuses a write with: BUSY for a locked shadow bank (R170), BAD_STATE for a reserved region (R313). -/
def State.wordRefuses (s : State) (a : Nat) : Option (BitVec 8) :=
  if s.localReserved a then some stBadState
  else if mapRow a = some 4 then match shadowWord? (a % 0x1000000) with
    | some w => if (if w.tx then s.beam.tx.lock else s.beam.rx.lock).isSome then some stBusy else none
    | none => none
  else none

/-- REGISTER_WRITE: a write of one word that its port and role admit; one that the word refuses is not performed. -/
def execRegisterWrite (addr data : BitVec 32) (s : State) : Out :=
  let a := addr.toNat / 4 * 4
  .next (if s.portOpen then (if (s.wordRefuses a).isSome then s else s.regWrite a data)
    else if s.aoOn ∧ mapRow a = some 1 then s.wrAo (a - 0x10000000) data else s)

/-- RC_REGISTER_READ: a read answers the value and clears what it reads of RC fields. -/
def execRcRegisterRead (addr : BitVec 32) (s : State) : Out := .next (s.portRead addr.toNat)

/-- LATCHING_LO_READ: a read of a LO register answers bits [31:0] and latches the rest for its HI register. -/
def execLatchingLoRead (addr : BitVec 32) (s : State) : Out := .next (s.portRead addr.toNat)

/-! ### SPI frames (R508, R509) -/

/-- The status byte shifted out beside header byte 0. -/
def State.spiStatus (s : State) : Byte :=
  BitVec.ofNat 8 (0xA0 + 8 * b2n s.pup.frameErr + 4 * b2n s.faultN + 2 * b2n (decide (s.pup.evtWr ≠ s.pup.evtRd)) +
    b2n s.pup.ready)

/-- Whether an offset answers an SPI access now (R509). -/
def State.spiOpen (s : State) (o : Nat) : Bool :=
  decide (o < 0x20000) && (s.portOpen || (s.rdAo o).isSome)

/-- A word written by a frame; the flag says that it failed. -/
def State.spiWrite (s : State) (o : Nat) (v : BitVec 32) : State × Bool :=
  if !s.spiOpen o then (s, true)
  else if s.portOpen then (s.regWrite (0x10000000 + o) v, false) else (s.wrAo o v, false)

/-- A word read by a frame. -/
def State.spiRead (s : State) (o : Nat) : Nat × State × Bool :=
  if !s.spiOpen o then (0, s, true)
  else
    let r := if s.portOpen then s.regRead (0x10000000 + o) else (s.rdAo o).getD (s.ro 0)
    (r.1, r.2, false)

/-- The words of a frame written from an offset on. -/
def State.spiWrites (s : State) (o : Nat) : List (BitVec 32) → State × Bool
  | [] => (s, false)
  | v :: vs =>
    let r := s.spiWrite o v
    let q := r.1.spiWrites (o + 4) vs
    (q.1, r.2 || q.2)

/-- The words of a frame read from an offset on, as the bytes driven. -/
def State.spiReads (s : State) (o : Nat) : Nat → List Byte × State × Bool
  | 0 => ([], s, false)
  | n + 1 =>
    let r := s.spiRead o
    let q := r.2.1.spiReads (o + 4) n
    (le 4 r.1 ++ q.1, q.2.1, r.2.2 || q.2.2)

/-- Whether SCLK is bound to 10 MHz (R592): in RETAIN, during wake before READY, and while MGMT runs on its safe clock. -/
def State.slowSclk (s : State) : Bool := !s.portOpen || s.clk.mgmtSafe

/-- SPI_FRAME: the SCLK rate in kHz, the whole bytes shifted in, header first, and the bits after the last of them. `miso` keeps the status byte
and, of a read, the dummy byte and every byte driven after it. Of a frame clocked too fast no data are used (R592). -/
def execSpiFrame (khz : BitVec 16) (bytes : List (BitVec 8)) (bits : Fin 8) (s : State) : Out :=
  .next (if !s.aoOn then s
  else
    let st := s.spiStatus
    let fail := fun (s : State) (out : List Byte) => { s with pup.frameErr := true, pup.miso := st :: out }
    let hd := unle (bytes.take 4)
    let rd := hd.testBit 31
    let n := bitsOf hd 27 24 + 1
    let o := bitsOf hd 16 0
    if bytes.length < 4 then fail s []
    else if (s.slowSclk && decide (10000 < khz.toNat)) ∨ bitsOf hd 30 28 ≠ 0 ∨ bitsOf hd 23 17 ≠ 0 ∨ o % 4 ≠ 0 then
      fail s (if rd then List.replicate (bytes.length - 4) 0 else [])
    else if rd then
      let data := bytes.length - 5
      let k := min n (data / 4)
      let r := s.spiReads o k
      let out := if bytes.length < 5 then [] else padTo (data + 1) ((0 : Byte) :: r.1)
      let bad := r.2.2 || decide (n * 4 < data ∨ (data = n * 4 ∧ bits ≠ 0 ∧ 5 ≤ bytes.length)) ||
        decide (data < n * 4 ∧ 5 ≤ bytes.length ∧ (data % 4 ≠ 0 ∨ bits ≠ 0))
      let t := r.2.1
      { t with pup.frameErr := t.pup.frameErr || bad, pup.miso := st :: out }
    else
      let data := bytes.length - 4
      let k := min n (data / 4)
      let ws := (chunks 4 k (bytes.drop 4)).map (fun b => BitVec.ofNat 32 (unle b))
      let r := s.spiWrites o ws
      let bad := r.2 || decide (n * 4 < data ∨ (data = n * 4 ∧ bits ≠ 0)) ||
        decide (data < n * 4 ∧ (data % 4 ≠ 0 ∨ bits ≠ 0))
      let t := r.1
      { t with pup.frameErr := t.pup.frameErr || bad, pup.miso := [st] })

/-! ### Register window commands (R548, R552) -/

/-- The words from an address that a command names. -/
def wordsAt (a n : Nat) : List Nat := (List.range n).map (fun i => a + 4 * i)

/-- Whether an access of n words lies in one row of the map (R35, R548). -/
def windowOk (a n : Nat) : Bool :=
  decide (a % 4 = 0) && (match mapRow a, mapRow (a + 4 * n - 1) with
    | some r, some q => decide (r = q)
    | _, _ => false)

/-- The offset in its tile of an address in a tile block, and the tile. -/
def tileOff? (a : Nat) : Option (Fin 8 × Nat) :=
  if mapRow a = some 3 then (fin? 8 ((a - 0x20000000) / 0x1000000)).map (fun t => (t, (a - 0x20000000) % 0x1000000)) else none

/-- A word of XM or YM of a tile, or of a shadow bank: installer role (R185, R313). -/
def installerWord (a : Nat) : Bool :=
  (localTile a).isSome || (decide (mapRow a = some 4) && (shadowWord? (a % 0x1000000)).isSome)

/-- Whether a session lacks the role that an access needs. -/
def State.windowLacks (s : State) (h : CmdHdr) (a n : Nat) : Bool :=
  let rank := (s.sessionRole h.session).elim 0 Role.rank
  decide (mapRow a = some 0 ∧ rank < 2) || decide (rank < 1 ∧ (wordsAt a n).any installerWord = true)

/-- Whether an access meets the store while its PLL is faulted or relocking (R426). -/
def State.windowDown (s : State) (a : Nat) : Bool := decide (mapRow a = some 12) && s.dramDown

/-- The refusals of a window read. -/
def State.readChecks (s : State) (h : CmdHdr) (a n : Nat) : List (BitVec 8 × Bool) :=
  [(stBadParam, !windowOk a n), (stDenied, s.windowLacks h a n), (stBusy, s.windowDown a)]

/-- A window write: every word is checked before any is written. -/
def State.windowWrite (s : State) (h : CmdHdr) (a : Nat) (ws : List (BitVec 32)) : Reply × State :=
  checks (s.readChecks h a ws.length) s (fun _ =>
    match (wordsAt a ws.length).findSome? (fun x => s.wordRefuses x) with
    | some st => refuse st s
    | none => done (s.regWrites a ws))

/-- REG_READ. -/
def execRegRead (h : CmdHdr) (addr : BitVec 32) (count : BitVec 8) (s : State) : Out :=
  .next (serve h { opcode := 0x0D01, role := some .operator, params := pb addr ++ pb count }
    (fun s =>
      let n := count.toNat
      checks ((stBadParam, decide (n < 1 ∨ 6 < n)) :: s.readChecks h addr.toNat n) s (fun _ =>
        let r := s.regReads addr.toNat n
        doneR (r.1.flatMap (le 4)) r.2))
    s)

/-- REG_WRITE. -/
def execRegWrite (h : CmdHdr) (addr : BitVec 32) (count : BitVec 8) (words : List (BitVec 32)) (s : State) : Out :=
  .next (serve h
    { opcode := 0x0D02, role := some .installer, journal := true, params := pb addr ++ pb count ++ words.flatMap pb }
    (fun s =>
      let n := count.toNat
      checks [(stBadParam, decide (n < 1 ∨ 12 < n ∨ words.length ≠ n))] s (fun _ => s.windowWrite h addr.toNat words))
    s)

/-- REG_READ_BLOCK: the words go to a block of mailbox RAM. -/
def execRegReadBlock (h : CmdHdr) (addr : BitVec 32) (bytes : BitVec 16) (ptr : BitVec 32) (s : State) : Out :=
  let n := bytes.toNat
  .next (serve h
    { opcode := 0x0D03, role := some .operator, params := pb addr ++ pb bytes ++ pb ptr, ptrs := [(ptr.toNat, n)] }
    (fun s =>
      checks ((stBadParam, decide (n < 4 ∨ 8192 < n ∨ n % 4 ≠ 0)) :: s.readChecks h addr.toNat (n / 4)) s (fun _ =>
        let r := s.regReads addr.toNat (n / 4)
        let t := r.2
        ({ status := stDone, block := some (ptr.toNat, n) },
          { t with pup.mbRam := memWrite 0 t.pup.mbRam ptr.toNat (r.1.flatMap (le 4)) })))
    s)

/-- REG_WRITE_BLOCK: the words come from a block of mailbox RAM. -/
def execRegWriteBlock (h : CmdHdr) (addr : BitVec 32) (bytes : BitVec 16) (ptr : BitVec 32) (s : State) : Out :=
  let n := bytes.toNat
  .next (serve h
    { opcode := 0x0D04, role := some .installer, journal := true, params := pb addr ++ pb bytes ++ pb ptr,
      ptrs := [(ptr.toNat, n)] }
    (fun s =>
      checks [(stBadParam, decide (n < 4 ∨ 8192 < n ∨ n % 4 ≠ 0))] s (fun _ =>
        s.windowWrite h addr.toNat
          ((chunks 4 (n / 4) (memRead 0 s.pup.mbRam ptr.toNat n)).map (fun b => BitVec.ofNat 32 (unle b)))))
    s)

/-! ### CALBUS diagnostics (R86 to R88, R549) -/

/-- Whether a path is idle: its tile is in OFF, SLEEP or STANDBY, or it is one of the paths that a STITCH tile does not use (R24); its tile is in
no transition, and no calibration uses the path. -/
def State.pathIdle (s : State) (p : Fin 64) : Bool :=
  let r := s.radio.get (tileOf p)
  let x := s.paths.get p
  (decide (r.state = .off ∨ r.state = .sleep ∨ r.state = .standby) ||
    (decide (r.use = .stitch) && decide (s.lanePath (tileOf p) ≠ p))) && r.transit.isNone && !x.claimMute && !x.cbSource &&
  !x.cbInjectA && !x.cbInjectB

/-- CALBUS_DIAG: CALBUS is held for a duration with its source and sinks; the command is answered at its end. -/
def execCalbusDiag (h : CmdHdr) (path mode : BitVec 8) (offset : BitVec 32) (level : BitVec 8) (sinks : BitVec 128)
    (orx : BitVec 8) (duration : BitVec 32) (s : State) : Out :=
  let now := s.time.ticks
  let till := now + duration.toNat
  let a := fun (p : Fin 64) => sinks.getLsbD (2 * p.val)
  let b := fun (p : Fin 64) => sinks.getLsbD (2 * p.val + 1)
  .next (serve h
    { opcode := 0x0D05, role := some .installer, journal := true
      params := pb path ++ pb mode ++ pb offset ++ pb level ++ pb sinks ++ pb orx ++ pb duration }
    (fun s => match fin? 64 path.toNat with
      | none => refuse stBadParam s
      | some p =>
        let named := (List.finRange 64).filter (fun q => decide (q = p) || a q || b q)
        checks
          [(stBadParam, decide (2 < mode.toNat ∨ level.toInt < -60 ∨ -10 < level.toInt ∨ duration.toNat < 1 ∨
              19661 < duration.toNat)),
           (stBusy, decide (s.cal.bus ≠ .free) || !s.busFree now till),
           (stBadState, named.any (fun q => !s.pathIdle q))] s (fun _ =>
          let t := s.markBus p (decide (mode = 2)) a b (fun u => orx.getLsbD u.val)
          let t := if mode = 0 then t.modPath p (fun x => { x with cbSource := false }) else t
          ({ status := stDone, wait := some .calbus }, { t with cal.bus := .diag h.mb till })))
    s)

/-- CALBUS_DIAG_END: the duration has passed, CALBUS is released and the command answered. -/
def execCalbusDiagEnd (s : State) : Out :=
  .next (match s.cal.bus with
  | .diag m till =>
    if s.time.ticks < till then s
    else ({ (s.clearMarks) with cal.bus := .free } : State).complete m stDone [] none
  | _ => s)

end Sys2Proof.Machine
end

