-- ==== Sys2Proof/Machine/Roles.lean ====
section
/-! DEFINITION. Sessions, role keys, the change journal's commands and OTP (20_roles.md R552 to R568, 19_commands.md R546). -/

namespace Sys2Proof.Machine

/-- Bytes of an ASCII tag of four characters, given as its bytes. -/
def tag4 (a b c d : Nat) : List Byte := [a, b, c, d].map (BitVec.ofNat 8)

/-! ### Sessions (R557 to R559) -/

/-- The MAC that opens a session. -/
def State.authMac (s : State) (i : Fin 8) (r : Role) (nonce : BitVec 128) : List Byte :=
  hmac (s.roleKey r.rank) (tag4 0x4B 0x53 0x45 0x53 ++ le 1 (i.val + 1) ++ le 1 r.rank ++ pb nonce ++ le 4 hpId)

/-- Whether SESSION_OPEN is locked out for a role (R558). -/
def State.lockedOut (s : State) (r : Role) : Bool :=
  match s.pup.lockout.get (Fin.ofNat 3 r.rank) with
  | some t => decide (s.time.ticks < t)
  | none => false

/-- A wrong MAC for a role is counted; the eighth in a row starts the lockout of 60 s. -/
def State.countWrong (s : State) (r : Role) : State :=
  let i := Fin.ofNat 3 r.rank
  let n := s.pup.wrongMac.get i + 1
  if n = 8 then
    { s with pup := { s.pup with
        wrongMac := vmod s.pup.wrongMac i (fun _ => 0)
        lockout := vmod s.pup.lockout i (fun _ => some (s.time.ticks + 60 * secTicks)) } }
  else { s with pup.wrongMac := vmod s.pup.wrongMac i (fun _ => n) }

/-- Put a handle into a state. -/
def State.setSession (s : State) (i : Fin 8) (x : Session) : State :=
  { s with pup.sessions := s.pup.sessions.set i.val x i.isLt }

/-- The first free handle. -/
def State.freeHandle (s : State) : Option (Fin 8) :=
  (List.finRange 8).find? (fun i => decide (s.pup.sessions.get i = .free))

/-- SESSION_OPEN: a free handle awaits authentication, a nonce is drawn. -/
def execSessionOpen (h : CmdHdr) (role : BitVec 8) (s : State) : Out :=
  .next (serve h { opcode := 0x0A01, role := none, params := pb role }
    (fun s => match role? role.toNat with
      | none => refuse stBadParam s
      | some r =>
        if s.lockedOut r then refuse stNoResource s
        else match s.freeHandle with
          | none => refuse stNoResource s
          | some i =>
            let n := Config.nonce s.pup.nonces
            let t := s.setSession i (.awaiting r n s.time.ticks)
            doneR (le 1 (i.val + 1) ++ pb n) { t with pup.nonces := s.pup.nonces + 1 })
    s)

/-- The handle a parameter names. -/
def handle? (h : BitVec 8) : Option (Fin 8) := if h = 0 then none else fin? 8 (h.toNat - 1)

/-- SESSION_AUTH: a correct MAC opens the session; a wrong one frees the handle. -/
def execSessionAuth (h : CmdHdr) (handle : BitVec 8) (mac : List (BitVec 8)) (s : State) : Out :=
  .next (serve h { opcode := 0x0A02, role := none, params := pb handle ++ mac }
    (fun s => match handle? handle with
      | none => refuse stBadState s
      | some i =>
        if mac.length ≠ 32 then refuse stBadParam s
        else match s.pup.sessions.get i with
          | .awaiting r n since =>
            if since + 10 * secTicks ≤ s.time.ticks then refuse stBadState s
            else if mac = s.authMac i r n then
              let life := lifetime r
              let t := s.setSession i (.opened r n (s.time.ticks + life * secTicks))
              doneR (le 4 life) { t with pup.wrongMac := vmod t.pup.wrongMac (Fin.ofNat 3 r.rank) (fun _ => 0) }
            else ({ status := stDenied }, (s.setSession i .free).countWrong r)
          | _ => refuse stBadState s)
    s)

/-- SESSION_CLOSE: another's handle needs a role at least as high (R552). -/
def execSessionClose (h : CmdHdr) (handle : BitVec 8) (s : State) : Out :=
  .next (serve h { opcode := 0x0A03, role := some .operator, params := pb handle }
    (fun s => match handle? handle with
      | none => refuse stBadParam s
      | some i => match s.pup.sessions.get i with
        | .opened r _ _ =>
          let mine := (s.sessionRole h.session).elim 0 Role.rank
          if handle ≠ h.session ∧ mine < r.rank then refuse stDenied s else done (s.endSession i 1)
        | _ => refuse stBadParam s)
    s)

/-- SESSION_AUTH_TIMEOUT: 10 s without SESSION_AUTH free the handle silently. -/
def execSessionAuthTimeout (i : Fin 8) (s : State) : Out :=
  .next (match s.pup.sessions.get i with
  | .awaiting _ _ since => if since + 10 * secTicks ≤ s.time.ticks then s.setSession i .free else s
  | _ => s)

/-- SESSION_LIFETIME_EXPIRY (R559). -/
def execSessionLifetimeExpiry (i : Fin 8) (s : State) : Out :=
  .next (match s.pup.sessions.get i with
  | .opened _ _ till => if till ≤ s.time.ticks then s.endSession i 2 else s
  | _ => s)

/-- LOCKOUT_EXPIRY (R558). -/
def execLockoutExpiry (r : Fin 3) (s : State) : Out :=
  .next (match s.pup.lockout.get r with
  | some t => if t ≤ s.time.ticks then { s with pup.lockout := s.pup.lockout.set r.val none r.isLt } else s
  | none => s)

/-! ### Role keys (R553 to R556) -/

/-- The new key of a key block, where the block is right (R555). -/
def State.newKey (s : State) (i : Fin 8) (issuer : Role) (nonce : BitVec 128) (r : Nat) (b : List Byte) : Option (List Byte) :=
  let pad := hmac (s.roleKey issuer.rank) (tag4 0x4B 0x57 0x52 0x50 ++ le 1 (i.val + 1) ++ le 1 issuer.rank ++ pb nonce)
  let key := xorBytes ((b.drop 4).take 32) pad
  let zero := fun (o n : Nat) => ((b.drop o).take n).all (fun x => decide (x = 0))
  if b.take 1 = le 1 r ∧ zero 1 3 = true ∧ zero 52 12 = true ∧
      (b.drop 36).take 16 = (hmac key (tag4 0x4B 0x43 0x48 0x4B ++ pb nonce)).take 16 then some key else none

/-- KEY_SET: the block is read and overwritten with zeros; a right one starts the writing of a new key record. -/
def execKeySet (h : CmdHdr) (role : BitVec 8) (ptr : BitVec 32) (s : State) : Out :=
  .next (serve h
    { opcode := 0x0A04, role := some .installer, journal := true, params := pb role ++ pb ptr, ptrs := [(ptr.toNat, 64)] }
    (fun s =>
      let r := role.toNat
      let rank := (s.sessionRole h.session).elim 0 Role.rank
      checks
        [(stBadParam, decide (2 < r)), (stDenied, decide (r = 2 ∧ rank < 2)), (stBusy, s.cal.store.isSome || s.flashBusy),
         (stTemp, s.tempForbidden)] s (fun _ =>
        let b := memRead 0 s.pup.mbRam ptr.toNat 64
        let t := { s with pup.mbRam := memWrite 0 s.pup.mbRam ptr.toNat (List.replicate 64 0) }
        match handle? h.session with
        | none => ({ status := stDenied }, t)
        | some i => match s.pup.sessions.get i with
          | .opened issuer nonce _ => match s.newKey i issuer nonce r b with
            | none => ({ status := stBadParam }, t)
            | some key =>
              let slotB := match s.keySlot with
                | some x => !x
                | none => false
              let seq := match s.keySlot with
                | some x => s.keySeq x + 1
                | none => 1
              ({ status := stDone, wait := some .keySet },
                { t with pup.job := .keyRecord slotB (s.keyRecord slotB seq r key) r h.session 0 })
          | _ => ({ status := stDenied }, t)))
    s)

/-! ### The journal (R546, R562, R564, R565) -/

/-- JOURNAL_READ: the entries from an index on that exist go to a block. -/
def execJournalRead (h : CmdHdr) (first : BitVec 32) (count : BitVec 8) (ptr : BitVec 32) (s : State) : Out :=
  .next (serve h
    { opcode := 0x0A05, role := some .operator, journal := true, params := pb first ++ pb count ++ pb ptr,
      ptrs := [(ptr.toNat, 64 * count.toNat)] }
    (fun s => checks [(stBadParam, decide (count.toNat < 1 ∨ 64 < count.toNat))] s (fun _ =>
      let next := s.pup.jNext.toNat
      let old := jOldest next
      let f := first.toNat
      let n := if f < old ∨ next ≤ f then 0 else min count.toNat (next - f)
      let bytes := (List.range n).flatMap (fun k => s.flashRead (jAddr (f + k)) 64)
      ({ status := stDone, results := le 4 old ++ le 4 next ++ le 1 n, block := some (ptr.toNat, 64 * n) },
        { s with pup.mbRam := memWrite 0 s.pup.mbRam ptr.toNat bytes })))
    s)

/-- Whether a command that needs a wire on the board comes over one (R552). -/
def State.overLink (s : State) (h : CmdHdr) : Bool := s.pup.mbCfg.getLsbD h.mb.val

/-- JOURNAL_ERASE: the erase of all sectors starts; entry 0 answers it. -/
def execJournalErase (h : CmdHdr) (confirm : BitVec 32) (s : State) : Out :=
  .next (serve h { opcode := 0x0A06, role := some .maker, journal := true, params := pb confirm }
    (fun s => checks
      [(stDenied, s.overLink h), (stBadParam, decide (confirm ≠ 0x4A524E4C#32)), (stBusy, s.cal.store.isSome || s.flashBusy),
       (stTemp, s.tempForbidden)] s (fun _ =>
        ({ status := stDone, wait := some .jErase }, { s with pup.job := .journalErase 0 })))
    s)

/-! ### OTP (R566 to R568) -/

/-- An OTP write: what it leaves if it verifies and if it does not, which the model does not choose (R568). -/
def State.otpBurn (s : State) (good bad : State → State) : Reply × State :=
  let t := { s with free := s.free + 1 }
  if Config.otpFails s.free then ({ status := stInternal }, bad t) else done (good t)

/-- Change an OTP key slot. -/
def State.modOtp (s : State) (i : Fin 4) (f : OtpKey → OtpKey) : State := { s with otp.keys := vmod s.otp.keys i f }

/-- OTP_KEY_WRITE. -/
def execOtpKeyWrite (h : CmdHdr) (index : BitVec 8) (ptr : BitVec 32) (s : State) : Out :=
  .next (serve h
    { opcode := 0x0A07, role := some .maker, journal := true, params := pb index ++ pb ptr, ptrs := [(ptr.toNat, 64)] }
    (fun s => if s.overLink h then refuse stDenied s else match fin? 4 index.toNat with
      | none => refuse stBadParam s
      | some i =>
        let b := memRead 0 s.pup.mbRam ptr.toNat 64
        let k := s.otp.keys.get i
        checks
          [(stBadParam, !p256On (unbe (b.take 32)) (unbe (b.drop 32))), (stBadState, k.written || k.failed)] s (fun _ =>
          s.otpBurn (fun t => t.modOtp i (fun k => { k with written := true, key := b }))
            (fun t => t.modOtp i (fun k => { k with failed := true }))))
    s)

/-- OTP_KEY_REVOKE. -/
def execOtpKeyRevoke (h : CmdHdr) (index : BitVec 8) (s : State) : Out :=
  .next (serve h { opcode := 0x0A08, role := some .maker, journal := true, params := pb index }
    (fun s => if s.overLink h then refuse stDenied s else match fin? 4 index.toNat with
      | none => refuse stBadParam s
      | some i =>
        let other := (List.finRange 4).any (fun j =>
          let k := s.otp.keys.get j
          decide (j ≠ i) && k.written && !k.failed && !k.revoked)
        checks [(stBadState, !other)] s (fun _ =>
          s.otpBurn (fun t => t.modOtp i (fun k => { k with revoked := true }))
            (fun t => t.modOtp i (fun k => { k with failed := true }))))
    s)

/-- OTP_FLOOR_SET: the next of 16 words. -/
def execOtpFloorSet (h : CmdHdr) (version : BitVec 32) (s : State) : Out :=
  .next (serve h { opcode := 0x0A09, role := some .maker, journal := true, params := pb version }
    (fun s => checks
      [(stDenied, s.overLink h),
       (stBadParam, decide (version.toNat < s.otpFloorNow ∨ s.pup.fwVer.toNat < version.toNat)),
       (stBadParam, decide (16 ≤ s.otp.floor.length))] s (fun _ =>
        s.otpBurn (fun t => { t with otp.floor := t.otp.floor ++ [some version] })
          (fun t => { t with otp.floor := t.otp.floor ++ [none] })))
    s)

/-- OTP_TRIM_WRITE: a group is written once. -/
def execOtpTrimWrite (h : CmdHdr) (group length : BitVec 16) (ptr : BitVec 32) (s : State) : Out :=
  .next (serve h
    { opcode := 0x0A0A, role := some .maker, journal := true, params := pb group ++ pb length ++ pb ptr,
      ptrs := [(ptr.toNat, length.toNat)] }
    (fun s => checks
      [(stDenied, s.overLink h), (stBadState, s.otp.trim.any (fun g => decide (g.1 = group)))] s (fun _ =>
        let b := memRead 0 s.pup.mbRam ptr.toNat length.toNat
        s.otpBurn (fun t => { t with otp.trim := t.otp.trim ++ [(group, some b)] })
          (fun t => { t with otp.trim := t.otp.trim ++ [(group, none)] })))
    s)

end Sys2Proof.Machine
end

