-- ==== Sys2Proof/Machine/RxOps.lean ====
section
/-! DEFINITION. The receive chains of the paths, the matrix and the element stages, sample by sample, and where their outputs go
(03_transceiver_paths.md R73 to R77, 05_channelisers.md R134 to R154, 06_beam_engine.md R159 to R178). Times in a chain are ticks after V, the
value loaded at SYNC. -/

namespace Sys2Proof.Machine

/-! ### Delay lines (R154) -/

/-- A sample of zeros without a flag. -/
def Smp.null : Smp := { val := (0, 0), fl := 0 }

/-- A sample enters a delay line of n, newest first. What a line does not list is zeros, and one of zeros lists nothing. -/
def keepS (n : Nat) (x : Smp) (xs : List Smp) : List Smp :=
  if x = Smp.null then (if xs.all (fun y => decide (y = Smp.null)) then [] else (x :: xs).take n) else (x :: xs).take n

/-- A filter over a line: one of zeros gives zeros. -/
def firQ (ts : List Int) (xs : List Smp) : Smp × Nat :=
  match xs with
  | [] => (Smp.null, 0)
  | _ => firS ts 17 xs

/-! ### Counters of saturated samples (R158, R185) -/

/-- Count saturated samples of a path, of a beam in a direction. -/
def State.satRxBy (s : State) (p : Fin 64) (n : Nat) : State := { s with chan.satRx := vmod s.chan.satRx p (fun x => satAdd x n) }
def State.satTxBy (s : State) (p : Fin 64) (n : Nat) : State := { s with chan.satTx := vmod s.chan.satTx p (fun x => satAdd x n) }
def State.satBeamBy (s : State) (tx : Bool) (b : Fin 32) (n : Nat) : State :=
  s.modDir tx (fun d => { d with sat := vmod d.sat b (fun x => satAdd x n) })

/-! ### What a path delivers (R24, R77, R111, R126, R438) -/

/-- Overrange of R77: a code at either end. -/
def overrange (i q : BitVec 14) : Bool := decide (i = 0x2000 ∨ i = 0x1FFF ∨ q = 0x2000 ∨ q = 0x1FFF)

/-- An overrange sample is counted; the first since OVL was cleared sets it and emits PATH_OVERLOAD (R77). -/
def State.overload (s : State) (p : Fin 64) : State :=
  let first := !(s.paths.get p).ovl
  let s := s.modPath p (fun x => { x with ovlCnt := satAdd x.ovlCnt 1, ovl := true })
  if first then s.emitNow 0x0242 (0x0200 + p.val) (le 1 p.val ++ le 1 (b2n (s.portB p))) else s

/-- Whether a path of a tile in STITCH is idle (R24): all but the lane's, once the move of R178 to MONITOR is 128 ticks old. -/
def State.stitchIdle (s : State) (p : Fin 64) : Bool :=
  let r := s.radio.get (tileOf p)
  decide (r.use = .stitch ∧ s.lanePath (tileOf p) ≠ p) &&
  (match r.log.head? with
   | some (t, some .monitor) => decide (t + 128 ≤ s.time.ticks)
   | _ => false)

/-- Whether the receive chains of a tile deliver (R111): in RX and MONITOR, and in a move between them (R178). -/
def Radio.delivers (r : Radio) (now : Nat) : Bool :=
  let on := fun (x : RState) => decide (x = .rx ∨ x = .monitor)
  on (r.shown now) && (match r.transit with
    | none => true
    | some x => on x.left)

/-- Whether a path delivers samples of its converters. -/
def State.rxLive (s : State) (p : Fin 64) : Bool :=
  s.time.dspRuns && (s.radio.get (tileOf p)).delivers s.time.ticks && !s.stitchIdle p

/-- Whether calibration has the receive samples of a path delivered as flagged zeros: a slot of its tile from the move into CAL until home
(R438), a claim of the path (R441). -/
def State.calZero (s : State) (p : Fin 64) : Bool :=
  let r := s.radio.get (tileOf p)
  decide (r.shown s.time.ticks = .cal) || (s.paths.get p).claimMute ||
  (match r.transit with
   | some x => decide (x.left = .cal)
   | none => false)

/-- Whether the samples of a tile are delivered as zero: a large retune, or a fallback relock, runs (R126). -/
def Radio.zeroed (r : Radio) : Bool :=
  match r.retune with
  | .large .. => true
  | .lock .. => true
  | _ => false

/-- Whether a lane takes the samples of a path. -/
def State.laneOn (s : State) (p : Fin 64) : Bool :=
  decide (s.lanePath (tileOf p) = p ∧ s.laneMode (tileOf p) ≠ .off)

/-- The flags of a sample that a path takes now (R29, R77, R126, R221). -/
def State.rxFlags (s : State) (p : Fin 64) (full : Bool) : BitVec 8 :=
  let t := tileOf p
  let r := s.radio.get t
  let c := s.chan.rx.get p
  let now := s.time.ticks
  BitVec.ofNat 8 (b2n (r.settling now now || s.calZero p) + 2 * b2n (s.pllFault 0 || s.pllFault 1 || s.pllFault (rfPll t)) +
    4 * b2n full + 8 * b2n (decide (r.stateAt now ≠ some .rx)) + 16 * b2n (decide (r.stateAt now ≠ some .monitor)) +
    32 * b2n (decide (0 < c.portFor)) + 64 * b2n (decide (0 < c.attFor)) + 128 * b2n full)

/-- The flags of the zeros of a sample that no converter delivers (log 49). -/
def State.fillFlags (s : State) (p : Fin 64) : BitVec 8 :=
  if s.rxLive p then s.rxFlags p false
  else (if s.calZero p then 1#8 else 0#8) ||| (if s.laneOn p then s.rxFlags p false &&& 0x78#8 else 0#8)

/-- The calibration values in force, as the correction sees them. -/
def State.calList (s : State) : List Int := s.cal.values.flatMap (fun x => [Int.ofNat x.1, x.2])

/-- A corrected receive sample (R73, R76, R138): the codes in Q1.15, corrected with the values of the port it was taken on; zeros in a large
retune, under calibration, and under a fault of the CONV PLL (R426). -/
def State.corrected (s : State) (p : Fin 64) (i q : BitVec 14) : Cplx :=
  let args := [Int.ofNat p.val, Int.ofNat (b2n (s.portB p)), Int.ofNat (s.paths.get p).atten, i.toInt * 4, q.toInt * 4] ++ s.calList
  if (s.radio.get (tileOf p)).zeroed || s.calZero p || s.pllFault 0 then (0, 0)
  else ((Config.correction 0 args).toInt, (Config.correction 1 args).toInt)

/-! ### The front stages of a path (R74 to R76, R134, R142, R160, R161) -/

/-- Change the receive chain of a path. -/
def State.modRx (s : State) (p : Fin 64) (f : RxChain → RxChain) : State := { s with chan.rx := vmod s.chan.rx p f }

/-- A tick passes at a path's selector and attenuator, which settle in 6 and 40 ticks (R74, R75). -/
def RxChain.track (c : RxChain) (port : Bool) (att : Nat) : RxChain :=
  { c with
    portWas := port, portFor := if port = c.portWas then c.portFor - 1 else 6
    attWas := att, attFor := if att = c.attWas then c.attFor - 1 else 40 }

/-- The port of the sample that a path took at a time after V; the newest entry is that of the newest tick (R76). -/
def RxChain.portAt (c : RxChain) (t : Int) : Bool := c.ports.getD (Int.ofNat ((c.count - 1) / 2) - t).toNat c.portWas

/-- A sample enters HB1 behind the shift by (−j)^n: the chain after, what saturated, and at odd n the tap sample with its time. The blanking
flags are those of the sample at the centre of the response. -/
def RxChain.enter (c : RxChain) (x : Smp) (port : Bool) : RxChain × Nat × Option (Int × Smp) :=
  let n := c.count
  let y := turn x.val (3 * n)
  let line := keepS 47 { val := y.1, fl := x.fl ||| (if y.2 = 0 then 0#8 else 4#8) } c.hb1
  let c := { c with count := n + 1, hb1 := line, ports := if n % 2 = 0 then keep 256 port c.ports else c.ports }
  if n % 2 = 0 then (c, y.2, none)
  else
    let r := firQ (tapsOf 1 0 0) line
    let fl := (r.1.fl &&& 0x87#8) ||| ((line.getD 23 Smp.null).fl &&& 0x78#8)
    (c, y.2 + r.2, some (Int.ofNat (n / 2) - 11, { r.1 with fl := fl }))

/-- A tap sample with time t goes through the fractional-delay filter, HB2 and HB3: the chain after and what saturated. -/
def RxChain.down (c : RxChain) (pre : BitVec 2) (d : BitVec 11) (t : Int) (v : Smp) : RxChain × Nat :=
  let fd := keepS 97 v c.fd
  let w := if fd.isEmpty then Smp.null else fracOut d fd
  let l2 := keepS (hb2Taps pre) w c.hb2
  let c := { c with fd := fd, hb2 := l2 }
  let t2 := t - 48 - Int.ofNat ((hb2Taps pre - 1) / 2)
  if t2 % 2 ≠ 0 then (c, 0)
  else
    let a := firQ (tapsOf 2 pre 0) l2
    let l3 := keepS (hb3Taps pre) a.1 c.hb3
    let c := { c with hb3 := l3 }
    let t3 := t2 - Int.ofNat (hb3Taps pre - 1)
    if t3 % 4 ≠ 0 then (c, a.2)
    else
      let b := firQ (tapsOf 3 pre 0) l3
      ({ c with out := b.1, outAt := t3 }, a.2 + b.2)

/-- The delay of a path with what calibration adds, in the range of R160 (R434). -/
def State.delayOf (s : State) (b : Bank) (p : Fin 64) : BitVec 11 :=
  BitVec.ofInt 11 (clampI (-1024) 1023 ((b.delays.get p).toInt + s.dCal p))

/-! ### The tap point (R24, R110, R136, R211, R243, R252) -/

/-- Samples of a source reach the acquisition channels that record it. -/
def State.toChannels (s : State) (kind index : Nat) (v : TSample) : State :=
  (List.finRange 16).foldl (fun (s : State) (c : Fin 16) =>
    let x : AqChan := s.aq.chans.get c
    if x.kind.toNat = kind ∧ x.index.toNat = index ∧ x.isArmed then s.aqSample c v else s) s

/-- A tap sample reaches the lane that takes it (R211, R212, R252): its frames, its flow, the level detectors and channels that watch the
lane. -/
def State.laneSample (s : State) (l : Fin 8) (v : TSample) : State :=
  let a := laneSrc l
  let v : TSample := { v with fl := laneFlags (decide (s.laneMode l = .stitch)) v.fl }
  let g := ((s.paths.get (s.lanePath l)).atten, s.portB (s.lanePath l))
  let s := s.modAn a (fun y => { y with
    line := keep logDepth v y.line
    gains := if (y.gains.head?.map (fun x => x.2)) = some g then y.gains
      else (s.time.ticks, g.1, g.2) :: y.gains.takeWhile (fun x => decide (s.time.ticks < x.1 + logDepth)) })
  let q := s.an.src.get a
  let s := match q.iqFlow with
    | none => s
    | some f =>
      s.pendPush f
        { type := 3, fmt := BitVec.ofNat 8 (q.iqFormat.toNat + 64), code := q.iqFormat.toNat, elem := false, aper := 0, time := v.time,
          sub := [], items := [], flags := 0 } [v.val] v.fl none
  (s.levelSample 2 l.val 1 v).toChannels 2 l.val v

/-- Whether some level detector watches a source. -/
def State.watched (s : State) (kind index : Nat) : Bool :=
  s.aq.levels.toList.any (fun d => d.enabled && decide (d.kind.toNat = kind ∧ d.index.toNat = index))

/-- A value is lost on its way where the safe clock does not compute it (R426, log 95). -/
def State.safeVal (s : State) (kind index : Nat) (v : TSample) : TSample :=
  if s.clk.dspSafe && Config.safeLost kind index v.time then { v with val := (0, 0), fl := v.fl ||| 2#8 }
  else if s.clk.dspSafe then { v with fl := v.fl ||| 2#8 }
  else v

/-- A tap sample of a path with a time after V reaches what looks at the tap point. -/
def State.tapSample (s : State) (p : Fin 64) (t : Int) (v : Smp) : State :=
  let at_ := t + Int.ofNat s.clk.loadedV
  if at_ < 0 then s
  else
    let l := tileOf p
    let w := s.safeVal 2 p.val { time := at_.toNat, val := v.val, fl := v.fl }
    let s := if s.watched 1 p.val then s.levelSample 1 p.val 1 w else s
    if s.laneOn p then s.laneSample l w else s

/-- Whether nothing but zeros stands in a path's chain and nobody watches it. -/
def State.rxQuiet (s : State) (p : Fin 64) : Bool :=
  let c := s.chan.rx.get p
  c.hb1.isEmpty && c.fd.isEmpty && c.hb2.isEmpty && c.hb3.isEmpty && !s.laneOn p && !s.watched 1 p.val

/-- A sample of a path enters its chain (R134). PA_RXPWR counts tap samples while the path delivers (R110). -/
def State.rxEnter (s : State) (p : Fin 64) (x : Smp) : State :=
  let r := (s.chan.rx.get p).enter x (s.portB p)
  let s := (s.modRx p (fun _ => r.1)).satRxBy p r.2.1
  match r.2.2 with
  | none => s
  | some (t, v) =>
    let live := s.rxLive p
    let bank := (s.beam.rx.bankAt (t - 48) s.clk.loadedV s.beam.aper).1
    let d := r.1.down s.chan.rxPreset (s.delayOf bank p) t v
    let s := s.modRx p (fun c => { d.1 with pwr := if live then keep 1024 (pwr v.val) c.pwr else c.pwr })
    (s.satRxBy p d.2).tapSample p t v

/-- The index of the first sample of this tick. -/
def State.rxIndex (s : State) : Nat := 2 * (s.time.ticks - s.clk.loadedV)

/-- The next sample of a path in this tick, of the two it has: a sample of its converter, or zeros. -/
def State.rxNext (s : State) (p : Fin 64) (v : Cplx) (fl : BitVec 8) : State :=
  let n := s.rxIndex
  let c := s.chan.rx.get p
  let s := if c.count ≤ n then
      s.modRx p (fun c => ({ c with count := n }).track (s.portB p) (s.paths.get p).atten)
    else s
  s.rxEnter p { val := v, fl := fl }

/-- The samples of this tick that no converter has delivered are zeros (log 49). -/
def State.rxFill (s : State) (p : Fin 64) : State :=
  let c := s.chan.rx.get p
  if s.rxQuiet p then
    let a := (s.paths.get p).atten
    if c.portFor = 0 ∧ c.attFor = 0 ∧ c.portWas = s.portB p ∧ c.attWas = a then s
    else s.modRx p (fun c => c.track (s.portB p) a)
  else
    let n := s.rxIndex + 2 - max c.count s.rxIndex
    (List.range n).foldl (fun (s : State) _ => s.rxNext p (0, 0) (s.fillFlags p)) s

/-! ### Restarts (R99, R153, R176) -/

/-- The receive flow of a source in a bank, where it has one. -/
def Bank.rxFlow (b : Bank) (src : FlowSrc) : Option (Fin 64) :=
  match src with
  | .beam i => if b.element = false ∧ (b.beams.get i).enable then some (b.beams.get i).flow.toFin else none
  | .elem t => if b.element then some (b.elem.flows.get t).toFin else none
  | _ => none

/-- The packet that a source fills under a bank ends (R176). -/
def State.endPacket (s : State) (b : Bank) (src : FlowSrc) : State :=
  match b.rxFlow src with
  | none => s
  | some f => s.closePend f []

/-- The flow of a source in the bank in force carries RESTART on its next packet (R346). -/
def State.markRestart (s : State) (b : Bank) (src : FlowSrc) : State :=
  match b.rxFlow src with
  | none => s
  | some f => { s with link.rxFlows := vmod s.link.rxFlows f (fun x => if x.src = src then { x with restart := true } else x) }

/-- The restarts at one effective sample (R99, R153, R174, R176): the stages are cleared, their packets end, and the new first times stand;
where the mask changes the detectors restart. -/
def State.rxCross (s : State) (new : Bank) (p : PastBank) : State :=
  let bs := (List.finRange 32).filter (fun b => p.clear.getLsbD b.val)
  let ts := if p.elems then List.finRange 8 else []
  let s := bs.foldl (fun (s : State) b => (s.endPacket p.bank (.beam b)).markRestart new (.beam b)) s
  let s := ts.foldl (fun (s : State) t => (s.endPacket p.bank (.elem t)).markRestart new (.elem t)) s
  let s := { s with beam.rx := { s.beam.rx with
    nb := vmap s.beam.rx.nb (fun b z => if p.clear.getLsbD b.val then Narrow.zero else z)
    validAt := vmap s.beam.rx.validAt (fun b v =>
      if p.clear.getLsbD b.val then s.firstNew (new.beams.get b).preset (new.beams.get b).rate p.till else v)
    elemAt := if p.elems then s.firstNew new.elem.preset new.elem.rate p.till else s.beam.rx.elemAt } }
  let s := if p.elems then { s with chan.rx := vmap s.chan.rx (fun _ c => { c with elem := Narrow.zero }) } else s
  if p.cut then { s with res := vmap s.res (fun _ r => { r with det.line := [] }) } else s

/-- The restarts that have come due at a matrix sample: those of effective samples at or before it. -/
def State.rxRestart (s : State) (t : Int) : State :=
  let fresh := fun (p : PastBank) => (decide (p.clear ≠ 0) || p.elems || p.cut) && decide (Int.ofNat p.till ≤ t + Int.ofNat s.clk.loadedV)
  let due := s.beam.rx.past.filter fresh
  if due.isEmpty then s
  else
    let new := (s.beam.rx.bankAt t s.clk.loadedV s.beam.aper).1
    let s := due.foldl (fun (s : State) p => s.rxCross new p) s
    { s with beam.rx.past := s.beam.rx.past.map (fun p => if fresh p then { p with clear := 0, elems := false, cut := false } else p) }

/-! ### Outputs of the narrowband stages (R27, R99, R154, R176, R243, R252, R346, R359) -/

/-- Whether an output of a mask's paths, formed up to a tick, is SUSPECT by a lock that was lost (R29, R426): one whose time, or that of some
sample in its response, is at or after 64 ticks before the loss. -/
def State.outSuspect (s : State) (aper : BitVec 8) (t : Nat) : Bool :=
  s.clk.dspSafe ||
  (List.finRange 16).any (fun p =>
    (decide (p.val ≤ 1) || (decide (8 ≤ p.val) && aper.getLsbD (p.val - 8))) &&
    (s.clk.plls.get p).suspect.any (fun a => decide (a ≤ t)))

/-- The source of a flow as a packet names it (R354): type, format code and rate code. -/
def Bank.fmtOf (b : Bank) (src : FlowSrc) : Nat × Nat × Nat :=
  match src with
  | .beam i => (1, (b.beams.get i).format.toNat, (b.beams.get i).rate.toNat)
  | _ => (2, b.elem.format.toNat, b.elem.rate.toNat)

/-- An output of a source, one sample or the eight of an instant, with time t goes to its flow (R27, R176, R359): the packet that is being
filled ends at an effective sample between this output and the one before; the count of a flow bound anew starts over there. -/
def State.toFlow (s : State) (src : FlowSrc) (t period : Nat) (item : List Cplx) (fl : BitVec 8) : State :=
  let v := s.clk.loadedV
  let s := s.beam.rx.past.foldl (fun (s : State) p =>
    if p.till ≤ t ∧ t < p.till + period then s.endPacket p.bank src else s) s
  let old := s.beam.rx.past.any (fun p => decide (t < p.till))
  let (bank, aper) := s.beam.rx.bankAt (Int.ofNat t - Int.ofNat v) v s.beam.aper
  match bank.rxFlow src with
  | none => s
  | some f =>
    let x := s.link.rxFlows.get f
    let before := x.rebound.any (fun e => decide (t < e))
    if x.src ≠ src ∧ !before ∧ !(old && decide (x.src = .none)) then s
    else
      let s := if x.rebound.any (fun e => decide (e ≤ t)) then
          let s := s.closePend f []
          { s with link.rxFlows := vmod s.link.rxFlows f (fun x => { x with seq := 0, restart := true, rebound := none }) }
        else s
      let k := bank.fmtOf src
      s.pendPush f
        { type := BitVec.ofNat 8 k.1, fmt := BitVec.ofNat 8 (k.2.1 + 8 * k.2.2), code := k.2.1, elem := decide (k.1 = 2), aper := aper,
          time := t, sub := [], items := [], flags := 0 } item fl none

/-- An output of a beam reaches the channels, level detectors and preamble detectors on it, and its flow. -/
def State.beamOut (s : State) (b : Fin 32) (period : Nat) (v : TSample) : State :=
  let v := s.safeVal 0 b.val v
  ((((s.toChannels 0 b.val v).levelSample 0 b.val period v).detSample b period v).toFlow (.beam b) v.time period [v.val] v.fl)

/-! ### The matrix and the element stages (R159, R164 to R166, R172) -/

/-- The HB3 output of a path at a time. -/
def RxChain.outOf (c : RxChain) (t : Int) : Smp := if c.outAt = t then c.out else Smp.null

/-- Receive beam b from the HB3 outputs at time t (R165 steps 1 to 3): the rotated sample and its saturations. -/
def State.rxBeamSum (s : State) (bank : Bank) (aper : BitVec 8) (b : Fin 32) (t : Int) : Smp × Nat :=
  let cfg := bank.beams.get b
  let ins := (List.finRange 64).filterMap (fun p =>
    let c := s.chan.rx.get p
    if aper.getLsbD (p.val / 8) then
      let x := c.outOf t
      let w := memGet 0 bank.weights (weightIdx false b.val p.val (b2n (c.portAt t)))
      let wi := (w.extractLsb' 0 16).toInt
      let wq := (w.extractLsb' 16 16).toInt
      some (wi * x.val.1 - wq * x.val.2, wi * x.val.2 + wq * x.val.1, x.fl)
    else none)
  let i := roundSat (wrapI 48 ((ins.map (fun x => x.1)).sum)) (14 + cfg.shift.toNat)
  let q := roundSat (wrapI 48 ((ins.map (fun x => x.2.1)).sum)) (14 + cfg.shift.toNat)
  let r := rotator false cfg.freq t (i.1, q.1)
  let n := b2n (i.2 || q.2) + r.2
  ({ val := r.1, fl := ins.foldl (fun f x => f ||| x.2.2) 0 ||| (if n = 0 then 0#8 else 4#8) }, n)

/-- One grid sample of a receive beam goes through its narrowband stage (R159, R165) and is delivered from the first time that R153 lets
through. -/
def State.rxBeam1 (s : State) (bank : Bank) (aper : BitVec 8) (b : Fin 32) (t : Int) : State :=
  let cfg := bank.beams.get b
  let y := s.rxBeamSum bank aper b t
  let r := (s.beam.rx.nb.get b).rxStep cfg.preset cfg.rate t y.1
  let s := { s with beam.rx.nb := vmod s.beam.rx.nb b (fun _ => r.1) }
  let s := s.satBeamBy false b y.2
  match r.2 with
  | none => s
  | some (o, v, n) =>
    let s := s.satBeamBy false b n
    let at_ := o + Int.ofNat s.clk.loadedV
    if at_ < Int.ofNat (s.beam.rx.validAt.get b) then s
    else
      let sus : BitVec 8 := if s.outSuspect aper (at_ + Int.ofNat (s.beamG b)).toNat then 2 else 0
      s.beamOut b (periodOf cfg.rate) { time := at_.toNat, val := v.val, fl := v.fl ||| sus }

/-- One grid sample of every enabled receive beam. -/
def State.rxMatrix (s : State) (bank : Bank) (aper : BitVec 8) (t : Int) : State :=
  (List.finRange 32).foldl (fun (s : State) (b : Fin 32) =>
    if (bank.beams.get b).enable && !(s.halvedAt false t && bank.halved b) then s.rxBeam1 bank aper b t else s) s

/-- One grid sample of the eight element stages of a tile (R172). -/
def State.rxElement (s : State) (bank : Bank) (aper : BitVec 8) (l : Fin 8) (t : Int) : State :=
  let e := bank.elem
  let rs := (List.finRange 8).map (fun k => let c := s.chan.rx.get (pathOf l k); c.elem.rxStep e.preset e.rate t (c.outOf t))
  let s := (List.finRange 8).foldl (fun (s : State) k => match rs[k.val]? with
    | some r => s.modRx (pathOf l k) (fun c => { c with elem := r.1 })
    | none => s) s
  match rs.filterMap (fun r => r.2) with
  | [] => s
  | (o, v, _) :: rest =>
    let vs := v :: rest.map (fun x => x.2.1)
    let at_ := o + Int.ofNat s.clk.loadedV
    if at_ < Int.ofNat s.beam.rx.elemAt then s
    else
      let t0 := at_.toNat
      let front := (rxFrontHalf s.chan.rxPreset + 1) / 2
      let sus : BitVec 8 := if s.outSuspect (aper &&& (1#8 <<< l.val)) (t0 + front + nbDelay e.preset e.rate) then 2 else 0
      let ws := vs.mapIdx (fun k x => s.safeVal 1 (8 * l.val + k) { time := t0, val := x.val, fl := x.fl ||| sus })
      let s := (List.range 8).foldl (fun (s : State) k => match ws[k]? with
        | some w => s.toChannels 1 (8 * l.val + k) w
        | none => s) s
      s.toFlow (.elem l) t0 (periodOf e.rate) (ws.map (fun w => w.val)) (ws.foldl (fun f w => f ||| w.fl) 0)

/-- The time after V of the grid sample whose inputs are complete with this tick's samples (R142, R148, R160): it lies 11.5 ticks of HB1, 48 of
the fractional-delay filter and the delays of HB2 and HB3 before the second of them. -/
def State.rxLabel (s : State) : Int :=
  let pre := s.chan.rxPreset
  Int.ofNat s.time.ticks - Int.ofNat s.clk.loadedV - 59 - Int.ofNat ((hb2Taps pre - 1) / 2) - Int.ofNat (hb3Taps pre - 1)

/-- The receive chains at the end of a tick (R134, R159): what has not come is zeros, and on the grid the beams, or the element streams, have
their sample. -/
def State.rxTick (s : State) : State :=
  let s := (List.finRange 64).foldl (fun (s : State) p => s.rxFill p) s
  let t := s.rxLabel
  if t % 4 ≠ 0 ∨ t ≤ s.beam.rxAt then s
  else
    let s := { (s.rxRestart t) with beam.rxAt := t }
    let (bank, aper) := s.beam.rx.bankAt t s.clk.loadedV s.beam.aper
    if bank.element then
      ((List.finRange 8).filter (fun l => aper.getLsbD l.val)).foldl (fun (s : State) l => s.rxElement bank aper l t) s
    else s.rxMatrix bank aper t

end Sys2Proof.Machine
end

