-- ==== Sys2Proof/Machine/TxOps.lean ====
section
/-! DEFINITION. The transmit chains: the narrowband stages and the matrix, the front stages of the paths, crest-factor reduction, the
predistorter, the converters (03_transceiver_paths.md R78 to R82, 05_channelisers.md R137 to R154, 06_beam_engine.md R159 to R182,
07_predistortion.md R186 to R199). Times in a chain are ticks after V. -/

namespace Sys2Proof.Machine

/-- Change the transmit chain of a path. -/
def State.modTx (s : State) (p : Fin 64) (f : TxChain → TxChain) : State := { s with chan.tx := vmod s.chan.tx p f }

/-- A sample enters a delay line of n, newest first. What a line does not list is zeros, and one of zeros lists nothing. -/
def keepC (n : Nat) (x : Cplx) (xs : List Cplx) : List Cplx :=
  if x = (0, 0) then (if xs.all (fun y => decide (y = (0, 0))) then [] else (x :: xs).take n) else (x :: xs).take n

/-! ### The front stages of a path (R137, R142, R161, R174) -/

/-- A half-band filter over a line of an interpolator: between the samples stand zeros, so that a gain of 1 at DC takes twice the taps. -/
def firUp (ts : List Int) (xs : List Cplx) : Cplx × Nat :=
  match xs with
  | [] => ((0, 0), 0)
  | _ => firC ts 16 xs

/-- Interpolation by 2 of samples in order: the delay line after, two outputs for each and what saturated. -/
def interpAll (ts : List Int) (n : Nat) : List Cplx → List Cplx → List Cplx × List Cplx × Nat
  | line, [] => (line, [], 0)
  | line, x :: xs =>
    let l0 := keepC n x line
    let l1 := keepC n (0, 0) l0
    let a := firUp ts l0
    let b := firUp ts l1
    let r := interpAll ts n l1 xs
    (r.1, a.1 :: b.1 :: r.2.1, a.2 + b.2 + r.2.2)

/-- Samples through the fractional-delay filter in order, one a tick: the line after and the outputs, the first with time t (R161, R174). -/
def fracAll (d : Int → BitVec 11) : Int → List Cplx → List Cplx → List Cplx × List Cplx
  | _, line, [] => (line, [])
  | t, line, x :: xs =>
    let l := keepC 97 x line
    let r := fracAll d (t + 1) l xs
    let y := match l with
      | [] => (0, 0)
      | _ => (firC (fracTaps (d t)) 17 l).1
    (r.1, y :: r.2)

/-- Samples through the offset shift, the first with index n on the 1,966.08 Msps grid (R137). -/
def offsetAll : Int → List Cplx → List Cplx × Nat
  | _, [] => ([], 0)
  | n, x :: xs =>
    let y := turn x (n % 4).toNat
    let r := offsetAll (n + 1) xs
    (y.1 :: r.1, y.2 + r.2)

/-- The index on the 1,966.08 Msps grid of the first of the eight samples that a matrix output at time t completes. -/
def State.txIndex (s : State) (t : Int) : Int :=
  let pre := s.chan.txPreset
  2 * (t - Int.ofNat (hb3Taps pre - 1) - Int.ofNat ((hb2Taps pre - 1) / 2) - 48) - 19

/-- A matrix output of a path at time t after V through HB3′, HB2′, the delay filter, HB1′ and the offset shift: the chain after, the eight
samples and what saturated. -/
def State.txFront (s : State) (p : Fin 64) (t : Int) (x : Cplx) : TxChain × List Cplx × Nat :=
  let pre := s.chan.txPreset
  let c := s.chan.tx.get p
  let a := interpAll (tapsOf 7 pre 0) (hb3Taps pre) c.hb3 [x]
  let b := interpAll (tapsOf 6 pre 0) (hb2Taps pre) c.hb2 a.2.1
  let t1 := t - Int.ofNat (hb3Taps pre - 1) - Int.ofNat ((hb2Taps pre - 1) / 2) - 48
  let f := fracAll (fun u => s.delayOf (s.beam.tx.bankAt u s.clk.loadedV s.beam.aper).1 p) t1 c.fd b.2.1
  let h := interpAll (tapsOf 5 0 0) 39 c.hb1 f.2
  let o := offsetAll (s.txIndex t) h.2.1
  ({ c with hb3 := a.1, hb2 := b.1, fd := f.1, hb1 := h.1 }, o.1, a.2.2 + b.2.2 + h.2.2 + o.2)

/-! ### Crest-factor reduction (R193, R194) -/

/-- Whether a magnitude exceeds a threshold of a tenths of a decibel below full scale. -/
def aboveCfr (x : Cplx) (a : Nat) : Bool := decide ((2 ^ 30) ^ 100 < pwr x ^ 100 * 10 ^ a)

/-- Whether the entry of a line, newest first, is a peak: above the threshold and the largest within ±8 samples, the earlier of
two equal ones (log 48). -/
def isPeak (line : List Cplx) (a k : Nat) : Bool :=
  let x := line.getD k (0, 0)
  aboveCfr x a &&
  (List.range 8).all (fun i => decide (pwr (line.getD (k + 1 + i) (0, 0)) < pwr x)) &&
  (List.range 8).all (fun i => decide (k < i + 1) || decide (pwr (line.getD (k - 1 - i) (0, 0)) ≤ pwr x))

/-- The cancellation pulse of a tile: the loaded one, or the one made for a used band (R194). -/
def PdTile.pulseTap (x : PdTile) (k : Nat) : BitVec 32 :=
  match x.pulse with
  | some ws => ws.getD k 0
  | none => if k = 32 then 0x00007FFF else Config.cfrPulse x.pulseFor k

/-- 10^(−1/200) in units of 2^-200, and its powers by the binary digits of the exponent, of which there are at most so many. -/
def tenthDb : Nat := 1588543576574193789408664634813242934064929228759475985164159
def tenthDbs : Nat → Nat → Nat
  | 0, _ => 2 ^ 200
  | n + 1, k =>
    let r := tenthDbs n (k / 2)
    let q := r * r / 2 ^ 200
    if k % 2 = 1 then q * tenthDb / 2 ^ 200 else q

/-- A cancellation term (R193): a tap of the pulse times (|x| − A) x/|x|, to the nearest value or the one beside it (log 48). -/
def cfrTerm (x : Cplx) (a : Nat) (w : BitVec 32) : Cplx :=
  let wi := (w.extractLsb' 0 16).toInt
  let wq := (w.extractLsb' 16 16).toInt
  let m := (pwr x * 2 ^ 80).sqrt
  let above := Int.ofNat m - Int.ofNat (tenthDbs 8 a / 2 ^ 145)
  let den := 2 * m * 2 ^ 15
  let part := fun (q : Nat) (v : Int) =>
    fdivI (2 * v * above + Int.ofNat (den / 2)) den +
      clampI (-1) 1 (Config.cfrTerm q [x.1, x.2, Int.ofNat a, wi, wq])
  (part 0 (x.1 * wi - x.2 * wq), part 1 (x.1 * wq + x.2 * wi))

/-- One stage of CFR on a line of 81 samples, newest first: its output at the middle one, 40 samples back (R193). -/
def cfrStage (x : PdTile) (line : List Cplx) : Cplx :=
  let a := x.cfr.toNat
  let terms := ((List.range 65).filter (fun i => isPeak line a (8 + i))).map (fun i => cfrTerm (line.getD (8 + i) (0, 0)) a (x.pulseTap i))
  let m := line.getD 40 (0, 0)
  (clampI (-32768) 32767 (m.1 - (terms.map (fun v => v.1)).sum), clampI (-32768) 32767 (m.2 - (terms.map (fun v => v.2)).sum))

/-- One sample of a path through both stages of CFR (R188, R193); without it the delay is the same. -/
def State.cfrPath (s : State) (p : Fin 64) (x : Cplx) : State :=
  let t := s.pd.tiles.get (tileOf p)
  let on := (s.pd.paths.get p).cfrEn
  let stage := fun (l : List Cplx) => match l with
    | [] => (0, 0)
    | _ => if on then cfrStage t l else l.getD 40 (0, 0)
  let l0 := keepC 81 x (s.chan.tx.get p).cfr0
  let l1 := keepC 81 (stage l0) (s.chan.tx.get p).cfr1
  let l2 := keepC 32 (stage l1) (s.chan.tx.get p).cfr2
  let s := s.modTx p (fun c => { c with cfr0 := l0, cfr1 := l1, cfr2 := l2 })
  if on && isPeak l2 t.cfr.toNat 8 then s.modPd p (fun d => { d with cfrResid := satAdd d.cfrResid 1 }) else s

/-! ### The predistorter (R189 to R192, R195, R203) -/

/-- A component of a basis term of order k: its exact value, in units of 2^−15k, at 24-bit precision, which is one of the two values about it
(log 48). -/
def basisPart (e : Int) (k : Nat) : Int :=
  let v : Int := if k = 1 then e * 256 else
    let unit := 2 ^ (15 * k - 23)
    let low := fdivI e unit
    if low * Int.ofNat unit = e then low else low + Int.ofNat (b2n (Config.basisUp e k))
  if -8388608 ≤ v ∧ v ≤ 8388607 then v else (Config.basisWide e k).toInt

/-- A basis term x·|y|^(k − 1) as 24-bit components (R189, R192). -/
def basisOf (x y : Cplx) (k : Nat) : Cplx :=
  let e := Int.ofNat (pwr y ^ ((k - 1) / 2))
  (basisPart (x.1 * e) k, basisPart (x.2 * e) k)

/-- A coefficient times a basis term. -/
def coefMul (set : List (Nat × BitVec 32)) (idx : Nat) (b : Cplx) : Cplx :=
  let w := memGet 0 set idx
  let i := (w.extractLsb' 0 16).toInt
  let q := (w.extractLsb' 16 16).toInt
  (i * b.1 - q * b.2, i * b.2 + q * b.1)

/-- The terms of a neighbour slot at delay m, the words of which begin at base (R189, R190). -/
def crossTerms (set : List (Nat × BitVec 32)) (base m : Nat) (x q : Cplx) : List Cplx :=
  [coefMul set (base + m) (basisOf q (0, 0) 1), coefMul set (base + 8 + m) (basisOf x q 3), coefMul set (base + 16 + m) (basisOf q x 3)]

/-- The predistorter's output at the sample one back on its input line (R189 to R192), and whether it saturated. -/
def predistort (set : List (Nat × BitVec 32)) (x : List Cplx) (q1 q2 : Option (List Cplx)) : Cplx × Nat :=
  let g := fun (l : List Cplx) (k : Nat) => l.getD k (0, 0)
  let terms := (List.range 8).flatMap (fun m =>
    let c := g x (1 + m)
    (List.range 4).map (fun k => coefMul set (8 * k + m) (basisOf c c (2 * k + 1))) ++
    (List.range 3).flatMap (fun k =>
      [coefMul set (32 + 8 * (2 * k) + m) (basisOf c (g x m) (2 * k + 3)),
       coefMul set (32 + 8 * (2 * k + 1) + m) (basisOf c (g x (2 + m)) (2 * k + 3))]) ++
    (match q1 with
     | some l => crossTerms set 80 m c (g l (1 + m))
     | none => []) ++
    (match q2 with
     | some l => crossTerms set 104 m c (g l (1 + m))
     | none => []))
  let i := roundSat (wrapI 40 ((terms.map (fun v => v.1)).sum)) 21
  let q := roundSat (wrapI 40 ((terms.map (fun v => v.2)).sum)) 21
  ((i.1, q.1), b2n (i.2 || q.2))

/-- The neighbours and the set of a path at a DAC time, by the burst boundary that followed it first (R196, R203). -/
def PdPath.setAt (x : PdPath) (tick : Int) : BitVec 8 × BitVec 8 × List (Nat × BitVec 32) :=
  (x.past.takeWhile (fun o => decide (tick < Int.ofNat o.1))).foldl (fun _ o => o.2) (x.nb1, x.nb2, x.active)

/-- The input line of a neighbour path, if the slot names one (R195). -/
def State.neighbour (s : State) (q : BitVec 8) : Option (List Cplx) := (fin? 64 q.toNat).map (fun i => (s.chan.tx.get i).cfr2)

/-- The predistorter's output of a path at index n of the grid (R188, R191), with its saturations, and its neighbours' inputs. -/
def State.pdOut (s : State) (p : Fin 64) (n : Int) : (Cplx × Nat) × Cplx × Cplx :=
  let d := s.pd.paths.get p
  let k := d.setAt (Int.ofNat s.clk.loadedV + fdivI n 2)
  let q1 := s.neighbour k.1
  let q2 := s.neighbour k.2.1
  let one := fun (q : Option (List Cplx)) => (q.getD []).getD 1 (0, 0)
  (predistort (if d.pdEn then k.2.2 else pdIdentity) (s.chan.tx.get p).cfr2 q1 q2, one q1, one q2)

/-! ### Captures (R199) -/

/-- A sample of a path enters the capture that observes it. -/
def State.pdCapture (s : State) (p : Fin 64) (v : CapSample) : State :=
  let t := tileOf p
  if (s.pd.tiles.get t).capBusy = some (idxOf p) then s.modPdTile t (fun x => { x with cap := keep (2 ^ 15) v x.cap }) else s

/-! ### The converters (R78, R79, R110, R182) -/

/-- The driver gain with which a path lets samples out at a tick, none where it does not: its tile is in TX and the path is not muted. -/
def State.txGate (s : State) (p : Fin 64) : Option (BitVec 7) :=
  if (s.radio.get (tileOf p)).stateAt s.time.ticks = some .tx ∧ !s.pathMuted p then some (s.paths.get p).gainNow else none

/-- The gates of the last 256 ticks, newest first, take in this tick's. -/
def TxChain.mark (c : TxChain) (g : Option (BitVec 7)) : TxChain :=
  let l := (g :: c.live).take 256
  { c with live := if l.all (fun x => x.isNone) then [] else l }

/-- A sample at index n of the grid reaches the DAC of a path (R78, R182): corrected where it is let out, else zero. Its power counts for
PA_TXPWR on the 983.04 Msps grid, and the DAC makes two codes of it. -/
def State.toDac (s : State) (p : Fin 64) (n : Int) (u : Cplx) : State :=
  let c := s.chan.tx.get p
  let back := Int.ofNat (s.time.ticks - s.clk.loadedV) - fdivI n 2
  let gate : Option (BitVec 7) := if back < 0 then none else (c.live.getD back.toNat none)
  let v : Cplx := match gate with
    | none => (0, 0)
    | some g =>
      let args := [Int.ofNat p.val, 2, Int.ofNat g.toNat, u.1, u.2] ++ s.calList
      ((Config.correction 0 args).toInt, (Config.correction 1 args).toInt)
  let fix := keepC 64 v c.fix
  let about := fix.flatMap (fun x => [x.1, x.2])
  let code := fun (ph : Nat) => match fix with
    | [] => ((0, 0) : Cplx)
    | _ => ((Config.dacCode 0 ph about).toInt, (Config.dacCode 1 ph about).toInt)
  s.modTx p (fun c => { c with
    fix := fix
    dac := keepC 1024 (code 1) (keepC 1024 (code 0) c.dac)
    dacAt := 2 * n + 1
    pwr := if gate.isSome && decide (n % 2 = 0) then keep 1024 (pwr v) c.pwr else c.pwr })

/-- The fixed latency of the transmit chain in ticks, which no group delay and no time stamp counts (R160, R187). -/
def State.txFixed (s : State) : Nat := 48 + (if s.pd.chain then 24 else 0)

/-- The code that the DAC of a path converts at an instant of its 3,932.16 Msps grid, counted from V, where the chain has made it. -/
def State.dacCode (s : State) (p : Fin 64) (k : Int) : Cplx :=
  let c := s.chan.tx.get p
  let back := c.dacAt - (k - 4 * Int.ofNat s.txFixed)
  if back < 0 then (0, 0) else c.dac.getD back.toNat (0, 0)

/-- Whether nothing but zeros stands in the chain of a path, and it lets nothing out. -/
def State.txQuiet (s : State) (p : Fin 64) : Bool :=
  let c := s.chan.tx.get p
  c.hb3.isEmpty && c.hb2.isEmpty && c.fd.isEmpty && c.hb1.isEmpty && c.cfr0.isEmpty && c.cfr1.isEmpty && c.cfr2.isEmpty &&
  c.fix.isEmpty && c.live.isEmpty && decide ((s.pd.tiles.get (tileOf p)).capBusy ≠ some (idxOf p))

/-- One sample of the active paths at index n of the grid: CFR of all of them, then the predistorter of each (R186, R187, R189). The stages
hold 81 samples of the stream, so what leaves them has the index of 81 before. -/
def State.txSample (s : State) (act : List (Fin 64)) (n : Int) (xs : Fin 64 → Cplx) : State :=
  if s.pd.chain then
    let s := act.foldl (fun (s : State) p => s.cfrPath p (xs p)) s
    let m := n - 81
    act.foldl (fun (s : State) p =>
      let r := s.pdOut p m
      let s := s.modPd p (fun d => { d with satPd := satAdd d.satPd r.1.2 })
      let s := s.pdCapture p { index := m, u := r.1.1, x := (s.chan.tx.get p).cfr2.getD 1 (0, 0), q1 := r.2.1, q2 := r.2.2 }
      s.toDac p m r.1.1) s
  else act.foldl (fun (s : State) p => s.toDac p n (xs p)) s

/-- The matrix outputs of all paths at time t after V go down the paths' chains. -/
def State.txPaths (s : State) (t : Int) (xs : Fin 64 → Cplx) : State :=
  let act := (List.finRange 64).filter (fun p => !s.txQuiet p || decide (xs p ≠ (0, 0)))
  let outs := act.map (fun p => (p, s.txFront p t (xs p)))
  let s := outs.foldl (fun (s : State) o => (s.modTx o.1 (fun _ => o.2.1)).satTxBy o.1 o.2.2.2) s
  let n0 := s.txIndex t
  (List.range 8).foldl (fun (s : State) k =>
    s.txSample act (n0 + Int.ofNat k) (fun p => match outs.find? (fun o => decide (o.1 = p)) with
      | some o => o.2.2.1.getD k (0, 0)
      | none => (0, 0))) s

/-! ### The matrix (R164, R167, R172) -/

/-- The sum of a path over the transmit beams at one instant (R167): the output and whether it saturated. -/
def Bank.txSum (b : Bank) (p : Fin 64) (ys : List (Nat × Cplx)) : Cplx × Nat :=
  let terms := ys.map (fun y =>
    let w := memGet 0 b.weights (weightIdx true y.1 p.val 0)
    let wi := (w.extractLsb' 0 16).toInt
    let wq := (w.extractLsb' 16 16).toInt
    ((wi * y.2.1 - wq * y.2.2, wi * y.2.2 + wq * y.2.1) : Int × Int))
  let i := roundSat (wrapI 48 ((terms.map (fun x => x.1)).sum)) (14 + b.txShift.toNat)
  let q := roundSat (wrapI 48 ((terms.map (fun x => x.2)).sum)) (14 + b.txShift.toNat)
  ((i.1, q.1), b2n (i.2 || q.2))

/-- The sources of the transmit matrix under a bank: the enabled beams, or the aperture tiles in element mode. -/
def Bank.txSources (b : Bank) (aper : BitVec 8) : List (Fin 32) :=
  (List.finRange 32).filter (fun i => if b.element then decide (i.val < 8) && aper.getLsbD i.val else (b.beams.get i).enable)

/-- Rate code and preset of a source of a bank. -/
def Bank.nbOf (b : Bank) (i : Fin 32) : BitVec 3 × BitVec 2 :=
  if b.element then (b.elem.rate, b.elem.preset) else ((b.beams.get i).rate, (b.beams.get i).preset)

/-- An input of a transmit source enters its narrowband stages (R137): one value of a beam, eight of a tile in element mode. -/
def State.txStage (s : State) (i : Fin 32) (elem : Bool) (preset : BitVec 2) (rate : BitVec 3) (t : Int) (vals : List Cplx) : State :=
  if elem then
    match fin? 8 i.val with
    | none => s
    | some l =>
      let rs := (List.finRange 8).map (fun k => (s.chan.tx.get (pathOf l k)).elem.txStep preset rate t (vals.getD k.val (0, 0)))
      let s := (List.finRange 8).foldl (fun (s : State) k => match rs[k.val]? with
        | some r => s.modTx (pathOf l k) (fun c => { c with elem := r.1 })
        | none => s) s
      let rows := (List.range (2 ^ rate.toNat)).map (fun j =>
        (t - nbDelay preset rate + Int.ofNat (4 * j), rs.map (fun r => (r.2.1.getD j (0, (0, 0))).2)))
      { s with beam.outq := vmod s.beam.outq i (fun l => l ++ rows) }
  else
    let r := (s.beam.tx.nb.get i).txStep preset rate t (vals.headD (0, 0))
    let s := s.satBeamBy true i r.2.2
    let s := { s with beam.tx.nb := vmod s.beam.tx.nb i (fun _ => r.1) }
    { s with beam.outq := vmod s.beam.outq i (fun l => l ++ r.2.1.map (fun x => (x.1, [x.2]))) }

/-- A source at a grid sample (R137, R143, R153): where its narrowband stage takes an input there it is the one staged, or zeros where there
is none or a restart cuts it; then what the stage has put out for the sample. -/
def State.txSource (s : State) (bank : Bank) (i : Fin 32) (t : Int) : State × Option (List Cplx) :=
  let (rate, preset) := bank.nbOf i
  let u := t + Int.ofNat (nbDelay preset rate)
  let s := { s with beam.outq := vmod s.beam.outq i (fun l => l.filter (fun x => decide (t ≤ x.1))) }
  let s := if u % Int.ofNat (periodOf rate) = 0 then
      let x := (s.beam.staged.get i).find? (fun x => decide (x.1 = u))
      let s := { s with beam.staged := vmod s.beam.staged i (fun l => l.filter (fun x => decide (u < x.1))) }
      s.txStage i bank.element preset rate u (if s.txCut i u t then [] else (x.map (fun x => x.2)).getD [])
    else s
  (s, ((s.beam.outq.get i).find? (fun x => decide (x.1 = t))).map (fun x => x.2))

/-- All sources at a grid sample, in order. -/
def State.txGather (s : State) (bank : Bank) (t : Int) : List (Fin 32) → State × List (Fin 32 × List Cplx)
  | [] => (s, [])
  | i :: is =>
    let r := s.txSource bank i t
    let q := r.1.txGather bank t is
    (q.1, match r.2 with
      | some v => (i, v) :: q.2
      | none => q.2)

/-- The restarts of transmit stages that have come due at a matrix sample (R153, R174). -/
def State.txRestart (s : State) (t : Int) : State :=
  let fresh := fun (p : PastBank) => (decide (p.clear ≠ 0) || p.elems) && decide (Int.ofNat p.till ≤ t + Int.ofNat s.clk.loadedV)
  let due := s.beam.tx.past.filter fresh
  if due.isEmpty then s
  else
    let beams := due.foldl (fun (m : BitVec 32) p => m ||| p.clear) 0
    let elems := due.any (fun p => p.elems)
    let gone := fun (i : Fin 32) => beams.getLsbD i.val || (elems && decide (i.val < 8))
    let s := { s with beam := { s.beam with
      tx := { s.beam.tx with
        nb := vmap s.beam.tx.nb (fun i z => if beams.getLsbD i.val then Narrow.zero else z)
        past := s.beam.tx.past.map (fun p => if fresh p then { p with clear := 0, elems := false } else p) }
      outq := vmap s.beam.outq (fun i l => if gone i then [] else l) } }
    if elems then { s with chan.tx := vmap s.chan.tx (fun _ c => { c with elem := Narrow.zero }) } else s

/-- One instant of the matrix (R167), or of the element streams (R172). -/
def State.txInstant (s : State) (t : Int) : State :=
  let s := s.txRestart t
  let (bank, aper) := s.beam.tx.bankAt t s.clk.loadedV s.beam.aper
  let halve := !bank.element && s.halvedAt true t
  let r := s.txGather bank t ((bank.txSources aper).filter (fun i => !(halve && bank.halved i)))
  let s := r.1
  if bank.element then
    s.txPaths t (fun p => match r.2.find? (fun v => decide (v.1.val = p.val / 8)) with
      | some v => v.2.getD (p.val % 8) (0, 0)
      | none => (0, 0))
  else
    let ys := r.2.map (fun v => (v.1, rotator true (bank.beams.get v.1).freq t (v.2.headD (0, 0))))
    let s := ys.foldl (fun (s : State) y => s.satBeamBy true y.1 y.2.2) s
    let sums := (List.finRange 64).map (fun p =>
      if ys.isEmpty || !aper.getLsbD (p.val / 8) then (((0, 0), 0) : Cplx × Nat)
      else bank.txSum p (ys.map (fun y => (y.1.val, y.2.1))))
    let s := { s with beam.txpSat := vmap s.beam.txpSat (fun p x => satAdd x (sums.getD p.val ((0, 0), 0)).2) }
    s.txPaths t (fun p => (sums.getD p.val ((0, 0), 0)).1)

/-- How many ticks after its time a matrix sample is worked off, by when the swap of its time is known (R153). -/
def txDelay : Nat := 8

/-- The transmit chains at the end of a tick: the gates of the paths are noted, and on the grid the matrix has its sample. -/
def State.txTick (s : State) : State :=
  let s := { s with chan.tx := vmap s.chan.tx (fun p c =>
    let g := s.txGate p
    if g.isNone && c.live.isEmpty then c else c.mark g) }
  let t := Int.ofNat s.time.ticks - Int.ofNat s.clk.loadedV - Int.ofNat txDelay
  if t % 4 ≠ 0 ∨ t ≤ s.beam.txAt then s else { (s.txInstant t) with beam.txAt := t }

end Sys2Proof.Machine
end

