-- ==== Sys2Proof/Machine/Samples.lean ====
section
/-! DEFINITION. A receive sample from a converter and a transmit sample that the grid needs (03_transceiver_paths.md R77,
06_beam_engine.md R181). -/

namespace Sys2Proof.Machine

/-- RX_SAMPLE (R73, R77, R134): overrange is counted and the corrected sample runs down its path's chain, as one of the two that the path has
in a tick. A path whose chain is off or idle delivers none (R24, R111). -/
def execRxSample (p : Fin 64) (i q : BitVec 14) (s : State) : Out :=
  .next (if !s.rxLive p || decide (s.rxIndex + 2 ≤ (s.chan.rx.get p).count) then s
    else
      let full := overrange i q
      let s := if full then s.overload p else s
      s.rxNext p (s.corrected p i q) (s.rxFlags p full))

/-- The input of a flow at a time, and the later ones; earlier ones are freed with it. -/
def takeInput (t : Nat) (l : List TxIn) : Option (List Cplx) × List TxIn × Nat :=
  let gone := l.filter (fun x => decide (x.time ≤ t))
  ((gone.find? (fun x => decide (x.time = t))).map (fun x => x.vals), l.filter (fun x => decide (t < x.time)),
   (gone.map (fun x => x.free)).sum)

/-- A zero-filled grid sample of a beam (R181): it is counted, the first since the counter was read emits TX_UNDERFLOW. -/
def State.underflow (s : State) (b : Fin 32) (t : Nat) : State :=
  let first := !s.beam.uflSeen.getLsbD b.val
  let s := { s with beam.txUfl := vmod s.beam.txUfl b (fun x => satAdd x 1), beam.uflSeen := s.beam.uflSeen ||| (1#32 <<< b.val) }
  if first then s.emit 0x0301 (0x0300 + b.val) (t * 256) (le 1 b.val) else s

/-- The next grid sample of a transmit source, by its rate and preset: the first not taken yet that is needed from now on (R142, R143). -/
def State.txWanted (s : State) (i : Fin 32) (rate : BitVec 3) (preset : BitVec 2) : Nat :=
  let v := s.clk.loadedV
  let p := periodOf rate
  v + cdiv (max s.time.ticks (s.beam.txNext.get i) + nbDelay preset rate - v) p * p

/-- BEAM_TX_GRID_SAMPLE (R142, R143, R153, R181, R182, R465): the grid sample of a transmit beam, or in element mode of a tile's stream, that
the chain needs at this tick, once. It is taken from its flow's input, or is zero; a suppressed beam's is discarded. -/
def execBeamTxGridSample (i : Fin 32) (s : State) : Out :=
  let front := (txFrontHalf s.chan.txPreset + 1) / 2
  let v := s.clk.loadedV
  let (bank, aper) := s.txBankAt (Int.ofNat (s.time.ticks + front) - Int.ofNat v)
  let elem := bank.element
  let (rate, preset) := bank.nbOf i
  let g := nbDelay preset rate
  let t := s.txWanted i rate preset
  .next (if !s.time.dspRuns || !(bank.txSources aper).contains i || decide (s.time.ticks + front + g < t) then s
    else
      let flow : Fin 64 := if elem then (bank.elem.flows.getD i.val 0).toFin else (bank.beams.get i).flow.toFin
      let r := takeInput t (s.beam.input.get flow)
      let s := { s with beam.input := vmod s.beam.input flow (fun _ => r.2.1), beam.txNext := vmod s.beam.txNext i (fun _ => t - g + 4) }
      let s := s.txFree flow r.2.2
      let u := Int.ofNat t - Int.ofNat v
      let off := s.txCut i u (u - Int.ofNat g) || (!elem && s.hk.halved && bank.halved i)
      let s := if r.1.isNone && !off && !elem then s.underflow i t else s
      if r.1.isSome && !off then { s with beam.staged := vmod s.beam.staged i (fun l => l ++ [(u, r.1.getD [])]) } else s)

end Sys2Proof.Machine
end

