-- ==== Sys2Proof/Machine/Time.lean ====
section
/-! DEFINITION. Device time and the TIME_IN discipline (02_timebase_and_pass_windows.md R36 to R45, R601, R67). -/

namespace Sys2Proof.Machine

/-- One second in fraction units. -/
def secFrac : Nat := 983040000 * 256

/-- TIME_ARM_SYNC (R42, R43): refused while an action is queued, a window is not FREE, an acquisition is armed or a load is armed
already. -/
def execTimeArmSync (h : CmdHdr) (value : BitVec 64) (timeout : BitVec 8) (s : State) : Out :=
  .next (serve h { opcode := 0x0201, role := some .operator, params := pb value ++ pb timeout }
    (fun s =>
      let secs := if timeout = 0 then 2 else timeout.toNat
      checks
        [(stBadParam, decide (60 < secs)), (stBadState, s.time.armed.isSome),
         (stBadState, (List.finRange 9).any (fun q => !(s.time.queues.get q).acts.isEmpty)),
         (stBadState, (List.finRange 64).any (fun w => decide ((s.time.windows.get w).state ≠ .free))),
         (stBadState, (List.finRange 16).any (fun c => (s.aq.chans.get c).isArmed))] s (fun _ =>
          accepted { s with
            time.armed := some { value := value, lapseAt := s.time.ticks + secs * 983040000 }, time.armEnd := none }))
    s)

/-- SYNC_ARM_LAPSE (R42): the arm lapses, device time is unchanged, and the command completes with ABORTED. -/
def execSyncArmLapse (s : State) : Out :=
  .next (match s.time.armed with
    | none => s
    | some a => if a.lapseAt ≤ s.time.ticks then { s with time.armed := none, time.armEnd := some stAborted } else s)

/-- TIME_GET (R67). -/
def execTimeGet (h : CmdHdr) (s : State) : Out :=
  .next (serve h { opcode := 0x0202, role := some .operator, params := [] }
    (fun s => doneR (le 9 s.nowT ++ le 1 (b2n s.time.synced) ++ le 1 (b2n s.time.measure)) s) s)

/-- TIME_DISCIPLINE (R44, R45): the command ends the edge history. -/
def execTimeDiscipline (h : CmdHdr) (mode : BitVec 8) (epoch : BitVec 72) (polarity : BitVec 8) (s : State) : Out :=
  .next (serve h
    { opcode := 0x0203, role := some .installer, journal := true, params := pb mode ++ pb epoch ++ pb polarity }
    (fun s => checks [(stBadParam, decide (1 < mode.toNat ∨ 3 < polarity.toNat))] s (fun _ =>
      done { s with time := { s.time with
        measure := decide (mode = 1)
        epoch := epoch.toNat
        polFalling := polarity.getLsbD 0
        edgeEvt := polarity.getLsbD 1
        ppsLast := none
        ppsReported := false } }))
    s)

/-- Two consecutive expected edges are missing at an instant (R601): reported once for each loss. -/
def State.ppsMiss (s : State) (t : Time) : State :=
  match s.time.ppsLast with
  | none => s
  | some l =>
    if s.time.ppsReported ∨ t < l + 2 * secFrac + 98304 * 256 then s
    else ({ s with time.ppsLost := true, time.ppsReported := true } : State).emitNow 0x0203 0x02FF (le 8 l)

/-- PPS_MISSING (R601). -/
def execPpsMissing (s : State) : Out := .next (s.ppsMiss s.nowT)

/-- The nearest whole number of seconds in an interval. Of an interval half a second from two of them the spec does not say which is
taken: here it is the later one (log 84). -/
def nearSecs (d : Int) : Int := fdivI (2 * d + Int.ofNat secFrac) (2 * secFrac)

/-- A phase error as CK_PPS_PHASE shows it (R69). -/
def phaseWord (e : Int) : BitVec 32 := BitVec.ofInt 32 (clampI (-2147483647) 2147483647 e)

/-- The frequency error of an interval (R44): d fraction units too long over m whole seconds, in 1/1024 ppb. -/
def ppsMeasured (d : Int) (m : Nat) : Int := ratI (d * 1024000000000) (m * secFrac)

/-- CK_PPS_FREQ after a measurement x over m seconds: the first-order filter of R44. -/
def ppsFilter (y : BitVec 32) (x : Int) (m : Nat) : BitVec 32 :=
  BitVec.ofInt 32 (y.toInt + ratI ((x - y.toInt) * Int.ofNat (min (2 ^ 32) (Config.ppsWeight m))) (2 ^ 32))

/-- An accepted TIME_IN edge (R44): the phase error, and the frequency error where a history gives an interval. -/
def State.ppsAccept (s : State) (t : Time) : State :=
  let x := s.time
  let d := Int.ofNat t - Int.ofNat x.epoch
  let phase : BitVec 32 := if x.measure then phaseWord (d - nearSecs d * Int.ofNat secFrac) else 0x80000000
  let freq : BitVec 32 := match x.measure, x.ppsLast with
    | true, some l =>
      let iv := Int.ofNat t - Int.ofNat l
      let m := max 1 (nearSecs iv)
      ppsFilter x.ppsFreq (ppsMeasured (iv - m * Int.ofNat secFrac) m.toNat) m.toNat
    | _, _ => x.ppsFreq
  let s := { s with time := { x with
    ppsAccepted := satAdd x.ppsAccepted 1
    ppsPhase := if x.measure then phase else x.ppsPhase
    ppsFreq := freq
    ppsLast := some t
    ppsReported := false } }
  if s.time.edgeEvt then s.emit 0x0202 0x02FF t (pb phase) else s

/-- TIME_IN_PULSE_EDGE (R44, R45, R601): an edge of the selected polarity is accepted without history, or within 98,304 ticks of a
whole number of seconds after the last accepted one; else it is counted and leaves everything else. While RESET_N is low or device
time does not run, nothing stamps an edge. -/
def execTimeInPulseEdge (stamp : BitVec 72) (falling : Bool) (s : State) : Out :=
  let t : Time := stamp.toNat
  .next (if falling ≠ s.time.polFalling ∨ s.resetN = false ∨ s.time.dspRuns = false then s
    else
      let s := s.ppsMiss s.nowT
      match s.time.ppsLast with
      | none => s.ppsAccept t
      | some l =>
        let iv := Int.ofNat t - Int.ofNat l
        let m := max 1 (nearSecs iv)
        if (iv - m * Int.ofNat secFrac).natAbs ≤ 98304 * 256 then s.ppsAccept t
        else { s with time.ppsRejected := satAdd s.time.ppsRejected 1 })

end Sys2Proof.Machine
end

