-- ==== Sys2Proof/Machine/Windows.lean ====
section
/-! DEFINITION. Pass windows and the TRIG_IN edges that feed them (02_timebase_and_pass_windows.md R55 to R63, 09_acquisition.md
R242, 19_commands.md R532, R533). -/

namespace Sys2Proof.Machine

/-- An EDGE value of WIN_DEFINE (R57, R533). -/
def winEdge? (v : BitVec 72) : Option WinEdge :=
  let n := v.toNat
  match fin? 4 (n % 256) with
  | none => none
  | some i =>
    let f := bitsOf n 15 8
    let off := bitsOf n 47 16
    if f ≤ 1 ∧ 64 ≤ off ∧ n < 2 ^ 48 then some (.edge i (decide (f = 1)) off) else none

/-- The open of a WIN_DEFINE. -/
def winOpenMode? (mode : BitVec 8) (v : BitVec 72) : Option WinEdge :=
  if mode = 0 then some (.time v.toNat) else if mode = 1 then winEdge? v else none

/-- The close of a WIN_DEFINE. A TIME close at or before a TIME open makes the window empty (R58). -/
def winCloseMode? (mode : BitVec 8) (v : BitVec 72) : Option WinEdge :=
  if mode = 0 then some (.time v.toNat)
  else if mode = 1 then (if 1 ≤ v.toNat ∧ v.toNat < 2 ^ 40 then some (.length v.toNat) else none)
  else if mode = 2 then winEdge? v else none

/-- The close that the values given set, before any edge (R59). -/
def givenClose (o c : WinEdge) (maxLen : Nat) : Option Time :=
  match c, o with
  | .time t, _ => some t
  | .length n, .time t => some (time72 (t + n * 256))
  | .edge .., .time t => some (time72 (t + maxLen * 256))
  | _, _ => none

/-- WIN_DEFINE (R55, R57 to R59, R439): a window whose close is at or before its open is empty at once; one whose open has passed opens at
the processing tick; its close stays where the values put it. -/
def execWinDefine (h : CmdHdr) (window openMode : BitVec 8) (openVal : BitVec 72) (closeMode : BitVec 8)
    (closeVal : BitVec 72) (tag : BitVec 32) (maxLen : BitVec 64) (s : State) : Out :=
  .next (serve h
    { opcode := 0x0220, role := some .operator,
      params := pb window ++ pb openMode ++ pb openVal ++ pb closeMode ++ pb closeVal ++ pb tag ++ pb maxLen }
    (fun s =>
      match fin? 64 window.toNat, winOpenMode? openMode openVal with
      | some w, some o =>
        match winCloseMode? closeMode closeVal with
        | none => refuse stBadParam s
        | some c =>
          let ml := if maxLen = 0 then 9830400000 else maxLen.toNat
          let close := givenClose o c ml
          let passed : Bool := match close with
            | some t => decide (t ≤ s.nowT)
            | none => false
          checks
            [(stBadState, decide ((s.time.windows.get w).state ≠ .free)), (stLate, passed)] s (fun _ =>
              let opened : Option Time := match o with
                | .time t => some (max t s.nowT)
                | _ => none
              let x : Window :=
                { state := .pending, openMode := o, closeMode := c, tag := tag, maxLen := ml, openT := opened,
                  closeT := match c with
                    | .edge .. => none
                    | _ => close
                  tagged := 0, timeout := false, empty := false, deleted := false, freeAt := 0 }
              let s := s.modWin w (fun _ => x)
              match opened with
              | none => doneR (le 9 0) s
              | some t =>
                let given := match o with
                  | .time v => v
                  | _ => t
                if close.any (fun e => decide (e ≤ given)) then doneR (le 9 given) (s.winEmpty w)
                else
                let s := s.calYieldWin w (t / 256)
                doneR (le 9 t) (if t ≤ s.nowT then
                    let s := s.winOpen w
                    s.modWin w (fun y => match c with
                      | .edge .. => { y with closeT := close }
                      | _ => y)
                  else s))
      | _, _ => refuse stBadParam s)
    s)

/-- WIN_MODIFY (R58, R59). -/
def execWinModify (h : CmdHdr) (window edge : BitVec 8) (time : BitVec 72) (s : State) : Out :=
  .next (serve h { opcode := 0x0221, role := some .operator, params := pb window ++ pb edge ++ pb time }
    (fun s => match fin? 64 window.toNat with
      | none => refuse stBadParam s
      | some w =>
        let x := s.time.windows.get w
        let t := time.toNat
        checks
          [(stBadParam, decide (1 < edge.toNat)),
           (stBadState, decide (x.state ≠ .pending ∧ (edge = 0 ∨ x.state ≠ .open))),
           (stLate, decide (t < s.nowT ∨ (edge = 1 ∧ t = s.nowT)))] s (fun _ =>
            if edge = 0 then
              let s := (s.modWin w (fun x => { x with openMode := .time t })).winSetOpen w t
              done (s.calYieldWin w (t / 256))
            else
              let s := s.modWin w (fun x => { x with closeMode := .time t, closeT := some t, timeout := false })
              done (match x.openT with
                | some o => if x.state = .pending ∧ t ≤ o then s.winEmpty w else s
                | none => s)))
    s)

/-- WIN_DELETE (R60): an OPEN window closes at the processing tick; a PENDING one, its close then before its open, is
empty. -/
def execWinDelete (h : CmdHdr) (window : BitVec 8) (s : State) : Out :=
  .next (serve h { opcode := 0x0222, role := some .operator, params := pb window }
    (fun s => match fin? 64 window.toNat with
      | none => refuse stBadParam s
      | some w => done (match (s.time.windows.get w).state with
        | .open => (s.modWin w (fun x => { x with timeout := false })).winClose w s.nowT true
        | .pending => (s.modWin w (fun x => { x with deleted := true })).winEmpty w
        | _ => s))
    s)

/-- State code of a window (R532). -/
def WinState.code : WinState → Nat
  | .free => 0
  | .pending => 1
  | .open => 2
  | .closing => 3

/-- WIN_QUERY (R532): an open or close that no edge has set yet reads 0. -/
def execWinQuery (h : CmdHdr) (window : BitVec 8) (s : State) : Out :=
  .next (serve h { opcode := 0x0223, role := some .operator, params := pb window }
    (fun s => match fin? 64 window.toNat with
      | none => refuse stBadParam s
      | some w =>
        let x := s.time.windows.get w
        let c := if x.timeout ∧ x.state = .open then 0 else x.closeT.getD 0
        doneR (le 1 x.state.code ++ le 9 (x.openT.getD 0) ++ le 9 c ++ pb x.tag ++ pb x.tagged) s)
    s)

/-- WIN_OPEN_TIME (R57, R58). -/
def execWinOpenTime (w : Fin 64) (s : State) : Out :=
  let x := s.time.windows.get w
  .next (match x.state, x.openT with
    | .pending, some o => if o ≤ s.nowT then s.winOpen w else s
    | _, _ => s)

/-- WIN_CLOSE_TIME (R58, R60): an open window closes at its close; one whose TIME close passes before its open edge is
empty. -/
def execWinCloseTime (w : Fin 64) (s : State) : Out :=
  let x := s.time.windows.get w
  .next (match x.state, x.closeT with
    | .open, some c => if c ≤ s.nowT then s.winClose w c false else s
    | .pending, some c => if x.openT.isNone ∧ c ≤ s.nowT then s.winEmpty w else s
    | _, _ => s)

/-- WIN_CLOSING_END (R60): the window is FREE and WIN_CLOSED reports it. -/
def execWinClosingEnd (w : Fin 64) (s : State) : Out :=
  let x := s.time.windows.get w
  .next (if x.state = .closing ∧ x.freeAt ≤ s.time.ticks then
      let s := s.modWin w (fun x => { x with state := .free })
      s.emitNow 0x0221 (0x0200 + w.val)
        (le 1 w.val ++ pb x.tag ++ pb x.tagged ++ le 1 (b2n x.timeout + 2 * b2n x.empty + 4 * b2n x.deleted))
    else s)

/-- An edge on a TRIG_IN input meets the windows (R57, R58). -/
def State.winEdgeAt (s : State) (w : Fin 64) (i : Fin 4) (falling : Bool) (stamp : Time) : State :=
  let x := s.time.windows.get w
  match x.state with
  | .pending =>
    (match x.openMode, x.openT with
     | .edge j f off, none =>
       if j = i ∧ f = falling then
         (match x.closeT with
          | some c => if c ≤ s.nowT then s.winEmpty w else s.winSetOpen w (time72 (stamp + off * 256))
          | none => s.winSetOpen w (time72 (stamp + off * 256)))
       else s
     | _, _ => s)
  | .open =>
    (match x.closeMode with
     | .edge j f off =>
       if j = i ∧ f = falling ∧ x.timeout ∧ x.openT.getD 0 ≤ stamp then
         s.modWin w (fun x => { x with closeT := some (time72 (stamp + off * 256)), timeout := false })
       else s
     | _ => s)
  | _ => s

/-- TRIG_IN_EDGE (R57, R241, R242): an edge closer than 16 ticks to the last accepted one is dropped and counted; an accepted one
feeds the windows and, where its polarity is selected, fires. -/
def execTrigInEdge (input : Fin 4) (stamp : BitVec 72) (falling : Bool) (s : State) : Out :=
  let x := s.aq.trigIn.get input
  let t : Time := stamp.toNat
  let close : Bool := match x.last with
    | some l => decide (t < l + 16 * 256)
    | none => false
  .next (if close then
      { s with aq.trigIn := vmod s.aq.trigIn input (fun x => { x with closeN := satAdd x.closeN 1 }) }
    else
      let s := { s with aq.trigIn := vmod s.aq.trigIn input (fun x => { x with last := some t }) }
      let s := (List.finRange 64).foldl (fun s w => s.winEdgeAt w input falling t) s
      if x.edges = 2 ∨ (x.edges = 1 ∧ falling) ∨ (x.edges = 0 ∧ !falling) then s.fire (1 + input.val) 0 t (s.windowSet t)
      else s)

end Sys2Proof.Machine
end

