-- ==== Sys2Proof/Machine/Dispatch.lean ====
section
/-! DEFINITION. The dispatch of the block: one arm for each row of spec/opcode_table.json. -/

namespace Sys2Proof.Machine

def exec (i : Instr) (s : State) : Host.Outcome State Fault Refusal :=
  match i with
  | .powerUpVddio => Sys2Proof.Machine.execPowerUpVddio s
  | .supplyRemoved rail => Sys2Proof.Machine.execSupplyRemoved rail s
  | .resetNAssert => Sys2Proof.Machine.execResetNAssert s
  | .resetNRelease bootmode refclk => Sys2Proof.Machine.execResetNRelease bootmode refclk s
  | .firmwareReady => Sys2Proof.Machine.execFirmwareReady s
  | .trialBootTimeout => Sys2Proof.Machine.execTrialBootTimeout s
  | .watchdogExpiry => Sys2Proof.Machine.execWatchdogExpiry s
  | .lockstepFault => Sys2Proof.Machine.execLockstepFault s
  | .spiFrame khz bytes bits => Sys2Proof.Machine.execSpiFrame khz bytes bits s
  | .registerWrite addr data => Sys2Proof.Machine.execRegisterWrite addr data s
  | .rcRegisterRead addr => Sys2Proof.Machine.execRcRegisterRead addr s
  | .latchingLoRead addr => Sys2Proof.Machine.execLatchingLoRead addr s
  | .mbDoorbell mb data => Sys2Proof.Machine.execMbDoorbell mb data s
  | .hpMbCfgWrite data => Sys2Proof.Machine.execHpMbCfgWrite data s
  | .hpEvtRdWrite data => Sys2Proof.Machine.execHpEvtRdWrite data s
  | .hpWakeCtlWrite data => Sys2Proof.Machine.execHpWakeCtlWrite data s
  | .hpPadReleaseWrite data => Sys2Proof.Machine.execHpPadReleaseWrite data s
  | .dmRingLenWrite ch data => Sys2Proof.Machine.execDmRingLenWrite ch data s
  | .dmRingPtrWrite ch data => Sys2Proof.Machine.execDmRingPtrWrite ch data s
  | .sysInfo h => Sys2Proof.Machine.execSysInfo h s
  | .fwStage h offset length ptr final => Sys2Proof.Machine.execFwStage h offset length ptr final s
  | .fwRestart h slot => Sys2Proof.Machine.execFwRestart h slot s
  | .fwSlotInfo h => Sys2Proof.Machine.execFwSlotInfo h s
  | .ckConvSet h tiles en delay trim1 trim2 trim3 trim4 => Sys2Proof.Machine.execCkConvSet h tiles en delay trim1 trim2 trim3 trim4 s
  | .ckSyncCfg h period limit => Sys2Proof.Machine.execCkSyncCfg h period limit s
  | .ckLockmonSel h sel => Sys2Proof.Machine.execCkLockmonSel h sel s
  | .ckFaultAck h plls => Sys2Proof.Machine.execCkFaultAck h plls s
  | .ckPllRelock h pll => Sys2Proof.Machine.execCkPllRelock h pll s
  | .ckStatus h => Sys2Proof.Machine.execCkStatus h s
  | .ckRefCfg h source => Sys2Proof.Machine.execCkRefCfg h source s
  | .refclkMissingDetect => Sys2Proof.Machine.execRefclkMissingDetect s
  | .refclkReturn => Sys2Proof.Machine.execRefclkReturn s
  | .pllLockLoss pll => Sys2Proof.Machine.execPllLockLoss pll s
  | .pllRelockRetry pll => Sys2Proof.Machine.execPllRelockRetry pll s
  | .pllLockAcquired pll => Sys2Proof.Machine.execPllLockAcquired pll s
  | .convDelaySlewStep t => Sys2Proof.Machine.execConvDelaySlewStep t s
  | .syncEdge frac lowBefore => Sys2Proof.Machine.execSyncEdge frac lowBefore s
  | .syncQualified highAfter comp => Sys2Proof.Machine.execSyncQualified highAfter comp s
  | .timeArmSync h value timeout => Sys2Proof.Machine.execTimeArmSync h value timeout s
  | .syncArmLapse => Sys2Proof.Machine.execSyncArmLapse s
  | .timeGet h => Sys2Proof.Machine.execTimeGet h s
  | .timeDiscipline h mode epoch polarity => Sys2Proof.Machine.execTimeDiscipline h mode epoch polarity s
  | .timeInPulseEdge stamp falling => Sys2Proof.Machine.execTimeInPulseEdge stamp falling s
  | .ppsMissing => Sys2Proof.Machine.execPpsMissing s
  | .actEnqueue h queue kind time tol window params => Sys2Proof.Machine.execActEnqueue h queue kind time tol window params s
  | .actCancel h handle => Sys2Proof.Machine.execActCancel h handle s
  | .actQuery h handle queue => Sys2Proof.Machine.execActQuery h handle queue s
  | .actionToleranceExpiry q => Sys2Proof.Machine.execActionToleranceExpiry q s
  | .actionHoldRelease q => Sys2Proof.Machine.execActionHoldRelease q s
  | .radioState t => Sys2Proof.Machine.execRadioState t s
  | .retune t => Sys2Proof.Machine.execRetune t s
  | .txBurst t => Sys2Proof.Machine.execTxBurst t s
  | .pickCtl t => Sys2Proof.Machine.execPickCtl t s
  | .femLevels t => Sys2Proof.Machine.execFemLevels t s
  | .calSlot t => Sys2Proof.Machine.execCalSlot t s
  | .bankSwap => Sys2Proof.Machine.execBankSwap s
  | .swapEffectiveSample => Sys2Proof.Machine.execSwapEffectiveSample s
  | .acqArm => Sys2Proof.Machine.execAcqArm s
  | .softTrigger => Sys2Proof.Machine.execSoftTrigger s
  | .trigOutEdge => Sys2Proof.Machine.execTrigOutEdge s
  | .laneState => Sys2Proof.Machine.execLaneState s
  | .analyserCfg => Sys2Proof.Machine.execAnalyserCfg s
  | .winDefine h window openMode openVal closeMode closeVal tag maxLen => Sys2Proof.Machine.execWinDefine h window openMode openVal closeMode closeVal tag maxLen s
  | .winModify h window edge time => Sys2Proof.Machine.execWinModify h window edge time s
  | .winDelete h window => Sys2Proof.Machine.execWinDelete h window s
  | .winQuery h window => Sys2Proof.Machine.execWinQuery h window s
  | .winOpenTime w => Sys2Proof.Machine.execWinOpenTime w s
  | .winCloseTime w => Sys2Proof.Machine.execWinCloseTime w s
  | .winClosingEnd w => Sys2Proof.Machine.execWinClosingEnd w s
  | .trigInEdge input stamp falling => Sys2Proof.Machine.execTrigInEdge input stamp falling s
  | .pathSet h paths atten gain port => Sys2Proof.Machine.execPathSet h paths atten gain port s
  | .pathGet h path => Sys2Proof.Machine.execPathGet h path s
  | .femPatternSet h tiles pats od lead lag sel0 sel1 sel2 => Sys2Proof.Machine.execFemPatternSet h tiles pats od lead lag sel0 sel1 sel2 s
  | .rffeXfer h tile count ops => Sys2Proof.Machine.execRffeXfer h tile count ops s
  | .rffeOperationDone t parity data => Sys2Proof.Machine.execRffeOperationDone t parity data s
  | .rffeRetuneSeq h tile count divWr divRd ops => Sys2Proof.Machine.execRffeRetuneSeq h tile count divWr divRd ops s
  | .rffeSeqOverrun t => Sys2Proof.Machine.execRffeSeqOverrun t s
  | .preambleCfg h det beam ptr half thr evt => Sys2Proof.Machine.execPreambleCfg h det beam ptr half thr evt s
  | .pickGroupCfg h group tiles home bias hold enable => Sys2Proof.Machine.execPickGroupCfg h group tiles home bias hold enable s
  | .orxCouplingSet h path coupling delay atten settle => Sys2Proof.Machine.execOrxCouplingSet h path coupling delay atten settle s
  | .rxSample p code q => Sys2Proof.Machine.execRxSample p code q s
  | .preambleDetection t => Sys2Proof.Machine.execPreambleDetection t s
  | .pickSwitch g => Sys2Proof.Machine.execPickSwitch g s
  | .pickDecision g => Sys2Proof.Machine.execPickDecision g s
  | .pickReturnHome g => Sys2Proof.Machine.execPickReturnHome g s
  | .pickHoldEnd g => Sys2Proof.Machine.execPickHoldEnd g s
  | .orxCaptureStart t => Sys2Proof.Machine.execOrxCaptureStart t s
  | .orxCaptureEnd t words => Sys2Proof.Machine.execOrxCaptureEnd t words s
  | .transitionComplete t => Sys2Proof.Machine.execTransitionComplete t s
  | .burstLengthEnd t => Sys2Proof.Machine.execBurstLengthEnd t s
  | .txLeadStart t => Sys2Proof.Machine.execTxLeadStart t s
  | .txLagEnd t => Sys2Proof.Machine.execTxLagEnd t s
  | .glideStepConfirm t => Sys2Proof.Machine.execGlideStepConfirm t s
  | .glideStepOverbudget t => Sys2Proof.Machine.execGlideStepOverbudget t s
  | .glideStepTimeout t => Sys2Proof.Machine.execGlideStepTimeout t s
  | .largeRetuneComplete t => Sys2Proof.Machine.execLargeRetuneComplete t s
  | .tileHomeSet h tiles home => Sys2Proof.Machine.execTileHomeSet h tiles home s
  | .tileStateGet h tile => Sys2Proof.Machine.execTileStateGet h tile s
  | .tileBandSet h tiles band => Sys2Proof.Machine.execTileBandSet h tiles band s
  | .chanFrontSet h dirs rx tx => Sys2Proof.Machine.execChanFrontSet h dirs rx tx s
  | .chanInfo h dir front narrow rate => Sys2Proof.Machine.execChanInfo h dir front narrow rate s
  | .hkFilterSet h cls preset => Sys2Proof.Machine.execHkFilterSet h cls preset s
  | .beamCfg h dir beam enable rate preset format flow freq shift => Sys2Proof.Machine.execBeamCfg h dir beam enable rate preset format flow freq shift s
  | .beamWeights h dir beam port first count ptr => Sys2Proof.Machine.execBeamWeights h dir beam port first count ptr s
  | .beamDelays h dir first count form delays ptr => Sys2Proof.Machine.execBeamDelays h dir first count form delays ptr s
  | .elemCfg h dir mode rate preset format flows txShift => Sys2Proof.Machine.execElemCfg h dir mode rate preset format flows txShift s
  | .beamBankCopy h dirs => Sys2Proof.Machine.execBeamBankCopy h dirs s
  | .beamQuery h dir bank beam => Sys2Proof.Machine.execBeamQuery h dir bank beam s
  | .beamTxGridSample b => Sys2Proof.Machine.execBeamTxGridSample b s
  | .pdChainSet h inserted => Sys2Proof.Machine.execPdChainSet h inserted s
  | .pdPathSet h paths pdEn cfrEn adaptEn evtSwap => Sys2Proof.Machine.execPdPathSet h paths pdEn cfrEn adaptEn evtSwap s
  | .pdNeighbourSet h path q1 q2 => Sys2Proof.Machine.execPdNeighbourSet h path q1 q2 s
  | .pdGateSet h tiles gate cfMin cfMax margin capSkip freeze clear lambda => Sys2Proof.Machine.execPdGateSet h tiles gate cfMin cfMax margin capSkip freeze clear lambda s
  | .pdLimitSet h tiles gain phase nmse peak rejectMax => Sys2Proof.Machine.execPdLimitSet h tiles gain phase nmse peak rejectMax s
  | .pdCfrSet h tiles thr ptr => Sys2Proof.Machine.execPdCfrSet h tiles thr ptr s
  | .pdCoefLoad h path ptr => Sys2Proof.Machine.execPdCoefLoad h path ptr s
  | .pdCoefRead h path set ptr => Sys2Proof.Machine.execPdCoefRead h path set ptr s
  | .pdStatus h path => Sys2Proof.Machine.execPdStatus h path s
  | .estimationDone t dGain dPhase nmse peak words => Sys2Proof.Machine.execEstimationDone t dGain dPhase nmse peak words s
  | .freezeTimeExpiry p => Sys2Proof.Machine.execFreezeTimeExpiry p s
  | .statsClearExpiry p => Sys2Proof.Machine.execStatsClearExpiry p s
  | .anLaneCfg h lanes mode path port z window overlap units => Sys2Proof.Machine.execAnLaneCfg h lanes mode path port z window overlap units s
  | .anStitchCfg h tiles f0 z => Sys2Proof.Machine.execAnStitchCfg h tiles f0 z s
  | .anOutputCfg h source output first count period k avgMode inclBlanked maskOvl flow segment => Sys2Proof.Machine.execAnOutputCfg h source output first count period k avgMode inclBlanked maskOvl flow segment s
  | .anMaskLoad h source mask polarity enterD leaveD evt count ptr => Sys2Proof.Machine.execAnMaskLoad h source mask polarity enterD leaveD evt count ptr s
  | .anDensityCfg h lane b0 c top step flow => Sys2Proof.Machine.execAnDensityCfg h lane b0 c top step flow s
  | .anDensitySwap h lanes => Sys2Proof.Machine.execAnDensitySwap h lanes s
  | .anApply h lanes => Sys2Proof.Machine.execAnApply h lanes s
  | .anRefSet h lanes offset => Sys2Proof.Machine.execAnRefSet h lanes offset s
  | .anStatus h lane => Sys2Proof.Machine.execAnStatus h lane s
  | .spectralFrameEnd src => Sys2Proof.Machine.execSpectralFrameEnd src s
  | .traceBlockEnd src out => Sys2Proof.Machine.execTraceBlockEnd src out s
  | .densitySwapEffect src => Sys2Proof.Machine.execDensitySwapEffect src s
  | .densityReadoutDone src => Sys2Proof.Machine.execDensityReadoutDone src s
  | .levelCrossing lv => Sys2Proof.Machine.execLevelCrossing lv s
  | .triggerFiringArrival u => Sys2Proof.Machine.execTriggerFiringArrival u s
  | .tuPairDecision u => Sys2Proof.Machine.execTuPairDecision u s
  | .trigOutPulseEnd pin => Sys2Proof.Machine.execTrigOutPulseEnd pin s
  | .recordEnd c => Sys2Proof.Machine.execRecordEnd c s
  | .recordRearm c => Sys2Proof.Machine.execRecordRearm c s
  | .aqSegmentDefine h segment base length slots => Sys2Proof.Machine.execAqSegmentDefine h segment base length slots s
  | .aqSegmentFree h segment => Sys2Proof.Machine.execAqSegmentFree h segment s
  | .aqChanCfg h channel op kind index segment unit pre post format mode reductions bt flow => Sys2Proof.Machine.execAqChanCfg h channel op kind index segment unit pre post format mode reductions bt flow s
  | .aqTrigCfg h unit aCode aIdx bCode bIdx op limit holdoff evt => Sys2Proof.Machine.execAqTrigCfg h unit aCode aIdx bCode bIdx op limit holdoff evt s
  | .aqLevelCfg h det kind index w thr hys dir dwell => Sys2Proof.Machine.execAqLevelCfg h det kind index w thr hys dir dwell s
  | .aqTriginCfg h input edges => Sys2Proof.Machine.execAqTriginCfg h input edges s
  | .aqTrigoutCfg h pin owner kind index polarity width => Sys2Proof.Machine.execAqTrigoutCfg h pin owner kind index polarity width s
  | .aqArm h chans window => Sys2Proof.Machine.execAqArm h chans window s
  | .aqDisarm h chans => Sys2Proof.Machine.execAqDisarm h chans s
  | .aqSoftTrig h units => Sys2Proof.Machine.execAqSoftTrig h units s
  | .aqRetainSet h units => Sys2Proof.Machine.execAqRetainSet h units s
  | .aqBudgetGet h => Sys2Proof.Machine.execAqBudgetGet h s
  | .aqStatus h channel => Sys2Proof.Machine.execAqStatus h channel s
  | .nop t moveSlot => Sys2Proof.Machine.execNop t moveSlot s
  | .cmac t a x y f => Sys2Proof.Machine.execCmac t a x y f s
  | .cmac4 t h q c f => Sys2Proof.Machine.execCmac4 t h q c f s
  | .ftap t h q c n f => Sys2Proof.Machine.execFtap t h q c n f s
  | .rmac2 t a x y neg z => Sys2Proof.Machine.execRmac2 t a x y neg z s
  | .cpwr t a x z => Sys2Proof.Machine.execCpwr t a x z s
  | .cmpy t d x y cj => Sys2Proof.Machine.execCmpy t d x y cj s
  | .cadd t d x y => Sys2Proof.Machine.execCadd t d x y s
  | .csub t d x y => Sys2Proof.Machine.execCsub t d x y s
  | .conj t d x neg => Sys2Proof.Machine.execConj t d x neg s
  | .shra t d x k => Sys2Proof.Machine.execShra t d x k s
  | .and t d x y => Sys2Proof.Machine.execAnd t d x y s
  | .or t d x y => Sys2Proof.Machine.execOr t d x y s
  | .xor t d x y => Sys2Proof.Machine.execXor t d x y s
  | .iadd t d x y => Sys2Proof.Machine.execIadd t d x y s
  | .isub t d x y => Sys2Proof.Machine.execIsub t d x y s
  | .icmp t x y => Sys2Proof.Machine.execIcmp t x y s
  | .mvad t d a => Sys2Proof.Machine.execMvad t d a s
  | .mvda t a d sh => Sys2Proof.Machine.execMvda t a d sh s
  | .accadd t a b neg => Sys2Proof.Machine.execAccadd t a b neg s
  | .accclr t mask => Sys2Proof.Machine.execAccclr t mask s
  | .bfpend t => Sys2Proof.Machine.execBfpend t s
  | .ldx t d am => Sys2Proof.Machine.execLdx t d am s
  | .ldy t d am => Sys2Proof.Machine.execLdy t d am s
  | .ldxy t a b px mx ux py my uy => Sys2Proof.Machine.execLdxy t a b px mx ux py my uy s
  | .stx t src am => Sys2Proof.Machine.execStx t src am s
  | .sty t src am => Sys2Proof.Machine.execSty t src am s
  | .li t code imm => Sys2Proof.Machine.execLi t code imm s
  | .lih t d imm => Sys2Proof.Machine.execLih t d imm s
  | .mv t dst src => Sys2Proof.Machine.execMv t dst src s
  | .padd t p form m imm => Sys2Proof.Machine.execPadd t p form m imm s
  | .iorTioDbell t d => Sys2Proof.Machine.execIorTioDbell t d s
  | .iorTioTime t d addr => Sys2Proof.Machine.execIorTioTime t d addr s
  | .iorTioFill t d k => Sys2Proof.Machine.execIorTioFill t d k s
  | .iowTioFill t src k => Sys2Proof.Machine.execIowTioFill t src k s
  | .iowTioTimer t src addr => Sys2Proof.Machine.execIowTioTimer t src addr s
  | .iowTioCap t src => Sys2Proof.Machine.execIowTioCap t src s
  | .ien t e => Sys2Proof.Machine.execIen t e s
  | .br t cond target => Sys2Proof.Machine.execBr t cond target s
  | .call t d target => Sys2Proof.Machine.execCall t d target s
  | .ret t src => Sys2Proof.Machine.execRet t src s
  | .reti t => Sys2Proof.Machine.execReti t s
  | .loop t lv form start stop count => Sys2Proof.Machine.execLoop t lv form start stop count s
  | .loopReturn t => Sys2Proof.Machine.execLoopReturn t s
  | .mvlp t lv restore inY p => Sys2Proof.Machine.execMvlp t lv restore inY p s
  | .sync t => Sys2Proof.Machine.execSync t s
  | .syncBufferDrained t => Sys2Proof.Machine.execSyncBufferDrained t s
  | .idle t => Sys2Proof.Machine.execIdle t s
  | .evt t src code => Sys2Proof.Machine.execEvt t src code s
  | .tdspInterruptEntry t => Sys2Proof.Machine.execTdspInterruptEntry t s
  | .tioTimerExpiry t => Sys2Proof.Machine.execTioTimerExpiry t s
  | .tdspLoad h tile addr start => Sys2Proof.Machine.execTdspLoad h tile addr start s
  | .tdspLoadComplete t => Sys2Proof.Machine.execTdspLoadComplete t s
  | .tdspStart h tile entry => Sys2Proof.Machine.execTdspStart h tile entry s
  | .tdspStop h tile => Sys2Proof.Machine.execTdspStop h tile s
  | .tdspDoorbell h tile value => Sys2Proof.Machine.execTdspDoorbell h tile value s
  | .tdspStatus h tile => Sys2Proof.Machine.execTdspStatus h tile s
  | .tdspUnload h tile => Sys2Proof.Machine.execTdspUnload h tile s
  | .lkCfg h rate minLanes auto manual timeout swing => Sys2Proof.Machine.execLkCfg h rate minLanes auto manual timeout swing s
  | .lkStart h lanes => Sys2Proof.Machine.execLkStart h lanes s
  | .lkStartTimeout => Sys2Proof.Machine.execLkStartTimeout s
  | .lkBitslip h lane count => Sys2Proof.Machine.execLkBitslip h lane count s
  | .lkStateSet h lanes state => Sys2Proof.Machine.execLkStateSet h lanes state s
  | .lkLoop h lanes loop => Sys2Proof.Machine.execLkLoop h lanes loop s
  | .lkPrbs h lanes gen chk => Sys2Proof.Machine.execLkPrbs h lanes gen chk s
  | .lkInject h lanes burst rep => Sys2Proof.Machine.execLkInject h lanes burst rep s
  | .lkBerGet h lane => Sys2Proof.Machine.execLkBerGet h lane s
  | .lkStatus h lane => Sys2Proof.Machine.execLkStatus h lane s
  | .lkPresetSet h lanes p1 p2 p3 p4 => Sys2Proof.Machine.execLkPresetSet h lanes p1 p2 p3 p4 s
  | .laneExitComplete l => Sys2Proof.Machine.execLaneExitComplete l s
  | .cdrLockAcquired l => Sys2Proof.Machine.execCdrLockAcquired l s
  | .cdrLockTimeout l => Sys2Proof.Machine.execCdrLockTimeout l s
  | .laneBlockReceived l hdr => Sys2Proof.Machine.execLaneBlockReceived l hdr s
  | .autoSlip l => Sys2Proof.Machine.execAutoSlip l s
  | .laneLockLossTimeout l => Sys2Proof.Machine.execLaneLockLossTimeout l s
  | .eqDensityWindowEnd l transitions => Sys2Proof.Machine.execEqDensityWindowEnd l transitions s
  | .markerReceived l payload skew complemented => Sys2Proof.Machine.execMarkerReceived l payload skew complemented s
  | .markerSent => Sys2Proof.Machine.execMarkerSent s
  | .idleRowSend => Sys2Proof.Machine.execIdleRowSend s
  | .txIqPacket pkt => Sys2Proof.Machine.execTxIqPacket pkt s
  | .ctrlCmdPacket pkt => Sys2Proof.Machine.execCtrlCmdPacket pkt s
  | .memRdDataPacket pkt => Sys2Proof.Machine.execMemRdDataPacket pkt s
  | .ackPacket pkt => Sys2Proof.Machine.execAckPacket pkt s
  | .ackSend => Sys2Proof.Machine.execAckSend s
  | .replayTimeout => Sys2Proof.Machine.execReplayTimeout s
  | .reliableHoldExpiry => Sys2Proof.Machine.execReliableHoldExpiry s
  | .creditReport f => Sys2Proof.Machine.execCreditReport f s
  | .memReadTimeout tag => Sys2Proof.Machine.execMemReadTimeout tag s
  | .streamPacketSend f => Sys2Proof.Machine.execStreamPacketSend f s
  | .eventPacketSend => Sys2Proof.Machine.execEventPacketSend s
  | .lkFlowCfg h dir flow prio lenMax => Sys2Proof.Machine.execLkFlowCfg h dir flow prio lenMax s
  | .lkAniqCfg h lane flow format => Sys2Proof.Machine.execLkAniqCfg h lane flow format s
  | .lkFlowQuery h dir flow => Sys2Proof.Machine.execLkFlowQuery h dir flow s
  | .lkBudgetGet h dir => Sys2Proof.Machine.execLkBudgetGet h dir s
  | .lkRelCfg h replayT holdMs memTo route => Sys2Proof.Machine.execLkRelCfg h replayT holdMs memTo route s
  | .dmChanCfg h channel op mode base len burst uses rate paceTile paceQ high low bound evt => Sys2Proof.Machine.execDmChanCfg h channel op mode base len burst uses rate paceTile paceQ high low bound evt s
  | .dmStart h chans addr => Sys2Proof.Machine.execDmStart h chans addr s
  | .dmTail h channel tail => Sys2Proof.Machine.execDmTail h channel tail s
  | .chStop h chans => Sys2Proof.Machine.execChStop h chans s
  | .chKill h chans => Sys2Proof.Machine.execChKill h chans s
  | .dmStatus h channel => Sys2Proof.Machine.execDmStatus h channel s
  | .cuCfg h unit crc => Sys2Proof.Machine.execCuCfg h unit crc s
  | .cuStatus h unit => Sys2Proof.Machine.execCuStatus h unit s
  | .descriptorFetch c => Sys2Proof.Machine.execDescriptorFetch c s
  | .dmaBurstStart c => Sys2Proof.Machine.execDmaBurstStart c s
  | .dmaBurstEnd c => Sys2Proof.Machine.execDmaBurstEnd c s
  | .descriptorComplete c => Sys2Proof.Machine.execDescriptorComplete c s
  | .calRun h kinds tiles deadline count fcs => Sys2Proof.Machine.execCalRun h kinds tiles deadline count fcs s
  | .calAbort h kinds tiles => Sys2Proof.Machine.execCalAbort h kinds tiles s
  | .calGapCfg h windows limit => Sys2Proof.Machine.execCalGapCfg h windows limit s
  | .calRefCfg h path level => Sys2Proof.Machine.execCalRefCfg h path level s
  | .calStore h => Sys2Proof.Machine.execCalStore h s
  | .calHoldupCfg h cap vmin divider ePage eErase => Sys2Proof.Machine.execCalHoldupCfg h cap vmin divider ePage eErase s
  | .calFlashCfg h offA offB rmin rmax ren => Sys2Proof.Machine.execCalFlashCfg h offA offB rmin rmax ren s
  | .calStatus h tile => Sys2Proof.Machine.execCalStatus h tile s
  | .calSetRead h kind object point ptr => Sys2Proof.Machine.execCalSetRead h kind object point ptr s
  | .calPlacementCheck t => Sys2Proof.Machine.execCalPlacementCheck t s
  | .calClaimStart t => Sys2Proof.Machine.execCalClaimStart t s
  | .calClaimEnd t => Sys2Proof.Machine.execCalClaimEnd t s
  | .calibrationComplete t kind failing tm results => Sys2Proof.Machine.execCalibrationComplete t kind failing tm results s
  | .flashProgramDone => Sys2Proof.Machine.execFlashProgramDone s
  | .flashEraseDone => Sys2Proof.Machine.execFlashEraseDone s
  | .thermalEvaluation r est powers => Sys2Proof.Machine.execThermalEvaluation r est powers s
  | .thermalHaltEntry => Sys2Proof.Machine.execThermalHaltEntry s
  | .slowRound diodes volts counts devs vhold => Sys2Proof.Machine.execSlowRound diodes volts counts devs vhold s
  | .throttleStep => Sys2Proof.Machine.execThrottleStep s
  | .throttleRevert => Sys2Proof.Machine.execThrottleRevert s
  | .hkModelCfg h rha ch ta => Sys2Proof.Machine.execHkModelCfg h rha ch ta s
  | .hkThrottleCfg h steps interval duty => Sys2Proof.Machine.execHkThrottleCfg h steps interval duty s
  | .hkBandCfg h enable => Sys2Proof.Machine.execHkBandCfg h enable s
  | .hkResume h => Sys2Proof.Machine.execHkResume h s
  | .hkStatus h => Sys2Proof.Machine.execHkStatus h s
  | .hkRead h cls => Sys2Proof.Machine.execHkRead h cls s
  | .pwStateSet h target lane => Sys2Proof.Machine.execPwStateSet h target lane s
  | .blockEntryAnswer block ok => Sys2Proof.Machine.execBlockEntryAnswer block ok s
  | .blockAnswerTimeout => Sys2Proof.Machine.execBlockAnswerTimeout s
  | .entryPhase2Proceed => Sys2Proof.Machine.execEntryPhase2Proceed s
  | .pwPark h tiles => Sys2Proof.Machine.execPwPark h tiles s
  | .tileUnparkComplete t => Sys2Proof.Machine.execTileUnparkComplete t s
  | .pwRetainCfg h banks => Sys2Proof.Machine.execPwRetainCfg h banks s
  | .pwWakeCfg h pinEn timerEn timer => Sys2Proof.Machine.execPwWakeCfg h pinEn timerEn timer s
  | .pwStatus h => Sys2Proof.Machine.execPwStatus h s
  | .wakePinEdge heldTwo => Sys2Proof.Machine.execWakePinEdge heldTwo s
  | .sleepTimerExpiry => Sys2Proof.Machine.execSleepTimerExpiry s
  | .wakeStepReady => Sys2Proof.Machine.execWakeStepReady s
  | .wakeStepTimeout => Sys2Proof.Machine.execWakeStepTimeout s
  | .regRead h addr count => Sys2Proof.Machine.execRegRead h addr count s
  | .regWrite h addr count words => Sys2Proof.Machine.execRegWrite h addr count words s
  | .regReadBlock h addr bytes ptr => Sys2Proof.Machine.execRegReadBlock h addr bytes ptr s
  | .regWriteBlock h addr bytes ptr => Sys2Proof.Machine.execRegWriteBlock h addr bytes ptr s
  | .calbusDiag h path mode offset level sinks orx duration => Sys2Proof.Machine.execCalbusDiag h path mode offset level sinks orx duration s
  | .calbusDiagEnd => Sys2Proof.Machine.execCalbusDiagEnd s
  | .sessionOpen h role => Sys2Proof.Machine.execSessionOpen h role s
  | .sessionAuth h handle mac => Sys2Proof.Machine.execSessionAuth h handle mac s
  | .sessionClose h handle => Sys2Proof.Machine.execSessionClose h handle s
  | .sessionAuthTimeout src => Sys2Proof.Machine.execSessionAuthTimeout src s
  | .sessionLifetimeExpiry src => Sys2Proof.Machine.execSessionLifetimeExpiry src s
  | .lockoutExpiry r => Sys2Proof.Machine.execLockoutExpiry r s
  | .keySet h role ptr => Sys2Proof.Machine.execKeySet h role ptr s
  | .journalRead h first count ptr => Sys2Proof.Machine.execJournalRead h first count ptr s
  | .journalErase h confirm => Sys2Proof.Machine.execJournalErase h confirm s
  | .otpKeyWrite h index ptr => Sys2Proof.Machine.execOtpKeyWrite h index ptr s
  | .otpKeyRevoke h index => Sys2Proof.Machine.execOtpKeyRevoke h index s
  | .otpFloorSet h version => Sys2Proof.Machine.execOtpFloorSet h version s
  | .otpTrimWrite h group length ptr => Sys2Proof.Machine.execOtpTrimWrite h group length ptr s
  | .journalEntryWrite mb => Sys2Proof.Machine.execJournalEntryWrite mb s
  | .journalBufferDrain => Sys2Proof.Machine.execJournalBufferDrain s
  | .jtagTrst low => Sys2Proof.Machine.execJtagTrst low s
  | .extest cells => Sys2Proof.Machine.execExtest cells s
  | .samplePreload cells => Sys2Proof.Machine.execSamplePreload cells s
  | .idcode => Sys2Proof.Machine.execIdcode s
  | .extestPulse cells => Sys2Proof.Machine.execExtestPulse cells s
  | .extestTrain cells => Sys2Proof.Machine.execExtestTrain cells s
  | .highz => Sys2Proof.Machine.execHighz s
  | .clamp => Sys2Proof.Machine.execClamp s
  | .bypass code => Sys2Proof.Machine.execBypass code s
  | .prbsCheckerBits l bits => Sys2Proof.Machine.execPrbsCheckerBits l bits s
  | .injectRepeat l => Sys2Proof.Machine.execInjectRepeat l s
  | .dozeWakeComplete => Sys2Proof.Machine.execDozeWakeComplete s

end Sys2Proof.Machine
end

