-- ==== Sys2Proof/Machine/Tick.lean ====
section
/-! DEFINITION. What a step does when no command waits: device time goes on (02_timebase_and_pass_windows.md R36, R40). -/

namespace Sys2Proof.Machine

/-- Device time advances by a tick, below 2^64 (R36, R38): as it wraps, the instants that count a duration wrap with it, and the grids go on
from a V below it (log 1). -/
def State.advance (s : State) : State :=
  let t := s.time.ticks + 1
  if t < 2 ^ 64 then { s with time.ticks := t }
  else State.rephase { s.shiftTime (-(2 ^ 64)) with time.ticks := t - 2 ^ 64 } (s.clk.loadedV % 8192)

/-- One tick of the DSP domain: the sample chains of that tick (log 49), then the next tick. -/
def State.tick (s : State) : State := s.rxTick.txTick.advance

/-- Ticks in a row. -/
def State.run : Nat → State → State
  | 0, s => s
  | n + 1, s => State.run n s.tick

/-- One idle step (log 1): device time advances by a tick, by 8 on the safe clock (R40); in RETAIN, where the DSP domain is off, a
cycle of the AO oscillator passes (R494); in OFF, with RESET_N low or the domain not started, nothing changes. -/
def idleTick (s : State) : State :=
  if s.resetN = false ∨ s.pw.vddio = false ∨ s.pw.dev = .off then s
  else if s.pw.dev = .retain then { s with pw.slept := s.pw.slept + 1 }
  else if s.time.dspRuns then State.run (if s.clk.dspSafe then 8 else 1) s
  else s

end Sys2Proof.Machine
end

