-- ==== Sys2Proof/WellFormed.lean ====
section
/-! DEFINITION. Which terms of Instr are commands: lists have the lengths that the command's layout or the hardware gives them, and a
BYPASS code is one of those R582 leaves to BYPASS. -/

namespace Sys2Proof

/-- A list has n entries. -/
def lengthIs {α : Type} (n : Nat) (xs : List α) : Bool := decide (xs.length = n)

/-- RFFE operations carry 16 data bytes each (R533). -/
def opsOk (ops : List RffeOp) : Bool := ops.all (fun o => lengthIs 16 o.data)

/-- A packet's payload is at most 8,192 bytes (R344). -/
def pktOk (p : RxPkt) : Bool := decide (p.payload.length ≤ 8192)

/-- Well-formed commands. -/
def Instr.wf : Instr → Bool
  | .powerUpVddio => true
  | .supplyRemoved _ => true
  | .resetNAssert => true
  | .resetNRelease _ _ => true
  | .firmwareReady => true
  | .trialBootTimeout => true
  | .watchdogExpiry => true
  | .lockstepFault => true
  | .spiFrame _ _ _ => true
  | .registerWrite _ _ => true
  | .rcRegisterRead _ => true
  | .latchingLoRead _ => true
  | .mbDoorbell _ _ => true
  | .hpMbCfgWrite _ => true
  | .hpEvtRdWrite _ => true
  | .hpWakeCtlWrite _ => true
  | .hpPadReleaseWrite _ => true
  | .dmRingLenWrite _ _ => true
  | .dmRingPtrWrite _ _ => true
  | .sysInfo _ => true
  | .fwStage _ _ _ _ _ => true
  | .fwRestart _ _ => true
  | .fwSlotInfo _ => true
  | .ckConvSet _ _ _ _ _ _ _ _ => true
  | .ckSyncCfg _ _ _ => true
  | .ckLockmonSel _ _ => true
  | .ckFaultAck _ _ => true
  | .ckPllRelock _ _ => true
  | .ckStatus _ => true
  | .ckRefCfg _ _ => true
  | .refclkMissingDetect => true
  | .refclkReturn => true
  | .pllLockLoss _ => true
  | .pllRelockRetry _ => true
  | .pllLockAcquired _ => true
  | .convDelaySlewStep _ => true
  | .syncEdge _ _ => true
  | .syncQualified _ _ => true
  | .timeArmSync _ _ _ => true
  | .syncArmLapse => true
  | .timeGet _ => true
  | .timeDiscipline _ _ _ _ => true
  | .timeInPulseEdge _ _ => true
  | .ppsMissing => true
  | .actEnqueue _ _ _ _ _ _ params => decide (params.length ≤ 64)
  | .actCancel _ _ => true
  | .actQuery _ _ _ => true
  | .actionToleranceExpiry _ => true
  | .actionHoldRelease _ => true
  | .radioState _ => true
  | .retune _ => true
  | .txBurst _ => true
  | .pickCtl _ => true
  | .femLevels _ => true
  | .calSlot _ => true
  | .bankSwap => true
  | .swapEffectiveSample => true
  | .acqArm => true
  | .softTrigger => true
  | .trigOutEdge => true
  | .laneState => true
  | .analyserCfg => true
  | .winDefine _ _ _ _ _ _ _ _ => true
  | .winModify _ _ _ _ => true
  | .winDelete _ _ => true
  | .winQuery _ _ => true
  | .winOpenTime _ => true
  | .winCloseTime _ => true
  | .winClosingEnd _ => true
  | .trigInEdge _ _ _ => true
  | .pathSet _ _ _ _ _ => true
  | .pathGet _ _ => true
  | .femPatternSet _ _ pats _ _ _ _ _ _ => lengthIs 10 pats
  | .rffeXfer _ _ _ ops => opsOk ops
  | .rffeOperationDone _ _ data => decide (data.length ≤ 16)
  | .rffeRetuneSeq _ _ _ _ _ ops => opsOk ops
  | .rffeSeqOverrun _ => true
  | .preambleCfg _ _ _ _ _ _ _ => true
  | .pickGroupCfg _ _ _ _ _ _ _ => true
  | .orxCouplingSet _ _ _ _ _ _ => true
  | .rxSample _ _ _ => true
  | .preambleDetection _ => true
  | .pickSwitch _ => true
  | .pickDecision _ => true
  | .pickReturnHome _ => true
  | .pickHoldEnd _ => true
  | .orxCaptureStart _ => true
  | .orxCaptureEnd _ words => decide (words.length ≤ 65536)
  | .transitionComplete _ => true
  | .burstLengthEnd _ => true
  | .txLeadStart _ => true
  | .txLagEnd _ => true
  | .glideStepConfirm _ => true
  | .glideStepOverbudget _ => true
  | .glideStepTimeout _ => true
  | .largeRetuneComplete _ => true
  | .tileHomeSet _ _ _ => true
  | .tileStateGet _ _ => true
  | .tileBandSet _ _ _ => true
  | .chanFrontSet _ _ _ _ => true
  | .chanInfo _ _ _ _ _ => true
  | .hkFilterSet _ _ _ => true
  | .beamCfg _ _ _ _ _ _ _ _ _ _ => true
  | .beamWeights _ _ _ _ _ _ _ => true
  | .beamDelays _ _ _ _ _ delays _ => decide (delays.length ≤ 64)
  | .elemCfg _ _ _ _ _ _ flows _ => lengthIs 8 flows
  | .beamBankCopy _ _ => true
  | .beamQuery _ _ _ _ => true
  | .beamTxGridSample _ => true
  | .pdChainSet _ _ => true
  | .pdPathSet _ _ _ _ _ _ => true
  | .pdNeighbourSet _ _ _ _ => true
  | .pdGateSet _ _ _ _ _ _ _ _ _ _ => true
  | .pdLimitSet _ _ _ _ _ _ _ => true
  | .pdCfrSet _ _ _ _ => true
  | .pdCoefLoad _ _ _ => true
  | .pdCoefRead _ _ _ _ => true
  | .pdStatus _ _ => true
  | .estimationDone _ _ _ _ _ words => decide (words.length ≤ 128)
  | .freezeTimeExpiry _ => true
  | .statsClearExpiry _ => true
  | .anLaneCfg _ _ _ _ _ _ _ _ _ => true
  | .anStitchCfg _ _ _ _ => true
  | .anOutputCfg _ _ _ _ _ _ _ _ _ _ _ _ => true
  | .anMaskLoad _ _ _ _ _ _ _ _ _ => true
  | .anDensityCfg _ _ _ _ _ _ _ => true
  | .anDensitySwap _ _ => true
  | .anApply _ _ => true
  | .anRefSet _ _ _ => true
  | .anStatus _ _ => true
  | .spectralFrameEnd _ => true
  | .traceBlockEnd _ _ => true
  | .densitySwapEffect _ => true
  | .densityReadoutDone _ => true
  | .levelCrossing _ => true
  | .triggerFiringArrival _ => true
  | .tuPairDecision _ => true
  | .trigOutPulseEnd _ => true
  | .recordEnd _ => true
  | .recordRearm _ => true
  | .aqSegmentDefine _ _ _ _ _ => true
  | .aqSegmentFree _ _ => true
  | .aqChanCfg _ _ _ _ _ _ _ _ _ _ _ _ _ _ => true
  | .aqTrigCfg _ _ _ _ _ _ _ _ _ _ => true
  | .aqLevelCfg _ _ _ _ _ _ _ _ _ => true
  | .aqTriginCfg _ _ _ => true
  | .aqTrigoutCfg _ _ _ _ _ _ _ => true
  | .aqArm _ _ _ => true
  | .aqDisarm _ _ => true
  | .aqSoftTrig _ _ => true
  | .aqRetainSet _ _ => true
  | .aqBudgetGet _ => true
  | .aqStatus _ _ => true
  | .nop _ _ => true
  | .cmac _ _ _ _ _ => true
  | .cmac4 _ _ _ _ _ => true
  | .ftap _ _ _ _ _ _ => true
  | .rmac2 _ _ _ _ _ _ => true
  | .cpwr _ _ _ _ => true
  | .cmpy _ _ _ _ _ => true
  | .cadd _ _ _ _ => true
  | .csub _ _ _ _ => true
  | .conj _ _ _ _ => true
  | .shra _ _ _ _ => true
  | .and _ _ _ _ => true
  | .or _ _ _ _ => true
  | .xor _ _ _ _ => true
  | .iadd _ _ _ _ => true
  | .isub _ _ _ _ => true
  | .icmp _ _ _ => true
  | .mvad _ _ _ => true
  | .mvda _ _ _ _ => true
  | .accadd _ _ _ _ => true
  | .accclr _ _ => true
  | .bfpend _ => true
  | .ldx _ _ _ => true
  | .ldy _ _ _ => true
  | .ldxy _ _ _ _ _ _ _ _ _ => true
  | .stx _ _ _ => true
  | .sty _ _ _ => true
  | .li _ _ _ => true
  | .lih _ _ _ => true
  | .mv _ _ _ => true
  | .padd _ _ _ _ _ => true
  | .iorTioDbell _ _ => true
  | .iorTioTime _ _ _ => true
  | .iorTioFill _ _ _ => true
  | .iowTioFill _ _ _ => true
  | .iowTioTimer _ _ _ => true
  | .iowTioCap _ _ => true
  | .ien _ _ => true
  | .br _ _ _ => true
  | .call _ _ _ => true
  | .ret _ _ => true
  | .reti _ => true
  | .loop _ _ _ _ _ _ => true
  | .loopReturn _ => true
  | .mvlp _ _ _ _ _ => true
  | .sync _ => true
  | .syncBufferDrained _ => true
  | .idle _ => true
  | .evt _ _ _ => true
  | .tdspInterruptEntry _ => true
  | .tioTimerExpiry _ => true
  | .tdspLoad _ _ _ _ => true
  | .tdspLoadComplete _ => true
  | .tdspStart _ _ _ => true
  | .tdspStop _ _ => true
  | .tdspDoorbell _ _ _ => true
  | .tdspStatus _ _ => true
  | .tdspUnload _ _ => true
  | .lkCfg _ _ _ _ _ _ _ => true
  | .lkStart _ _ => true
  | .lkStartTimeout => true
  | .lkBitslip _ _ _ => true
  | .lkStateSet _ _ _ => true
  | .lkLoop _ _ _ => true
  | .lkPrbs _ _ _ _ => true
  | .lkInject _ _ _ _ => true
  | .lkBerGet _ _ => true
  | .lkStatus _ _ => true
  | .lkPresetSet _ _ _ _ _ _ => true
  | .laneExitComplete _ => true
  | .cdrLockAcquired _ => true
  | .cdrLockTimeout _ => true
  | .laneBlockReceived _ _ => true
  | .autoSlip _ => true
  | .laneLockLossTimeout _ => true
  | .eqDensityWindowEnd _ _ => true
  | .markerReceived _ _ _ _ => true
  | .markerSent => true
  | .idleRowSend => true
  | .txIqPacket pkt => pktOk pkt
  | .ctrlCmdPacket pkt => pktOk pkt
  | .memRdDataPacket pkt => pktOk pkt
  | .ackPacket pkt => pktOk pkt
  | .ackSend => true
  | .replayTimeout => true
  | .reliableHoldExpiry => true
  | .creditReport _ => true
  | .memReadTimeout _ => true
  | .streamPacketSend _ => true
  | .eventPacketSend => true
  | .lkFlowCfg _ _ _ _ _ => true
  | .lkAniqCfg _ _ _ _ => true
  | .lkFlowQuery _ _ _ => true
  | .lkBudgetGet _ _ => true
  | .lkRelCfg _ _ _ _ _ => true
  | .dmChanCfg _ _ _ _ _ _ _ _ _ _ _ _ _ _ _ => true
  | .dmStart _ _ _ => true
  | .dmTail _ _ _ => true
  | .chStop _ _ => true
  | .chKill _ _ => true
  | .dmStatus _ _ => true
  | .cuCfg _ _ _ => true
  | .cuStatus _ _ => true
  | .descriptorFetch _ => true
  | .dmaBurstStart _ => true
  | .dmaBurstEnd _ => true
  | .descriptorComplete _ => true
  | .calRun _ _ _ _ _ fcs => decide (fcs.length ≤ 255)
  | .calAbort _ _ _ => true
  | .calGapCfg _ _ _ => true
  | .calRefCfg _ _ _ => true
  | .calStore _ => true
  | .calHoldupCfg _ _ _ _ _ _ => true
  | .calFlashCfg _ _ _ _ _ _ => true
  | .calStatus _ _ => true
  | .calSetRead _ _ _ _ _ => true
  | .calPlacementCheck _ => true
  | .calClaimStart _ => true
  | .calClaimEnd _ => true
  | .calibrationComplete _ _ _ _ _ => true
  | .flashProgramDone => true
  | .flashEraseDone => true
  | .thermalEvaluation _ _ _ => true
  | .thermalHaltEntry => true
  | .slowRound diodes volts counts devs _ => lengthIs 12 diodes && lengthIs 10 volts && lengthIs 12 counts && lengthIs 12 devs
  | .throttleStep => true
  | .throttleRevert => true
  | .hkModelCfg _ _ _ _ => true
  | .hkThrottleCfg _ steps _ _ => lengthIs 5 steps
  | .hkBandCfg _ _ => true
  | .hkResume _ => true
  | .hkStatus _ => true
  | .hkRead _ _ => true
  | .pwStateSet _ _ _ => true
  | .blockEntryAnswer _ _ => true
  | .blockAnswerTimeout => true
  | .entryPhase2Proceed => true
  | .pwPark _ _ => true
  | .tileUnparkComplete _ => true
  | .pwRetainCfg _ _ => true
  | .pwWakeCfg _ _ _ _ => true
  | .pwStatus _ => true
  | .wakePinEdge _ => true
  | .sleepTimerExpiry => true
  | .wakeStepReady => true
  | .wakeStepTimeout => true
  | .regRead _ _ _ => true
  | .regWrite _ _ _ words => decide (words.length ≤ 12)
  | .regReadBlock _ _ _ _ => true
  | .regWriteBlock _ _ _ _ => true
  | .calbusDiag _ _ _ _ _ _ _ _ => true
  | .calbusDiagEnd => true
  | .sessionOpen _ _ => true
  | .sessionAuth _ _ mac => lengthIs 32 mac
  | .sessionClose _ _ => true
  | .sessionAuthTimeout _ => true
  | .sessionLifetimeExpiry _ => true
  | .lockoutExpiry _ => true
  | .keySet _ _ _ => true
  | .journalRead _ _ _ _ => true
  | .journalErase _ _ => true
  | .otpKeyWrite _ _ _ => true
  | .otpKeyRevoke _ _ => true
  | .otpFloorSet _ _ => true
  | .otpTrimWrite _ _ _ _ => true
  | .journalEntryWrite _ => true
  | .journalBufferDrain => true
  | .jtagTrst _ => true
  | .extest _ => true
  | .samplePreload _ => true
  | .idcode => true
  | .extestPulse _ => true
  | .extestTrain _ => true
  | .highz => true
  | .clamp => true
  | .bypass code => decide (7 ≤ code.toNat)
  | .prbsCheckerBits _ _ => true
  | .injectRepeat _ => true
  | .dozeWakeComplete => true

end Sys2Proof
end

