-- ==== Sys2Proof/Safety.lean ====
section
/-! DEFINITION. What counts as a safe step, and the terms in which the statements speak of a served command and of what is
written once. -/

namespace Sys2Proof.Machine

/-- A step of this state goes on: it neither faults nor is refused. -/
def Safe (s : State) : Prop := ∃ t, step s = .next t

/-- The mailbox of the slot is served, holds a command, and the checks of R504 let that command reach its body. -/
def State.accepts (s : State) (h : CmdHdr) (c : CmdSpec) : Bool := s.canServe h.mb && (s.refusal h c).isNone

/-- The mailbox of the slot is served and holds a command that the checks of R504 answer with a status of their own. -/
def State.turnsAway (s : State) (h : CmdHdr) (c : CmdSpec) (st : BitVec 8) : Bool :=
  s.canServe h.mb && decide (s.refusal h c = some st)

/-- The state in which a body that started in s and ended in t with the reply r is answered (or waits, or is journalled). -/
def State.answered (s : State) (h : CmdHdr) (c : CmdSpec) (r : Reply) (t : State) : State :=
  t.settle h c (s.sessionRole h.session) r

/-- An action stands at the head of its queue, its start has come within its tolerance and inside its window, and no action of
the device queue is judged first (R48, R50 to R52). -/
def State.ripe (s : State) (q : Fin 9) (a : QAct) : Bool :=
  decide (s.headOf q = some a) && !(decide (q.val < 8) && s.deviceDue) &&
  decide (s.startOf q a ≤ Int.ofNat s.nowT) && !s.isLate q a &&
  (match a.window with
   | none => true
   | some w => (s.time.windows.get w).holds s.nowT)

/-- A key slot of the one-time programmable memory keeps what was written, failed or revoked (R568). -/
def OtpKey.Grows (a b : OtpKey) : Prop :=
  (a.written = true → b.written = true ∧ b.key = a.key) ∧ (a.failed = true → b.failed = true) ∧
  (a.revoked = true → b.revoked = true)

/-- The one-time programmable memory keeps everything written (R568): b may only hold more than a. -/
def OtpBlock.Grows (a b : OtpBlock) : Prop :=
  (∀ i : Fin 4, (a.keys.get i).Grows (b.keys.get i)) ∧ a.floor <+: b.floor ∧ a.trim <+: b.trim

/-- What the one-time programmable memory may hold: every public key written is a point of P-256 (R566), at most 16 floor words
are used and those that verified never fall (R567), and no trim group stands in it twice. -/
def OtpBlock.ok (o : OtpBlock) : Prop :=
  (∀ i : Fin 4, (o.keys.get i).written = true →
    p256On (unbe ((o.keys.get i).key.take 32)) (unbe ((o.keys.get i).key.drop 32)) = true) ∧
  o.floor.length ≤ 16 ∧ (o.floor.filterMap id).Pairwise (fun a b => a.toNat ≤ b.toNat) ∧ (o.trim.map Prod.fst).Nodup

/-- A status that refuses a command: neither DONE nor ACCEPTED (R505, R524). -/
def refusedStatus (st : BitVec 8) : Bool := decide (st ≠ stDone) && decide (st ≠ stAccepted)

/-- The command table: the slot of a host command, and what R504 checks of it before its body: the opcode, the role and whether it is
journalled, the parameter bytes, the blocks it points to, whether it must be indirect. None for what is no host command. -/
def cmdOf : Instr → Option (CmdHdr × CmdSpec)
  | .sysInfo h => some (h, { opcode := 0x0101, role := some .operator, params := [] })
  | .fwStage h offset length ptr final => some (h,
    { opcode := 0x0102
      role := some .installer
      journal := true
      params := pb offset ++ pb length ++ pb ptr ++ pb final
      ptrs := [(ptr.toNat, length.toNat)] })
  | .fwRestart h slot => some (h, { opcode := 0x0103, role := some .installer, journal := true, params := pb slot })
  | .fwSlotInfo h => some (h, { opcode := 0x0104, role := some .operator, params := [] })
  | .ckConvSet h tiles en delay trim1 trim2 trim3 trim4 => some (h,
    { opcode := 0x0110
      role := some .installer
      journal := true
      params := pb tiles ++ pb en ++ pb delay ++ pb trim1 ++ pb trim2 ++ pb trim3 ++ pb trim4 })
  | .ckSyncCfg h period limit => some (h,
    { opcode := 0x0111, role := some .installer, journal := true, params := pb period ++ pb limit })
  | .ckLockmonSel h sel => some (h, { opcode := 0x0112, role := some .operator, params := pb sel })
  | .ckFaultAck h plls => some (h, { opcode := 0x0113, role := some .operator, params := pb plls })
  | .ckPllRelock h pll => some (h, { opcode := 0x0114, role := some .installer, journal := true, params := pb pll })
  | .ckStatus h => some (h, { opcode := 0x0115, role := some .operator, params := [] })
  | .ckRefCfg h source => some (h,
    { opcode := 0x0116, role := some .installer, journal := true, params := pb source })
  | .timeArmSync h value timeout => some (h,
    { opcode := 0x0201, role := some .operator, params := pb value ++ pb timeout })
  | .timeGet h => some (h, { opcode := 0x0202, role := some .operator, params := [] })
  | .timeDiscipline h mode epoch polarity => some (h,
    { opcode := 0x0203, role := some .installer, journal := true, params := pb mode ++ pb epoch ++ pb polarity })
  | .actEnqueue h queue kind time tol window params => some (h,
    { opcode := 0x0210
      role := some .operator
      params := pb queue ++ pb kind ++ pb time ++ pb tol ++ pb window ++ params })
  | .actCancel h handle => some (h, { opcode := 0x0211, role := some .operator, params := pb handle })
  | .actQuery h handle queue => some (h,
    { opcode := 0x0212, role := some .operator, params := pb handle ++ pb queue })
  | .winDefine h window openMode openVal closeMode closeVal tag maxLen => some (h,
    { opcode := 0x0220
      role := some .operator
      params := pb window ++ pb openMode ++ pb openVal ++ pb closeMode ++ pb closeVal ++ pb tag ++ pb maxLen })
  | .winModify h window edge time => some (h,
    { opcode := 0x0221, role := some .operator, params := pb window ++ pb edge ++ pb time })
  | .winDelete h window => some (h, { opcode := 0x0222, role := some .operator, params := pb window })
  | .winQuery h window => some (h, { opcode := 0x0223, role := some .operator, params := pb window })
  | .pathSet h paths atten gain port => some (h,
    { opcode := 0x0240, role := some .operator, params := pb paths ++ pb atten ++ pb gain ++ pb port })
  | .pathGet h path => some (h, { opcode := 0x0241, role := some .operator, params := pb path })
  | .femPatternSet h tiles pats od lead lag sel0 sel1 sel2 => some (h,
    { opcode := 0x0242
      role := some .installer
      journal := true
      params := pb tiles ++ pats.flatMap pb ++ pb od ++ pb lead ++ pb lag ++ pb sel0 ++ pb sel1 ++ pb sel2 })
  | .rffeXfer h tile count ops => some (h,
    { opcode := 0x0243
      role := some (if (ops.all rffeReads) then .operator else .installer)
      journal := !(ops.all rffeReads)
      params := pb tile ++ pb count ++ ops.flatMap rffeBytes
      needInd := true })
  | .rffeRetuneSeq h tile count divWr divRd ops => some (h,
    { opcode := 0x0244
      role := some .installer
      journal := true
      params := pb tile ++ pb count ++ pb divWr ++ pb divRd ++ ops.flatMap rffeBytes
      needInd := true })
  | .preambleCfg h det beam ptr half thr evt => some (h,
    { opcode := 0x0245
      role := some .operator
      params := pb det ++ pb beam ++ pb ptr ++ pb half ++ pb thr ++ pb evt
      ptrs := if half = 0 then [] else [(ptr.toNat, 8 * half.toNat)] })
  | .pickGroupCfg h group tiles home bias hold enable => some (h,
    { opcode := 0x0246
      role := some .installer
      journal := true
      params := pb group ++ pb tiles ++ pb home ++ pb bias ++ pb hold ++ pb enable })
  | .orxCouplingSet h path coupling delay atten settle => some (h,
    { opcode := 0x0247
      role := some .installer
      journal := true
      params := pb path ++ pb coupling ++ pb delay ++ pb atten ++ pb settle })
  | .tileHomeSet h tiles home => some (h, { opcode := 0x0250, role := some .operator, params := pb tiles ++ pb home })
  | .tileStateGet h tile => some (h, { opcode := 0x0251, role := some .operator, params := pb tile })
  | .tileBandSet h tiles band => some (h,
    { opcode := 0x0252, role := some .installer, journal := true, params := pb tiles ++ pb band })
  | .chanFrontSet h dirs rx tx => some (h,
    { opcode := 0x0260, role := some .operator, params := pb dirs ++ pb rx ++ pb tx })
  | .chanInfo h dir front narrow rate => some (h,
    { opcode := 0x0261, role := some .operator, params := pb dir ++ pb front ++ pb narrow ++ pb rate })
  | .hkFilterSet h cls preset => some (h,
    { opcode := 0x0908, role := some .installer, journal := true, params := pb cls ++ pb preset })
  | .beamCfg h dir beam enable rate preset format flow freq shift => some (h,
    { opcode := 0x0301
      role := some .operator
      params := pb dir ++ pb beam ++ pb enable ++ pb rate ++ pb preset ++ pb format ++ pb flow ++ pb freq ++ pb shift })
  | .beamWeights h dir beam port first count ptr => some (h,
    { opcode := 0x0302
      role := some .operator
      params := pb dir ++ pb beam ++ pb port ++ pb first ++ pb count ++ pb ptr
      ptrs := [(ptr.toNat, 4 * count.toNat)] })
  | .beamDelays h dir first count form delays ptr => some (h,
    { opcode := 0x0303
      role := some .operator
      params := pb dir ++ pb first ++ pb count ++ pb form ++ (if form = 1 then pb ptr else delays.flatMap pb)
      ptrs := if form = 1 then [(ptr.toNat, 2 * count.toNat)] else [] })
  | .elemCfg h dir mode rate preset format flows txShift => some (h,
    { opcode := 0x0304
      role := some .operator
      params := pb dir ++ pb mode ++ pb rate ++ pb preset ++ pb format ++ flows.flatMap pb ++ pb txShift })
  | .beamBankCopy h dirs => some (h, { opcode := 0x0305, role := some .operator, params := pb dirs })
  | .beamQuery h dir bank beam => some (h,
    { opcode := 0x0306, role := some .operator, params := pb dir ++ pb bank ++ pb beam })
  | .pdChainSet h inserted => some (h, { opcode := 0x0401, role := some .operator, params := pb inserted })
  | .pdPathSet h paths pdEn cfrEn adaptEn evtSwap => some (h,
    { opcode := 0x0402
      role := some .operator
      params := pb paths ++ pb pdEn ++ pb cfrEn ++ pb adaptEn ++ pb evtSwap })
  | .pdNeighbourSet h path q1 q2 => some (h,
    { opcode := 0x0403, role := some .installer, journal := true, params := pb path ++ pb q1 ++ pb q2 })
  | .pdGateSet h tiles gate cfMin cfMax margin capSkip freeze clear lambda => some (h,
    { opcode := 0x0404
      role := some .installer
      journal := true
      params := pb tiles ++ pb gate ++ pb cfMin ++ pb cfMax ++ pb margin ++ pb capSkip ++ pb freeze ++ pb clear ++ pb
        lambda })
  | .pdLimitSet h tiles gain phase nmse peak rejectMax => some (h,
    { opcode := 0x0405
      role := some .installer
      journal := true
      params := pb tiles ++ pb gain ++ pb phase ++ pb nmse ++ pb peak ++ pb rejectMax })
  | .pdCfrSet h tiles thr ptr => some (h,
    { opcode := 0x0406
      role := some .installer
      journal := true
      params := pb tiles ++ pb thr ++ pb ptr
      ptrs := if decide (ptr = 0xFFFFFFFF) || decide (ptr = 0) then [] else [(ptr.toNat, 260)] })
  | .pdCoefLoad h path ptr => some (h,
    { opcode := 0x0407
      role := some .installer
      journal := true
      params := pb path ++ pb ptr
      ptrs := [(ptr.toNat, 512)] })
  | .pdCoefRead h path set ptr => some (h,
    { opcode := 0x0408, role := some .operator, params := pb path ++ pb set ++ pb ptr, ptrs := [(ptr.toNat, 512)] })
  | .pdStatus h path => some (h, { opcode := 0x0409, role := some .operator, params := pb path })
  | .anLaneCfg h lanes mode path port z window overlap units => some (h,
    { opcode := 0x0501
      role := some .operator
      params := pb lanes ++ pb mode ++ pb path ++ pb port ++ pb z ++ pb window ++ pb overlap ++ pb units })
  | .anStitchCfg h tiles f0 z => some (h,
    { opcode := 0x0502, role := some .operator, params := pb tiles ++ pb f0 ++ pb z })
  | .anOutputCfg h source output first count period k avgMode inclBlanked maskOvl flow segment => some (h,
    { opcode := 0x0503
      role := some .operator
      params := pb source ++ pb output ++ pb first ++ pb count ++ pb period ++ pb k ++ pb avgMode ++ pb inclBlanked ++
        pb maskOvl ++ pb flow ++ pb segment })
  | .anMaskLoad h source mask polarity enterD leaveD evt count ptr => some (h,
    { opcode := 0x0504
      role := some .operator
      params := pb source ++ pb mask ++ pb polarity ++ pb enterD ++ pb leaveD ++ pb evt ++ pb count ++ pb ptr
      ptrs := if count = 0 then [] else [(ptr.toNat, 8 * count.toNat)] })
  | .anDensityCfg h lane b0 c top step flow => some (h,
    { opcode := 0x0505, role := some .operator, params := pb lane ++ pb b0 ++ pb c ++ pb top ++ pb step ++ pb flow })
  | .anDensitySwap h lanes => some (h, { opcode := 0x0506, role := some .operator, params := pb lanes })
  | .anApply h lanes => some (h, { opcode := 0x0507, role := some .operator, params := pb lanes })
  | .anRefSet h lanes offset => some (h,
    { opcode := 0x0508, role := some .installer, journal := true, params := pb lanes ++ pb offset })
  | .anStatus h lane => some (h, { opcode := 0x0509, role := some .operator, params := pb lane })
  | .aqSegmentDefine h segment base length slots => some (h,
    { opcode := 0x0601, role := some .operator, params := pb segment ++ pb base ++ pb length ++ pb slots })
  | .aqSegmentFree h segment => some (h, { opcode := 0x0602, role := some .operator, params := pb segment })
  | .aqChanCfg h channel op kind index segment unit pre post format mode reductions bt flow => some (h,
    { opcode := 0x0603
      role := some .operator
      params := pb channel ++ pb op ++ pb kind ++ pb index ++ pb segment ++ pb unit ++ pb pre ++ pb post ++ pb format
        ++ pb mode ++ pb reductions ++ pb bt ++ pb flow })
  | .aqTrigCfg h unit aCode aIdx bCode bIdx op limit holdoff evt => some (h,
    { opcode := 0x0604
      role := some .operator
      params := pb unit ++ pb aCode ++ pb aIdx ++ pb bCode ++ pb bIdx ++ pb op ++ pb limit ++ pb holdoff ++ pb evt })
  | .aqLevelCfg h det kind index w thr hys dir dwell => some (h,
    { opcode := 0x0605
      role := some .operator
      params := pb det ++ pb kind ++ pb index ++ pb w ++ pb thr ++ pb hys ++ pb dir ++ pb dwell })
  | .aqTriginCfg h input edges => some (h,
    { opcode := 0x0606, role := some .operator, params := pb input ++ pb edges })
  | .aqTrigoutCfg h pin owner kind index polarity width => some (h,
    { opcode := 0x0607
      role := some .operator
      params := pb pin ++ pb owner ++ pb kind ++ pb index ++ pb polarity ++ pb width })
  | .aqArm h chans window => some (h, { opcode := 0x0608, role := some .operator, params := pb chans ++ pb window })
  | .aqDisarm h chans => some (h, { opcode := 0x0609, role := some .operator, params := pb chans })
  | .aqSoftTrig h units => some (h, { opcode := 0x060A, role := some .operator, params := pb units })
  | .aqRetainSet h units => some (h, { opcode := 0x060B, role := some .operator, params := pb units })
  | .aqBudgetGet h => some (h, { opcode := 0x060C, role := some .operator, params := [] })
  | .aqStatus h channel => some (h, { opcode := 0x060D, role := some .operator, params := pb channel })
  | .tdspLoad h tile addr start => some (h,
    { opcode := 0x0B01, role := some .installer, journal := true, params := pb tile ++ pb addr ++ pb start })
  | .tdspStart h tile entry => some (h,
    { opcode := 0x0B02, role := some .installer, journal := true, params := pb tile ++ pb entry })
  | .tdspStop h tile => some (h, { opcode := 0x0B03, role := some .installer, journal := true, params := pb tile })
  | .tdspDoorbell h tile value => some (h,
    { opcode := 0x0B04, role := some .operator, params := pb tile ++ pb value })
  | .tdspStatus h tile => some (h, { opcode := 0x0B05, role := some .operator, params := pb tile })
  | .tdspUnload h tile => some (h, { opcode := 0x0B06, role := some .installer, journal := true, params := pb tile })
  | .lkCfg h rate minLanes auto manual timeout swing => some (h,
    { opcode := 0x0701
      role := some .installer
      journal := true
      params := pb rate ++ pb minLanes ++ pb auto ++ pb manual ++ pb timeout ++ pb swing })
  | .lkStart h lanes => some (h, { opcode := 0x0702, role := some .operator, params := pb lanes })
  | .lkBitslip h lane count => some (h,
    { opcode := 0x0703, role := some .installer, journal := true, params := pb lane ++ pb count })
  | .lkStateSet h lanes state => some (h,
    { opcode := 0x0704, role := some .operator, params := pb lanes ++ pb state })
  | .lkLoop h lanes loop => some (h,
    { opcode := 0x0705, role := some .installer, journal := true, params := pb lanes ++ pb loop })
  | .lkPrbs h lanes gen chk => some (h,
    { opcode := 0x0706, role := some .installer, journal := true, params := pb lanes ++ pb gen ++ pb chk })
  | .lkInject h lanes burst rep => some (h,
    { opcode := 0x0707, role := some .installer, journal := true, params := pb lanes ++ pb burst ++ pb rep })
  | .lkBerGet h lane => some (h, { opcode := 0x0708, role := some .operator, params := pb lane })
  | .lkStatus h lane => some (h, { opcode := 0x0709, role := some .operator, params := pb lane })
  | .lkPresetSet h lanes p1 p2 p3 p4 => some (h,
    { opcode := 0x070A
      role := some .installer
      journal := true
      params := pb lanes ++ pb p1 ++ pb p2 ++ pb p3 ++ pb p4 })
  | .lkFlowCfg h dir flow prio lenMax => some (h,
    { opcode := 0x0710, role := some .operator, params := pb dir ++ pb flow ++ pb prio ++ pb lenMax })
  | .lkAniqCfg h lane flow format => some (h,
    { opcode := 0x0711, role := some .operator, params := pb lane ++ pb flow ++ pb format })
  | .lkFlowQuery h dir flow => some (h, { opcode := 0x0712, role := some .operator, params := pb dir ++ pb flow })
  | .lkBudgetGet h dir => some (h, { opcode := 0x0713, role := some .operator, params := pb dir })
  | .lkRelCfg h replayT holdMs memTo route => some (h,
    { opcode := 0x0714
      role := some .installer
      journal := true
      params := pb replayT ++ pb holdMs ++ pb memTo ++ pb route })
  | .dmChanCfg h channel op mode base len burst uses rate paceTile paceQ high low bound evt => some (h,
    { opcode := 0x0C01
      role := some .operator
      params := pb channel ++ pb op ++ pb mode ++ pb base ++ pb len ++ pb burst ++ pb uses ++ pb rate ++ pb paceTile
        ++ pb paceQ ++ pb high ++ pb low ++ pb bound ++ pb evt })
  | .dmStart h chans addr => some (h, { opcode := 0x0C02, role := some .operator, params := pb chans ++ pb addr })
  | .dmTail h channel tail => some (h, { opcode := 0x0C03, role := some .operator, params := pb channel ++ pb tail })
  | .chStop h chans => some (h, { opcode := 0x0C04, role := some .operator, params := pb chans })
  | .chKill h chans => some (h, { opcode := 0x0C05, role := some .operator, params := pb chans })
  | .dmStatus h channel => some (h, { opcode := 0x0C06, role := some .operator, params := pb channel })
  | .cuCfg h unit crc => some (h, { opcode := 0x0C10, role := some .operator, params := pb unit ++ pb crc })
  | .cuStatus h unit => some (h, { opcode := 0x0C11, role := some .operator, params := pb unit })
  | .calRun h kinds tiles deadline count fcs => some (h,
    { opcode := 0x0801
      role := some .operator
      params := pb kinds ++ pb tiles ++ pb deadline ++ pb count ++ fcs.flatMap pb })
  | .calAbort h kinds tiles => some (h, { opcode := 0x0802, role := some .operator, params := pb kinds ++ pb tiles })
  | .calGapCfg h windows limit => some (h,
    { opcode := 0x0803, role := some .installer, journal := true, params := pb windows ++ pb limit })
  | .calRefCfg h path level => some (h,
    { opcode := 0x0804, role := some .installer, journal := true, params := pb path ++ pb level })
  | .calStore h => some (h, { opcode := 0x0805, role := some .installer, journal := true, params := [] })
  | .calHoldupCfg h cap vmin divider ePage eErase => some (h,
    { opcode := 0x0806
      role := some .installer
      journal := true
      params := pb cap ++ pb vmin ++ pb divider ++ pb ePage ++ pb eErase })
  | .calFlashCfg h offA offB rmin rmax ren => some (h,
    { opcode := 0x0807
      role := some .installer
      journal := true
      params := pb offA ++ pb offB ++ pb rmin ++ pb rmax ++ pb ren })
  | .calStatus h tile => some (h, { opcode := 0x0808, role := some .operator, params := pb tile })
  | .calSetRead h kind object point ptr => some (h,
    { opcode := 0x0809
      role := some .operator
      params := pb kind ++ pb object ++ pb point ++ pb ptr
      ptrs := [(ptr.toNat, calSetLen kind)] })
  | .hkModelCfg h rha ch ta => some (h,
    { opcode := 0x0901, role := some .installer, journal := true, params := pb rha ++ pb ch ++ pb ta })
  | .hkThrottleCfg h steps interval duty => some (h,
    { opcode := 0x0902, role := some .installer, journal := true, params := padTo 5 steps ++ pb interval ++ pb duty })
  | .hkBandCfg h enable => some (h,
    { opcode := 0x0903, role := some .installer, journal := true, params := pb enable })
  | .hkResume h => some (h, { opcode := 0x0904, role := some .operator, params := [] })
  | .hkStatus h => some (h, { opcode := 0x0905, role := some .operator, params := [] })
  | .hkRead h cls => some (h, { opcode := 0x0906, role := some .operator, params := pb cls })
  | .pwStateSet h target lane => some (h,
    { opcode := 0x0910, role := some .operator, params := pb target ++ pb lane })
  | .pwPark h tiles => some (h, { opcode := 0x0911, role := some .operator, params := pb tiles })
  | .pwRetainCfg h banks => some (h, { opcode := 0x0912, role := some .operator, params := pb banks })
  | .pwWakeCfg h pinEn timerEn timer => some (h,
    { opcode := 0x0913, role := some .installer, journal := true, params := pb pinEn ++ pb timerEn ++ pb timer })
  | .pwStatus h => some (h, { opcode := 0x0914, role := some .operator, params := [] })
  | .regRead h addr count => some (h, { opcode := 0x0D01, role := some .operator, params := pb addr ++ pb count })
  | .regWrite h addr count words => some (h,
    { opcode := 0x0D02, role := some .installer, journal := true, params := pb addr ++ pb count ++ words.flatMap pb })
  | .regReadBlock h addr bytes ptr => some (h,
    { opcode := 0x0D03
      role := some .operator
      params := pb addr ++ pb bytes ++ pb ptr
      ptrs := [(ptr.toNat, bytes.toNat)] })
  | .regWriteBlock h addr bytes ptr => some (h,
    { opcode := 0x0D04
      role := some .installer
      journal := true
      params := pb addr ++ pb bytes ++ pb ptr
      ptrs := [(ptr.toNat, bytes.toNat)] })
  | .calbusDiag h path mode offset level sinks orx duration => some (h,
    { opcode := 0x0D05
      role := some .installer
      journal := true
      params := pb path ++ pb mode ++ pb offset ++ pb level ++ pb sinks ++ pb orx ++ pb duration })
  | .sessionOpen h role => some (h, { opcode := 0x0A01, role := none, params := pb role })
  | .sessionAuth h handle mac => some (h, { opcode := 0x0A02, role := none, params := pb handle ++ mac })
  | .sessionClose h handle => some (h, { opcode := 0x0A03, role := some .operator, params := pb handle })
  | .keySet h role ptr => some (h,
    { opcode := 0x0A04
      role := some .installer
      journal := true
      params := pb role ++ pb ptr
      ptrs := [(ptr.toNat, 64)] })
  | .journalRead h first count ptr => some (h,
    { opcode := 0x0A05
      role := some .operator
      journal := true
      params := pb first ++ pb count ++ pb ptr
      ptrs := [(ptr.toNat, 64 * count.toNat)] })
  | .journalErase h confirm => some (h,
    { opcode := 0x0A06, role := some .maker, journal := true, params := pb confirm })
  | .otpKeyWrite h index ptr => some (h,
    { opcode := 0x0A07
      role := some .maker
      journal := true
      params := pb index ++ pb ptr
      ptrs := [(ptr.toNat, 64)] })
  | .otpKeyRevoke h index => some (h, { opcode := 0x0A08, role := some .maker, journal := true, params := pb index })
  | .otpFloorSet h version => some (h,
    { opcode := 0x0A09, role := some .maker, journal := true, params := pb version })
  | .otpTrimWrite h group length ptr => some (h,
    { opcode := 0x0A0A
      role := some .maker
      journal := true
      params := pb group ++ pb length ++ pb ptr
      ptrs := [(ptr.toNat, length.toNat)] })
  | _ => none

end Sys2Proof.Machine
end

