-- ==== Sys2Proof/Certificates/Slice0/Obligations.lean ====
section
/-! DEFINITION. The statements for the provers. -/

open Sys2Proof Sys2Proof.Machine

/-- A step runs the command at the front of the queue with the rest of the queue; with none, device time goes on (the
  model's choice, log 1). -/
def Obligations.StepRunsFront : Prop :=
  (∀ (c : Instr) (rest : List Instr) (s : State), s.pending = c :: rest → step s = exec c { s with pending := rest }) ∧
  (∀ s : State, s.pending = [] → s.resetN = true → s.pw.vddio = true → s.pw.dev ≠ .off → s.pw.dev ≠ .retain →
    s.time.dspRuns = true → step s = .next (State.run (if s.clk.dspSafe then 8 else 1) s)) ∧
  (∀ s : State, s.pending = [] → (s.resetN = false ∨ s.pw.vddio = false ∨ s.pw.dev = .off) → step s = .next s) ∧
  (∀ s : State,
    (∀ p : Fin 64, s.rxQuiet p = true ∧ (s.chan.rx.get p).portFor = 0 ∧ (s.chan.rx.get p).attFor = 0 ∧
      (s.chan.rx.get p).portWas = s.portB p ∧ (s.chan.rx.get p).attWas = (s.paths.get p).atten) →
    (∀ p : Fin 64, s.txGate p = none ∧ (s.chan.tx.get p).live = []) → s.rxLabel % 4 ≠ 0 →
    (Int.ofNat s.time.ticks - Int.ofNat s.clk.loadedV - Int.ofNat txDelay) % 4 ≠ 0 → s.time.ticks + 1 < 2 ^ 64 →
    s.tick = { s with time.ticks := s.time.ticks + 1 }) ∧
  (∀ s : State, 2 ^ 64 ≤ s.time.ticks + 1 → s.advance.time.ticks = s.time.ticks + 1 - 2 ^ 64)

/-- Every register of a register table reads its Reset value in the state of reset -/
def Obligations.RegistersAtReset : Prop :=
  (∀ r ∈ ([
      (0x10000000, 0x4B596480), (0x10000004, 0x4101), (0x10000030, 0xC), (0x10000090, 0x1000000), (0x10000108, 2),
      (0x20001100, 0x40000), (0x20001104, 0xF0000), (0x20001124, 0x8000), (0x20001168, 0x320C800),
      (0x20001180, 0x1EB800), (0x200011A0, 0x4C26), (0x20001200, 0xA00), (0x20001300, 0x9195011),
      (0x20001404, 0xA3C0C48), (0x20001408, 0x3207AE), (0x2000140C, 0x81E0A0A), (0x20001410, 0x8003E805),
      (0x20001414, 0x28), (0x20001600, 0xF00), (0x20001800, 0xFFFF0000), (0x20001814, 0x8000), (0x20020000, 0x1E),
      (0x20020004, 0x40), (0x2002000C, 0x8000), (0x20020010, 0x8000), (0x31000000, 0x23200), (0x31000004, 0x80),
      (0x32000000, 0x40000), (0x32000004, 0x80), (0x32000440, 0x800), (0x33000100, 0x100078),
      (0x33000104, 0x40003FF), (0x33000110, 1), (0x33000118, 0x8000000), (0x35000000, 0x423),
      (0x35000100, 0x800000), (0x35001014, 0x80004CCD), (0x35001100, 0x4002000), (0x35001300, 0x4002000),
      (0x36000004, 3), (0x36000100, 0x8C000000), (0x36000210, 6), (0x36001028, 0x800), (0x37000004, 0x3258D1),
      (0x37000008, 0x14), (0x3700000C, 0xFFFFF), (0x37000040, 0x220), (0x37000100, 2), (0x37000200, 0x80008000),
      (0x37000800, 0xFFF0)
    ] : List (Nat × Nat)), (State.reset.regRead r.1).1 = r.2) ∧
  (∀ a ∈ ([
      0x10000008, 0x1000000C, 0x10000010, 0x10000020, 0x10000024, 0x10000028, 0x10000040, 0x10000044, 0x10000084,
      0x10000094, 0x10000098, 0x1000009C, 0x10000100, 0x10000104, 0x1000010C, 0x10000110, 0x20001000, 0x20001108,
      0x2000110C, 0x20001110, 0x20001114, 0x20001120, 0x20001128, 0x2000112C, 0x20001140, 0x2000116C, 0x20001184,
      0x200011A4, 0x20001204, 0x20001208, 0x2000120C, 0x20001210, 0x20001214, 0x20001218, 0x20001310, 0x20001330,
      0x20001400, 0x20001500, 0x20001504, 0x20001508, 0x2000150C, 0x20001510, 0x20001604, 0x20001608, 0x20001804,
      0x20001808, 0x2000180C, 0x20001810, 0x20001818, 0x20020008, 0x30000000, 0x30000010, 0x30000014, 0x30000020,
      0x30000024, 0x30000100, 0x30000180, 0x30000200, 0x30000300, 0x30000380, 0x31000008, 0x3100000C, 0x31000010,
      0x31000020, 0x31000030, 0x31000034, 0x31001000, 0x31001004, 0x32000008, 0x32000100, 0x32000104, 0x32000108,
      0x3200010C, 0x32000110, 0x32000400, 0x32000500, 0x33000000, 0x33000004, 0x33000008, 0x33000108, 0x3300010C,
      0x33000114, 0x3300011C, 0x33000120, 0x33000124, 0x33000128, 0x34000000, 0x34000004, 0x34000008, 0x3400000C,
      0x34000010, 0x35000004, 0x35000008, 0x35000104, 0x35000108, 0x3500010C, 0x35000110, 0x35000114, 0x35000118,
      0x3500011C, 0x35001000, 0x35001004, 0x35001008, 0x3500100C, 0x35001010, 0x35001020, 0x35001024, 0x35001030,
      0x35001104, 0x35001304, 0x35001308, 0x3500130C, 0x36000000, 0x36000040, 0x36000120, 0x36000200, 0x36000204,
      0x36000220, 0x36001000, 0x36001004, 0x36001008, 0x3600100C, 0x36001010, 0x36001014, 0x36001018, 0x36001020,
      0x36001024, 0x37000000, 0x37000010, 0x37000014, 0x37000104, 0x37000108, 0x37000280, 0x37000300, 0x37000340,
      0x37000380, 0x37000804, 0x37000808
    ] : List Nat), (State.reset.regRead a).1 = 0) ∧
  (State.reset.regRead 0x10000080).1 &&& 0xFFFFFCFF = 0

/-- After reset the queue is empty, every memory is in its canonical form and the OTP memory is well formed -/
def Obligations.ResetHolds : Prop :=
  State.reset.pending = [] ∧ State.reset.otp.ok ∧
  Memory.wf 0 State.reset.pup.mbRam = true ∧ Memory.wf 0 State.reset.pup.pupMem = true ∧
  Memory.wf 0xFF State.reset.pup.flash = true ∧ Memory.wf 0 State.reset.aq.store = true ∧
  ∀ t : Fin 8, Memory.wf 0 (State.reset.tdsp.get t).xm = true ∧ Memory.wf 0 (State.reset.tdsp.get t).ym = true ∧
    Memory.wf 0 (State.reset.tdsp.get t).pm = true

/-- From every state a step goes on and takes exactly the front command off the queue: no effect of a command drops,
  adds or reorders commands. -/
def Obligations.EveryStepServesFront : Prop :=
  ∀ s : State, ∃ t, step s = .next t ∧ t.pending = s.pending.tail

/-- OTP writes cannot be undone (R568, its first sentence), over every command and every state. -/
def Obligations.OtpWritesStand : Prop :=
  ∀ (c : Instr) (s t : State), exec c s = .next t → s.otp.Grows t.otp

/-- Every step keeps the OTP memory well formed: keys on the curve, at most 16 floor words that never fall, groups
  once -/
def Obligations.OtpInvariantKept : Prop :=
  ∀ s t : State, s.otp.ok → step s = .next t → t.otp.ok

/-- The rollback floor in force never falls, whatever command runs -/
def Obligations.RollbackFloorNeverFalls : Prop :=
  ∀ (c : Instr) (s t : State), s.otp.ok → exec c s = .next t → s.otpFloorNow ≤ t.otpFloorNow

/-- A mailbox command does nothing while its mailbox is not served, and R504's checks answer it before it has any
  effect -/
def Obligations.MailboxGate : Prop :=
  (∀ (c : Instr) (s : State) (x : CmdHdr × CmdSpec), cmdOf c = some x → s.canServe x.1.mb = false → exec c s = .next s) ∧
  (∀ (c : Instr) (s : State) (x : CmdHdr × CmdSpec) (st : BitVec 8), cmdOf c = some x → s.turnsAway x.1 x.2 st = true →
    exec c s = .next (s.answered x.1 x.2 { status := st } s))

/-- A command whose session lacks its role, or that names session 0, is answered DENIED_ROLE and does nothing else -/
def Obligations.SessionRoleAsked : Prop :=
  (∀ (c : Instr) (s : State) (x : CmdHdr × CmdSpec) (need : Role), cmdOf c = some x → s.canServe x.1.mb = true →
    s.pup.recovery = false → slotOk x.1 x.2.params.length x.2.ptrs x.2.needInd = true → x.2.role = some need →
    (∀ r, s.sessionRole x.1.session = some r → r.rank < need.rank) →
    exec c s = .next (s.answered x.1 x.2 { status := stDenied } s)) ∧
  (∀ (c : Instr) (s : State) (x : CmdHdr × CmdSpec), cmdOf c = some x → s.canServe x.1.mb = true →
    s.pup.recovery = false → slotOk x.1 x.2.params.length x.2.ptrs x.2.needInd = true → x.1.session = 0 →
    x.2.opcode ≠ 0x0A01 → x.2.opcode ≠ 0x0A02 → exec c s = .next (s.answered x.1 x.2 { status := stDenied } s)) ∧
  (Role.operator.rank < Role.installer.rank ∧ Role.installer.rank < Role.maker.rank)

/-- A command that its body refuses changes nothing but its answer -/
def Obligations.RefusedChangesNothing : Prop :=
  ∀ (c : Instr) (s : State) (x : CmdHdr × CmdSpec), cmdOf c = some x → s.accepts x.1 x.2 = true →
    x.2.opcode ∉ [0x0A02, 0x0A04, 0x0805, 0x0A07, 0x0A08, 0x0A09, 0x0A0A] →
    ∃ r u, exec c s = .next (s.answered x.1 x.2 r u) ∧ (refusedStatus r.status = true → u = s.enter)

/-- Answering a command touches only its mailbox, its slots, the event ring and the reliable packets of the link -/
def Obligations.AnswerFrame : Prop :=
  ∀ (h : CmdHdr) (c : CmdSpec) (role : Option Role) (r : Reply) (t : State),
    let u := t.settle h c role r
    let k := (t.pup.chead.get h.mb).toNat % 32
    u = { t with
      time.windows := u.time.windows
      pup := { t.pup with
        mbRam := u.pup.mbRam, chead := u.pup.chead, busy := u.pup.busy, irq := u.pup.irq, evtWr := u.pup.evtWr
        evtRd := u.pup.evtRd, evtLost := u.pup.evtLost, evtUnrep := u.pup.evtUnrep, inCmd := false, heldEvts := [] }
      link := { t.link with
        relSeq := u.link.relSeq, held := u.link.held, out := u.link.out, waiting := u.link.waiting } } ∧
    (∀ n, u.time.windows.get n = { t.time.windows.get n with tagged := (u.time.windows.get n).tagged }) ∧
    (∀ m, m ≠ h.mb → u.pup.chead.get m = t.pup.chead.get m ∧ u.pup.busy.get m = t.pup.busy.get m) ∧
    (Memory.wf 0 t.pup.mbRam = true →
      Memory.wf 0 u.pup.mbRam = true ∧
      ∀ a, ¬(0x2000 + h.mb.val * 0x400 + k * 32 ≤ a ∧ a < 0x2000 + h.mb.val * 0x400 + k * 32 + 32) →
        ¬(h.mb.val * 0x800 + k * 64 ≤ a ∧ a < h.mb.val * 0x800 + k * 64 + 64) → ¬(0x3000 ≤ a ∧ a < 0x5000) →
        memGet 0 u.pup.mbRam a = memGet 0 t.pup.mbRam a)

/-- A window contains t if and only if open ≤ t < close; the instant of a close belongs to the window that opens there
  -/
def Obligations.WindowContains : Prop :=
  (∀ (w : Window) (o c t : Time), w.state ≠ .free → w.empty = false → w.openT = some o → w.closeT = some c →
    (w.holds t = true ↔ o ≤ t ∧ t < c)) ∧
  (∀ (w v : Window) (o c e : Time), w.state ≠ .free → w.empty = false → v.state ≠ .free → v.empty = false →
    w.openT = some o → w.closeT = some c → v.openT = some c → v.closeT = some e → c < e → w.holds c = false ∧ v.holds c = true)

/-- What becomes of an event: reserved slots, EVT_LOST before the next ordinary event, an overwritten slot counted -/
def Obligations.EventRingRules : Prop :=
  (∀ code, evtReserved code = true ↔
    code ∈ [0x0710, 0x0704, 0x0110, 0x0113, 0x0903, 0x0904, 0x0911, 0x0102]) ∧
  (∀ (s : State) (e : EvtSlot), evtReserved e.code.toNat = false → 256 - s.pup.evtUsed < 9 →
    s.placeEvt e = { s with pup := s.pup.loseEvt }) ∧
  (∀ (s : State) (e : EvtSlot), evtReserved e.code.toNat = false → s.pup.evtUsed + 9 ≤ 256 → s.pup.evtUnrep = 0 →
    s.placeEvt e = { s with pup := s.pup.putEvt e }) ∧
  (∀ (s : State) (e : EvtSlot), evtReserved e.code.toNat = false → s.pup.evtUsed + 9 ≤ 256 → s.pup.evtUnrep ≠ 0 →
    let p : PupBlock :=
      { s.pup.putEvt (s.mkEvt 0x0101 0x01FF s.nowT (le 4 (sat32 s.pup.evtUnrep))) with evtUnrep := 0 }
    s.placeEvt e = { s.tagWindows (s.windowSet s.nowT) with pup := if s.pup.evtUsed + 10 ≤ 256 then p.putEvt e else p.loseEvt }) ∧
  (∀ (s : State) (e : EvtSlot), evtReserved e.code.toNat = true → s.pup.evtUsed < 256 →
    s.placeEvt e = { s with pup := s.pup.putEvt e }) ∧
  (∀ (s : State) (e : EvtSlot), evtReserved e.code.toNat = true → 256 ≤ s.pup.evtUsed →
    s.placeEvt e = { s with pup := (PupBlock.loseEvt { s.pup with evtRd := s.pup.evtRd + 1 }).putEvt e }) ∧
  (∀ p : PupBlock, p.loseEvt = { p with evtLost := satAdd p.evtLost 1, evtUnrep := p.evtUnrep + 1 }) ∧
  (∀ (p : PupBlock) (e : EvtSlot), Memory.wf 0 p.mbRam = true →
    memRead 0 (p.putEvt e).mbRam (0x3000 + (p.evtWr.toNat % 256) * 32) 32 = e.bytes ∧ (p.putEvt e).evtWr = p.evtWr + 1)

/-- HOST_IRQ_N and FAULT_N are asserted exactly under the conditions of R512 -/
def Obligations.IrqAndFaultLines : Prop :=
  (∀ s : State, s.hostIrq = true ↔
    ∃ b : Fin 8, s.pup.irq.getLsbD b.val = true ∧ (s.pup.irqEn.getLsbD b.val = true ∨ b.val = 6 ∨ b.val = 7)) ∧
  (∀ s : State, s.faultN = true ↔
    s.pup.lockstep = true ∨ s.pup.recovery = true ∨ s.pup.halted = true ∨ s.hk.shutdown = true ∨ s.hk.halt = true ∨
      (∃ b, s.hk.vstat.getLsbD b = true) ∨ s.pw.failed = true)

/-- A sender holds at most 128 unacknowledged reliable packets, numbered one after another; what finds 128 outstanding
  waits -/
def Obligations.ReliableHeldBound : Prop :=
  (∀ (s : State) (type flow flags : Nat) (payload : List Byte), s.link.held.length < 128 →
    let t := s.sendRel type flow flags payload
    t.link.relSeq = s.link.relSeq + 1 ∧ t.link.waiting = s.link.waiting ∧
      (t.link.held.map (fun x => x.pkt.seq)) = s.link.held.map (fun x => x.pkt.seq) ++ [s.link.relSeq]) ∧
  (∀ (s : State) (type flow flags : Nat) (payload : List Byte), 128 ≤ s.link.held.length →
    let t := s.sendRel type flow flags payload
    t.link.relSeq = s.link.relSeq ∧ t.link.held = s.link.held ∧ t.link.waiting.length = s.link.waiting.length + 1) ∧
  (∀ (s : State) (type flow flags : Nat) (payload : List Byte), s.link.held.length ≤ 128 →
    (s.sendRel type flow flags payload).link.held.length ≤ 128) ∧
  (∀ s : State, s.link.held.length ≤ 128 → s.sendWaiting.link.held.length ≤ 128 ∧
    s.sendWaiting.link.held.length + s.sendWaiting.link.waiting.length = s.link.held.length + s.link.waiting.length)

/-- Eight wrong MACs in a row lock a role out of SESSION_OPEN for 60 s and clear the count; RESET_N clears it -/
def Obligations.LockoutRules : Prop :=
  (∀ (s : State) (r : Role), s.pup.wrongMac.get (Fin.ofNat 3 r.rank) ≠ 7 →
    s.countWrong r = { s with pup.wrongMac := vmod s.pup.wrongMac (Fin.ofNat 3 r.rank) (fun n => n + 1) }) ∧
  (∀ (s : State) (r : Role), s.pup.wrongMac.get (Fin.ofNat 3 r.rank) = 7 →
    let t := s.countWrong r
    t.pup.wrongMac.get (Fin.ofNat 3 r.rank) = 0 ∧
      ∀ n, State.lockedOut { t with time.ticks := s.time.ticks + n } r = true ↔ n < 60 * secTicks) ∧
  (∀ (s : State) (h : CmdHdr) (role : BitVec 8) (r : Role),
    let c : CmdSpec := { opcode := 0x0A01, role := none, params := pb role }
    s.accepts h c = true → role? role.toNat = some r → s.lockedOut r = true →
    exec (.sessionOpen h role) s = .next (s.answered h c { status := stNoResource } s.enter)) ∧
  (∀ s : State, s.resetN = true → s.pw.vddio = true → s.pw.dev ≠ .off →
    ∃ t, exec .resetNAssert s = .next t ∧ t.pup.wrongMac = Vector.replicate 3 0)

/-- RESET_N puts device time back to 0:0, not synchronised, every predistortion set to the identity; release starts it
  there -/
def Obligations.ResetRestartsTime : Prop :=
  (∀ s : State, s.resetN = true → s.pw.vddio = true → s.pw.dev ≠ .off →
    ∃ t, exec .resetNAssert s = .next t ∧ t.resetN = false ∧ t.time.ticks = 0 ∧ t.time.dspRuns = false ∧
      t.time.synced = false ∧ (∀ p : Fin 64, (t.pd.paths.get p).active = pdIdentity ∧ (t.pd.paths.get p).pending = none) ∧
      ∀ (bootmode : BitVec 2) (refclk : Bool),
        ∃ u, exec (.resetNRelease bootmode refclk) t = .next u ∧ u.resetN = true ∧ u.time.ticks = 0 ∧
          u.time.dspRuns = true ∧ u.time.synced = false ∧ u.pup.mode = bootmode)

/-- TIME_ARM_SYNC, TIME_GET and TIME_DISCIPLINE run and are answered -/
def Obligations.TimeCommandsRun : Prop :=
  (∀ (h : CmdHdr) (value : BitVec 64) (timeout : BitVec 8) (s : State),
     let c : CmdSpec := { opcode := 0x0201, role := some .operator, params := pb value ++ pb timeout }
     s.accepts h c = true →
     (if timeout = 0 then 2 else timeout.toNat) ≤ 60 →
     s.time.armed = none →
     (∀ q, (s.time.queues.get q).acts = []) →
     (∀ w, (s.time.windows.get w).state = .free) →
     (∀ x, (s.aq.chans.get x).isArmed = false) →
     exec (.timeArmSync h value timeout) s = .next (s.answered h c { status := stAccepted }
       { s.enter with
         time.armed := some
           { value := value, lapseAt := s.time.ticks + (if timeout = 0 then 2 else timeout.toNat) * 983040000 }
         time.armEnd := none })) ∧
  (∀ (h : CmdHdr) (s : State),
     let c : CmdSpec := { opcode := 0x0202, role := some .operator, params := [] }
     s.accepts h c = true →
     exec (.timeGet h) s = .next (s.answered h c
       { status := stDone, results := le 9 s.nowT ++ le 1 (b2n s.time.synced) ++ le 1 (b2n s.time.measure) } s.enter)) ∧
  (∀ (h : CmdHdr) (mode : BitVec 8) (epoch : BitVec 72) (polarity : BitVec 8) (s : State),
     let c : CmdSpec :=
       { opcode := 0x0203, role := some .installer, journal := true, params := pb mode ++ pb epoch ++ pb polarity }
     s.accepts h c = true →
     mode.toNat ≤ 1 →
     polarity.toNat ≤ 3 →
     exec (.timeDiscipline h mode epoch polarity) s = .next (s.answered h c { status := stDone }
       { s.enter with
         time :=
           { s.time with
             measure := decide (mode = 1)
             epoch := epoch.toNat
             polFalling := polarity.getLsbD 0
             edgeEvt := polarity.getLsbD 1
             ppsLast := none
             ppsReported := false } }))

/-- Events of device time and TIME_IN: each runs to the state its rule gives -/
def Obligations.TimeRowsRun : Prop :=
  (∀ (s : State) (a : ArmedLoad),
     s.time.armed = some a →
     a.lapseAt ≤ s.time.ticks →
     exec .syncArmLapse s = .next ({ s with time.armed := none, time.armEnd := some stAborted })) ∧
  (∀ (stamp : BitVec 72) (falling : Bool) (s : State),
     let phase : BitVec 32 := if s.time.measure then phaseWord (Int.ofNat stamp.toNat - Int.ofNat s.time.epoch -
       nearSecs (Int.ofNat stamp.toNat - Int.ofNat s.time.epoch) * 251658240000) else 0x80000000
     let u : State :=
       { s with
         time :=
           { s.time with
             ppsAccepted := satAdd s.time.ppsAccepted 1
             ppsPhase := if s.time.measure then phase else s.time.ppsPhase
             ppsLast := some stamp.toNat
             ppsReported := false } }
     falling = s.time.polFalling →
     s.resetN = true →
     s.time.dspRuns = true →
     s.time.ppsLast = none →
     exec (.timeInPulseEdge stamp falling) s = .next (if s.time.edgeEvt then u.emit 0x0202 0x02FF stamp.toNat (pb
       phase) else u)) ∧
  (∀ (stamp : BitVec 72) (falling : Bool) (s : State),
     falling ≠ s.time.polFalling →
     exec (.timeInPulseEdge stamp falling) s = .next (s)) ∧
  (∀ (stamp : BitVec 72) (falling : Bool) (s : State) (l : Time),
     falling = s.time.polFalling →
     s.resetN = true →
     s.time.dspRuns = true →
     s.time.ppsLast = some l →
     s.time.ppsReported = true →
     98304 * 256 < (Int.ofNat stamp.toNat - Int.ofNat l - (max 1 (nearSecs (Int.ofNat stamp.toNat - Int.ofNat l))) *
       251658240000).natAbs →
     exec (.timeInPulseEdge stamp falling) s = .next ({ s with time.ppsRejected := satAdd s.time.ppsRejected 1 })) ∧
  (∀ (s : State) (l : Time),
     s.time.ppsLast = some l →
     s.time.ppsReported = false →
     l + 2 * 251658240000 + 98304 * 256 ≤ s.nowT →
     exec .ppsMissing s = .next (State.emitNow { s with time.ppsLost := true, time.ppsReported := true } 0x0203 0x02FF
       (le 8 l)))

/-- Rows of the pass windows and TRIG_IN: each runs to the state its rule gives -/
def Obligations.WindowRowsRun : Prop :=
  (∀ (h : CmdHdr) (window : BitVec 8) (openMode : BitVec 8) (openVal : BitVec 72) (closeMode : BitVec 8) (closeVal :
    BitVec 72) (tag : BitVec 32) (maxLen : BitVec 64) (s : State) (w : Fin 64) (o : WinEdge) (x : WinEdge),
     let c : CmdSpec :=
       { opcode := 0x0220
         role := some .operator
         params := pb window ++ pb openMode ++ pb openVal ++ pb closeMode ++ pb closeVal ++ pb tag ++ pb maxLen }
     let ml := if maxLen = 0 then 9830400000 else maxLen.toNat
     let opened : Option Time := match o with | .time t => some (max t s.nowT) | _ => none
     let y : Window :=
       { state := .pending, openMode := o, closeMode := x, tag := tag, maxLen := ml, openT := opened, closeT := match x with
         | .edge .. => none | _ => givenClose o x ml
         tagged := 0
         timeout := false
         empty := false
         deleted := false
         freeAt := 0 }
     let u := s.enter.modWin w (fun _ => y)
     s.accepts h c = true →
     fin? 64 window.toNat = some w →
     winOpenMode? openMode openVal = some o →
     winCloseMode? closeMode closeVal = some x →
     (s.time.windows.get w).state = .free →
     (∀ t, givenClose o x ml = some t → s.nowT < t) →
     (match o with | .time v => (givenClose o x ml).all (fun t => decide (v < t)) | _ => true) = true →
     exec (.winDefine h window openMode openVal closeMode closeVal tag maxLen) s = .next (s.answered h c
       { status := stDone, results := le 9 (opened.getD 0) } (match opened with
       | none => u
       | some t => if t ≤ (u.calYieldWin w (t / 256)).nowT then ((u.calYieldWin w (t / 256)).winOpen w).modWin w (fun
           z => match x with
       | .edge .. => { z with closeT := givenClose o x ml }
       | _ => z) else u.calYieldWin w (t / 256)))) ∧
  (∀ (h : CmdHdr) (window : BitVec 8) (openMode : BitVec 8) (openVal : BitVec 72) (closeMode : BitVec 8) (closeVal :
    BitVec 72) (tag : BitVec 32) (maxLen : BitVec 64) (s : State) (w : Fin 64) (x : WinEdge) (e : Time),
     let c : CmdSpec :=
       { opcode := 0x0220
         role := some .operator
         params := pb window ++ pb openMode ++ pb openVal ++ pb closeMode ++ pb closeVal ++ pb tag ++ pb maxLen }
     let ml := if maxLen = 0 then 9830400000 else maxLen.toNat
     let y : Window :=
       { state := .pending, openMode := .time openVal.toNat, closeMode := x, tag := tag, maxLen := ml, openT := some (max openVal.toNat s.nowT), closeT := match x with
         | .edge .. => none | _ => some e
         tagged := 0
         timeout := false
         empty := false
         deleted := false
         freeAt := 0 }
     let u := s.enter.modWin w (fun _ => y)
     s.accepts h c = true →
     fin? 64 window.toNat = some w →
     openMode = 0 →
     winCloseMode? closeMode closeVal = some x →
     (s.time.windows.get w).state = .free →
     givenClose (.time openVal.toNat) x ml = some e →
     s.nowT < e →
     e ≤ openVal.toNat →
     exec (.winDefine h window openMode openVal closeMode closeVal tag maxLen) s = .next (s.answered h c
       { status := stDone, results := le 9 openVal.toNat } (u.winEmpty w))) ∧
  (∀ (h : CmdHdr) (window : BitVec 8) (edge : BitVec 8) (time : BitVec 72) (s : State) (w : Fin 64),
     let c : CmdSpec := { opcode := 0x0221, role := some .operator, params := pb window ++ pb edge ++ pb time }
     s.accepts h c = true →
     fin? 64 window.toNat = some w →
     edge = 0 →
     (s.time.windows.get w).state = .pending →
     s.nowT ≤ time.toNat →
     exec (.winModify h window edge time) s = .next (s.answered h c { status := stDone } (((s.enter.modWin w (fun x =>
       { x with openMode := .time time.toNat })).winSetOpen w time.toNat).calYieldWin w (time.toNat / 256)))) ∧
  (∀ (h : CmdHdr) (window : BitVec 8) (edge : BitVec 8) (time : BitVec 72) (s : State) (w : Fin 64),
     let c : CmdSpec := { opcode := 0x0221, role := some .operator, params := pb window ++ pb edge ++ pb time }
     let u := s.enter.modWin w (fun x =>
       { x with closeMode := .time time.toNat, closeT := some time.toNat, timeout := false })
     s.accepts h c = true →
     fin? 64 window.toNat = some w →
     edge = 1 →
     (s.time.windows.get w).state = .pending ∨ (s.time.windows.get w).state = .open →
     s.nowT < time.toNat →
     exec (.winModify h window edge time) s = .next (s.answered h c { status := stDone } (match ((u.time.windows.get
       w).openT) with
       | some o => if (s.time.windows.get w).state = .pending ∧ time.toNat ≤ o then u.winEmpty w else u
       | none => u))) ∧
  (∀ (h : CmdHdr) (window : BitVec 8) (s : State) (w : Fin 64),
     let c : CmdSpec := { opcode := 0x0222, role := some .operator, params := pb window }
     s.accepts h c = true →
     fin? 64 window.toNat = some w →
     (s.time.windows.get w).state = .open →
     exec (.winDelete h window) s = .next (s.answered h c { status := stDone } ((s.enter.modWin w (fun x =>
       { x with timeout := false })).winClose w s.nowT true))) ∧
  (∀ (h : CmdHdr) (window : BitVec 8) (s : State) (w : Fin 64),
     let c : CmdSpec := { opcode := 0x0222, role := some .operator, params := pb window }
     s.accepts h c = true →
     fin? 64 window.toNat = some w →
     (s.time.windows.get w).state = .pending →
     exec (.winDelete h window) s = .next (s.answered h c { status := stDone } ((s.enter.modWin w (fun x =>
       { x with deleted := true })).winEmpty w))) ∧
  (∀ (h : CmdHdr) (window : BitVec 8) (s : State) (w : Fin 64),
     let c : CmdSpec := { opcode := 0x0222, role := some .operator, params := pb window }
     s.accepts h c = true →
     fin? 64 window.toNat = some w →
     (s.time.windows.get w).state = .free ∨ (s.time.windows.get w).state = .closing →
     exec (.winDelete h window) s = .next (s.answered h c { status := stDone } s.enter)) ∧
  (∀ (h : CmdHdr) (window : BitVec 8) (s : State) (w : Fin 64),
     let c : CmdSpec := { opcode := 0x0223, role := some .operator, params := pb window }
     let x := s.time.windows.get w
     s.accepts h c = true →
     fin? 64 window.toNat = some w →
     exec (.winQuery h window) s = .next (s.answered h c
       { status := stDone
         results := le 1 x.state.code ++ le 9 (x.openT.getD 0) ++ le 9 (if x.timeout ∧ x.state = .open then 0 else
           x.closeT.getD 0) ++ pb x.tag ++ pb x.tagged } s.enter)) ∧
  (∀ (w : Fin 64) (s : State) (o : Time),
     let u : State := s.modWin w (fun x => match x.closeMode, x.openT with
       | .edge .., some o => { x with state := .open, closeT := some (time72 (o + x.maxLen * 256)), timeout := true }
       | _, _ => { x with state := .open })
     let x := u.time.windows.get w
     let v := u.emitNow 0x0220 (0x0200 + w.val) (le 1 w.val ++ pb x.tag)
     (s.time.windows.get w).state = .pending →
     (s.time.windows.get w).openT = some o →
     o ≤ s.nowT →
     exec (.winOpenTime w) s = .next ((v.fire 0x08 w.val (x.openT.getD v.nowT) (v.windowSet (x.openT.getD
       v.nowT))).calYieldWin w v.time.ticks)) ∧
  (∀ (w : Fin 64) (s : State) (x : Time),
     let u : State := s.modWin w (fun y =>
       { y with state := .closing, closeT := some x, freeAt := cdiv x 256 + s.time.horizon })
     (s.time.windows.get w).state = .open →
     (s.time.windows.get w).closeT = some x →
     x ≤ s.nowT →
     exec (.winCloseTime w) s = .next (((u.fire 0x09 w.val x (u.windowSet x)).dropBound w).closeBound w x)) ∧
  (∀ (w : Fin 64) (s : State) (x : Time),
     let u : State := s.modWin w (fun y =>
       { y with state := .closing, empty := true, timeout := false, freeAt := s.time.ticks + s.time.horizon })
     (s.time.windows.get w).state = .pending →
     (s.time.windows.get w).openT = none →
     (s.time.windows.get w).closeT = some x →
     x ≤ s.nowT →
     exec (.winCloseTime w) s = .next ((u.dropBound w).closeBound w s.nowT)) ∧
  (∀ (w : Fin 64) (s : State),
     let x := s.time.windows.get w
     (s.time.windows.get w).state = .closing →
     (s.time.windows.get w).freeAt ≤ s.time.ticks →
     exec (.winClosingEnd w) s = .next ((s.modWin w (fun y => { y with state := .free })).emitNow 0x0221 (0x0200 +
       w.val) (le 1 w.val ++ pb x.tag ++ pb x.tagged ++ le 1 (b2n x.timeout + 2 * b2n x.empty + 4 * b2n x.deleted)))) ∧
  (∀ (input : Fin 4) (stamp : BitVec 72) (falling : Bool) (s : State) (l : Time),
     (s.aq.trigIn.get input).last = some l →
     stamp.toNat < l + 16 * 256 →
     exec (.trigInEdge input stamp falling) s = .next
       ({ s with aq.trigIn := vmod s.aq.trigIn input (fun x => { x with closeN := satAdd x.closeN 1 }) })) ∧
  (∀ (input : Fin 4) (stamp : BitVec 72) (falling : Bool) (s : State),
     let x := s.aq.trigIn.get input
     let u : State := (List.finRange 64).foldl (fun s w => s.winEdgeAt w input falling stamp.toNat)
       { s with aq.trigIn := vmod s.aq.trigIn input (fun x => { x with last := some stamp.toNat }) }
     (∀ l, x.last = some l → l + 16 * 256 ≤ stamp.toNat) →
     exec (.trigInEdge input stamp falling) s = .next (if x.edges = 2 ∨ (x.edges = 1 ∧ falling) ∨ (x.edges = 0 ∧
       !falling) then u.fire (1 + input.val) 0 stamp.toNat (u.windowSet stamp.toNat) else u))

/-- ACT_ENQUEUE, ACT_CANCEL and ACT_QUERY, and the times at which the head of a queue is taken or lapses -/
def Obligations.ActionCommandsRun : Prop :=
  (∀ (h : CmdHdr) (queue : BitVec 8) (kind : BitVec 8) (time : BitVec 72) (tol : BitVec 32) (window : BitVec 8)
    (params : List (BitVec 8)) (s : State) (q : Fin 9) (a : Act),
     let c : CmdSpec :=
       { opcode := 0x0210
         role := some .operator
         params := pb queue ++ pb kind ++ pb time ++ pb tol ++ pb window ++ params }
     let n := s.time.nextHandle
     let u : State := State.enqueue
       { s.enter with
         time.nextHandle := nextH n
         time.outcomes := s.time.outcomes.filter (fun o => decide (o.handle ≠ n)) } q
       { handle := n, act := a, time := time.toNat, tol := tol.toNat, window := fin? 64 window.toNat }
     let v : State := match a with | .bankSwap d x us => u.swapAdd (swapRun n time.toNat d x us) | _ => u
     s.accepts h c = true →
     fin? 9 queue.toNat = some q →
     act? kind params = some a →
     window.toNat ≤ 63 ∨ window = 0xFF →
     a.onDevice = decide (q.val = 8) →
     (s.hk.halt && a.haltRefused) = false →
     (s.time.queues.get q).acts.length < 256 →
     s.enter.enqRefusal q s.time.nextHandle time.toNat a = none →
     exec (.actEnqueue h queue kind time tol window params) s = .next (s.answered h c
       { status := stDone, results := pb s.time.nextHandle } (match fin? 8 q.val with
       | none => v
       | some tile => v.calYieldAct tile (cdiv time.toNat 256 - v.leadOf tile a) (cdiv time.toNat 256)))) ∧
  (∀ (h : CmdHdr) (handle : BitVec 16) (s : State) (q : Fin 9) (a : QAct),
     let c : CmdSpec := { opcode := 0x0211, role := some .operator, params := pb handle }
     let u := (s.enter.dropAct q handle).keepOutcome handle 5 q a.time
     s.accepts h c = true →
     s.findAct handle = some (q, a) →
     exec (.actCancel h handle) s = .next (s.answered h c { status := stDone } (match a.act with
       | .bankSwap .. => u.swapDrop handle
       | .calSlot _ => (match fin? 8 q.val with
       | some t => u.slotCancel t handle
       | none => u)
       | _ => u))) ∧
  (∀ (h : CmdHdr) (handle : BitVec 16) (queue : BitVec 8) (s : State),
     let c : CmdSpec := { opcode := 0x0212, role := some .operator, params := pb handle ++ pb queue }
     s.accepts h c = true →
     handle = 0xFFFF →
     queue.toNat ≤ 8 →
     exec (.actQuery h handle queue) s = .next (s.answered h c
       { status := stDone, results := 0xFF#8 :: queryTail s queue.toNat 0 } s.enter)) ∧
  (∀ (h : CmdHdr) (handle : BitVec 16) (queue : BitVec 8) (s : State),
     let c : CmdSpec := { opcode := 0x0212, role := some .operator, params := pb handle ++ pb queue }
     s.accepts h c = true →
     handle ≠ 0xFFFF →
     exec (.actQuery h handle queue) s = .next (s.answered h c (match s.findAct handle with
       | some (q, a) => { status := stDone, results := (if a.held = 0 then 0#8 else 1#8) :: queryTail s q.val a.time }
       | none => match s.time.outcomes.find? (fun o => decide (o.handle = handle)) with
       | some o => { status := stDone, results := o.state :: queryTail s o.queue.toNat o.time }
       | none => { status := stDone, results := [6] }) s.enter)) ∧
  (∀ (q : Fin 9) (s : State) (a : QAct),
     s.headOf q = some a →
     (decide (q.val < 8) && s.deviceDue) = false →
     s.isLate q a = true →
     s.swapWaits a = false →
     exec (.actionToleranceExpiry q) s = .next (s.discard q a stLate)) ∧
  (∀ (q : Fin 9) (s : State),
     (∀ a, s.headOf q = some a → s.isLate q a = false) →
     exec (.actionToleranceExpiry q) s = .next (s)) ∧
  (∀ (q : Fin 9) (s : State) (a : QAct),
     s.headOf q = some a →
     a.held ≠ 0 →
     exec (.actionHoldRelease q) s = .next (s.judge q)) ∧
  (∀ (q : Fin 9) (s : State),
     (∀ a, s.headOf q = some a → a.held = 0) →
     exec (.actionHoldRelease q) s = .next (s))

/-- The timed actions of a tile, taken at the head of their queue -/
def Obligations.TileActionsTaken : Prop :=
  (∀ (t : Fin 8) (s : State) (a : QAct) (tgt : RState) (dwell : Nat),
     let r := s.radio.get t
     let now := s.time.ticks
     let d := transTicks r.state tgt
     let u := ((s.cutBurst t now).takeAct (tileQ t) a).startTransit t now tgt (now + d) (some
       { handle := a.handle, kind := 1, time := a.time })
     let v := u.modRadio t (fun r =>
       { r with
         burst := if dwell = 0 then none else some
           { kind := .dwell, handle := a.handle, startT := now + d, endT := now + d + dwell, muted := false } })
     let w := if d = 0 then v.arrive t else v
     s.ripe (tileQ t) a = true →
     a.act = .radioState tgt dwell →
     tgt = .off ∨ s.pw.parked.getLsbD t.val = false →
     r.transit = none →
     useAllows r.use tgt = true →
     tgt ≠ .tx ∧ tgt ≠ .cal →
     r.state ≠ .off ∨ tgt = .off ∨ (s.clk.conv.get t).en = true →
     exec (.radioState t) s = .next (if (w.cal.tiles.get t).running.isSome then w.slotEnd t false else w)) ∧
  (∀ (t : Fin 8) (s : State) (a : QAct) (fc : Nat) (mode : RetuneMode),
     let r := s.radio.get t
     s.ripe (tileQ t) a = true →
     a.act = .retune fc mode →
     r.transit = none →
     r.state = .off ∨ r.state = .sleep →
     exec (.retune t) s = .next ((s.modRadio t (fun r => { r with fc := fc, fcSet := true })).finishAct (tileQ t) a
       stDone (s.time.ticks * 256))) ∧
  (∀ (t : Fin 8) (s : State) (a : QAct) (fc : Nat) (mode : RetuneMode),
     let r := s.radio.get t
     let u := (s.finishAct (tileQ t) a stDone (s.time.ticks * 256)).modRadio t (fun r =>
       { r with fc := fc, fcSet := true })
     s.ripe (tileQ t) a = true →
     a.act = .retune fc mode →
     r.transit = none →
     r.state ≠ .tx ∧ r.state ≠ .off ∧ r.state ≠ .sleep →
     r.retune = .none →
     exec (.retune t) s = .next (if retuneGlides t mode r.fc fc then (if glideSteps r.fc fc = 0 then u.modRadio t (fun
       r => { r with settleLast := 0 }) else u.glideStep t r.fc fc (glideSteps r.fc fc) s.time.ticks) else
       ((u.modRadio t (fun r =>
       { r with
         retune := .large fc s.time.ticks (s.time.ticks + 44237)
         large := satAdd r.large 1
         lo := none })).modPll (rfPll t) (fun p => { p with lock := false })).modRes t (fun x => if x.rffe.seq.isEmpty
       then x else
       { x with
         rffe.seqStart := some s.time.ticks
         rffe.seqLeft := x.rffe.seq.length
         rffe.seqOver := false
         rffe.listOp := x.rffe.run.isSome }))) ∧
  (∀ (t : Fin 8) (s : State) (a : QAct) (len : Nat),
     let r := s.radio.get t
     let now := s.time.ticks
     let d := transTicks r.state .tx
     let m := max d (s.txLead t)
     let u := ((s.cutBurst t (now + m - d)).takeAct (tileQ t) a).startTransit t (now + m - d) .tx (now + m) (some
       { handle := a.handle, kind := 3, time := a.time })
     let v : State :=
       { u with
         hk.txLog := vmod u.hk.txLog t (fun l => (now + m, now + m + len) :: l.filter (fun x => decide (now < x.2 +
           9830400))) }
     s.ripe (tileQ t) a = true →
     a.act = .txBurst len →
     s.txHeld t = 0 →
     useAllows r.use .tx = true →
     s.txCapOk t len (now + m + len) = true →
     exec (.txBurst t) s = .next (v.modRadio t (fun r =>
       { r with
         leadAt := some (now + m - s.txLead t)
         burst := some { kind := .tx, handle := a.handle, startT := now + m, endT := now + m + len, muted := false } }))) ∧
  (∀ (t : Fin 8) (s : State) (a : QAct) (g : Fin 8) (m : PickMode),
     s.ripe (tileQ t) a = true →
     a.act = .pickCtl g m →
     (s.radio.get t).inTransit s.time.ticks = false →
     exec (.pickCtl t) s = .next (((s.finishAct (tileQ t) a stDone s.nowT).modPick g (fun x =>
       { x with mode := m })).pickAbort g)) ∧
  (∀ (t : Fin 8) (s : State) (a : QAct) (index : Nat) (level : BitVec 8),
     s.ripe (tileQ t) a = true →
     a.act = .femLevels index level →
     (s.radio.get t).inTransit s.time.ticks = false →
     exec (.femLevels t) s = .next ((s.finishAct (tileQ t) a stDone s.nowT).modRes t (fun r =>
       { r with fem.pats := vmap r.fem.pats (fun k v => if k.val = index then level else v) }))) ∧
  (∀ (t : Fin 8) (s : State) (a : QAct) (len : Nat),
     let r := s.radio.get t
     let now := s.time.ticks
     let d := transTicks r.state .cal
     let u := (s.takeAct (tileQ t) a).startTransit t now .cal (now + d) none
     s.ripe (tileQ t) a = true →
     a.act = .calSlot len →
     r.transit = none →
     useAllows r.use .cal = true →
     r.state = r.home →
     r.burst = none →
     exec (.calSlot t) s = .next ((u.modRadio t (fun r =>
       { r with
         burst := some
           { kind := .calSlot, handle := a.handle, startT := now + d, endT := now + d + len, muted := false } })).slotBegin
       t a.handle))

/-- The timed actions of the device queue, taken at its head -/
def Obligations.DeviceActionsTaken : Prop :=
  (∀ (s : State) (a : QAct) (dirs : BitVec 2) (ch : Bool) (us : List TileUse) (w : SwapRun),
     s.ripe 8 a = true →
     a.act = .bankSwap dirs ch us →
     s.swapOf a.handle = some w →
     w.begun = true ∨ (s.swapHeld w = 0 ∧ s.joins w = []) →
     exec .bankSwap s = .next (s.swapTake w a)) ∧
  (∀ (s : State) (a : QAct) (dirs : BitVec 2) (ch : Bool) (us : List TileUse) (w : SwapRun),
     s.ripe 8 a = true →
     a.act = .bankSwap dirs ch us →
     s.swapOf a.handle = some w →
     w.begun = false →
     s.swapHeld w = 0 →
     s.joins w ≠ [] →
     exec .bankSwap s = .next (s.swapBegin w)) ∧
  (∀ (s : State) (a : QAct) (m : BitVec 16) (w : Option (Fin 64)),
     s.ripe 8 a = true →
     a.act = .acqArm m w →
     s.armOk m w = true →
     exec .acqArm s = .next ((s.finishAct 8 a stDone s.nowT).arm m w)) ∧
  (∀ (s : State) (a : QAct) (m : BitVec 16),
     s.ripe 8 a = true →
     a.act = .softTrigger m →
     exec .softTrigger s = .next ((s.finishAct 8 a stDone s.nowT).softFire m 0x28 s.nowT)) ∧
  (∀ (s : State) (a : QAct) (p : Fin 4) (level : Bool),
     let u := s.finishAct 8 a stDone s.nowT
     s.ripe 8 a = true →
     a.act = .trigOutEdge p level →
     (s.aq.trigOut.get p).route = false →
     exec .trigOutEdge s = .next ({ u with aq.trigOut := vmod u.aq.trigOut p (fun x => { x with level := level }) })) ∧
  (∀ (s : State) (a : QAct) (m : BitVec 16) (tgt : LaneTarget),
     s.ripe 8 a = true →
     a.act = .laneState m tgt →
     exec .laneState s = .next ((s.finishAct 8 a stDone s.nowT).laneState m tgt)) ∧
  (∀ (s : State) (a : QAct) (m : BitVec 16) (op : AnOp),
     s.ripe 8 a = true →
     a.act = .analyserCfg m op →
     op ≠ .densitySwap ∨ s.swapBusy (lanesOf m) = false →
     exec .analyserCfg s = .next ((sourcesOfMask m).foldl (fun s x => s.anOp op x) ((s.swapWith a).finishAct 8 a
       stDone s.nowT))) ∧
  (∀ (s : State) (w : SwapRun) (e : Nat),
     s.beam.swaps.find? (fun w => match w.effAt with | some e => decide (e ≤ s.time.ticks) | none => false) = some w →
     w.effAt = some e →
     exec .swapEffectiveSample s = .next (if w.uses.isSome then (s.swapEffect w e).relead else (s.swapEffect w
       e).judgePicks))

/-- Rows of the tile radio states: each runs to the state its rule gives -/
def Obligations.RadioStateRowsRun : Prop :=
  (∀ (t : Fin 8) (s : State) (x : Transit),
     (s.radio.get t).transit = some x →
     x.till ≤ s.time.ticks →
     exec (.transitionComplete t) s = .next ((s.reach t).checkStitch)) ∧
  (∀ (t : Fin 8) (s : State) (b : Burst),
     let u := s.endBurst t b.endT false
     let v := if b.kind = .calSlot then u.slotEnd t true else u
     (s.radio.get t).transit = none →
     (s.radio.get t).burst = some b →
     b.endT ≤ s.time.ticks →
     exec (.burstLengthEnd t) s = .next ((v.goHome t v.time.ticks).orxServe t)) ∧
  (∀ (t : Fin 8) (s : State) (x : Nat),
     (s.radio.get t).leadAt = some x →
     x ≤ s.time.ticks →
     exec (.txLeadStart t) s = .next (s.modRadio t (fun r => { r with leadAt := none, txPat := some true }))) ∧
  (∀ (t : Fin 8) (s : State) (x : Nat),
     (s.radio.get t).lagEnd = some x →
     x ≤ s.time.ticks →
     (∀ b, (s.radio.get t).burst = some b → b.kind = .tx → s.time.ticks + s.txLead t < b.startT) →
     exec (.txLagEnd t) s = .next (s.modRadio t (fun r =>
       { r with
         lagEnd := none
         txPat := if r.txPat.isNone then r.txPat else if r.transit.isNone && decide (r.state ≠ .tx) then none else
           some false }))) ∧
  (∀ (t : Fin 8) (s : State) (base : Nat) (tgt : Nat) (left : Nat) (at_ : Nat) (start : Nat) (late : Bool),
     let u := s.modRadio t (fun r =>
       { (r.endRetune s.time.ticks) with settleLast := BitVec.ofNat 24 (min (2 ^ 24 - 1) (s.time.ticks - start)) })
     (s.radio.get t).retune = .glide base tgt left at_ start late →
     left ≤ 1 →
     exec (.glideStepConfirm t) s = .next ((u.modRadio t (fun r =>
       { r with lo := some { at_ := s.time.ticks, turn := u.loSet t } })).checkStitch)) ∧
  (∀ (t : Fin 8) (s : State) (base : Nat) (tgt : Nat) (left : Nat) (at_ : Nat) (start : Nat) (late : Bool),
     (s.radio.get t).retune = .glide base tgt left at_ start late →
     2 ≤ left →
     exec (.glideStepConfirm t) s = .next (s.glideStep t base tgt (left - 1) start)) ∧
  (∀ (t : Fin 8) (s : State) (base : Nat) (tgt : Nat) (left : Nat) (at_ : Nat) (start : Nat),
     (s.radio.get t).retune = .glide base tgt left at_ start false →
     at_ + 5899 ≤ s.time.ticks →
     exec (.glideStepOverbudget t) s = .next (s.modRadio t (fun r =>
       { r with retune := .glide base tgt left at_ start true, overbudget := satAdd r.overbudget 1 }))) ∧
  (∀ (t : Fin 8) (s : State) (base : Nat) (tgt : Nat) (left : Nat) (at_ : Nat) (start : Nat) (late : Bool),
     (s.radio.get t).retune = .glide base tgt left at_ start late →
     at_ + 44237 ≤ s.time.ticks →
     exec (.glideStepTimeout t) s = .next (s.glideFallback t tgt start)) ∧
  (∀ (t : Fin 8) (s : State) (fc : Nat) (start : Nat) (till : Nat),
     let u := (s.modPll (rfPll t) (fun p => { p with lock := true })).modRadio t (fun r =>
       { (r.endRetune s.time.ticks) with settleLast := BitVec.ofNat 24 (min (2 ^ 24 - 1) (s.time.ticks - start)) })
     let v := u.modPdTile t (fun x => { x with pulseFor := (s.radio.get t).band, regen := false })
     (s.radio.get t).retune = .large fc start till →
     till ≤ s.time.ticks →
     exec (.largeRetuneComplete t) s = .next ((v.modRadio t (fun r =>
       { r with lo := some { at_ := s.time.ticks, turn := v.loSet t } })).checkStitch)) ∧
  (∀ (t : Fin 8) (s : State) (start : Nat) (till : Nat),
     let u := (s.modPll (rfPll t) (fun p => { p with lock := true })).modRadio t (fun r =>
       { (r.endRetune s.time.ticks) with settleLast := BitVec.ofNat 24 (min (2 ^ 24 - 1) (s.time.ticks - start)) })
     let v := u.modPdTile t (fun x => { x with pulseFor := (s.radio.get t).band, regen := false })
     (s.radio.get t).retune = .lock start till →
     exec (.largeRetuneComplete t) s = .next ((v.modRadio t (fun r =>
       { r with lo := some { at_ := s.time.ticks, turn := v.loSet t } })).checkStitch)) ∧
  (∀ (h : CmdHdr) (tiles : BitVec 8) (home : BitVec 8) (s : State),
     let c : CmdSpec := { opcode := 0x0250, role := some .operator, params := pb tiles ++ pb home }
     s.accepts h c = true →
     home = 2 ∨ home = 3 →
     exec (.tileHomeSet h tiles home) s = .next (s.answered h c { status := stDone }
       { s.enter with
         radio := vmap s.radio (fun t r => if tiles.getLsbD t.val then { r with apHomeRx := decide (home = 3) } else
           r) })) ∧
  (∀ (h : CmdHdr) (tile : BitVec 8) (s : State) (t : Fin 8),
     let c : CmdSpec := { opcode := 0x0251, role := some .operator, params := pb tile }
     s.accepts h c = true →
     fin? 8 tile.toNat = some t →
     exec (.tileStateGet h tile) s = .next (s.answered h c
       { status := stDone
         results := le 4 (regTlState s t) ++ le 8 (s.radio.get t).fc ++ le 4 (regTlTxhold (s.radio.get t)) ++ pb
           (s.radio.get t).band } s.enter)) ∧
  (∀ (h : CmdHdr) (tiles : BitVec 8) (band : BitVec 32) (s : State),
     let c : CmdSpec := { opcode := 0x0252, role := some .installer, journal := true, params := pb tiles ++ pb band }
     s.accepts h c = true →
     1000000 ≤ band.toNat ∧ band.toNat ≤ 800000000 →
     ((maskBits 8 tiles.toNat).all (fun t => s.bandOk t band.toNat)) = true →
     exec (.tileBandSet h tiles band) s = .next (s.answered h c { status := stDone } ((maskBits 8 tiles.toNat).foldl
       (fun s t => if (s.radio.get t).band = band then s else (s.modRadio t (fun r =>
       { r with band := band })).modPdTile t (fun x => { x with regen := true })) s.enter)))

/-- Commands of the transceiver paths, front-end lines and RFFE masters: each runs to the state its rule gives -/
def Obligations.PathCommandsRun : Prop :=
  (∀ (h : CmdHdr) (paths : BitVec 64) (atten : BitVec 8) (gain : BitVec 8) (port : BitVec 8) (s : State),
     let c : CmdSpec :=
       { opcode := 0x0240, role := some .operator, params := pb paths ++ pb atten ++ pb gain ++ pb port }
     s.accepts h c = true →
     atten.toNat ≤ 30 ∨ atten = 0xFF →
     gain.toNat ≤ 40 ∨ gain = 0xFF →
     port.toNat ≤ 1 ∨ port = 0xFF →
     port = 0xFF ∨ (maskBits 64 paths.toNat).all (fun p => (s.groupOf (tileOf p)).isNone) = true →
     exec (.pathSet h paths atten gain port) s = .next (s.answered h c { status := stDone } ((maskBits 64
       paths.toNat).foldl (fun s p => let k := (s.paths.get p).ctl; s.writePaCtl p ((if atten = 0xFF then k &&&
       0x1F#32 else atten.setWidth 32) ||| (if gain = 0xFF then k &&& 0x7F00#32 else gain.setWidth 32 <<< 8) ||| (if
       port = 0xFF then k &&& 0x10000#32 else port.setWidth 32 <<< 16))) s.enter))) ∧
  (∀ (h : CmdHdr) (path : BitVec 8) (s : State) (p : Fin 64),
     let c : CmdSpec := { opcode := 0x0241, role := some .operator, params := pb path }
     let x := s.paths.get p
     s.accepts h c = true →
     fin? 64 path.toNat = some p →
     exec (.pathGet h path) s = .next (s.answered h c
       { status := stDone
         results := le 1 x.atten ++ le 1 (min 40 (bitsOf x.ctl.toNat 14 8)) ++ le 1 (b2n x.portNow) ++ le 4 (regPaStat
           s p) } s.enter)) ∧
  (∀ (h : CmdHdr) (tiles : BitVec 8) (pats : List (BitVec 8)) (od : BitVec 8) (lead : BitVec 16) (lag : BitVec 16)
    (sel0 : BitVec 8) (sel1 : BitVec 8) (sel2 : BitVec 8) (s : State),
     let c : CmdSpec :=
       { opcode := 0x0242
         role := some .installer
         journal := true
         params := pb tiles ++ pats.flatMap pb ++ pb od ++ pb lead ++ pb lag ++ pb sel0 ++ pb sel1 ++ pb sel2 }
     s.accepts h c = true →
     pats.length = 10 ∧ lead.toNat ≤ 2047 ∧ lag.toNat ≤ 2047 →
     [sel0, sel1, sel2].all (fun v => decide (v.toNat ≤ 7 ∨ v = 0xFF)) = true →
     (maskBits 8 tiles.toNat).all (fun t => decide ((s.radio.get t).shown s.time.ticks ≠ .tx)) = true →
     exec (.femPatternSet h tiles pats od lead lag sel0 sel1 sel2) s = .next (s.answered h c { status := stDone }
       ((maskBits 8 tiles.toNat).foldl (fun s t => s.modRes t (fun r =>
       { r with
         fem :=
           { pats := Vector.ofFn (fun k => pats.getD k.val 0)
             cfg := (lag.setWidth 32 <<< 19) ||| (lead.setWidth 32 <<< 8) ||| od.setWidth 32
             sel := Vector.ofFn (fun k => selLine ([sel0, sel1, sel2].getD k.val 0xFF)) } })) s.enter))) ∧
  (∀ (h : CmdHdr) (tile : BitVec 8) (count : BitVec 8) (ops : List RffeOp) (s : State) (t : Fin 8),
     let reads := ops.all rffeReads
     let c : CmdSpec :=
       { opcode := 0x0243
         role := some (if reads then .operator else .installer)
         journal := !reads
         params := pb tile ++ pb count ++ ops.flatMap rffeBytes
         needInd := true }
     let list : RffeRun := { mb := h.mb, base := h.indirect.toNat, count := ops.length, done := 0 }
     s.accepts h c = true →
     fin? 8 tile.toNat = some t →
     count ≠ 0 ∧ count.toNat ≤ 32 ∧ ops.length = count.toNat →
     ops.all rffeOk = true →
     exec (.rffeXfer h tile count ops) s = .next (s.answered h c { status := stDone, wait := some (.rffe t) }
       (s.enter.modRes t (fun r => if r.rffe.run.isNone then { r with rffe.run := some list, rffe.listOp := false }
       else { r with rffe.queue := r.rffe.queue ++ [list] })))) ∧
  (∀ (h : CmdHdr) (tile : BitVec 8) (count : BitVec 8) (divWr : BitVec 8) (divRd : BitVec 8) (ops : List RffeOp) (s :
    State) (t : Fin 8),
     let c : CmdSpec :=
       { opcode := 0x0244
         role := some .installer
         journal := true
         params := pb tile ++ pb count ++ pb divWr ++ pb divRd ++ ops.flatMap rffeBytes
         needInd := true }
     s.accepts h c = true →
     fin? 8 tile.toNat = some t →
     count.toNat ≤ 8 ∧ ops.length = count.toNat →
     ops.all (fun o => rffeOk o && !rffeReads o) = true →
     10 * seqTicks divWr ops ≤ 393216 →
     exec (.rffeRetuneSeq h tile count divWr divRd ops) s = .next (s.answered h c { status := stDone } (s.enter.modRes
       t (fun r => { r with rffe.seq := ops, rffe.divWr := divWr, rffe.divRd := divRd })))) ∧
  (∀ (h : CmdHdr) (det : BitVec 8) (beam : BitVec 8) (ptr : BitVec 32) (half : BitVec 16) (thr : BitVec 16) (evt :
    BitVec 8) (s : State) (t : Fin 8) (b : Fin 32),
     let c : CmdSpec :=
       { opcode := 0x0245
         role := some .operator
         params := pb det ++ pb beam ++ pb ptr ++ pb half ++ pb thr ++ pb evt
         ptrs := if half = 0 then [] else [(ptr.toNat, 8 * half.toNat)] }
     let ws := (chunks 4 (2 * half.toNat) (memRead 0 s.pup.mbRam ptr.toNat (8 * half.toNat))).map (fun x =>
       BitVec.ofNat 32 (unle x))
     let set : State → State := fun s => State.rehorizon (s.modRes t (fun r =>
       { r with
         det.enabled := decide (half ≠ 0)
         det.beam := b
         det.half := half.setWidth 9
         det.thr := thr
         det.evt := decide (evt = 1)
         det.template := ws
         det.line := [] }))
     s.accepts h c = true →
     fin? 8 det.toNat = some t →
     fin? 32 beam.toNat = some b →
     half = 0 ∨ (16 ≤ half.toNat ∧ half.toNat ≤ 256) →
     thr ≠ 0 ∧ evt.toNat ≤ 1 →
     (set s.enter).ledFit t = true ∧ (set s.enter).chansFit = true →
     exec (.preambleCfg h det beam ptr half thr evt) s = .next (s.answered h c { status := stDone } ((set
       (s.enter.endLed t (decide (half = 0)))).judgePicks))) ∧
  (∀ (h : CmdHdr) (group : BitVec 8) (tiles : BitVec 8) (home : BitVec 8) (bias : BitVec 8) (hold : BitVec 32) (enable
    : BitVec 8) (s : State) (g : Fin 8),
     let c : CmdSpec :=
       { opcode := 0x0246
         role := some .installer
         journal := true
         params := pb group ++ pb tiles ++ pb home ++ pb bias ++ pb hold ++ pb enable }
     let set : PickGroup → PickGroup := fun x =>
       { x with
         tiles := tiles
         home := decide (home = 1)
         bias := bias.setWidth 5
         hold := hold.setWidth 24
         enabled := decide (enable = 1)
         latOk := true }
     let u := if (s.pick.get g).enabled then s.enter.pickAbort g else s.enter
     let v := u.modPick g (fun x => { set x with phase := .idle })
     let w : State :=
       { v with
         paths := vmap v.paths (fun p x => match v.groupOf (tileOf p) with
           | some _ => x
           | none => { x with portNow := v.ownPort p }) }
     s.accepts h c = true →
     fin? 8 group.toNat = some g →
     home.toNat ≤ 1 ∧ bias.toNat ≤ 24 ∧ hold ≠ 0 ∧ hold.toNat ≤ 16777215 ∧ enable.toNat ≤ 1 →
     (List.finRange 8).all (fun k => decide (k = g) || decide ((s.pick.get k).tiles &&& tiles = 0)) = true →
     (enable = 1 → (s.enter.modPick g set).groupFits g = true) →
     exec (.pickGroupCfg h group tiles home bias hold enable) s = .next (s.answered h c { status := stDone } (if
       enable = 1 then w.groupPort g (w.pick.get g).rest else w))) ∧
  (∀ (h : CmdHdr) (path : BitVec 8) (coupling : BitVec 8) (delay : BitVec 16) (atten : BitVec 8) (settle : BitVec 16)
    (s : State) (p : Fin 64),
     let c : CmdSpec :=
       { opcode := 0x0247
         role := some .installer
         journal := true
         params := pb path ++ pb coupling ++ pb delay ++ pb atten ++ pb settle }
     let u := (s.enter.modPath p (fun x =>
       { x with coupling := some coupling, routeDelay := delay, orxAtten := atten, orxSettle := settle })).modRes
       (tileOf p) (fun r => if r.orx.sel = idxOf p ∧ r.orx.busy = false then
       { r with orx.atten := atten.setWidth 5, orx.settle := settle.setWidth 12 } else r)
     s.accepts h c = true →
     fin? 64 path.toNat = some p →
     delay.toNat ≤ 4095 ∧ atten.toNat ≤ 20 ∧ settle.toNat ≤ 4095 →
     exec (.orxCouplingSet h path coupling delay atten settle) s = .next (s.answered h c { status := stDone } ((if
       (s.paths.get p).coupling.isNone then u.modPd p (fun x => { x with lastAcc := s.time.ticks }) else u).pdRefresh
       (tileOf p))))

/-- Events of the RFFE masters, preamble detectors and pick groups: each runs to the state its rule gives -/
def Obligations.PathEventsRun : Prop :=
  (∀ (t : Fin 8) (parity : Bool) (data : List (BitVec 8)) (s : State),
     0 < (s.res.get t).rffe.seqLeft →
     (s.res.get t).rffe.listOp = false →
     exec (.rffeOperationDone t parity data) s = .next (s.modRes t (fun r =>
       { r with
         rffe.seqLeft := r.rffe.seqLeft - 1
         rffe.seqStart := if r.rffe.seqLeft = 1 then none else r.rffe.seqStart }))) ∧
  (∀ (t : Fin 8) (parity : Bool) (data : List (BitVec 8)) (s : State) (r : RffeRun),
     let at_ := r.base + 2 + 24 * r.done
     let reads := decide (memGet 0 s.pup.mbRam at_ = 1 ∨ memGet 0 s.pup.mbRam at_ = 4 ∨ memGet 0 s.pup.mbRam at_ = 6)
     let u : State := if reads then
       { s with
         pup.mbRam := memWrite 0 s.pup.mbRam (at_ + 8) (padTo (min (memGet 0 s.pup.mbRam (at_ + 4)).toNat 16) data) }
       else s
     (s.res.get t).rffe.seqLeft = 0 ∨ (s.res.get t).rffe.listOp = true →
     (s.res.get t).rffe.run = some r →
     (reads && parity) = false →
     exec (.rffeOperationDone t parity data) s = .next (if r.done + 1 = r.count then u.rffeEnd t r stDone r.count else
       u.modRes t (fun y => { y with rffe.run := some { r with done := r.done + 1 }, rffe.listOp := false }))) ∧
  (∀ (t : Fin 8) (parity : Bool) (data : List (BitVec 8)) (s : State) (r : RffeRun),
     (s.res.get t).rffe.seqLeft = 0 ∨ (s.res.get t).rffe.listOp = true →
     (s.res.get t).rffe.run = some r →
     memGet 0 s.pup.mbRam (r.base + 2 + 24 * r.done) = 1 ∨ memGet 0 s.pup.mbRam (r.base + 2 + 24 * r.done) = 4 ∨
       memGet 0 s.pup.mbRam (r.base + 2 + 24 * r.done) = 6 →
     parity = true →
     exec (.rffeOperationDone t parity data) s = .next (((s.modRes t (fun r =>
       { r with rffe.parity := satAdd r.rffe.parity 1 })).rffeEnd t r stAborted r.done).rffeFault t 1 r.done)) ∧
  (∀ (t : Fin 8) (s : State) (st : Nat),
     let x := (s.res.get t).rffe
     x.seqStart = some st →
     x.seqOver = false →
     x.seqLeft ≠ 0 →
     393216 < 10 * (s.time.ticks - st) →
     exec (.rffeSeqOverrun t) s = .next ((s.modRes t (fun r =>
       { r with rffe.seqOver := true, rffe.overrun := satAdd r.rffe.overrun 1 })).rffeFault t 2 (x.seq.length -
       x.seqLeft))) ∧
  (∀ (t : Fin 8) (s : State) (first : Nat) (before : Corr) (after : Corr) (c : Corr),
     let d := (s.res.get t).det
     let period := periodOf (s.rxBeam d.beam).rate
     let st := peakStamp period first before c after
     let set := s.windowSet st
     let run : PickRun :=
       { lead := t
         stamp := st
         windows := BitVec.ofNat 64 set
         rho := c.rho
         first := first
         num := (c.power d.half.toNat).1
         den := (c.power d.half.toNat).2 }
     let u := (s.modRes t (fun r =>
       { r with det.deadTill := st + 2 * d.half.toNat * period * 256, det.cnt := satAdd r.det.cnt 1 })).fire 0x20
       t.val st set
     d.enabled = true →
     s.beamRuns d.beam = true →
     d.peak period = some (first, before, after, c) →
     exec (.preambleDetection t) s = .next (match u.groupOf t with
       | none => u.emitPreamble t st set c.rho 0 run.home 0x8000
       | some g => if u.leadTile g ≠ some t ∨ (u.pick.get g).mode ≠ .auto ∨ (u.pick.get g).latOk = false then
           u.emitPreamble t st set c.rho 0 run.home 0x8000 else match (u.pick.get g).phase with
       | .idle => u.modPick g (fun x =>
           { x with phase := .first run (cdiv st 256 + d.half.toNat * period + u.dPick d.beam) })
       | _ => (u.modRes t (fun r => { r with det.busy := satAdd r.det.busy 1 })).emitPreamble t st set c.rho 4
           run.home 0x8000)) ∧
  (∀ (g : Fin 8) (s : State) (r : PickRun) (sw : Nat),
     (s.pick.get g).phase = .first r sw →
     sw ≤ s.time.ticks →
     exec (.pickSwitch g) s = .next ((s.groupPort g (!(s.pick.get g).home)).modPick g (fun y =>
       { y with phase := .second r (s.groupPort g (!(s.pick.get g).home)).time.ticks }))) ∧
  (∀ (g : Fin 8) (s : State) (r : PickRun) (sw : Nat),
     let x := s.pick.get g
     let xs := s.secondHalf r sw
     let c := (corrOf xs).power xs.length
     x.phase = .second r sw →
     s.secondDone r = true →
     2 * xs.length < (s.res.get r.lead).det.half.toNat →
     exec (.pickDecision g) s = .next ((((s.pickReport g 3 (if xs.isEmpty then 0x8000 else BitVec.ofInt 16 (log16 c.1
       c.2))).pickCount g (fun y => { y with void := satAdd y.void 1 })).groupPort g x.home).modPick g (fun x =>
       { x with phase := .idle }))) ∧
  (∀ (g : Fin 8) (s : State) (r : PickRun) (sw : Nat),
     let x := s.pick.get g
     let xs := s.secondHalf r sw
     let c := (corrOf xs).power xs.length
     let other := keepsOther c (r.num, r.den) x.bias.toNat
     let u := s.pickReport g (if other then 2 else 1) (BitVec.ofInt 16 (log16 c.1 c.2))
     let v := u.pickCount g (fun y => if x.home != other then { y with b := satAdd y.b 1 } else
       { y with a := satAdd y.a 1 })
     x.phase = .second r sw →
     s.secondDone r = true →
     (s.res.get r.lead).det.half.toNat ≤ 2 * xs.length →
     exec (.pickDecision g) s = .next (v.modPick g (fun y =>
       { y with phase := if other then .hold (s.time.ticks + y.hold.toNat) else .returning (s.time.ticks + 8) }))) ∧
  (∀ (g : Fin 8) (s : State) (r : Nat),
     (s.pick.get g).phase = .returning r →
     r ≤ s.time.ticks →
     exec (.pickReturnHome g) s = .next ((s.groupPort g (s.pick.get g).home).modPick g (fun y =>
       { y with phase := .hold (r - 8 + y.hold.toNat) }))) ∧
  (∀ (g : Fin 8) (s : State) (till : Nat),
     (s.pick.get g).phase = .hold till →
     till ≤ s.time.ticks ∨ s.leadTile g = none ∨ (∃ t, s.leadTile g = some t ∧ (s.radio.get t).shown s.time.ticks ≠
       .rx) →
     exec (.pickHoldEnd g) s = .next ((s.groupPort g (s.pick.get g).home).modPick g (fun y =>
       { y with phase := .idle })))

/-- Commands of the clocks: each runs to the state its rule gives -/
def Obligations.ClockCommandsRun : Prop :=
  (∀ (h : CmdHdr) (tiles : BitVec 8) (en : BitVec 8) (delay : BitVec 16) (trim1 : BitVec 8) (trim2 : BitVec 8) (trim3
    : BitVec 8) (trim4 : BitVec 8) (s : State),
     let c : CmdSpec :=
       { opcode := 0x0110
         role := some .installer
         journal := true
         params := pb tiles ++ pb en ++ pb delay ++ pb trim1 ++ pb trim2 ++ pb trim3 ++ pb trim4 }
     s.accepts h c = true →
     en.toNat ≤ 1 ∨ en = 0xFF →
     delay = 0x8000 ∨ (-503 ≤ delay.toInt ∧ delay.toInt ≤ 503) →
     en ≠ 0 ∨ (maskBits 8 tiles.toNat).all (fun t => decide ((s.radio.get t).shown s.time.ticks = .off)) = true →
     exec (.ckConvSet h tiles en delay trim1 trim2 trim3 trim4) s = .next (s.answered h c { status := stDone }
       ((maskBits 8 tiles.toNat).foldl (fun s t => s.convSlew t)
       { s.enter with
         clk.conv := vmap s.clk.conv (fun t x => if tiles.getLsbD t.val then
           { x with
             en := if en = 0xFF then x.en else decide (en = 1)
             delay := if delay = 0x8000 then x.delay else delay.setWidth 10
             trim := vmap x.trim (fun k v => if [trim1, trim2, trim3, trim4].getD k.val 0x80 = 0x80 then v else
               [trim1, trim2, trim3, trim4].getD k.val 0x80) } else x) }))) ∧
  (∀ (h : CmdHdr) (period : BitVec 64) (limit : BitVec 16) (s : State),
     let c : CmdSpec :=
       { opcode := 0x0111, role := some .installer, journal := true, params := pb period ++ pb limit }
     s.accepts h c = true →
     period.toNat < 2 ^ 40 ∧ limit ≠ 0 →
     exec (.ckSyncCfg h period limit) s = .next (s.answered h c { status := stDone }
       { s.enter with clk.period := period.toNat, clk.limit := limit })) ∧
  (∀ (h : CmdHdr) (sel : BitVec 8) (s : State),
     let c : CmdSpec := { opcode := 0x0112, role := some .operator, params := pb sel }
     s.accepts h c = true →
     sel.toNat ≤ 15 →
     exec (.ckLockmonSel h sel) s = .next (s.answered h c { status := stDone }
       { s.enter with clk.lockmon := sel.setWidth 4 })) ∧
  (∀ (h : CmdHdr) (plls : BitVec 16) (s : State),
     let c : CmdSpec := { opcode := 0x0113, role := some .operator, params := pb plls }
     let u := s.enter.noteMutes
     s.accepts h c = true →
     (maskBits 16 plls.toNat).all (fun p => !(s.clk.plls.get p).fault || ((s.clk.plls.get p).lock && (s.clk.plls.get
       p).relocked)) = true →
     exec (.ckFaultAck h plls) s = .next (s.answered h c { status := stDone }
       { u with
         clk.plls := vmap u.clk.plls (fun p x => if plls.getLsbD p.val ∧ x.fault then
           { x with fault := false, relocked := false, suspect := none } else x) })) ∧
  (∀ (h : CmdHdr) (pll : BitVec 8) (s : State) (p : Fin 16),
     let c : CmdSpec := { opcode := 0x0114, role := some .installer, journal := true, params := pb pll }
     let u := s.enter.relock p true
     s.accepts h c = true →
     fin? 16 pll.toNat = some p →
     pllUsed p = true →
     s.relockRefused p = false →
     exec (.ckPllRelock h pll) s = .next (s.answered h c { status := stAccepted } (if p = 1 then
       { u with clk.dspSafe := true } else if p = 2 then { u with clk.mgmtSafe := true } else u))) ∧
  (∀ (h : CmdHdr) (s : State),
     let c : CmdSpec := { opcode := 0x0115, role := some .operator, params := [] }
     s.accepts h c = true →
     exec (.ckStatus h) s = .next (s.answered h c
       { status := stDone
         results := le 4 (regPllStat s) ++ le 4 (regSafe s.clk) ++ le 4 (regSyncStat s.clk) ++ pb s.clk.syncErr ++
           (List.finRange 8).flatMap (fun t => le 4 (regConvOut s t)) } s.enter)) ∧
  (∀ (h : CmdHdr) (source : BitVec 8) (s : State),
     let c : CmdSpec := { opcode := 0x0116, role := some .installer, journal := true, params := pb source }
     s.accepts h c = true →
     source.toNat ≤ 1 →
     s.groupOn 3 = false ∧ s.groupOn 4 = false →
     exec (.ckRefCfg h source) s = .next (s.answered h c { status := stDone }
       { s.enter with clk.refSrc := decide (source = 1) }))

/-- Events of the clocks: each runs to the state its rule gives -/
def Obligations.ClockEventsRun : Prop :=
  (∀ (s : State),
     let u : State :=
       { s with
         clk := { s.clk with refOk := false, fbosc := true, dspSafe := true, mgmtSafe := true, edge := none }
         time.synced := false }
     s.clk.refOk = true →
     exec .refclkMissingDetect s = .next (((List.finRange 16).filter (fun p => pllUsed p && s.pllLock p)).foldl (fun s
       p => s.pllLost p) (u.emitNow 0x0113 0x01FF (le 8 u.nowT)))) ∧
  (∀ (s : State),
     let u : State := { s with clk.refOk := true, clk.fbosc := false }
     let v := u.emitNow 0x0114 0x01FF (le 8 u.nowT)
     s.clk.refOk = false →
     exec .refclkReturn s = .next
       ({ v with
          clk.plls := vmap v.clk.plls (fun _ p => if p.busy then
            { p with attempts := 1, retryAt := some (v.time.ticks + 983040) } else p) })) ∧
  (∀ (pll : Fin 16) (s : State),
     (pllUsed pll && s.pllLock pll) = true →
     exec (.pllLockLoss pll) s = .next (s.pllLost pll)) ∧
  (∀ (pll : Fin 16) (s : State) (x : Nat),
     let p := s.clk.plls.get pll
     p.retryAt = some x →
     p.busy = true →
     x ≤ s.time.ticks →
     s.clk.refOk = true →
     exec (.pllRelockRetry pll) s = .next (s.modPll pll (fun y =>
       { y with
         attempts := satAdd y.attempts 1
         retries := satAdd y.retries 1
         retryAt := some (s.time.ticks + 983040) }))) ∧
  (∀ (pll : Fin 16) (s : State),
     s.clk.refOk = true →
     (s.clk.plls.get pll).busy = true →
     exec (.pllLockAcquired pll) s = .next (s.pllDone pll)) ∧
  (∀ (pll : Fin 16) (s : State),
     s.clk.refOk = true →
     (s.clk.plls.get pll).busy = false →
     pll = 3 ∨ pll = 4 →
     (s.clk.plls.get pll).lock = false →
     s.groupOn pll = true →
     exec (.pllLockAcquired pll) s = .next (s.modPll pll (fun x => { x with lock := true }))) ∧
  (∀ (t : Fin 8) (s : State),
     exec (.convDelaySlewStep t) s = .next
       ({ s with
          clk.conv := vmod s.clk.conv t (fun x => if x.now = s.convTarget t ∨ s.time.ticks < x.stepAt then x else
            { x with now := if x.now < s.convTarget t then x.now + 1 else x.now - 1, stepAt := x.stepAt + 1024 }) })) ∧
  (∀ (frac : BitVec 8) (lowBefore : Bool) (s : State),
     s.clk.refOk = true →
     exec (.syncEdge frac lowBefore) s = .next
       ({ s with clk.edge := some { stamp := s.nowT + frac.toNat, tick := s.time.ticks, lowOk := lowBefore } })) ∧
  (∀ (highAfter : Bool) (comp : BitVec 7) (s : State) (e : SyncEdge),
     s.clk.edge = some e →
     e.tick + 32 ≤ s.time.ticks →
     e.lowOk = false ∨ highAfter = false →
     exec (.syncQualified highAfter comp) s = .next
       ({ s with clk := { s.clk with edge := none, rejected := satAdd s.clk.rejected 1 } })) ∧
  (∀ (highAfter : Bool) (comp : BitVec 7) (s : State) (e : SyncEdge),
     let u : State := { s with clk := { s.clk with edge := none, edges := satAdd s.clk.edges 1 } }
     s.clk.edge = some e →
     e.tick + 32 ≤ s.time.ticks →
     e.lowOk = true ∧ highAfter = true →
     exec (.syncQualified highAfter comp) s = .next (match s.time.armed with
       | some x => u.loadTime x.value.toNat e.stamp comp
       | none => u.syncCheck e.stamp))

/-- Commands of the channelisers and beam banks: each runs to the state its rule gives -/
def Obligations.BeamCommandsRun : Prop :=
  (∀ (h : CmdHdr) (dirs : BitVec 8) (rx : BitVec 8) (tx : BitVec 8) (s : State),
     let c : CmdSpec := { opcode := 0x0260, role := some .operator, params := pb dirs ++ pb rx ++ pb tx }
     s.accepts h c = true →
     dirs.toNat ≤ 3 ∧ rx.toNat ≤ 3 ∧ tx.toNat ≤ 3 →
     dirs.getLsbD 0 = false ∨ (s.beam.rx.active.element = false ∧ s.beam.rx.active.beams.toList.any (fun b =>
       b.enable) = false) →
     dirs.getLsbD 1 = false ∨ (s.beam.tx.active.element = false ∧ s.beam.tx.active.beams.toList.any (fun b =>
       b.enable) = false) →
     exec (.chanFrontSet h dirs rx tx) s = .next (s.answered h c { status := stDone } (State.judgePicks
       (State.rehorizon
       { s.enter with
         chan :=
           { s.chan with
             rxPreset := if dirs.getLsbD 0 then rx.setWidth 2 else s.chan.rxPreset
             txPreset := if dirs.getLsbD 1 then tx.setWidth 2 else s.chan.txPreset } })))) ∧
  (∀ (h : CmdHdr) (dir : BitVec 8) (front : BitVec 8) (narrow : BitVec 8) (rate : BitVec 8) (s : State),
     let c : CmdSpec :=
       { opcode := 0x0261, role := some .operator, params := pb dir ++ pb front ++ pb narrow ++ pb rate }
     let half := if dir = 0 then rxFrontHalf (front.setWidth 2) else txFrontHalf (front.setWidth 2)
     let p := min front.toNat narrow.toNat
     s.accepts h c = true →
     dir.toNat ≤ 1 ∧ front.toNat ≤ 3 ∧ narrow.toNat ≤ 3 ∧ rate.toNat ≤ 7 →
     exec (.chanInfo h dir front narrow rate) s = .next (s.answered h c
       { status := stDone
         results := le 4 (half * 128 + nbDelay (narrow.setWidth 2) (rate.setWidth 3) * 256) ++ le 2 (bandQ16 p
           rate.toNat) ++ le 1 (([60, 80, 95, 110] : List Nat).getD p 0) ++ le 1 (([10, 5, 2, 1] : List Nat).getD p 0) }
       s.enter)) ∧
  (∀ (h : CmdHdr) (cls : BitVec 8) (preset : BitVec 8) (s : State),
     let c : CmdSpec := { opcode := 0x0908, role := some .installer, journal := true, params := pb cls ++ pb preset }
     s.accepts h c = true →
     cls.toNat ≤ 1 ∧ preset.toNat ≤ 3 →
     exec (.hkFilterSet h cls preset) s = .next (s.answered h c { status := stDone } (if cls = 0 then
       { s.enter with
         chan.diodePreset := preset.setWidth 2
         hk.regions := vmap s.hk.regions (fun _ x => { x with diodeF := Reset.hkFilter }) } else
       { s.enter with
         chan.railPreset := preset.setWidth 2
         hk.rails := vmap s.hk.rails (fun _ x => { x with filter := Reset.hkFilter }) }))) ∧
  (∀ (h : CmdHdr) (dir : BitVec 8) (beam : BitVec 8) (enable : BitVec 8) (rate : BitVec 8) (preset : BitVec 8) (format
    : BitVec 8) (flow : BitVec 8) (freq : BitVec 32) (shift : BitVec 8) (s : State) (b : Fin 32),
     let c : CmdSpec :=
       { opcode := 0x0301
         role := some .operator
         params := pb dir ++ pb beam ++ pb enable ++ pb rate ++ pb preset ++ pb format ++ pb flow ++ pb freq ++ pb
           shift }
     s.accepts h c = true →
     fin? 32 beam.toNat = some b →
     dir.toNat ≤ 1 ∧ enable.toNat ≤ 1 ∧ rate.toNat ≤ 7 ∧ preset.toNat ≤ 3 →
     format.toNat ≤ 2 ∧ flow.toNat ≤ 63 ∧ (dir = 0 → shift.toNat ≤ 7) →
     (s.beam.dir (decide (dir = 1))).lock = none →
     exec (.beamCfg h dir beam enable rate preset format flow freq shift) s = .next (s.answered h c
       { status := stDone } (s.enter.modDir (decide (dir = 1)) (fun d =>
       { d with
         shadow :=
           { d.shadow with
             beams := d.shadow.beams.set b.val
               { enable := decide (enable = 1)
                 rate := rate.setWidth 3
                 preset := preset.setWidth 2
                 format := format.setWidth 2
                 flow := flow.setWidth 6
                 freq := freq
                 shift := shift.setWidth 3 } b.isLt } })))) ∧
  (∀ (h : CmdHdr) (dir : BitVec 8) (beam : BitVec 8) (port : BitVec 8) (first : BitVec 8) (count : BitVec 8) (ptr :
    BitVec 32) (s : State),
     let c : CmdSpec :=
       { opcode := 0x0302
         role := some .operator
         params := pb dir ++ pb beam ++ pb port ++ pb first ++ pb count ++ pb ptr
         ptrs := [(ptr.toNat, 4 * count.toNat)] }
     let ws := (chunks 4 count.toNat (memRead 0 s.pup.mbRam ptr.toNat (4 * count.toNat))).map (fun x => BitVec.ofNat
       32 (unle x))
     s.accepts h c = true →
     dir.toNat ≤ 1 ∧ beam.toNat ≤ 31 ∧ (dir = 0 → port.toNat ≤ 1) →
     count ≠ 0 ∧ first.toNat + count.toNat ≤ 64 →
     (s.beam.dir (decide (dir = 1))).lock = none →
     exec (.beamWeights h dir beam port first count ptr) s = .next (s.answered h c { status := stDone }
       (s.enter.modDir (decide (dir = 1)) (fun d =>
       { d with
         shadow :=
           { d.shadow with
             weights := (ws.mapIdx (fun n w => (n, w))).foldl (fun m x => memSet 0 m (weightIdx (decide (dir = 1))
               beam.toNat (first.toNat + x.1) port.toNat) x.2) d.shadow.weights } })))) ∧
  (∀ (h : CmdHdr) (dir : BitVec 8) (first : BitVec 8) (count : BitVec 8) (form : BitVec 8) (delays : List (BitVec 16))
    (ptr : BitVec 32) (s : State),
     let c : CmdSpec :=
       { opcode := 0x0303
         role := some .operator
         params := pb dir ++ pb first ++ pb count ++ pb form ++ (if form = 1 then pb ptr else delays.flatMap pb)
         ptrs := if form = 1 then [(ptr.toNat, 2 * count.toNat)] else [] }
     let ds := if form = 1 then (chunks 2 count.toNat (memRead 0 s.pup.mbRam ptr.toNat (2 * count.toNat))).map (fun x
       => BitVec.ofNat 16 (unle x)) else delays
     s.accepts h c = true →
     dir.toNat ≤ 1 ∧ form.toNat ≤ 1 ∧ count ≠ 0 ∧ first.toNat + count.toNat ≤ 64 →
     (form = 0 → count.toNat ≤ 26 ∧ delays.length = count.toNat) →
     ds.all (fun d => decide (-1024 ≤ d.toInt ∧ d.toInt ≤ 1023)) = true →
     (s.beam.dir (decide (dir = 1))).lock = none →
     exec (.beamDelays h dir first count form delays ptr) s = .next (s.answered h c { status := stDone }
       (s.enter.modDir (decide (dir = 1)) (fun d =>
       { d with
         shadow :=
           { d.shadow with
             delays := vmap d.shadow.delays (fun p x => if first.toNat ≤ p.val ∧ p.val < first.toNat + count.toNat
               then (ds.getD (p.val - first.toNat) 0).setWidth 11 else x) } })))) ∧
  (∀ (h : CmdHdr) (dir : BitVec 8) (mode : BitVec 8) (rate : BitVec 8) (preset : BitVec 8) (format : BitVec 8) (flows
    : List (BitVec 8)) (txShift : BitVec 8) (s : State),
     let c : CmdSpec :=
       { opcode := 0x0304
         role := some .operator
         params := pb dir ++ pb mode ++ pb rate ++ pb preset ++ pb format ++ flows.flatMap pb ++ pb txShift }
     s.accepts h c = true →
     dir.toNat ≤ 1 ∧ mode.toNat ≤ 1 ∧ rate.toNat ≤ 7 ∧ preset.toNat ≤ 3 ∧ format.toNat ≤ 2 →
     flows.length = 8 ∧ txShift.toNat ≤ 7 →
     flows.all (fun f => decide (f.toNat ≤ 63)) = true →
     (s.beam.dir (decide (dir = 1))).lock = none →
     exec (.elemCfg h dir mode rate preset format flows txShift) s = .next (s.answered h c { status := stDone }
       (s.enter.modDir (decide (dir = 1)) (fun d =>
       { d with
         shadow :=
           { d.shadow with
             element := decide (mode = 1)
             txShift := txShift.setWidth 3
             elem :=
               { rate := rate.setWidth 3
                 preset := preset.setWidth 2
                 format := format.setWidth 2
                 flows := Vector.ofFn (fun t => (flows.getD t.val 0).setWidth 6) } } })))) ∧
  (∀ (h : CmdHdr) (dirs : BitVec 8) (s : State),
     let c : CmdSpec := { opcode := 0x0305, role := some .operator, params := pb dirs }
     s.accepts h c = true →
     dirs.toNat ≤ 3 →
     (dirs.getLsbD 0 = true → s.beam.rx.lock = none) ∧ (dirs.getLsbD 1 = true → s.beam.tx.lock = none) →
     exec (.beamBankCopy h dirs) s = .next (s.answered h c { status := stDone }
       { s.enter with
         beam :=
           { s.beam with
             rx := if dirs.getLsbD 0 then { s.beam.rx with shadow := s.beam.rx.active } else s.beam.rx
             tx := if dirs.getLsbD 1 then { s.beam.tx with shadow := s.beam.tx.active } else s.beam.tx } })) ∧
  (∀ (h : CmdHdr) (dir : BitVec 8) (bank : BitVec 8) (beam : BitVec 8) (s : State),
     let c : CmdSpec := { opcode := 0x0306, role := some .operator, params := pb dir ++ pb bank ++ pb beam }
     let k := if bank = 0 then (s.beam.dir (decide (dir = 1))).active else (s.beam.dir (decide (dir = 1))).shadow
     s.accepts h c = true →
     dir.toNat ≤ 1 ∧ bank.toNat ≤ 1 ∧ (beam.toNat ≤ 31 ∨ beam = 0xFF) →
     exec (.beamQuery h dir bank beam) s = .next (s.answered h c
       { status := stDone
         results := beamCfgBytes k (fin? 32 beam.toNat) ++ le 4 (maskOf 32 (fun b => (k.beams.get b).enable)) ++ pb
           s.beam.aper ++ le 9 (s.beam.swapAt * 256) } s.enter))

/-- Compute slot of the TDSP: each instruction issues with its results in flight -/
def Obligations.TdspComputeRuns : Prop :=
  (∀ (t : Fin 8) (moveSlot : Bool) (s : State),
     let u : Tdsp := (s.tdsp.get t).atStart
     s.kRuns t = true →
     u.inRange u.pc.toNat = true →
     moveSlot = false →
     exec (.nop t moveSlot) s = .next (s.modK t (fun _ => { u with issuedC := true, curC := [] }))) ∧
  (∀ (t : Fin 8) (a : Fin 8) (x : Fin 16) (y : Fin 16) (f : TFlags) (s : State),
     let u : Tdsp := (s.tdsp.get t).atStart
     s.kRuns t = true →
     u.inRange u.pc.toNat = true →
     exec (.cmac t a x y f) s = .next (s.modK t (fun _ =>
       { u with issuedC := true, curC := accum a (u.accMac a) (cprod (u.d.get x) (u.d.get y) f.cj) f.neg f.z }))) ∧
  (∀ (t : Fin 8) (h : Fin 2) (q : Fin 4) (c : Fin 16) (f : TFlags) (s : State),
     let u : Tdsp := (s.tdsp.get t).atStart
     s.kRuns t = true →
     u.inRange u.pc.toNat = true →
     exec (.cmac4 t h q c f) s = .next (s.modK t (fun _ =>
       { u with
         issuedC := true
         curC := (List.finRange 4).flatMap (fun j => accum (acc4 h j) (u.accMac (acc4 h j)) (cprod (u.d.get (win4 q
           j)) (u.d.get c) f.cj) f.neg f.z) }))) ∧
  (∀ (t : Fin 8) (h : Fin 2) (q : Fin 4) (c : Fin 16) (n : Fin 16) (f : TFlags) (s : State),
     let u : Tdsp := (s.tdsp.get t).atStart
     s.kRuns t = true →
     u.inRange u.pc.toNat = true →
     exec (.ftap t h q c n f) s = .next (s.modK t (fun _ =>
       { u with
         issuedC := true
         curC := (List.finRange 4).flatMap (fun j => accum (acc4 h j) (u.accMac (acc4 h j)) (cprod (u.d.get (win4 q
           j)) (u.d.get c) f.cj) f.neg f.z) ++ [dRes (win4 q 3) (u.d.get (win4 q 2)) 1, dRes (win4 q 2) (u.d.get (win4
           q 1)) 1, dRes (win4 q 1) (u.d.get (win4 q 0)) 1, dRes (win4 q 0) (u.d.get n) 1] }))) ∧
  (∀ (t : Fin 8) (a : Fin 8) (x : Fin 16) (y : Fin 16) (neg : Bool) (z : Bool) (s : State),
     let u : Tdsp := (s.tdsp.get t).atStart
     s.kRuns t = true →
     u.inRange u.pc.toNat = true →
     exec (.rmac2 t a x y neg z) s = .next (s.modK t (fun _ =>
       { u with
         issuedC := true
         curC := accum a (u.accMac a) (dI (u.d.get x) * dI (u.d.get y), dQ (u.d.get x) * dQ (u.d.get y)) neg z }))) ∧
  (∀ (t : Fin 8) (a : Fin 8) (x : Fin 16) (z : Bool) (s : State),
     let u : Tdsp := (s.tdsp.get t).atStart
     s.kRuns t = true →
     u.inRange u.pc.toNat = true →
     exec (.cpwr t a x z) s = .next (s.modK t (fun _ =>
       { u with
         issuedC := true
         curC := accum a (u.accMac a) (dI (u.d.get x) * dI (u.d.get x) + dQ (u.d.get x) * dQ (u.d.get x), 0) false z }))) ∧
  (∀ (t : Fin 8) (d : Fin 16) (x : Fin 16) (y : Fin 16) (cj : Bool) (s : State),
     let u : Tdsp := (s.tdsp.get t).atStart
     s.kRuns t = true →
     u.inRange u.pc.toNat = true →
     exec (.cmpy t d x y cj) s = .next (s.modK t (fun _ =>
       { u with
         issuedC := true
         curC := pairRes d (shrHalfUp (cprod (u.d.get x) (u.d.get y) cj).1 15) (shrHalfUp (cprod (u.d.get x) (u.d.get
           y) cj).2 15) 2 }))) ∧
  (∀ (t : Fin 8) (d : Fin 16) (x : Fin 16) (y : Fin 16) (s : State),
     let u : Tdsp := (s.tdsp.get t).atStart
     s.kRuns t = true →
     u.inRange u.pc.toNat = true →
     exec (.cadd t d x y) s = .next (s.modK t (fun _ =>
       { u with
         issuedC := true
         curC := pairRes d (dI (u.d.get x) + dI (u.d.get y)) (dQ (u.d.get x) + dQ (u.d.get y)) 1 }))) ∧
  (∀ (t : Fin 8) (d : Fin 16) (x : Fin 16) (y : Fin 16) (s : State),
     let u : Tdsp := (s.tdsp.get t).atStart
     s.kRuns t = true →
     u.inRange u.pc.toNat = true →
     exec (.csub t d x y) s = .next (s.modK t (fun _ =>
       { u with
         issuedC := true
         curC := pairRes d (dI (u.d.get x) - dI (u.d.get y)) (dQ (u.d.get x) - dQ (u.d.get y)) 1 }))) ∧
  (∀ (t : Fin 8) (d : Fin 16) (x : Fin 16) (neg : Bool) (s : State),
     let u : Tdsp := (s.tdsp.get t).atStart
     s.kRuns t = true →
     u.inRange u.pc.toNat = true →
     exec (.conj t d x neg) s = .next (s.modK t (fun _ =>
       { u with
         issuedC := true
         curC := pairRes d (if neg then -dI (u.d.get x) else dI (u.d.get x)) (-dQ (u.d.get x)) 1 }))) ∧
  (∀ (t : Fin 8) (d : Fin 16) (x : Fin 16) (k : BitVec 4) (s : State),
     let u : Tdsp := (s.tdsp.get t).atStart
     s.kRuns t = true →
     u.inRange u.pc.toNat = true →
     exec (.shra t d x k) s = .next (s.modK t (fun _ =>
       { u with
         issuedC := true
         curC := pairRes d (shrHalfUp (dI (u.d.get x)) k.toNat) (shrHalfUp (dQ (u.d.get x)) k.toNat) 1 }))) ∧
  (∀ (t : Fin 8) (d : Fin 16) (x : Fin 16) (y : Fin 16) (s : State),
     let u : Tdsp := (s.tdsp.get t).atStart
     s.kRuns t = true →
     u.inRange u.pc.toNat = true →
     exec (.and t d x y) s = .next (s.modK t (fun _ =>
       { u with issuedC := true, curC := [dRes d (u.d.get x &&& u.d.get y) 1] }))) ∧
  (∀ (t : Fin 8) (d : Fin 16) (x : Fin 16) (y : Fin 16) (s : State),
     let u : Tdsp := (s.tdsp.get t).atStart
     s.kRuns t = true →
     u.inRange u.pc.toNat = true →
     exec (.or t d x y) s = .next (s.modK t (fun _ =>
       { u with issuedC := true, curC := [dRes d (u.d.get x ||| u.d.get y) 1] }))) ∧
  (∀ (t : Fin 8) (d : Fin 16) (x : Fin 16) (y : Fin 16) (s : State),
     let u : Tdsp := (s.tdsp.get t).atStart
     s.kRuns t = true →
     u.inRange u.pc.toNat = true →
     exec (.xor t d x y) s = .next (s.modK t (fun _ =>
       { u with issuedC := true, curC := [dRes d (u.d.get x ^^^ u.d.get y) 1] }))) ∧
  (∀ (t : Fin 8) (d : Fin 16) (x : Fin 16) (y : Fin 16) (s : State),
     let u : Tdsp := (s.tdsp.get t).atStart
     s.kRuns t = true →
     u.inRange u.pc.toNat = true →
     exec (.iadd t d x y) s = .next (s.modK t (fun _ =>
       { u with issuedC := true, curC := [dRes d (u.d.get x + u.d.get y) 1, znRes (u.d.get x + u.d.get y)] }))) ∧
  (∀ (t : Fin 8) (d : Fin 16) (x : Fin 16) (y : Fin 16) (s : State),
     let u : Tdsp := (s.tdsp.get t).atStart
     s.kRuns t = true →
     u.inRange u.pc.toNat = true →
     exec (.isub t d x y) s = .next (s.modK t (fun _ =>
       { u with issuedC := true, curC := [dRes d (u.d.get x - u.d.get y) 1, znRes (u.d.get x - u.d.get y)] }))) ∧
  (∀ (t : Fin 8) (x : Fin 16) (y : Fin 16) (s : State),
     let u : Tdsp := (s.tdsp.get t).atStart
     s.kRuns t = true →
     u.inRange u.pc.toNat = true →
     exec (.icmp t x y) s = .next (s.modK t (fun _ =>
       { u with issuedC := true, curC := [znRes (u.d.get x - u.d.get y)] }))) ∧
  (∀ (t : Fin 8) (d : Fin 16) (a : Fin 8) (s : State),
     let u : Tdsp := (s.tdsp.get t).atStart
     let i := mvadComp (u.acc a).1 (mvadGain u.scale)
     let q := mvadComp (u.acc a).2 (mvadGain u.scale)
     s.kRuns t = true →
     u.inRange u.pc.toNat = true →
     exec (.mvad t d a) s = .next (s.modK t (fun _ =>
       { u with
         issuedC := true
         curC := pairRes d i q 2 ++ (if u.scale.getLsbD 4 then
           [{ reg := .bfp, val := (max i.natAbs q.natAbs : Nat), valQ := 0, left := 1, mac := false }] else []) }))) ∧
  (∀ (t : Fin 8) (a : Fin 8) (d : Fin 16) (sh : BitVec 4) (s : State),
     let u : Tdsp := (s.tdsp.get t).atStart
     s.kRuns t = true →
     u.inRange u.pc.toNat = true →
     sh.toNat ≤ 8 →
     exec (.mvda t a d sh) s = .next (s.modK t (fun _ =>
       { u with
         issuedC := true
         curC := [accRes a (dI (u.d.get d) * 2 ^ (15 + sh.toNat)) (dQ (u.d.get d) * 2 ^ (15 + sh.toNat)) false] }))) ∧
  (∀ (t : Fin 8) (a : Fin 8) (d : Fin 16) (sh : BitVec 4) (s : State),
     let u : Tdsp := (s.tdsp.get t).atStart
     s.kRuns t = true →
     u.inRange u.pc.toNat = true →
     8 < sh.toNat →
     exec (.mvda t a d sh) s = .next ((s.modK t (fun _ => u)).kFault t 1)) ∧
  (∀ (t : Fin 8) (a : Fin 8) (b : Fin 8) (neg : Bool) (s : State),
     let u : Tdsp := (s.tdsp.get t).atStart
     s.kRuns t = true →
     u.inRange u.pc.toNat = true →
     exec (.accadd t a b neg) s = .next (s.modK t (fun _ =>
       { u with
         issuedC := true
         curC := (accum a (u.acc a) (u.acc b) neg false).map (fun x => { x with mac := false }) }))) ∧
  (∀ (t : Fin 8) (mask : BitVec 8) (s : State),
     let u : Tdsp := (s.tdsp.get t).atStart
     s.kRuns t = true →
     u.inRange u.pc.toNat = true →
     exec (.accclr t mask) s = .next (s.modK t (fun _ =>
       { u with issuedC := true, curC := (maskBits 8 mask.toNat).map (fun a => accRes a 0 0 false) }))) ∧
  (∀ (t : Fin 8) (s : State),
     let u : Tdsp := (s.tdsp.get t).atStart
     s.kRuns t = true →
     u.inRange u.pc.toNat = true →
     exec (.bfpend t) s = .next (s.modK t (fun _ =>
       { u with
         issuedC := true
         curC := [{ reg := .scale, val := (bfpScale u.scale u.bfpMax).toNat, valQ := 1, left := 1, mac := false },
           { reg := .bfp, val := 0, valQ := 1, left := 1, mac := false }] })))

/-- Loads, stores, register moves and pointers of the TDSP: each ends its bundle with its results -/
def Obligations.TdspMoveRuns : Prop :=
  (∀ (t : Fin 8) (moveSlot : Bool) (s : State),
     let u : Tdsp := if (s.tdsp.get t).issuedC then s.tdsp.get t else (s.tdsp.get t).loopReturn
     s.kRuns t = true →
     u.inRange u.pc.toNat = true →
     moveSlot = true →
     exec (.nop t moveSlot) s = .next (s.modK t (fun _ => u.endBundle {}))) ∧
  (∀ (t : Fin 8) (d : Fin 16) (am : AddrMode) (s : State),
     let u : Tdsp := if (s.tdsp.get t).issuedC then s.tdsp.get t else (s.tdsp.get t).loopReturn
     let w := wordOf (u.address am).1
     s.kRuns t = true →
     u.inRange u.pc.toNat = true →
     wordReserved (s.estReg t) false w = false →
     exec (.ldx t d am) s = .next (s.modK t (fun _ => u.endBundle
       { res := dRes d (u.loadWord false w) 3 :: u.addressRes am, loadX := true, loadY := false }))) ∧
  (∀ (t : Fin 8) (d : Fin 16) (am : AddrMode) (s : State),
     let u : Tdsp := if (s.tdsp.get t).issuedC then s.tdsp.get t else (s.tdsp.get t).loopReturn
     let w := wordOf (u.address am).1
     s.kRuns t = true →
     u.inRange u.pc.toNat = true →
     wordReserved (s.estReg t) false w = true →
     exec (.ldx t d am) s = .next ((s.modK t (fun _ => u)).kFault t 4)) ∧
  (∀ (t : Fin 8) (d : Fin 16) (am : AddrMode) (s : State),
     let u : Tdsp := if (s.tdsp.get t).issuedC then s.tdsp.get t else (s.tdsp.get t).loopReturn
     let w := wordOf (u.address am).1
     s.kRuns t = true →
     u.inRange u.pc.toNat = true →
     wordReserved (s.estReg t) true w = false →
     exec (.ldy t d am) s = .next (s.modK t (fun _ => u.endBundle
       { res := dRes d (u.loadWord true w) 3 :: u.addressRes am, loadX := false, loadY := true }))) ∧
  (∀ (t : Fin 8) (d : Fin 16) (am : AddrMode) (s : State),
     let u : Tdsp := if (s.tdsp.get t).issuedC then s.tdsp.get t else (s.tdsp.get t).loopReturn
     let w := wordOf (u.address am).1
     s.kRuns t = true →
     u.inRange u.pc.toNat = true →
     wordReserved (s.estReg t) true w = true →
     exec (.ldy t d am) s = .next ((s.modK t (fun _ => u)).kFault t 4)) ∧
  (∀ (t : Fin 8) (a : Fin 16) (b : Fin 16) (px : Fin 8) (mx : Fin 8) (ux : Bool) (py : Fin 8) (my : Fin 8) (uy : Bool)
    (s : State),
     let u : Tdsp := if (s.tdsp.get t).issuedC then s.tdsp.get t else (s.tdsp.get t).loopReturn
     s.kRuns t = true →
     u.inRange u.pc.toNat = true →
     (wordReserved (s.estReg t) false (wordOf (u.p.get px)) || wordReserved (s.estReg t) true (wordOf (u.p.get py))) =
       false →
     exec (.ldxy t a b px mx ux py my uy) s = .next (s.modK t (fun _ => u.endBundle
       { res := [dRes a (u.loadWord false (wordOf (u.p.get px))) 3, dRes b (u.loadWord true (wordOf (u.p.get py))) 3]
           ++ (if ux then [ptrRes px (u.stepPtr px (u.m.get mx).toInt)] else []) ++ (if uy then [ptrRes py (u.stepPtr
           py (u.m.get my).toInt)] else [])
         loadX := true
         loadY := true }))) ∧
  (∀ (t : Fin 8) (a : Fin 16) (b : Fin 16) (px : Fin 8) (mx : Fin 8) (ux : Bool) (py : Fin 8) (my : Fin 8) (uy : Bool)
    (s : State),
     let u : Tdsp := if (s.tdsp.get t).issuedC then s.tdsp.get t else (s.tdsp.get t).loopReturn
     s.kRuns t = true →
     u.inRange u.pc.toNat = true →
     (wordReserved (s.estReg t) false (wordOf (u.p.get px)) || wordReserved (s.estReg t) true (wordOf (u.p.get py))) =
       true →
     exec (.ldxy t a b px mx ux py my uy) s = .next ((s.modK t (fun _ => u)).kFault t 4)) ∧
  (∀ (t : Fin 8) (src : Fin 16) (am : AddrMode) (s : State),
     let u : Tdsp := if (s.tdsp.get t).issuedC then s.tdsp.get t else (s.tdsp.get t).loopReturn
     let w := wordOf (u.address am).1
     s.kRuns t = true →
     u.inRange u.pc.toNat = true →
     wordReserved (s.estReg t) false w = false →
     exec (.stx t src am) s = .next (s.modK t (fun _ => u.endBundle
       { res := u.addressRes am, stores := [{ inY := false, addr := w, val := u.d.get src }] }))) ∧
  (∀ (t : Fin 8) (src : Fin 16) (am : AddrMode) (s : State),
     let u : Tdsp := if (s.tdsp.get t).issuedC then s.tdsp.get t else (s.tdsp.get t).loopReturn
     let w := wordOf (u.address am).1
     s.kRuns t = true →
     u.inRange u.pc.toNat = true →
     wordReserved (s.estReg t) false w = true →
     exec (.stx t src am) s = .next ((s.modK t (fun _ => u)).kFault t 4)) ∧
  (∀ (t : Fin 8) (src : Fin 16) (am : AddrMode) (s : State),
     let u : Tdsp := if (s.tdsp.get t).issuedC then s.tdsp.get t else (s.tdsp.get t).loopReturn
     let w := wordOf (u.address am).1
     s.kRuns t = true →
     u.inRange u.pc.toNat = true →
     wordReserved (s.estReg t) true w = false →
     exec (.sty t src am) s = .next (s.modK t (fun _ => u.endBundle
       { res := u.addressRes am, stores := [{ inY := true, addr := w, val := u.d.get src }] }))) ∧
  (∀ (t : Fin 8) (src : Fin 16) (am : AddrMode) (s : State),
     let u : Tdsp := if (s.tdsp.get t).issuedC then s.tdsp.get t else (s.tdsp.get t).loopReturn
     let w := wordOf (u.address am).1
     s.kRuns t = true →
     u.inRange u.pc.toNat = true →
     wordReserved (s.estReg t) true w = true →
     exec (.sty t src am) s = .next ((s.modK t (fun _ => u)).kFault t 4)) ∧
  (∀ (t : Fin 8) (code : BitVec 6) (imm : BitVec 18) (s : State) (r : TReg),
     let u : Tdsp := if (s.tdsp.get t).issuedC then s.tdsp.get t else (s.tdsp.get t).loopReturn
     s.kRuns t = true →
     u.inRange u.pc.toNat = true →
     regOf code = some r →
     exec (.li t code imm) s = .next (s.modK t (fun _ => u.endBundle { res := [codeRes r (imm.signExtend 32)] }))) ∧
  (∀ (t : Fin 8) (code : BitVec 6) (imm : BitVec 18) (s : State),
     let u : Tdsp := if (s.tdsp.get t).issuedC then s.tdsp.get t else (s.tdsp.get t).loopReturn
     s.kRuns t = true →
     u.inRange u.pc.toNat = true →
     regOf code = none →
     exec (.li t code imm) s = .next ((s.modK t (fun _ => u)).kFault t 1)) ∧
  (∀ (t : Fin 8) (d : Fin 16) (imm : BitVec 16) (s : State),
     let u : Tdsp := if (s.tdsp.get t).issuedC then s.tdsp.get t else (s.tdsp.get t).loopReturn
     s.kRuns t = true →
     u.inRange u.pc.toNat = true →
     exec (.lih t d imm) s = .next (s.modK t (fun _ => u.endBundle
       { res := [dRes d (imm.setWidth 32 <<< 16 ||| (u.d.get d &&& 0xFFFF#32)) 1] }))) ∧
  (∀ (t : Fin 8) (dst : BitVec 6) (src : BitVec 6) (s : State) (r : TReg) (v : BitVec 32),
     let u : Tdsp := if (s.tdsp.get t).issuedC then s.tdsp.get t else (s.tdsp.get t).loopReturn
     s.kRuns t = true →
     u.inRange u.pc.toNat = true →
     regOf dst = some r →
     u.readCode (s.estReg t) src = some v →
     exec (.mv t dst src) s = .next (s.modK t (fun _ => u.endBundle { res := [codeRes r v] }))) ∧
  (∀ (t : Fin 8) (dst : BitVec 6) (src : BitVec 6) (s : State),
     let u : Tdsp := if (s.tdsp.get t).issuedC then s.tdsp.get t else (s.tdsp.get t).loopReturn
     s.kRuns t = true →
     u.inRange u.pc.toNat = true →
     (regOf dst = none ∨ u.readCode (s.estReg t) src = none) →
     exec (.mv t dst src) s = .next ((s.modK t (fun _ => u)).kFault t 1)) ∧
  (∀ (t : Fin 8) (p : Fin 8) (form : Bool) (m : Fin 8) (imm : BitVec 18) (s : State),
     let u : Tdsp := if (s.tdsp.get t).issuedC then s.tdsp.get t else (s.tdsp.get t).loopReturn
     s.kRuns t = true →
     u.inRange u.pc.toNat = true →
     exec (.padd t p form m imm) s = .next (s.modK t (fun _ => u.endBundle
       { res := [ptrRes p (u.stepPtr p (if form then imm.toInt else (u.m.get m).toInt))] }))) ∧
  (∀ (t : Fin 8) (lv : Fin 2) (restore : Bool) (inY : Bool) (p : Fin 8) (s : State),
     let u : Tdsp := if (s.tdsp.get t).issuedC then s.tdsp.get t else (s.tdsp.get t).loopReturn
     let a := u.p.get p
     let w := [wordOf a, wordOf (a + 4), wordOf (a + 8)]
     s.kRuns t = true →
     u.inRange u.pc.toNat = true →
     restore = true →
     w.any (fun x => wordReserved (s.estReg t) inY x) = false →
     exec (.mvlp t lv restore inY p) s = .next (s.modK t (fun _ => u.endBundle
       { res := [{ codeRes (.lc lv) (u.loadWord inY (wordOf a)) with left := 3 },
           { codeRes (.ls lv) (u.loadWord inY (wordOf (a + 4))) with left := 3 },
           { codeRes (.le lv) (u.loadWord inY (wordOf (a + 8))) with left := 3 }, ptrRes p (u.stepPtr p 12)]
         loadX := !inY
         loadY := inY }))) ∧
  (∀ (t : Fin 8) (lv : Fin 2) (restore : Bool) (inY : Bool) (p : Fin 8) (s : State),
     let u : Tdsp := if (s.tdsp.get t).issuedC then s.tdsp.get t else (s.tdsp.get t).loopReturn
     let a := u.p.get p
     let w := [wordOf a, wordOf (a + 4), wordOf (a + 8)]
     s.kRuns t = true →
     u.inRange u.pc.toNat = true →
     restore = false →
     w.any (fun x => wordReserved (s.estReg t) inY x) = false →
     exec (.mvlp t lv restore inY p) s = .next (s.modK t (fun _ => u.endBundle
       { res := [ptrRes p (u.stepPtr p 12)]
         stores := [{ inY := inY, addr := wordOf a, val := (u.lc.get lv).setWidth 32 },
           { inY := inY, addr := wordOf (a + 4), val := (u.ls.get lv).setWidth 32 },
           { inY := inY, addr := wordOf (a + 8), val := (u.le.get lv).setWidth 32 }] }))) ∧
  (∀ (t : Fin 8) (lv : Fin 2) (restore : Bool) (inY : Bool) (p : Fin 8) (s : State),
     let u : Tdsp := if (s.tdsp.get t).issuedC then s.tdsp.get t else (s.tdsp.get t).loopReturn
     let a := u.p.get p
     let w := [wordOf a, wordOf (a + 4), wordOf (a + 8)]
     s.kRuns t = true →
     u.inRange u.pc.toNat = true →
     w.any (fun x => wordReserved (s.estReg t) inY x) = true →
     exec (.mvlp t lv restore inY p) s = .next ((s.modK t (fun _ => u)).kFault t 4))

/-- Kernel I/O of the TDSP: IOR and IOW have the result and the effect of their address -/
def Obligations.TdspIoRuns : Prop :=
  (∀ (t : Fin 8) (d : Fin 16) (s : State),
     let u : Tdsp := if (s.tdsp.get t).issuedC then s.tdsp.get t else (s.tdsp.get t).loopReturn
     s.kRuns t = true →
     u.inRange u.pc.toNat = true →
     exec (.iorTioDbell t d) s = .next ((s.modK t (fun _ => u.endBundle { res := [dRes d u.dbell 3] })).modK t (fun k
       => { k with dbell := 0, dbPend := false, pend := k.pend &&& ~~~(1#5) }))) ∧
  (∀ (t : Fin 8) (d : Fin 16) (addr : BitVec 8) (s : State),
     let u : Tdsp := if (s.tdsp.get t).issuedC then s.tdsp.get t else (s.tdsp.get t).loopReturn
     s.kRuns t = true →
     u.inRange u.pc.toNat = true →
     addr.toNat = 2 →
     exec (.iorTioTime t d addr) s = .next ((s.modK t (fun _ => u.endBundle
       { res := [dRes d (BitVec.ofNat 32 s.time.ticks) 3] })).modK t (fun k =>
       { k with timeHi := BitVec.ofNat 32 (s.time.ticks / 2 ^ 32) }))) ∧
  (∀ (t : Fin 8) (d : Fin 16) (addr : BitVec 8) (s : State) (v : BitVec 32),
     let u : Tdsp := if (s.tdsp.get t).issuedC then s.tdsp.get t else (s.tdsp.get t).loopReturn
     s.kRuns t = true →
     u.inRange u.pc.toNat = true →
     (s.modK t (fun _ => u)).iorValue t addr.toNat = some v →
     exec (.iorTioTime t d addr) s = .next ((s.modK t (fun _ => u.endBundle { res := [dRes d v 3] })).iorEffect t
       addr.toNat)) ∧
  (∀ (t : Fin 8) (d : Fin 16) (addr : BitVec 8) (s : State),
     let u : Tdsp := if (s.tdsp.get t).issuedC then s.tdsp.get t else (s.tdsp.get t).loopReturn
     s.kRuns t = true →
     u.inRange u.pc.toNat = true →
     9 ≤ addr.toNat →
     exec (.iorTioTime t d addr) s = .next ((s.modK t (fun _ => u)).kFault t 1)) ∧
  (∀ (t : Fin 8) (d : Fin 16) (k : Fin 2) (s : State),
     let u : Tdsp := if (s.tdsp.get t).issuedC then s.tdsp.get t else (s.tdsp.get t).loopReturn
     s.kRuns t = true →
     u.inRange u.pc.toNat = true →
     exec (.iorTioFill t d k) s = .next ((s.modK t (fun _ => u.endBundle { res := [dRes d (u.fill.get k) 3] })).modK t
       (fun x => { x with fillSub := x.fillSub.set k.val 0 k.isLt }))) ∧
  (∀ (t : Fin 8) (src : Fin 16) (k : Fin 2) (s : State),
     let u : Tdsp := if (s.tdsp.get t).issuedC then s.tdsp.get t else (s.tdsp.get t).loopReturn
     let v := u.d.get src
     s.kRuns t = true →
     u.inRange u.pc.toNat = true →
     exec (.iowTioFill t src k) s = .next (((s.modK t (fun _ => u.endBundle {})).modK t (fun x =>
       { x with
         fill := x.fill.set k.val (v - BitVec.ofNat 32 (min v.toNat (x.fillSub.get k))) k.isLt
         fillSub := x.fillSub.set k.val 0 k.isLt })).levelChanged t (decide (k = 1)))) ∧
  (∀ (t : Fin 8) (src : Fin 16) (addr : BitVec 8) (s : State),
     let u : Tdsp := if (s.tdsp.get t).issuedC then s.tdsp.get t else (s.tdsp.get t).loopReturn
     s.kRuns t = true →
     u.inRange u.pc.toNat = true →
     addr.toNat = 1 →
     exec (.iowTioTimer t src addr) s = .next ((s.modK t (fun _ => u.endBundle {})).modK t (fun k =>
       { k with timer := u.d.get src, timerAt := s.time.ticks }))) ∧
  (∀ (t : Fin 8) (src : Fin 16) (addr : BitVec 8) (s : State),
     let u : Tdsp := if (s.tdsp.get t).issuedC then s.tdsp.get t else (s.tdsp.get t).loopReturn
     s.kRuns t = true →
     u.inRange u.pc.toNat = true →
     addr.toNat ≤ 8 →
     exec (.iowTioTimer t src addr) s = .next ((s.modK t (fun _ => u.endBundle {})).iowEffect t addr.toNat (u.d.get
       src))) ∧
  (∀ (t : Fin 8) (src : Fin 16) (addr : BitVec 8) (s : State),
     let u : Tdsp := if (s.tdsp.get t).issuedC then s.tdsp.get t else (s.tdsp.get t).loopReturn
     s.kRuns t = true →
     u.inRange u.pc.toNat = true →
     9 ≤ addr.toNat →
     exec (.iowTioTimer t src addr) s = .next ((s.modK t (fun _ => u)).kFault t 1)) ∧
  (∀ (t : Fin 8) (src : Fin 16) (s : State),
     let u : Tdsp := if (s.tdsp.get t).issuedC then s.tdsp.get t else (s.tdsp.get t).loopReturn
     s.kRuns t = true →
     u.inRange u.pc.toNat = true →
     exec (.iowTioCap t src) s = .next ((s.modK t (fun _ => u.endBundle {})).kernelCapture t (u.d.get src)))

/-- Flow of the TDSP: branches, loops, stalls, messages and interrupts -/
def Obligations.TdspFlowRuns : Prop :=
  (∀ (t : Fin 8) (e : Bool) (s : State),
     let u : Tdsp := if (s.tdsp.get t).issuedC then s.tdsp.get t else (s.tdsp.get t).loopReturn
     s.kRuns t = true →
     u.inRange u.pc.toNat = true →
     exec (.ien t e) s = .next (s.modK t (fun _ => u.endBundle
       { res := [{ reg := .ie, val := b2n e, valQ := 0, left := 1, mac := false }] }))) ∧
  (∀ (t : Fin 8) (cond : BitVec 3) (target : BitVec 15) (s : State) (b : Bool),
     let u : Tdsp := if (s.tdsp.get t).issuedC then s.tdsp.get t else (s.tdsp.get t).loopReturn
     s.kRuns t = true →
     u.inRange u.pc.toNat = true →
     u.cond cond = some b →
     (u.inDelay || u.loopTail) = false →
     exec (.br t cond target) s = .next (s.modK t (fun _ => u.endBundle
       { res := [{ reg := .pc, val := target.toNat, valQ := if b then 0 else 2, left := 3, mac := false }] }))) ∧
  (∀ (t : Fin 8) (cond : BitVec 3) (target : BitVec 15) (s : State),
     let u : Tdsp := if (s.tdsp.get t).issuedC then s.tdsp.get t else (s.tdsp.get t).loopReturn
     s.kRuns t = true →
     u.inRange u.pc.toNat = true →
     u.cond cond = none →
     exec (.br t cond target) s = .next ((s.modK t (fun _ => u)).kFault t 1)) ∧
  (∀ (t : Fin 8) (cond : BitVec 3) (target : BitVec 15) (s : State) (b : Bool),
     let u : Tdsp := if (s.tdsp.get t).issuedC then s.tdsp.get t else (s.tdsp.get t).loopReturn
     s.kRuns t = true →
     u.inRange u.pc.toNat = true →
     u.cond cond = some b →
     (u.inDelay || u.loopTail) = true →
     exec (.br t cond target) s = .next ((s.modK t (fun _ => u)).kFault t 2)) ∧
  (∀ (t : Fin 8) (d : Fin 16) (target : BitVec 15) (s : State),
     let u : Tdsp := if (s.tdsp.get t).issuedC then s.tdsp.get t else (s.tdsp.get t).loopReturn
     s.kRuns t = true →
     u.inRange u.pc.toNat = true →
     (u.inDelay || u.loopTail) = false →
     exec (.call t d target) s = .next (s.modK t (fun _ => u.endBundle
       { res := [{ reg := .pc, val := target.toNat, valQ := 0, left := 3, mac := false }, dRes d ((u.pc + 3).setWidth
           32) 1] }))) ∧
  (∀ (t : Fin 8) (src : Fin 16) (s : State),
     let u : Tdsp := if (s.tdsp.get t).issuedC then s.tdsp.get t else (s.tdsp.get t).loopReturn
     s.kRuns t = true →
     u.inRange u.pc.toNat = true →
     (u.inDelay || u.loopTail) = false →
     exec (.ret t src) s = .next (s.modK t (fun _ => u.endBundle
       { res := [{ reg := .pc, val := ((u.d.get src).setWidth 15).toNat, valQ := 0, left := 3, mac := false }] }))) ∧
  (∀ (t : Fin 8) (s : State),
     let u : Tdsp := if (s.tdsp.get t).issuedC then s.tdsp.get t else (s.tdsp.get t).loopReturn
     s.kRuns t = true →
     u.inRange u.pc.toNat = true →
     (u.inDelay || u.loopTail) = false →
     exec (.reti t) s = .next (s.modK t (fun _ => u.endBundle
       { res := [{ reg := .pc, val := u.iret.toNat, valQ := 1, left := 3, mac := false }] }))) ∧
  (∀ (t : Fin 8) (d : Fin 16) (target : BitVec 15) (s : State),
     let u : Tdsp := if (s.tdsp.get t).issuedC then s.tdsp.get t else (s.tdsp.get t).loopReturn
     s.kRuns t = true →
     u.inRange u.pc.toNat = true →
     (u.inDelay || u.loopTail) = true →
     exec (.call t d target) s = .next ((s.modK t (fun _ => u)).kFault t 2)) ∧
  (∀ (t : Fin 8) (src : Fin 16) (s : State),
     let u : Tdsp := if (s.tdsp.get t).issuedC then s.tdsp.get t else (s.tdsp.get t).loopReturn
     s.kRuns t = true →
     u.inRange u.pc.toNat = true →
     (u.inDelay || u.loopTail) = true →
     exec (.ret t src) s = .next ((s.modK t (fun _ => u)).kFault t 2)) ∧
  (∀ (t : Fin 8) (s : State),
     let u : Tdsp := if (s.tdsp.get t).issuedC then s.tdsp.get t else (s.tdsp.get t).loopReturn
     s.kRuns t = true →
     u.inRange u.pc.toNat = true →
     (u.inDelay || u.loopTail) = true →
     exec (.reti t) s = .next ((s.modK t (fun _ => u)).kFault t 2)) ∧
  (∀ (t : Fin 8) (lv : Fin 2) (form : Bool) (start : BitVec 4) (stop : BitVec 10) (count : BitVec 10) (s : State),
     let u : Tdsp := if (s.tdsp.get t).issuedC then s.tdsp.get t else (s.tdsp.get t).loopReturn
     let r : Nat := if form then ((u.d.get (count.setWidth 4 : BitVec 4).toFin).setWidth 16).toNat else count.toNat
     let n : Nat := if r = 0 then (if form then 65536 else 1024) else r
     s.kRuns t = true →
     u.inRange u.pc.toNat = true →
     start ≠ 0 →
     start.toNat ≤ stop.toNat →
     (form = true → count.toNat < 16) →
     exec (.loop t lv form start stop count) s = .next (s.modK t (fun _ => u.endBundle
       { res := [codeRes (.lc lv) (BitVec.ofNat 32 n), codeRes (.ls lv) ((u.pc + start.setWidth 15).setWidth 32),
           codeRes (.le lv) ((u.pc + stop.setWidth 15).setWidth 32)] }))) ∧
  (∀ (t : Fin 8) (lv : Fin 2) (form : Bool) (start : BitVec 4) (stop : BitVec 10) (count : BitVec 10) (s : State),
     let u : Tdsp := if (s.tdsp.get t).issuedC then s.tdsp.get t else (s.tdsp.get t).loopReturn
     s.kRuns t = true →
     u.inRange u.pc.toNat = true →
     start = 0 ∨ stop.toNat < start.toNat ∨ (form = true ∧ 16 ≤ count.toNat) →
     exec (.loop t lv form start stop count) s = .next ((s.modK t (fun _ => u)).kFault t 1)) ∧
  (∀ (t : Fin 8) (s : State),
     s.kRuns t = true →
     exec (.loopReturn t) s = .next (s.modK t Tdsp.loopReturn)) ∧
  (∀ (t : Fin 8) (s : State),
     let u : Tdsp := if (s.tdsp.get t).issuedC then s.tdsp.get t else (s.tdsp.get t).loopReturn
     s.kRuns t = true →
     u.inRange u.pc.toNat = true →
     exec (.sync t) s = .next ((s.modK t (fun _ => u.endBundle {})).modK t (fun k => if k.wbuf.isEmpty then k else
       { k with stall := .sync }))) ∧
  (∀ (t : Fin 8) (s : State),
     (s.tdsp.get t).stall = .sync →
     s.tilePowered t = true →
     s.hk.halt = false →
     exec (.syncBufferDrained t) s = .next (s.modK t (fun k =>
       { (k.wbuf.foldl (fun k _ => k.stallCycle) k) with stall := .none }))) ∧
  (∀ (t : Fin 8) (s : State),
     let u : Tdsp := if (s.tdsp.get t).issuedC then s.tdsp.get t else (s.tdsp.get t).loopReturn
     s.kRuns t = true →
     u.inRange u.pc.toNat = true →
     exec (.idle t) s = .next ((s.modK t (fun _ => u.endBundle {})).modK t (fun k =>
       { k with stall := .idle, state := .idle }))) ∧
  (∀ (t : Fin 8) (src : Fin 16) (code : BitVec 8) (s : State),
     let u : Tdsp := if (s.tdsp.get t).issuedC then s.tdsp.get t else (s.tdsp.get t).loopReturn
     s.kRuns t = true →
     u.inRange u.pc.toNat = true →
     exec (.evt t src code) s = .next ((s.modK t (fun _ => u.endBundle {})).kernelMsg t code u.pc (u.d.get src))) ∧
  (∀ (t : Fin 8) (s : State) (x : Nat × Nat) (g : KImage),
     let u : Tdsp := (s.tdsp.get t).atStart
     let y2 : Tdsp := (u.landDue u.flight).landDue (u.landDue u.flight).flight
     let y : Tdsp := y2.landDue y2.flight
     u.state = .running ∨ u.state = .idle →
     s.tilePowered t = true →
     s.hk.halt = false →
     u.stall ≠ .sync →
     u.inDelay = false →
     u.loopTail = false →
     u.status.getLsbD 4 = true →
     u.source = some x →
     u.image = some g →
     exec (.tdspInterruptEntry t) s = .next (s.modK t (fun _ =>
       { y with
         state := .running
         stall := .none
         iret := y.pc
         pc := BitVec.ofNat 15 (g.isr.getD x.2 0)
         status := (y.status &&& ~~~(0x10#32)) ||| 0x20#32
         pend := if x.1 = 0 then y.pend else y.pend &&& ~~~(1#5 <<< x.1) }))) ∧
  (∀ (t : Fin 8) (s : State),
     let k := s.tdsp.get t
     s.tilePowered t = true →
     k.timer ≠ 0 →
     k.timerAt + k.timer.toNat ≤ s.time.ticks →
     exec (.tioTimerExpiry t) s = .next (s.modK t (fun _ =>
       { k with pend := k.pend ||| 8#5, timerAt := k.timerAt + k.timer.toNat })))

/-- Commands of the TDSP and the end of a load: each runs to the state its rule gives -/
def Obligations.TdspCommandsRun : Prop :=
  (∀ (h : CmdHdr) (tile : BitVec 8) (addr : BitVec 32) (start : BitVec 8) (s : State) (t : Fin 8),
     let c : CmdSpec :=
       { opcode := 0x0B01, role := some .installer, journal := true, params := pb tile ++ pb addr ++ pb start }
     s.accepts h c = true →
     fin? 8 tile.toNat = some t →
     start.toNat ≤ 1 →
     s.imgOk addr.toNat = true →
     (s.radio.get t).use = .out →
     ((s.imgRead addr.toNat).resUse && s.estReg t) = false →
     s.tdsp.toList.any (fun k => k.load.isSome) = false →
     s.dramDown = false →
     exec (.tdspLoad h tile addr start) s = .next (s.answered h c { status := stAccepted } (s.enter.loadBegin t
       addr.toNat (decide (start = 1))))) ∧
  (∀ (t : Fin 8) (s : State) (l : KLoad),
     let f := s.imgField l.addr
     let base := l.addr + 64
     let u : State := s.modK t (fun k =>
       { k with
         state := .loaded
         image := some l.img
         load := none
         pm := memWrite 0 k.pm (2 * l.img.pmOff) (s.imgWords base (f 16 4))
         xm := memWrite 0 k.xm (f 20 4 / 4) (s.imgWords (base + f 16 4) (f 24 4))
         ym := memWrite 0 k.ym (f 28 4 / 4) (s.imgWords (base + f 16 4 + f 24 4) (f 32 4)) })
     let v : State := (u.modPdTile t (fun x => { x with reload := false })).pdRefresh t
     let w : State := v.emitNow 0x0B01 (0x0B00 + t.val) (le 1 t.val ++ [stDone] ++ pb l.img.kid)
     (s.tdsp.get t).load = some l →
     s.dramDown = false →
     s.pup.ready = true →
     exec (.tdspLoadComplete t) s = .next (if l.start && w.kernelReady t then w.modK t (fun k => k.begin l.img.entry)
       else w)) ∧
  (∀ (h : CmdHdr) (tile : BitVec 8) (entry : BitVec 16) (s : State) (t : Fin 8) (g : KImage),
     let c : CmdSpec := { opcode := 0x0B02, role := some .installer, journal := true, params := pb tile ++ pb entry }
     let e := if entry = 0 then g.entry else entry.toNat
     s.accepts h c = true →
     fin? 8 tile.toNat = some t →
     (s.tdsp.get t).image = some g →
     (s.tdsp.get t).inRange e = true →
     s.kernelReady t = true →
     exec (.tdspStart h tile entry) s = .next (s.answered h c { status := stDone } (s.enter.modK t (fun k =>
       k.drainAll.begin e)))) ∧
  (∀ (h : CmdHdr) (tile : BitVec 8) (s : State) (t : Fin 8),
     let c : CmdSpec := { opcode := 0x0B03, role := some .installer, journal := true, params := pb tile }
     s.accepts h c = true →
     fin? 8 tile.toNat = some t →
     exec (.tdspStop h tile) s = .next (s.answered h c { status := stDone } (s.enter.kernelStop t 1))) ∧
  (∀ (h : CmdHdr) (tile : BitVec 8) (value : BitVec 32) (s : State) (t : Fin 8),
     let c : CmdSpec := { opcode := 0x0B04, role := some .operator, params := pb tile ++ pb value }
     s.accepts h c = true →
     fin? 8 tile.toNat = some t →
     (s.tdsp.get t).dbPend = false →
     exec (.tdspDoorbell h tile value) s = .next (s.answered h c { status := stDone } (s.enter.modK t (fun k =>
       { k with dbell := value, dbPend := true, lastDb := value, pend := k.pend ||| 1#5 })))) ∧
  (∀ (h : CmdHdr) (tile : BitVec 8) (s : State) (t : Fin 8),
     let c : CmdSpec := { opcode := 0x0B05, role := some .operator, params := pb tile }
     s.accepts h c = true →
     fin? 8 tile.toNat = some t →
     exec (.tdspStatus h tile) s = .next (s.answered h c
       { status := stDone
         results := le 4 (regTdspStat s t) ++ le 4 (regTdspShare s t) ++ le 4 (regTdspKid (s.tdsp.get t)) ++ le 4
           (regTdspCnt (s.tdsp.get t)) } s.enter)) ∧
  (∀ (h : CmdHdr) (tile : BitVec 8) (s : State) (t : Fin 8),
     let c : CmdSpec := { opcode := 0x0B06, role := some .installer, journal := true, params := pb tile }
     s.accepts h c = true →
     fin? 8 tile.toNat = some t →
     (s.tdsp.get t).state ≠ .loading →
     exec (.tdspUnload h tile) s = .next (s.answered h c { status := stDone } ((s.enter.kernelStop t 1).modK t (fun k
       => { k with state := .empty, image := none }))))

/-- Commands of predistortion: each runs to the state its rule gives -/
def Obligations.PredistortionCommandsRun : Prop :=
  (∀ (h : CmdHdr) (inserted : BitVec 8) (s : State),
     let c : CmdSpec := { opcode := 0x0401, role := some .operator, params := pb inserted }
     s.accepts h c = true →
     inserted.toNat ≤ 1 →
     s.txActive = false →
     exec (.pdChainSet h inserted) s = .next (s.answered h c { status := stDone }
       { s.enter with pd.chain := decide (inserted = 1) })) ∧
  (∀ (h : CmdHdr) (paths : BitVec 64) (pdEn : BitVec 8) (cfrEn : BitVec 8) (adaptEn : BitVec 8) (evtSwap : BitVec 8)
    (s : State),
     let c : CmdSpec :=
       { opcode := 0x0402
         role := some .operator
         params := pb paths ++ pb pdEn ++ pb cfrEn ++ pb adaptEn ++ pb evtSwap }
     s.accepts h c = true →
     (badFlagU pdEn || badFlagU cfrEn || badFlagU adaptEn || badFlagU evtSwap) = false →
     exec (.pdPathSet h paths pdEn cfrEn adaptEn evtSwap) s = .next (s.answered h c { status := stDone }
       ((List.finRange 8).foldl (fun s t => s.estStop t) ((pathsOf paths).foldl (fun s p => s.pdPathSet pdEn cfrEn
       adaptEn evtSwap p) s.enter)))) ∧
  (∀ (h : CmdHdr) (path : BitVec 8) (q1 : BitVec 8) (q2 : BitVec 8) (s : State) (p : Fin 64),
     let c : CmdSpec :=
       { opcode := 0x0403, role := some .installer, journal := true, params := pb path ++ pb q1 ++ pb q2 }
     s.accepts h c = true →
     fin? 64 path.toNat = some p →
     nbOk p q1 = true ∧ nbOk p q2 = true →
     (s.pd.paths.get p).adaptEn = false →
     exec (.pdNeighbourSet h path q1 q2) s = .next (s.answered h c { status := stDone } (s.enter.modPd p (fun x =>
       { x with nbNew := if q1 = x.nb1 ∧ q2 = x.nb2 then none else some (q1, q2) })))) ∧
  (∀ (h : CmdHdr) (tiles : BitVec 8) (gate : BitVec 8) (cfMin : BitVec 8) (cfMax : BitVec 8) (margin : BitVec 8)
    (capSkip : BitVec 16) (freeze : BitVec 16) (clear : BitVec 16) (lambda : BitVec 8) (s : State),
     let c : CmdSpec :=
       { opcode := 0x0404
         role := some .installer
         journal := true
         params := pb tiles ++ pb gate ++ pb cfMin ++ pb cfMax ++ pb margin ++ pb capSkip ++ pb freeze ++ pb clear ++
           pb lambda }
     s.accepts h c = true →
     gate.toNat ≤ 160 ∧ margin.toNat ≤ 40 ∧ freeze ≠ 0 ∧ clear ≠ 0 →
     exec (.pdGateSet h tiles gate cfMin cfMax margin capSkip freeze clear lambda) s = .next (s.answered h c
       { status := stDone } ((tilesOf tiles).foldl (fun s t => s.modPdTile t (fun x =>
       { x with
         gate := margin ++ cfMax ++ cfMin ++ gate
         timing := freeze ++ capSkip
         est := lambda ++ clear ++ x.est.setWidth 8 })) s.enter))) ∧
  (∀ (h : CmdHdr) (tiles : BitVec 8) (gain : BitVec 8) (phase : BitVec 8) (nmse : BitVec 8) (peak : BitVec 8)
    (rejectMax : BitVec 8) (s : State),
     let c : CmdSpec :=
       { opcode := 0x0405
         role := some .installer
         journal := true
         params := pb tiles ++ pb gain ++ pb phase ++ pb nmse ++ pb peak ++ pb rejectMax }
     s.accepts h c = true →
     gain ≠ 0 ∧ gain.toNat ≤ 60 ∧ phase ≠ 0 ∧ phase.toNat ≤ 45 →
     10 ≤ nmse.toNat ∧ nmse.toNat ≤ 60 →
     exec (.pdLimitSet h tiles gain phase nmse peak rejectMax) s = .next (s.answered h c { status := stDone }
       ((tilesOf tiles).foldl (fun s t => s.modPdTile t (fun x =>
       { x with limit := rejectMax ++ nmse ++ phase ++ gain, est := (x.est >>> 8).setWidth 24 ++ peak })) s.enter))) ∧
  (∀ (h : CmdHdr) (tiles : BitVec 8) (thr : BitVec 8) (ptr : BitVec 32) (s : State),
     let keep := decide (ptr = 0xFFFFFFFF)
     let clear := decide (ptr = 0)
     let c : CmdSpec :=
       { opcode := 0x0406
         role := some .installer
         journal := true
         params := pb tiles ++ pb thr ++ pb ptr
         ptrs := if keep || clear then [] else [(ptr.toNat, 260)] }
     let pulse := ramWords s ptr.toNat 65
     s.accepts h c = true →
     thr.toNat ≤ 200 →
     exec (.pdCfrSet h tiles thr ptr) s = .next (s.answered h c { status := stDone } ((tilesOf tiles).foldl (fun s t
       => s.modPdTile t (fun x =>
       { x with
         cfr := thr
         pulse := if keep then x.pulse else if clear then none else some pulse
         pulseFor := if clear then (s.radio.get t).band else x.pulseFor })) s.enter))) ∧
  (∀ (h : CmdHdr) (path : BitVec 8) (ptr : BitVec 32) (s : State) (p : Fin 64),
     let c : CmdSpec :=
       { opcode := 0x0407
         role := some .installer
         journal := true
         params := pb path ++ pb ptr
         ptrs := [(ptr.toNat, 512)] }
     s.accepts h c = true →
     fin? 64 path.toNat = some p →
     exec (.pdCoefLoad h path ptr) s = .next (s.answered h c { status := stDone } ((s.enter.modPd p (fun x =>
       { x with pending := some (setOf (ramWords s ptr.toNat 128)), statsN := 0 })).pdStale p))) ∧
  (∀ (h : CmdHdr) (path : BitVec 8) (set : BitVec 8) (ptr : BitVec 32) (s : State) (p : Fin 64) (ws : List (Nat ×
    BitVec 32)),
     let c : CmdSpec :=
       { opcode := 0x0408, role := some .operator, params := pb path ++ pb set ++ pb ptr, ptrs := [(ptr.toNat, 512)] }
     s.accepts h c = true →
     fin? 64 path.toNat = some p →
     (set = 0 ∧ ws = (s.pd.paths.get p).active) ∨ (set = 1 ∧ (s.pd.paths.get p).pending = some ws) →
     exec (.pdCoefRead h path set ptr) s = .next (s.answered h c { status := stDone, block := some (ptr.toNat, 512) }
       { s.enter with pup.mbRam := memWrite 0 s.pup.mbRam ptr.toNat ((memRead 0 ws 0 128).flatMap pb) })) ∧
  (∀ (h : CmdHdr) (path : BitVec 8) (s : State) (p : Fin 64),
     let c : CmdSpec := { opcode := 0x0409, role := some .operator, params := pb path }
     let x := s.pd.paths.get p
     s.accepts h c = true →
     fin? 64 path.toNat = some p →
     exec (.pdStatus h path) s = .next (s.answered h c
       { status := stDone
         results := le 4 (regPdStat x) ++ le 4 (regPdAcc x) ++ le 4 (regPdDisc x) ++ le 4 (regPdDisc2 x) ++ le 4
           x.nmse.toNat } s.enter))

/-- Events of predistortion: captures, estimates and the expiries of adaptation -/
def Obligations.PredistortionEventsRun : Prop :=
  (∀ (t : Fin 8) (s : State),
     let u := s.orxServe t
     let o := (u.res.get t).orx
     let v : State := u.modRes t (fun x =>
       { x with
         orx :=
           { x.orx with
             busy := true
             startAt := some u.time.ticks
             endAt := if o.user = .calibration then none else some (u.time.ticks + 8192) } })
     o.busy = false →
     u.orxReady t = true →
     exec (.orxCaptureStart t) s = .next (if o.user = .predistortion then v.modPdTile t (fun x =>
       { x with capBusy := some o.sel, capBroken := v.muteOn t, cap := [] }) else v)) ∧
  (∀ (t : Fin 8) (words : List (BitVec 32)) (s : State),
     let o := (s.res.get t).orx
     let v : State := s.pdCaptureEnd (pathAt t o.sel) words
     o.busy = true →
     (∀ e, o.endAt = some e → e + (if o.user = .predistortion then 64 else 0) ≤ s.time.ticks) →
     o.user = .predistortion →
     exec (.orxCaptureEnd t words) s = .next ((v.modRes t (fun x =>
       { x with
         orx :=
           { x.orx with
             busy := false
             user := .none
             startAt := none
             endAt := none
             cnt := satAdd x.orx.cnt 1
             reqCal := if o.user = .calibration then none else x.orx.reqCal
             reqKern := if o.user = .kernel then none else x.orx.reqKern } })).orxServe t)) ∧
  (∀ (t : Fin 8) (words : List (BitVec 32)) (s : State),
     let o := (s.res.get t).orx
     let v : State := s.kernelCaptureEnd t words
     o.busy = true →
     (∀ e, o.endAt = some e → e + (if o.user = .predistortion then 64 else 0) ≤ s.time.ticks) →
     o.user = .kernel →
     exec (.orxCaptureEnd t words) s = .next ((v.modRes t (fun x =>
       { x with
         orx :=
           { x.orx with
             busy := false
             user := .none
             startAt := none
             endAt := none
             cnt := satAdd x.orx.cnt 1
             reqCal := if o.user = .calibration then none else x.orx.reqCal
             reqKern := if o.user = .kernel then none else x.orx.reqKern } })).orxServe t)) ∧
  (∀ (t : Fin 8) (words : List (BitVec 32)) (s : State),
     let o := (s.res.get t).orx
     let v : State := s
     o.busy = true →
     (∀ e, o.endAt = some e → e + (if o.user = .predistortion then 64 else 0) ≤ s.time.ticks) →
     o.user = .calibration →
     exec (.orxCaptureEnd t words) s = .next ((v.modRes t (fun x =>
       { x with
         orx :=
           { x.orx with
             busy := false
             user := .none
             startAt := none
             endAt := none
             cnt := satAdd x.orx.cnt 1
             reqCal := if o.user = .calibration then none else x.orx.reqCal
             reqKern := if o.user = .kernel then none else x.orx.reqKern } })).orxServe t)) ∧
  (∀ (t : Fin 8) (dGain : BitVec 16) (dPhase : BitVec 16) (nmse : BitVec 16) (peak : BitVec 16) (words : List (BitVec
    32)) (s : State) (j : BitVec 3),
     let x := s.pd.tiles.get t
     let p := pathAt t j
     let u : State := s.modPdTile t (fun x => { x with estBusy := none, stale := false })
     x.estBusy = some j →
     x.stale = true →
     exec (.estimationDone t dGain dPhase nmse peak words) s = .next ((u.modPd p (fun y =>
       { y with dStale := satAdd y.dStale 1 })).orxServe t)) ∧
  (∀ (t : Fin 8) (dGain : BitVec 16) (dPhase : BitVec 16) (nmse : BitVec 16) (peak : BitVec 16) (words : List (BitVec
    32)) (s : State) (j : BitVec 3),
     let x := s.pd.tiles.get t
     let p := pathAt t j
     let u : State := s.modPdTile t (fun x => { x with estBusy := none, stale := false })
     x.estBusy = some j →
     x.stale = false →
     x.failing dGain dPhase nmse peak = 0 →
     exec (.estimationDone t dGain dPhase nmse peak words) s = .next ((u.modPd p (fun y =>
       { y with
         pending := if decide (y.state = .adapting ∨ y.state = .frozen) then some (setOf words) else y.pending
         consecRej := 0 })).orxServe t)) ∧
  (∀ (t : Fin 8) (dGain : BitVec 16) (dPhase : BitVec 16) (nmse : BitVec 16) (peak : BitVec 16) (words : List (BitVec
    32)) (s : State) (j : BitVec 3),
     let x := s.pd.tiles.get t
     let p := pathAt t j
     let u : State := s.modPdTile t (fun x => { x with estBusy := none, stale := false })
     let f := x.failing dGain dPhase nmse peak
     let w : State := (u.modPd p (fun y =>
       { y with
         dReject := satAdd y.dReject 1
         lastRej := BitVec.ofNat 4 f
         consecRej := satAdd y.consecRej 1 })).emitNow 0x0402 (0x0400 + p.val) (le 1 p.val ++ [stImplausible] ++ le 1
       f ++ [0] ++ pb dGain ++ pb dPhase ++ pb nmse ++ pb peak)
     x.estBusy = some j →
     x.stale = false →
     f ≠ 0 →
     exec (.estimationDone t dGain dPhase nmse peak words) s = .next ((if x.rejectMax ≠ 0 ∧ x.rejectMax ≤
       (w.pd.paths.get p).consecRej.toNat ∧ (w.pd.paths.get p).adaptEn then w.setPd p .halted else w).orxServe t)) ∧
  (∀ (p : Fin 64) (s : State),
     (s.pd.paths.get p).state = .adapting →
     exec (.freezeTimeExpiry p) s = .next (s.setPd p (s.pdWant p))) ∧
  (∀ (p : Fin 64) (s : State),
     let x := s.pd.paths.get p
     x.state = .frozen →
     x.frozenAt + (s.pd.tiles.get (tileOf p)).clearTicks ≤ s.time.ticks →
     exec (.statsClearExpiry p) s = .next (s.modPd p (fun x => { x with statsN := 0 })))

/-- Commands of triggers, channels and the store: each runs to the state its rule gives -/
def Obligations.AcquisitionCommandsRun : Prop :=
  (∀ (h : CmdHdr) (segment : BitVec 8) (base : BitVec 32) (length : BitVec 32) (slots : BitVec 16) (s : State) (g :
    Fin 64),
     let c : CmdSpec :=
       { opcode := 0x0601, role := some .operator, params := pb segment ++ pb base ++ pb length ++ pb slots }
     s.accepts h c = true →
     fin? 64 segment.toNat = some g →
     base.toNat % 65536 = 0 ∧ length.toNat % 65536 = 0 ∧ length ≠ 0 ∧ 0x40000000 ≤ base.toNat ∧ base.toNat +
       length.toNat ≤ 0xC0000000 →
     slots ≠ 0 ∧ 16384 ≤ slotSize length.toNat slots.toNat →
     (List.finRange 64).any (fun k => k ≠ g && (match s.aq.segments.get k with
       | some q => rangesMeet base.toNat length.toNat q.base q.len
       | none => false)) = false →
     s.segmentUsed g = false →
     exec (.aqSegmentDefine h segment base length slots) s = .next (s.answered h c { status := stDone }
       { s.enter with
         aq.segments := s.aq.segments.set g.val (some
           { base := base.toNat, len := length.toNat, slots := slots.toNat, slot := 0 }) g.isLt })) ∧
  (∀ (h : CmdHdr) (segment : BitVec 8) (s : State) (g : Fin 64),
     let c : CmdSpec := { opcode := 0x0602, role := some .operator, params := pb segment }
     s.accepts h c = true →
     fin? 64 segment.toNat = some g →
     s.segmentUsed g = false →
     exec (.aqSegmentFree h segment) s = .next (s.answered h c { status := stDone }
       { s.enter with aq.segments := s.aq.segments.set g.val none g.isLt })) ∧
  (∀ (h : CmdHdr) (channel : BitVec 8) (op : BitVec 8) (kind : BitVec 8) (index : BitVec 8) (segment : BitVec 8) (unit
    : BitVec 8) (pre : BitVec 32) (post : BitVec 32) (format : BitVec 8) (mode : BitVec 8) (reductions : BitVec 8) (bt
    : BitVec 8) (flow : BitVec 8) (s : State) (k : Fin 16),
     let c : CmdSpec :=
       { opcode := 0x0603
         role := some .operator
         params := pb channel ++ pb op ++ pb kind ++ pb index ++ pb segment ++ pb unit ++ pb pre ++ pb post ++ pb
           format ++ pb mode ++ pb reductions ++ pb bt ++ pb flow }
     s.accepts h c = true →
     fin? 16 channel.toNat = some k →
     op = 1 →
     (s.aq.chans.get k).isArmed = false →
     exec (.aqChanCfg h channel op kind index segment unit pre post format mode reductions bt flow) s = .next
       (s.answered h c { status := stDone, results := le 4 0 ++ le 4 0 ++ le 4 0 } (s.enter.unconfigure k))) ∧
  (∀ (h : CmdHdr) (channel : BitVec 8) (op : BitVec 8) (kind : BitVec 8) (index : BitVec 8) (segment : BitVec 8) (unit
    : BitVec 8) (pre : BitVec 32) (post : BitVec 32) (format : BitVec 8) (mode : BitVec 8) (reductions : BitVec 8) (bt
    : BitVec 8) (flow : BitVec 8) (s : State) (k : Fin 16) (g : Fin 64) (u : Fin 16) (q : Segment),
     let c : CmdSpec :=
       { opcode := 0x0603
         role := some .operator
         params := pb channel ++ pb op ++ pb kind ++ pb index ++ pb segment ++ pb unit ++ pb pre ++ pb post ++ pb
           format ++ pb mode ++ pb reductions ++ pb bt ++ pb flow }
     let strm := decide (flow ≠ 0xFF)
     let f12b := decide (format = 1)
     let env := reductions.getLsbD 0
     let per := s.chPeriod kind index
     let capN := slotCap (slotSize q.len q.slots) f12b env
     let grd := guardOf (s.aq.units.get u).hzn per
     let w : State := (s.enter.unconfigure k).modCh k (fun x =>
       { x with
         cfgd := true
         state := .configured
         kind := kind
         index := index
         segment := g
         unit := u
         pre := pre.toNat
         post := post.toNat
         f12 := f12b
         ring := decide (mode = 1)
         envelope := env
         spectra := reductions.getLsbD 1
         meas := reductions.getLsbD 2
         bt := bt
         stream := if strm then fin? 64 flow.toNat else none
         cap := capN
         guard := grd
         postS := postSOf strm capN pre.toNat post.toNat grd
         slot := 0
         recNo := 0
         records := 0 })
     let v : State := if strm then bindRx w flow.toNat (.stream k) (streamCharge (983040000 / per) f12b (lenMaxOf
       s.enter false flow.toNat)) false else w
     s.accepts h c = true →
     fin? 16 channel.toNat = some k →
     op = 0 →
     fin? 64 segment.toNat = some g →
     fin? 16 unit.toNat = some u →
     srcIndexOk kind index = true ∧ s.aq.segments.get g = some q →
     pre.toNat < 2 ^ 24 ∧ post ≠ 0 ∧ format.toNat ≤ 1 ∧ mode.toNat ≤ 1 ∧ reductions.toNat ≤ 7 →
     bt ≠ 0 ∧ bt.toNat ≤ 40 →
     strm = false ∨ (flow.toNat ≤ 63 ∧ rxFlowFree s flow.toNat (.stream k) = true) →
     fits253 strm capN pre.toNat post.toNat grd = true →
     (s.aq.chans.get k).isArmed = false →
     v.storeFits = true →
     strm = false ∨ admitted v false = true →
     exec (.aqChanCfg h channel op kind index segment unit pre post format mode reductions bt flow) s = .next
       (s.answered h c
       { status := stDone, results := le 4 capN ++ le 4 grd ++ le 4 (postSOf strm capN pre.toNat post.toNat grd) } v)) ∧
  (∀ (h : CmdHdr) (unit : BitVec 8) (aCode : BitVec 8) (aIdx : BitVec 8) (bCode : BitVec 8) (bIdx : BitVec 8) (op :
    BitVec 8) (limit : BitVec 32) (holdoff : BitVec 32) (evt : BitVec 8) (s : State) (u : Fin 16),
     let c : CmdSpec :=
       { opcode := 0x0604
         role := some .operator
         params := pb unit ++ pb aCode ++ pb aIdx ++ pb bCode ++ pb bIdx ++ pb op ++ pb limit ++ pb holdoff ++ pb evt }
     let v : State := State.rehorizon
       { s.enter with
         aq.units := vmod s.aq.units u (fun x =>
           { x with
             aCode := aCode
             aIdx := aIdx
             bCode := bCode
             bIdx := bIdx
             op := op
             limit := limit
             holdoff := holdoff
             evt := decide (evt = 1)
             inbox := []
             as := []
             bs := []
             ignore := none }) }
     s.accepts h c = true →
     fin? 16 unit.toNat = some u →
     trigCodeOk aCode aIdx = true →
     bCode = 0 ∨ trigCodeOk bCode bIdx = true →
     op.toNat ≤ 3 ∧ limit ≠ 0 ∧ evt.toNat ≤ 1 →
     v.chansFit = true →
     exec (.aqTrigCfg h unit aCode aIdx bCode bIdx op limit holdoff evt) s = .next (s.answered h c
       { status := stDone } v)) ∧
  (∀ (h : CmdHdr) (det : BitVec 8) (kind : BitVec 8) (index : BitVec 8) (w : BitVec 8) (thr : BitVec 16) (hys : BitVec
    16) (dir : BitVec 8) (dwell : BitVec 16) (s : State) (d : Fin 16),
     let c : CmdSpec :=
       { opcode := 0x0605
         role := some .operator
         params := pb det ++ pb kind ++ pb index ++ pb w ++ pb thr ++ pb hys ++ pb dir ++ pb dwell }
     let v : State := State.rehorizon
       { s.enter with
         aq.levels := vmod s.aq.levels d (fun x =>
           { x with
             enabled := true
             kind := kind
             index := index
             w := w
             thr := thr
             hys := hys
             falling := decide (dir = 1)
             dwell := dwell
             line := []
             armed := false
             run := 0
             prev := none
             due := [] }) }
     s.accepts h c = true →
     fin? 16 det.toNat = some d →
     srcIndexOk kind index = true →
     w.toNat ≤ 6 ∧ dir.toNat ≤ 1 ∧ dwell ≠ 0 →
     thr.toInt ≤ 0 ∧ -10240 ≤ thr.toInt ∧ hys.toNat ≤ 1280 →
     v.chansFit = true →
     exec (.aqLevelCfg h det kind index w thr hys dir dwell) s = .next (s.answered h c { status := stDone } v)) ∧
  (∀ (h : CmdHdr) (input : BitVec 8) (edges : BitVec 8) (s : State) (j : Fin 4),
     let c : CmdSpec := { opcode := 0x0606, role := some .operator, params := pb input ++ pb edges }
     s.accepts h c = true →
     fin? 4 input.toNat = some j →
     edges.toNat ≤ 2 →
     exec (.aqTriginCfg h input edges) s = .next (s.answered h c { status := stDone }
       { s.enter with aq.trigIn := vmod s.aq.trigIn j (fun x => { x with edges := edges.setWidth 2 }) })) ∧
  (∀ (h : CmdHdr) (pin : BitVec 8) (owner : BitVec 8) (kind : BitVec 8) (index : BitVec 8) (polarity : BitVec 8)
    (width : BitVec 16) (s : State) (j : Fin 4),
     let c : CmdSpec :=
       { opcode := 0x0607
         role := some .operator
         params := pb pin ++ pb owner ++ pb kind ++ pb index ++ pb polarity ++ pb width }
     s.accepts h c = true →
     fin? 4 pin.toNat = some j →
     owner.toNat ≤ 1 ∧ kind.toNat ≤ 2 ∧ polarity.toNat ≤ 1 ∧ width ≠ 0 →
     (if kind = 0 then index.toNat < 16 else index.toNat < 36) →
     exec (.aqTrigoutCfg h pin owner kind index polarity width) s = .next (s.answered h c { status := stDone }
       { s.enter with
         aq.trigOut := vmod s.aq.trigOut j (fun x =>
           { x with
             route := decide (owner = 1)
             kind := kind
             index := index
             low := decide (polarity = 1)
             width := width
             pulse := none
             level := x.level && !x.route && decide (owner = 0) }) })) ∧
  (∀ (h : CmdHdr) (chans : BitVec 16) (window : BitVec 8) (s : State),
     let c : CmdSpec := { opcode := 0x0608, role := some .operator, params := pb chans ++ pb window }
     s.accepts h c = true →
     winBad window = false →
     s.armOk chans (winParam window) = true →
     exec (.aqArm h chans window) s = .next (s.answered h c { status := stDone } (s.enter.arm chans (winParam
       window)))) ∧
  (∀ (h : CmdHdr) (chans : BitVec 16) (s : State),
     let c : CmdSpec := { opcode := 0x0609, role := some .operator, params := pb chans }
     s.accepts h c = true →
     exec (.aqDisarm h chans) s = .next (s.answered h c { status := stDone } ((maskBits 16 chans.toNat).foldl (fun s c
       => s.chCut c .configured) s.enter))) ∧
  (∀ (h : CmdHdr) (units : BitVec 16) (s : State),
     let c : CmdSpec := { opcode := 0x060A, role := some .operator, params := pb units }
     s.accepts h c = true →
     exec (.aqSoftTrig h units) s = .next (s.answered h c { status := stDone, results := le 9 s.nowT }
       (s.enter.softFire units 0x30 s.nowT))) ∧
  (∀ (h : CmdHdr) (units : BitVec 8) (s : State),
     let c : CmdSpec := { opcode := 0x060B, role := some .operator, params := pb units }
     s.accepts h c = true →
     exec (.aqRetainSet h units) s = .next (s.answered h c { status := stDone } { s.enter with aq.retain := units })) ∧
  (∀ (h : CmdHdr) (s : State),
     let c : CmdSpec := { opcode := 0x060C, role := some .operator, params := [] }
     s.accepts h c = true →
     exec (.aqBudgetGet h) s = .next (s.answered h c
       { status := stDone
         results := le 4 (mbUp s.storeUsed) ++ le 1 (s.hk.dramBand.toNat + 1) ++ (s.aq.chans.toList.map (fun c => le 2
           (mbUp (s.chReserve c)))).flatten ++ (s.an.src.toList.map (fun a => le 2 (mbUp (srcReserve a)))).flatten ++
           le 2 (mbUp ((s.dma.chans.toList.map dmaReserve).sum)) } s.enter)) ∧
  (∀ (h : CmdHdr) (channel : BitVec 8) (s : State) (k : Fin 16),
     let c : CmdSpec := { opcode := 0x060D, role := some .operator, params := pb channel }
     let x := s.aq.chans.get k
     s.accepts h c = true →
     fin? 16 channel.toNat = some k →
     exec (.aqStatus h channel) s = .next (s.answered h c
       { status := stDone
         results := le 4 (regChStat x) ++ pb x.records ++ pb x.missed ++ pb x.short ++ le 4 (regChDead x) ++ pb
           x.lastHdr } s.enter))

/-- Trigger sources, firings and gates, and the ends of records -/
def Obligations.TriggerEventsRun : Prop :=
  (∀ (lv : Fin 16) (s : State) (p : Nat × Nat) (q : Nat × Nat) (rest : List ((Nat × Nat) × (Nat × Nat))),
     let d := s.aq.levels.get lv
     let v : State := { s with aq.levels := vmod s.aq.levels lv (fun d => { d with due := rest }) }
     let x := levelStamp d.thr.toInt (p.1 * 256) (q.1 * 256) p.2 q.2 (2 ^ d.w.toNat * 2 ^ 30) d.falling
     d.due = (p, q) :: rest →
     exec (.levelCrossing lv) s = .next (v.fire 0x18 lv.val x (v.windowSet x))) ∧
  (∀ (u : Fin 16) (s : State) (f : Firing) (fs : List Firing) (y : Time),
     let x := s.aq.units.get u
     let v : State := { s with aq.units := vmod s.aq.units u (fun x => { x with inbox := fs }) }
     x.inbox = f :: fs →
     x.ignore = some y →
     f.time < y →
     exec (.triggerFiringArrival u) s = .next (v)) ∧
  (∀ (u : Fin 16) (s : State) (f : Firing) (fs : List Firing),
     let x := s.aq.units.get u
     let v : State := { s with aq.units := vmod s.aq.units u (fun x => { x with inbox := fs }) }
     x.inbox = f :: fs →
     (∀ t, x.ignore = some t → t ≤ f.time) →
     x.op = 0 →
     x.aCode = f.code ∧ x.aIdx = f.index →
     exec (.triggerFiringArrival u) s = .next (v.unitFire u f)) ∧
  (∀ (u : Fin 16) (s : State) (f : Firing) (fs : List Firing),
     let x := s.aq.units.get u
     let v : State := { s with aq.units := vmod s.aq.units u (fun x => { x with inbox := fs }) }
     x.inbox = f :: fs →
     (∀ t, x.ignore = some t → t ≤ f.time) →
     x.op = 1 →
     exec (.triggerFiringArrival u) s = .next (v.unitFire u f)) ∧
  (∀ (u : Fin 16) (s : State) (f : Firing) (fs : List Firing),
     let x := s.aq.units.get u
     let v : State := { s with aq.units := vmod s.aq.units u (fun x => { x with inbox := fs }) }
     let a := decide (x.aCode = f.code ∧ x.aIdx = f.index)
     let b := decide (x.bCode ≠ 0 ∧ x.bCode = f.code ∧ x.bIdx = f.index)
     x.inbox = f :: fs →
     (∀ t, x.ignore = some t → t ≤ f.time) →
     x.op ≠ 0 ∧ x.op ≠ 1 →
     exec (.triggerFiringArrival u) s = .next
       ({ v with
          aq.units := vmod v.aq.units u (fun x =>
            { x with as := if a then x.as ++ [f] else x.as, bs := if b then x.bs ++ [f] else x.bs }) })) ∧
  (∀ (u : Fin 16) (s : State),
     let x := s.aq.units.get u
     let v := s.decidePairs u (x.as.length + x.bs.length)
     let keep := fun (f : Firing) => decide (v.nowT < f.time + (x.limit.toNat + x.hzn) * 256)
     2 ≤ x.op.toNat →
     exec (.tuPairDecision u) s = .next
       ({ v with aq.units := vmod v.aq.units u (fun x => { x with as := x.as.filter keep, bs := x.bs.filter keep }) })) ∧
  (∀ (pin : Fin 4) (s : State) (e : Nat),
     (s.aq.trigOut.get pin).pulse = some e →
     e ≤ s.time.ticks →
     exec (.trigOutPulseEnd pin) s = .next
       ({ s with aq.trigOut := vmod s.aq.trigOut pin (fun x => { x with pulse := none }) })) ∧
  (∀ (c : Fin 16) (s : State) (r : Record),
     let x := s.aq.chans.get c
     let st := x.stored r
     let total := if r.endT < r.sample then 0 else (r.endT - r.sample) / r.period + 1
     let streamed := if x.stream.isSome then total - st.post.length else 0
     let u : State := match x.stream with
       | some f => s.closePend f ([BitVec.ofNat 8 c.val, 1, 0, 0] ++ pb x.recNo)
       | none => s
     let w := u.writeRecord c x r st streamed
     let addr := u.slotAddr x x.slot
     let v : State := w.2.modCh c (fun x =>
       { x with
         state := .rearm
         endT := r.endT
         recFlags := BitVec.ofNat 16 w.1
         recSlot := addr
         lastHdr := BitVec.ofNat 32 addr
         samples := st.after
         fill := x.fillN
         fillN := 0
         short := if st.pre.length < x.pre then satAdd x.short 1 else x.short })
     x.state = .recording →
     x.record = some r →
     x.ended r = true →
     exec (.recordEnd c) s = .next ({ v with free := v.free + 1 })) ∧
  (∀ (c : Fin 16) (s : State) (r : Record),
     let x := s.aq.chans.get c
     let dead := s.time.ticks - x.endT
     let d16 := BitVec.ofNat 16 (min dead 65535)
     let last := s.lastSlot x
     let w := s.emitSet 0x0601 (0x0600 + c.val) s.nowT r.windows.toNat (le 1 c.val ++ pb x.recNo ++ le 4 x.recSlot ++
       pb x.recFlags)
     let v : State := w.modCh c (fun x =>
       { x with
         record := none
         records := x.records + 1
         recNo := x.recNo + 1
         deadHdr := dead
         deadLast := d16
         deadMax := if x.deadMax < d16 then d16 else x.deadMax
         slot := if last then x.slot else w.nextSlot x
         state := if x.next = .armed ∧ last then .done else x.next
         samples := if x.next = .armed ∧ !last then x.samples else [] })
     x.state = .rearm →
     x.record = some r →
     exec (.recordRearm c) s = .next (if x.next = .armed ∧ last then v.emitNow 0x0603 (0x0600 + c.val) (le 1 c.val ++
       pb (x.records + 1)) else v))

/-- Commands of calibration: each runs to the state its rule gives -/
def Obligations.CalibrationCommandsRun : Prop :=
  (∀ (h : CmdHdr) (kinds : BitVec 8) (tiles : BitVec 8) (deadline : BitVec 72) (count : BitVec 8) (fcs : List (BitVec
    64)) (s : State),
     let c : CmdSpec :=
       { opcode := 0x0801
         role := some .operator
         params := pb kinds ++ pb tiles ++ pb deadline ++ pb count ++ fcs.flatMap pb }
     let due := if deadline = 0 then s.nowT + 983040000 * 256 else deadline.toNat
     s.accepts h c = true →
     count.toNat ≤ 4 ∧ fcs.length = count.toNat ∧ kinds ≠ 0 ∧ tiles ≠ 0 →
     fcs.all (fun f => decide (1000000000 ≤ f.toNat ∧ f.toNat ≤ 6800000000)) = true →
     (maskBits 8 tiles.toNat).any (fun t => calKinds.any (fun k => kinds.getLsbD k.bit && (s.calPending t k).isSome))
       = false →
     exec (.calRun h kinds tiles deadline count fcs) s = .next (s.answered h c { status := stAccepted } ((maskBits 8
       tiles.toNat).foldl (fun s t => (calKinds.filter (fun k => kinds.getLsbD k.bit)).foldl (fun (s : State) k =>
       s.modCal t (fun x =>
       { x with
         pending := x.pending ++
           [{ kind := k
              deadline := due
              missed := 0
              overdue := false
              fcs := if k = .stitchEq then fcs else []
              work := s.calWork t k fcs.length }] })) s) s.enter))) ∧
  (∀ (h : CmdHdr) (kinds : BitVec 8) (tiles : BitVec 8) (s : State),
     let c : CmdSpec := { opcode := 0x0802, role := some .operator, params := pb kinds ++ pb tiles }
     s.accepts h c = true →
     exec (.calAbort h kinds tiles) s = .next (s.answered h c { status := stDone } ((maskBits 8 tiles.toNat).foldl
       (fun s t => (calKinds.filter (fun k => kinds.getLsbD k.bit && (s.calPending t k).isSome)).foldl (fun s k =>
       s.calAbortKind t k) s) s.enter))) ∧
  (∀ (h : CmdHdr) (windows : BitVec 64) (limit : BitVec 16) (s : State),
     let c : CmdSpec :=
       { opcode := 0x0803, role := some .installer, journal := true, params := pb windows ++ pb limit }
     s.accepts h c = true →
     limit = 0 ∨ 9 ≤ limit.toNat →
     exec (.calGapCfg h windows limit) s = .next (s.answered h c { status := stDone }
       { s.enter with cal.gapMask := windows, cal.claimLim := limit })) ∧
  (∀ (h : CmdHdr) (path : BitVec 8) (level : BitVec 8) (s : State) (p : Fin 64),
     let c : CmdSpec := { opcode := 0x0804, role := some .installer, journal := true, params := pb path ++ pb level }
     s.accepts h c = true →
     fin? 64 path.toNat = some p →
     -60 ≤ level.toInt ∧ level.toInt ≤ -10 →
     exec (.calRefCfg h path level) s = .next (s.answered h c { status := stDone }
       { s.enter with cal.refPath := p, cal.level := level })) ∧
  (∀ (h : CmdHdr) (s : State),
     let c : CmdSpec := { opcode := 0x0805, role := some .installer, journal := true, params := [] }
     let v := s.enter.holdUp.1
     let va := v.calSlotValid false
     let vb := v.calSlotValid true
     let toB := if va && vb then seqLater (v.calSlotSeq false) (v.calSlotSeq true) else va
     let other := if toB then va else vb
     let run : StoreRun :=
       { slotB := toB
         erased := 0
         pages := 0
         seq := if other then v.calSlotSeq (!toB) + 1 else 1
         values := v.cal.values
         kinds := v.cal.kinds
         time := v.nowT
         maxT := BitVec.ofInt 16 ((v.hk.regions.toList.map (fun r => r.est.toInt)).foldl max (-32768)) }
     let w : State := { v with cal.store := some run, cal.pagesN := 0, pup.job := .calStore }
     s.accepts h c = true →
     s.cal.store = none ∧ s.flashBusy = false ∧ s.pup.restarting = false →
     s.tempForbidden = false →
     s.enter.holdUp.2 = true →
     exec (.calStore h) s = .next (s.answered h c { status := stAccepted } (w.firmwareDma .wait))) ∧
  (∀ (h : CmdHdr) (s : State),
     let c : CmdSpec := { opcode := 0x0805, role := some .installer, journal := true, params := [] }
     s.accepts h c = true →
     s.cal.store = none ∧ s.flashBusy = false ∧ s.pup.restarting = false →
     s.tempForbidden = false →
     s.enter.holdUp.2 = false →
     exec (.calStore h) s = .next (s.answered h c { status := stHoldupLow } s.enter.holdUp.1)) ∧
  (∀ (h : CmdHdr) (cap : BitVec 32) (vmin : BitVec 16) (divider : BitVec 16) (ePage : BitVec 16) (eErase : BitVec 16)
    (s : State),
     let c : CmdSpec :=
       { opcode := 0x0806
         role := some .installer
         journal := true
         params := pb cap ++ pb vmin ++ pb divider ++ pb ePage ++ pb eErase }
     s.accepts h c = true →
     ePage ≠ 0 ∧ eErase ≠ 0 →
     exec (.calHoldupCfg h cap vmin divider ePage eErase) s = .next (s.answered h c { status := stDone }
       { s.enter with
         cal :=
           { s.cal with
             capUf := cap
             capSet := true
             vmin := vmin
             divider := divider
             ePage := ePage
             eErase := eErase } })) ∧
  (∀ (h : CmdHdr) (offA : BitVec 16) (offB : BitVec 16) (rmin : BitVec 8) (rmax : BitVec 8) (ren : BitVec 8) (s :
    State),
     let c : CmdSpec :=
       { opcode := 0x0807
         role := some .installer
         journal := true
         params := pb offA ++ pb offB ++ pb rmin ++ pb rmax ++ pb ren }
     let a := offA.toNat * 65536
     let b := offB.toNat * 65536
     let meets := fun (x n : Nat) => decide ((a < x + n ∧ x < a + 262144) ∨ (b < x + n ∧ x < b + 262144))
     s.accepts h c = true →
     ¬ (a < b + 262144 ∧ b < a + 262144) →
     meets 0x400000 0x40000 = false ∧ meets 0x480000 4096 = false ∧ meets 0x490000 4096 = false →
     rmin.toInt ≤ rmax.toInt ∧ ren.toNat ≤ 1 →
     s.cal.store = none →
     exec (.calFlashCfg h offA offB rmin rmax ren) s = .next (s.answered h c { status := stDone }
       { s.enter with
         cal :=
           { s.cal with offA := offA, offB := offB, rangeMin := rmin, rangeMax := rmax, rangeEn := decide (ren = 1) } })) ∧
  (∀ (h : CmdHdr) (tile : BitVec 8) (s : State) (t : Fin 8),
     let c : CmdSpec := { opcode := 0x0808, role := some .operator, params := pb tile }
     let x := s.cal.tiles.get t
     s.accepts h c = true →
     fin? 8 tile.toNat = some t →
     exec (.calStatus h tile) s = .next (s.answered h c
       { status := stDone
         results := le 4 (regCalStat s t) ++ le 4 (regCalCnt x) ++ le 4 (regCalMiss x) ++ le 4 (regCalStore s.cal) }
       s.enter)) ∧
  (∀ (h : CmdHdr) (kind : BitVec 8) (object : BitVec 8) (point : BitVec 8) (ptr : BitVec 32) (s : State) (ws : List
    Int),
     let c : CmdSpec :=
       { opcode := 0x0809
         role := some .operator
         params := pb kind ++ pb object ++ pb point ++ pb ptr
         ptrs := [(ptr.toNat, calSetLen kind)] }
     let bs := ws.flatMap (leI 2)
     s.accepts h c = true →
     point.toNat ≤ 4 →
     s.calSetWords kind object point.toNat = some ws →
     exec (.calSetRead h kind object point ptr) s = .next (s.answered h c
       { status := stDone, results := le 2 bs.length, block := some (ptr.toNat, bs.length) }
       { s.enter with pup.mbRam := memWrite 0 s.pup.mbRam ptr.toNat bs }))

/-- Events of calibration: placement, claims and the end of a calibration -/
def Obligations.CalibrationEventsRun : Prop :=
  (∀ (t : Fin 8) (s : State),
     let ps := (s.cal.tiles.get t).pending
     s.hk.halt = false ∧ s.pup.restarting = false ∧ s.pup.halted = false →
     exec (.calPlacementCheck t) s = .next ((ps.filter (fun c => c.overdue) ++ ps.filter (fun c => !c.overdue)).foldl
       (fun s c => s.judgeCal t c) s)) ∧
  (∀ (t : Fin 8) (s : State) (c : Claim),
     let n := ((s.calPending t c.kind).bind (fun p => p.work.head?)).elim 0 (fun w => w.1)
     let orx := c.kind.usesOrx n
     let portB := decide (n = 1) && decide (c.kind = .rxIq ∨ c.kind = .gain ∨ c.kind = .array)
     let u : State := (s.modCal t (fun x =>
       { x with claim := some { c with running := true }, claims := satAdd x.claims 1 })).modPath c.path (fun p =>
       { p with claimMute := true })
     let v : State := { u with cal.bus := .calibration t }
     let w : State := v.markBus c.path (!(!orx || decide (c.kind = .orx))) (fun i => !orx && !portB && decide (i =
       c.path)) (fun i => !orx && portB && decide (i = c.path)) (fun u => orx && decide (u = t))
     (s.cal.tiles.get t).claim = some c →
     c.running = false ∧ c.start ≤ s.time.ticks →
     s.cal.bus = .free ∨ s.cal.bus = .calibration t →
     exec (.calClaimStart t) s = .next ((if orx then w.modRes t (fun r =>
       { r with orx.reqCal := some (BitVec.ofNat 3 c.path.val) }) else w).noteMutes)) ∧
  (∀ (t : Fin 8) (s : State) (c : Claim),
     let u : State := ((s.modPath c.path (fun p => { p with claimMute := false })).slotFree t).modCal t (fun x =>
       { x with claim := none, done := satAdd x.done 1 })
     (s.cal.tiles.get t).claim = some c →
     c.running = true ∧ c.start + c.len ≤ s.time.ticks →
     exec (.calClaimEnd t) s = .next (u.modPend t c.kind (fun p => match p.work with
       | [] => p
       | w :: ws => let left := w.2 &&& ~~~(1#8 <<< (c.path.val % 8)); if left = 0 then { p with work := ws } else
           { p with work := (w.1, left) :: ws }))) ∧
  (∀ (t : Fin 8) (kind : Fin 8) (failing : BitVec 16) (tm : BitVec 16) (results : List (BitVec 16 × BitVec 16)) (s :
    State) (c : CalPend),
     let k := calKinds.getD kind.val .hkTrim
     s.calPending t k = some c →
     c.work.isEmpty = true →
     failing ≠ 0 →
     exec (.calibrationComplete t kind failing tm results) s = .next (s.calDone t k stImplausible tm failing)) ∧
  (∀ (t : Fin 8) (kind : Fin 8) (failing : BitVec 16) (tm : BitVec 16) (results : List (BitVec 16 × BitVec 16)) (s :
    State) (c : CalPend),
     let k := calKinds.getD kind.val .hkTrim
     let u := s.calApply t k tm.toInt results
     let v : State := { u with cal.kinds := u.cal.kinds ||| (1#8 <<< k.bit) }
     s.calPending t k = some c →
     c.work.isEmpty = true →
     failing = 0 →
     exec (.calibrationComplete t kind failing tm results) s = .next (v.calDone t k stDone tm 0))

/-- Commands of the analyser: each runs to the state its rule gives -/
def Obligations.AnalyserCommandsRun : Prop :=
  (∀ (h : CmdHdr) (lanes : BitVec 16) (mode : BitVec 8) (path : BitVec 8) (port : BitVec 8) (z : BitVec 8) (window :
    BitVec 8) (overlap : BitVec 8) (units : BitVec 8) (s : State),
     let c : CmdSpec :=
       { opcode := 0x0501
         role := some .operator
         params := pb lanes ++ pb mode ++ pb path ++ pb port ++ pb z ++ pb window ++ pb overlap ++ pb units }
     let touches := decide (s.an.stitch.members ≠ 0 ∧ lanes.setWidth 8 &&& s.an.stitch.members ≠ 0)
     let k : LaneCfg :=
       { tap := decide (mode = 1)
         path := path.setWidth 3
         portB := decide (port = 1)
         z := z.setWidth 4
         window := window.setWidth 3
         overlap := overlap.setWidth 2
         dbm := decide (units = 1) }
     let u : State := (lanesOf lanes).foldl (fun s l => s.stage (laneSrc l) (fun x => { x with lane := k })) s.enter
     let v : State := if touches then u.stage 8 (fun x => { x with lane := k }) else u
     s.accepts h c = true →
     lanes.toNat < 256 →
     mode.toNat ≤ 1 ∧ path.toNat ≤ 7 ∧ port.toNat ≤ 1 ∧ z.toNat ≤ 8 →
     window.toNat ≤ 6 ∧ overlap.toNat ≤ 2 ∧ units.toNat ≤ 1 →
     touches = false ∨ (lanes.setWidth 8 &&& s.an.stitch.members = s.an.stitch.members ∧ z.toNat =
       s.an.stitch.z.toNat) →
     mode = 0 ∨ (lanesOf lanes).all (fun l => decide ((s.radio.get l).use = .aperture)) = true →
     (admitted v false && v.storeFits) = true →
     exec (.anLaneCfg h lanes mode path port z window overlap units) s = .next (s.answered h c { status := stDone }
       v.rehorizon)) ∧
  (∀ (h : CmdHdr) (tiles : BitVec 8) (f0 : BitVec 64) (z : BitVec 8) (s : State),
     let c : CmdSpec := { opcode := 0x0502, role := some .operator, params := pb tiles ++ pb f0 ++ pb z }
     s.accepts h c = true →
     tiles = 0 →
     exec (.anStitchCfg h tiles f0 z) s = .next (s.answered h c { status := stDone, results := List.replicate 68 0 }
       { (s.enter.clearStitch).rehorizon with
         an.stitch := { members := 0, f0 := 0, z := 0, j := 0, fc := Vector.replicate 8 0, announced := false } })) ∧
  (∀ (h : CmdHdr) (tiles : BitVec 8) (f0 : BitVec 64) (z : BitVec 8) (s : State),
     let c : CmdSpec := { opcode := 0x0502, role := some .operator, params := pb tiles ++ pb f0 ++ pb z }
     let ms := maskBits 8 tiles.toNat
     let zz : BitVec 4 := z.setWidth 4
     let fcs := ms.mapIdx (fun m l => (l, stitchFreq f0.toNat zz (stitchCentre zz m)))
     let fcOf := fun (l : Fin 8) => ((fcs.find? (fun c => decide (c.1 = l))).map (fun c => c.2)).getD 0
     let j := stitchJ zz ms.length
     let k : LaneCfg := { (s.an.src.get (laneSrc (ms.headD 0))).staged.lane with z := zz }
     let u : State :=
       { s.enter.clearStitch with
         an.stitch :=
           { members := tiles
             f0 := f0
             z := zz
             j := BitVec.ofNat 32 j
             fc := Vector.ofFn (fun l => BitVec.ofNat 64 (fcOf l))
             announced := false } }
     let v : State := (ms.map laneSrc ++ [8]).foldl (fun (s : State) (a : Fin 9) => s.stitchTake k a) u
     s.accepts h c = true →
     tiles ≠ 0 →
     2 ≤ ms.length ∧ z.toNat ≤ 8 →
     fcs.all (fun c => decide (1000000000 ≤ c.2 ∧ c.2 ≤ 6800000000)) = true →
     (admitted v false && v.storeFits) = true →
     exec (.anStitchCfg h tiles f0 z) s = .next (s.answered h c
       { status := stDone, results := (List.finRange 8).flatMap (fun l => le 8 (fcOf l)) ++ le 4 j }
       v.rehorizon.checkStitch)) ∧
  (∀ (h : CmdHdr) (source : BitVec 8) (output : BitVec 8) (first : BitVec 32) (count : BitVec 32) (period : BitVec 16)
    (k : BitVec 32) (avgMode : BitVec 8) (inclBlanked : BitVec 8) (maskOvl : BitVec 8) (flow : BitVec 8) (segment :
    BitVec 8) (s : State) (a : Fin 9) (o : Fin 4),
     let c : CmdSpec :=
       { opcode := 0x0503
         role := some .operator
         params := pb source ++ pb output ++ pb first ++ pb count ++ pb period ++ pb k ++ pb avgMode ++ pb inclBlanked
           ++ pb maskOvl ++ pb flow ++ pb segment }
     let q := s.an.src.get a
     let lo : Int := if a.val < 8 then -(Int.ofNat (q.staged.lane.size / 2)) else 0
     let hi : Int := if a.val < 8 then Int.ofNat (q.staged.lane.size / 2) else Int.ofNat s.an.stitch.j.toNat
     let x : AnOutput :=
       { first := first
         count := count
         period := period
         k := k
         avgLog := decide (avgMode = 1)
         inclBl := decide (inclBlanked = 1)
         maskOvl := decide (maskOvl = 1)
         flow := fin? 64 flow.toNat
         segment := if segment = 0xFF then none else fin? 64 segment.toNat }
     let v := s.enter.stage a (fun c => { c with outs := c.outs.set o.val (some x) o.isLt })
     s.accepts h c = true →
     fin? 9 source.toNat = some a →
     fin? 4 output.toNat = some o →
     a ≠ 8 ∨ s.an.stitch.members ≠ 0 →
     count ≠ 0 ∧ lo ≤ first.toInt ∧ first.toInt + Int.ofNat count.toNat ≤ hi →
     period ≠ 0 ∧ k ≠ 0 ∧ k.toNat ≤ 16777215 →
     avgMode.toNat ≤ 1 ∧ inclBlanked.toNat ≤ 1 ∧ maskOvl.toNat ≤ 1 →
     flow = 0xFF ∨ rxFlowFree s flow.toNat (.spectrum a o) = true →
     segment = 0xFF ∨ (match (fin? 64 segment.toNat).bind (fun g => s.aq.segments.get g) with
       | none => false
       | some r => decide (20 + 2 * count.toNat ≤ slotSize r.len r.slots)) = true →
     (admitted v false && v.storeFits) = true →
     exec (.anOutputCfg h source output first count period k avgMode inclBlanked maskOvl flow segment) s = .next
       (s.answered h c { status := stDone } v)) ∧
  (∀ (h : CmdHdr) (source : BitVec 8) (mask : BitVec 8) (polarity : BitVec 8) (enterD : BitVec 16) (leaveD : BitVec
    16) (evt : BitVec 8) (count : BitVec 16) (ptr : BitVec 32) (s : State) (a : Fin 9) (m : Fin 4) (ps : List (Int ×
    Int)),
     let c : CmdSpec :=
       { opcode := 0x0504
         role := some .operator
         params := pb source ++ pb mask ++ pb polarity ++ pb enterD ++ pb leaveD ++ pb evt ++ pb count ++ pb ptr
         ptrs := if count = 0 then [] else [(ptr.toNat, 8 * count.toNat)] }
     let z := (s.an.src.get a).staged.lane.z
     let lo : Int := if a.val < 8 then -(validBand z) else 0
     let hi : Int := if a.val < 8 then validBand z else Int.ofNat s.an.stitch.j.toNat - 1
     let x : Option AnMask := if count = 0 then none else some
       { lower := decide (polarity = 1), enterD := enterD, leaveD := leaveD, evt := decide (evt = 1), points := ps }
     let put := fun (s : State) (b : Fin 9) (y : Option AnMask) => s.stage b (fun c =>
       { c with masks := c.masks.set m.val y m.isLt })
     let u : State := if a = 8 then s.an.stitch.list.foldl (fun s l => put s (laneSrc l) none) (put s.enter a x) else
       put s.enter a x
     let v : State := u.rehorizon
     s.accepts h c = true →
     fin? 9 source.toNat = some a →
     fin? 4 mask.toNat = some m →
     a ≠ 8 ∨ s.an.stitch.members ≠ 0 →
     polarity.toNat ≤ 1 ∧ enterD ≠ 0 ∧ leaveD ≠ 0 ∧ evt.toNat ≤ 1 ∧ count.toNat ≤ 512 →
     readPoints (memRead 0 s.pup.mbRam ptr.toNat (8 * count.toNat)) count.toNat = some ps ∧ pointsRise ps = true ∧
       s.maskTaken a m = false →
     ps.all (fun p => decide (lo ≤ p.1 ∧ p.1 ≤ hi)) = true →
     a ≠ 8 ∨ s.an.stitch.list.all (fun l => decide (s.sliceLen ps l ≤ 512)) = true →
     v.chansFit = true →
     exec (.anMaskLoad h source mask polarity enterD leaveD evt count ptr) s = .next (s.answered h c
       { status := stDone } v)) ∧
  (∀ (h : CmdHdr) (lane : BitVec 8) (b0 : BitVec 32) (c : BitVec 32) (top : BitVec 16) (step : BitVec 8) (flow :
    BitVec 8) (s : State) (l : Fin 8),
     let cs : CmdSpec :=
       { opcode := 0x0505
         role := some .operator
         params := pb lane ++ pb b0 ++ pb c ++ pb top ++ pb step ++ pb flow }
     let vb := validBand (s.an.src.get (laneSrc l)).staged.lane.z
     let v := s.enter.stage (laneSrc l) (fun x =>
       { x with dens := { b0 := b0, c := c, top := top, step := step, flow := flow } })
     s.accepts h cs = true →
     fin? 8 lane.toNat = some l →
     c ≠ 0 ∧ -vb ≤ b0.toInt ∧ b0.toInt + Int.ofNat c.toNat - 1 ≤ vb ∧ step ≠ 0 →
     flow = 0xFF ∨ rxFlowFree s flow.toNat (.density l) = true →
     admitted v false = true →
     exec (.anDensityCfg h lane b0 c top step flow) s = .next (s.answered h cs { status := stDone } v)) ∧
  (∀ (h : CmdHdr) (lanes : BitVec 16) (s : State),
     let c : CmdSpec := { opcode := 0x0506, role := some .operator, params := pb lanes }
     s.accepts h c = true →
     lanes.toNat < 256 →
     s.swapBusy (lanesOf lanes) = false →
     exec (.anDensitySwap h lanes) s = .next (s.answered h c { status := stDone } (s.enter.askSwap (lanesOf lanes)))) ∧
  (∀ (h : CmdHdr) (lanes : BitVec 16) (s : State),
     let c : CmdSpec := { opcode := 0x0507, role := some .operator, params := pb lanes }
     s.accepts h c = true →
     lanes.toNat < 512 →
     exec (.anApply h lanes) s = .next (s.answered h c { status := stDone, results := le 9 s.nowT } ((sourcesOfMask
       lanes).foldl (fun s a => s.applySource a) s.enter))) ∧
  (∀ (h : CmdHdr) (lanes : BitVec 16) (offset : BitVec 16) (s : State),
     let c : CmdSpec :=
       { opcode := 0x0508, role := some .installer, journal := true, params := pb lanes ++ pb offset }
     s.accepts h c = true →
     lanes.toNat < 256 →
     -8192 ≤ offset.toInt ∧ offset.toInt ≤ 8191 →
     exec (.anRefSet h lanes offset) s = .next (s.answered h c { status := stDone } ((lanesOf lanes).foldl (fun s l =>
       s.modAn (laneSrc l) (fun y => { y with refOffset := offset })) s.enter))) ∧
  (∀ (h : CmdHdr) (lane : BitVec 8) (s : State) (l : Fin 8),
     let c : CmdSpec := { opcode := 0x0509, role := some .operator, params := pb lane }
     let q := s.an.src.get (laneSrc l)
     s.accepts h c = true →
     fin? 8 lane.toNat = some l →
     exec (.anStatus h lane) s = .next (s.answered h c
       { status := stDone
         results := le 4 (regAnLaneCfg s l) ++ le 4 (regAnLaneStat s l) ++ pb q.frames ++ pb q.blanked ++ le 4
           (regMaskStat s l) ++ q.masks.toList.flatMap (fun m => pb m.enters) ++ le 4 (regDensStat q) ++ pb
           q.density.frames ++ le 4 (regStitchStat s) } s.enter))

/-- Events of the analyser: frames, blocks, density swaps and readouts -/
def Obligations.AnalyserEventsRun : Prop :=
  (∀ (src : Fin 9) (s : State) (l : Fin 8),
     fin? 8 src.val = some l →
     exec (.spectralFrameEnd src) s = .next ((s.laneNext l).modAn src AnSource.trim)) ∧
  (∀ (src : Fin 9) (s : State),
     src = 8 →
     s.an.stitch.members ≠ 0 →
     exec (.spectralFrameEnd src) s = .next (s.checkStitch.stitchFrame)) ∧
  (∀ (src : Fin 9) (out : Fin 4) (s : State) (x : AnOutput),
     (s.an.src.get src).cfg.outs.get out = some x →
     out ≠ 0 ∧ x.k.toNat ≤ ((s.an.src.get src).traces.get out).seen →
     exec (.traceBlockEnd src out) s = .next (s.traceClose src out)) ∧
  (∀ (src : Fin 8) (s : State) (b : Nat),
     let q := s.an.src.get (laneSrc src)
     q.swapReq = some b →
     b ≤ s.time.ticks ∧ (s.laneMode src = .off ∨ b ≤ q.nextFrame) →
     exec (.densitySwapEffect src) s = .next (s.densSwap src)) ∧
  (∀ (src : Fin 8) (s : State),
     exec (.densityReadoutDone src) s = .next (s.modAn (laneSrc src) (fun y => { y with finished := none })))

/-- Commands of the lanes: each runs to the state its rule gives -/
def Obligations.LaneCommandsRun : Prop :=
  (∀ (h : CmdHdr) (rate : BitVec 8) (minLanes : BitVec 8) (auto : BitVec 8) (manual : BitVec 8) (timeout : BitVec 16)
    (swing : BitVec 8) (s : State),
     let c : CmdSpec :=
       { opcode := 0x0701
         role := some .installer
         journal := true
         params := pb rate ++ pb minLanes ++ pb auto ++ pb manual ++ pb timeout ++ pb swing }
     let u : State :=
       { s.enter with
         link :=
           { s.link with
             rate := if rate = 0xFF then s.link.rate else rate.setWidth 2
             minLanes := if minLanes = 0xFF then s.link.minLanes else minLanes.setWidth 5
             auto := if auto = 0xFF then s.link.auto else decide (auto = 1)
             manual := if manual = 0xFF then s.link.manual else decide (manual = 1)
             timeout := if timeout = 0xFFFF then s.link.timeout else timeout
             swing := if swing = 0xFF then s.link.swing else swing
             admitUp := true } }
     s.accepts h c = true →
     rate.toNat ≤ 3 ∨ rate = 0xFF →
     minLanes = 0xFF ∨ (1 ≤ minLanes.toNat ∧ minLanes.toNat ≤ 16) →
     auto.toNat ≤ 1 ∨ auto = 0xFF →
     manual.toNat ≤ 1 ∨ manual = 0xFF →
     timeout = 0xFFFF ∨ (10 ≤ timeout.toNat ∧ timeout.toNat ≤ 10000) →
     swing = 0xFF ∨ (4 ≤ swing.toNat ∧ swing.toNat ≤ 10) →
     rate = 0xFF ∨ rate.toNat = s.link.rate.toNat ∨ s.link.lanes.toList.all (fun x => decide (x.pstate = .ragdoll)) =
       true →
     exec (.lkCfg h rate minLanes auto manual timeout swing) s = .next (s.answered h c { status := stDone }
       ((u.relevel u.link.active).1.checkStart (u.relevel u.link.active).2))) ∧
  (∀ (h : CmdHdr) (lanes : BitVec 16) (s : State),
     let c : CmdSpec := { opcode := 0x0702, role := some .operator, params := pb lanes }
     let u : State :=
       { s.enter with
         link :=
           { s.link with
             start := s.link.start ++ [{ mask := lanes, till := s.time.ticks + s.link.timeout.toNat * 983040 }]
             lanes := vmap s.link.lanes (fun (j : Fin 16) (x : Lane) => if lanes.getLsbD j.val then (if x.role =
               .offline ∨ x.role = .down ∨ x.role = .held then Lane.start s.time.ticks
               { x with fails := 0, downAt := [], failRep := false } else
               { x with fails := 0, downAt := [], failRep := false }) else x) } }
     s.accepts h c = true →
     exec (.lkStart h lanes) s = .next (s.answered h c { status := stAccepted } (u.checkStart false))) ∧
  (∀ (h : CmdHdr) (lane : BitVec 8) (count : BitVec 8) (s : State) (l : Fin 16),
     let c : CmdSpec := { opcode := 0x0703, role := some .installer, journal := true, params := pb lane ++ pb count }
     s.accepts h c = true →
     fin? 16 lane.toNat = some l →
     count ≠ 0 ∧ count.toNat ≤ 66 →
     s.link.manual = true →
     exec (.lkBitslip h lane count) s = .next (s.answered h c { status := stDone, results := [0] } (s.enter.modLane l
       (fun x => { x with slips := satAdd x.slips count.toNat, hdrRun := 0 })))) ∧
  (∀ (h : CmdHdr) (lanes : BitVec 16) (state : BitVec 8) (s : State) (t : LaneTarget),
     let c : CmdSpec := { opcode := 0x0704, role := some .operator, params := pb lanes ++ pb state }
     s.accepts h c = true →
     laneTarget? state = some t →
     laneStateOk s lanes t = true →
     exec (.lkStateSet h lanes state) s = .next (s.answered h c { status := stDone } (s.enter.laneState lanes t))) ∧
  (∀ (h : CmdHdr) (lanes : BitVec 16) (loop : BitVec 8) (s : State),
     let c : CmdSpec := { opcode := 0x0705, role := some .installer, journal := true, params := pb lanes ++ pb loop }
     let k : LoopKind := if loop = 0 then .none else if loop = 1 then .nes else if loop = 2 then .nep else .fe
     s.accepts h c = true →
     loop.toNat ≤ 3 →
     lanes &&& s.link.active = 0 →
     exec (.lkLoop h lanes loop) s = .next (s.answered h c { status := stDone }
       { s.enter with
         link.lanes := vmap s.link.lanes (fun (j : Fin 16) (x : Lane) => if lanes.getLsbD j.val then (if k = .none
           then (if x.role = .test then { x with loop := k, role := .offline } else { x with loop := k }) else
           { x.clearUp with loop := k, role := .test, started := false }) else x) })) ∧
  (∀ (h : CmdHdr) (lanes : BitVec 16) (gen : BitVec 8) (chk : BitVec 8) (s : State),
     let c : CmdSpec :=
       { opcode := 0x0706, role := some .installer, journal := true, params := pb lanes ++ pb gen ++ pb chk }
     s.accepts h c = true →
     gen.toNat ≤ 3 ∨ gen = 0xFF →
     chk.toNat ≤ 3 ∨ chk = 0xFF →
     lanes &&& s.link.active = 0 →
     exec (.lkPrbs h lanes gen chk) s = .next (s.answered h c { status := stDone }
       { s.enter with
         link.lanes := vmap s.link.lanes (fun (j : Fin 16) (x : Lane) => if lanes.getLsbD j.val then
           { x with
             prbs :=
               { x.prbs with
                 genEn := decide (gen ≠ 0xFF)
                 genPat := if gen = 0xFF then x.prbs.genPat else gen.setWidth 2
                 chkEn := decide (chk ≠ 0xFF)
                 chkPat := if chk = 0xFF then x.prbs.chkPat else chk.setWidth 2
                 sync := false
                 reached := false
                 good := 0
                 seed := []
                 window := []
                 err := 0
                 bits := 0
                 hiLatch := 0
                 burst := 0
                 repeat_ := 0
                 injBits := 0 } } else x) })) ∧
  (∀ (h : CmdHdr) (lanes : BitVec 16) (burst : BitVec 8) (rep : BitVec 8) (s : State),
     let c : CmdSpec :=
       { opcode := 0x0707, role := some .installer, journal := true, params := pb lanes ++ pb burst ++ pb rep }
     s.accepts h c = true →
     burst ≠ 0 →
     rep = 0 ∨ (20 ≤ rep.toNat ∧ rep.toNat ≤ 40) →
     (maskBits 16 lanes.toNat).all (fun l => (s.link.lanes.get l).prbs.genEn) = true →
     exec (.lkInject h lanes burst rep) s = .next (s.answered h c { status := stDone }
       { s.enter with
         link.lanes := vmap s.link.lanes (fun (j : Fin 16) (x : Lane) => if lanes.getLsbD j.val then
           { x with prbs := { x.prbs with burst := burst, repeat_ := rep, injBits := x.prbs.injBits + burst.toNat } }
           else x) })) ∧
  (∀ (h : CmdHdr) (lane : BitVec 8) (s : State) (l : Fin 16),
     let c : CmdSpec := { opcode := 0x0708, role := some .operator, params := pb lane }
     let p := (s.link.lanes.get l).prbs
     s.accepts h c = true →
     fin? 16 lane.toNat = some l →
     exec (.lkBerGet h lane) s = .next (s.answered h c
       { status := stDone
         results := le 8 p.err ++ le 8 p.bits ++ pb (Config.berFloat 0 p.err p.bits) ++ (if p.err = 0 then le 4 0 else
           pb (Config.berFloat 1 p.err p.bits)) ++ pb (Config.berFloat 2 p.err p.bits) ++ [BitVec.ofNat 8 (b2n
           p.sync)] } s.enter)) ∧
  (∀ (h : CmdHdr) (lane : BitVec 8) (s : State) (l : Fin 16),
     let c : CmdSpec := { opcode := 0x0709, role := some .operator, params := pb lane }
     let x := s.link.lanes.get l
     s.accepts h c = true →
     fin? 16 lane.toNat = some l →
     exec (.lkStatus h lane) s = .next (s.answered h c
       { status := stDone
         results := le 4 (regLaneStat x) ++ le 4 (regLaneBlk x) ++ le 4 (regLaneErr x) ++ le 4 (regLaneEq x) }
       s.enter)) ∧
  (∀ (h : CmdHdr) (lanes : BitVec 16) (p1 : BitVec 8) (p2 : BitVec 8) (p3 : BitVec 8) (p4 : BitVec 8) (s : State),
     let c : CmdSpec :=
       { opcode := 0x070A
         role := some .installer
         journal := true
         params := pb lanes ++ pb p1 ++ pb p2 ++ pb p3 ++ pb p4 }
     s.accepts h c = true →
     p1.toNat ≤ 7 ∧ p2.toNat ≤ 7 ∧ p3.toNat ≤ 7 ∧ p4.toNat ≤ 7 →
     exec (.lkPresetSet h lanes p1 p2 p3 p4) s = .next (s.answered h c { status := stDone }
       { s.enter with
         link.lanes := vmap s.link.lanes (fun (j : Fin 16) (x : Lane) => if lanes.getLsbD j.val then
           { x with presets := #v[p1.setWidth 3, p2.setWidth 3, p3.setWidth 3, p4.setWidth 3] } else x) }))

/-- Events of the lanes: each runs to the state its rule gives -/
def Obligations.LaneEventsRun : Prop :=
  (∀ (s : State) (r : StartRun) (rs : List StartRun),
     let u : State := { s with link.start := rs }
     let v : State := if u.link.up then u.emitNow 0x0703 0x07FF (pb u.link.active) else u
     s.link.start = r :: rs →
     r.till ≤ s.time.ticks →
     exec .lkStartTimeout s = .next ((maskBits 16 r.mask.toNat).foldl (fun s k => let x := s.link.lanes.get k; if
       x.role = .active ∨ x.role = .idle ∨ x.failRep then s else s.laneFailEvt k (if x.role = .bringup then 0 else
       x.fail.toNat)) v)) ∧
  (∀ (l : Fin 16) (s : State) (e : Nat),
     (s.link.lanes.get l).exitAt = some e →
     e ≤ s.time.ticks →
     exec (.laneExitComplete l) s = .next ((s.modLane l (fun x => { x with pstate := .on, exitAt := none })).modPll
       (lanePll l) (fun p => if p.busy then p else { p with lock := true }))) ∧
  (∀ (l : Fin 16) (s : State),
     (s.link.lanes.get l).isOn = true →
     exec (.cdrLockAcquired l) s = .next ((s.modLane l (fun x => { x with cdr := true })).adaptEq l)) ∧
  (∀ (l : Fin 16) (s : State),
     let x := s.link.lanes.get l
     x.role = .bringup →
     x.cdr = false →
     x.bringAt + 1474560 ≤ s.time.ticks →
     exec (.cdrLockTimeout l) s = .next (s.laneFail l 1)) ∧
  (∀ (l : Fin 16) (hdr : BitVec 2) (s : State),
     let x := s.link.lanes.get l
     x.isOn = true →
     x.cdr = true →
     exec (.laneBlockReceived l hdr) s = .next (s.modLane l (fun x => x.header s.time.ticks (!s.link.manual) (decide
       (hdr = 1 ∨ hdr = 2))))) ∧
  (∀ (l : Fin 16) (s : State),
     let x := s.link.lanes.get l
     let u := s.modLane l (fun x =>
       { x with slips := satAdd x.slips 1, slipN := x.slipN + 1, slipDue := none, hdrRun := 0 })
     x.role = .bringup →
     x.lock = false →
     x.slipDue.isSome = true →
     s.link.manual = false →
     s.pup.ready = true →
     exec (.autoSlip l) s = .next (if x.slipN + 1 ≥ 198 then u.laneFail l 2 else u)) ∧
  (∀ (l : Fin 16) (s : State) (t : Nat),
     let x := s.link.lanes.get l
     let ds := s.time.ticks :: x.downAt.filter (fun d => decide (s.time.ticks < d + 9830400000))
     let y : Lane :=
       { x.clearUp with cdr := x.cdr, role := .down, downs := satAdd x.downs 1, downAt := ds, started := false }
     let u := (s.modLane l (fun _ => y)).emitNow 0x0701 (0x0700 + l.val) (le 1 l.val ++ le 8 (t * 256))
     x.lostAt = some t →
     t + 1967 ≤ s.time.ticks →
     x.lock = false →
     x.role ≠ .test ∧ x.role ≠ .held ∧ x.role ≠ .offline →
     exec (.laneLockLossTimeout l) s = .next (if ds.length ≥ 4 then (u.modLane l (fun y =>
       { y with role := .held, fail := 5 })).laneFailEvt l 5 else if u.link.auto then u.modLane l (fun y => y.start
       s.time.ticks) else u)) ∧
  (∀ (l : Fin 16) (transitions : BitVec 12) (s : State),
     let low := decide (transitions.toNat < 1229)
     (s.link.lanes.get l).isOn = true →
     exec (.eqDensityWindowEnd l transitions) s = .next ((s.adaptEq l).modLane l (fun x =>
       { x with
         density := transitions
         freezes := if low && !x.eqFrozen then satAdd x.freezes 1 else x.freezes
         eqFrozen := low }))) ∧
  (∀ (l : Fin 16) (payload : BitVec 64) (skew : BitVec 8) (complemented : Bool) (s : State),
     let x := s.link.lanes.get l
     let b := pb payload
     let u : State := if x.role = .test ∨ x.role = .offline ∨ x.role = .held then s else s.markerLane l (b.getD 1
       0).toNat skew complemented
     let w : State :=
       { u with
         link.farActive := BitVec.ofNat 16 (unle ((b.drop 2).take 2))
         link.farGood := BitVec.ofNat 16 (unle ((b.drop 4).take 2)) }
     x.lock = true ∧ x.isOn = true →
     b.getD 0 0 = 0x4B →
     markerOk b = true →
     exec (.markerReceived l payload skew complemented) s = .next ((w.setRxActive w.link.farActive).leaveOn)) ∧
  (∀ (s : State),
     let near := maskOf 16 (fun k => (s.link.lanes.get k).isGood)
     let u : State :=
       { s with
         link :=
           { s.link with
             nearGood := BitVec.ofNat 16 near
             markAt := s.time.ticks
             lanes := vmap s.link.lanes (fun (_ : Fin 16) (x : Lane) => { x with preset := presetNow s x }) } }
     let act := maskOf 16 (fun k => let x := u.link.lanes.get k; x.target.isNone && decide (x.pstate = .on) && (x.role
       == .active || (x.role == .idle && near.testBit k.val && u.link.farGood.getLsbD k.val)))
     s.resetN = true →
     exec .markerSent s = .next ((u.setActive (BitVec.ofNat 16 act)).sendMarkers.leaveOn)) ∧
  (∀ (s : State),
     s.link.up = true →
     exec .idleRowSend s = .next ({ s.layRows with link.idleAt := s.time.ticks })) ∧
  (∀ (l : Fin 16) (bits : List Bool) (s : State),
     (s.link.lanes.get l).prbs.chkEn = true →
     exec (.prbsCheckerBits l bits) s = .next (s.modLane l (fun x => { x with prbs := bits.foldl Prbs.check x.prbs }))) ∧
  (∀ (l : Fin 16) (s : State),
     (s.link.lanes.get l).prbs.genEn = true →
     (s.link.lanes.get l).prbs.repeat_ ≠ 0 →
     exec (.injectRepeat l) s = .next (s.modLane l (fun x =>
       { x with prbs := { x.prbs with injBits := x.prbs.injBits + x.prbs.burst.toNat } })))

/-- Commands of the Zenfa Link: each runs to the state its rule gives -/
def Obligations.LinkCommandsRun : Prop :=
  (∀ (h : CmdHdr) (dir : BitVec 8) (flow : BitVec 8) (prio : BitVec 8) (lenMax : BitVec 16) (s : State) (f : Fin 64),
     let c : CmdSpec :=
       { opcode := 0x0710, role := some .operator, params := pb dir ++ pb flow ++ pb prio ++ pb lenMax }
     s.accepts h c = true →
     fin? 64 flow.toNat = some f →
     dir.toNat ≤ 1 ∧ prio.toNat ≤ 7 →
     256 ≤ lenMax.toNat ∧ lenMax.toNat ≤ 8192 ∧ lenMax.toNat % 4 = 0 →
     (if dir = 0 then (s.link.rxFlows.get f).src.isBound else (s.link.txFlows.get f).src.isBound) = false →
     exec (.lkFlowCfg h dir flow prio lenMax) s = .next (s.answered h c { status := stDone } (if dir = 0 then
       { s.enter with
         link.rxFlows := vmod s.link.rxFlows f (fun x =>
           { x with prio := prio.setWidth 3, lenMax := lenMax.setWidth 14 }) } else
       { s.enter with
         link.txFlows := vmod s.link.txFlows f (fun x =>
           { x with prio := prio.setWidth 3, lenMax := lenMax.setWidth 14 }) }))) ∧
  (∀ (h : CmdHdr) (lane : BitVec 8) (flow : BitVec 8) (format : BitVec 8) (s : State) (j : Fin 9) (l : Fin 8),
     let c : CmdSpec := { opcode := 0x0711, role := some .operator, params := pb lane ++ pb flow ++ pb format }
     let u := unbindRxIf s.enter (fun x => decide (x = .laneIq l))
     s.accepts h c = true →
     fin? 9 lane.toNat = some j ∧ fin? 8 lane.toNat = some l →
     format.toNat ≤ 2 →
     flow = 0xFF →
     exec (.lkAniqCfg h lane flow format) s = .next (s.answered h c { status := stDone }
       { u with an.src := vmod u.an.src j (fun x => { x with iqFlow := none, iqFormat := format.setWidth 2 }) })) ∧
  (∀ (h : CmdHdr) (lane : BitVec 8) (flow : BitVec 8) (format : BitVec 8) (s : State) (j : Fin 9) (l : Fin 8),
     let c : CmdSpec := { opcode := 0x0711, role := some .operator, params := pb lane ++ pb flow ++ pb format }
     let u := unbindRxIf s.enter (fun x => decide (x = .laneIq l))
     let v := bindRx u flow.toNat (.laneIq l) (laneIqCharge format.toNat (lenMaxOf s.enter false flow.toNat)) false
     s.accepts h c = true →
     fin? 9 lane.toNat = some j ∧ fin? 8 lane.toNat = some l →
     format.toNat ≤ 2 →
     flow.toNat ≤ 63 →
     rxFlowFree s flow.toNat (.laneIq l) = true →
     admitted v false = true →
     exec (.lkAniqCfg h lane flow format) s = .next (s.answered h c { status := stDone }
       { v with
         an.src := vmod v.an.src j (fun x => { x with iqFlow := fin? 64 flow.toNat, iqFormat := format.setWidth 2 }) })) ∧
  (∀ (h : CmdHdr) (dir : BitVec 8) (flow : BitVec 8) (s : State) (f : Fin 64),
     let c : CmdSpec := { opcode := 0x0712, role := some .operator, params := pb dir ++ pb flow }
     let x := s.link.rxFlows.get f
     s.accepts h c = true →
     fin? 64 flow.toNat = some f →
     dir = 0 →
     exec (.lkFlowQuery h dir flow) s = .next (s.answered h c
       { status := stDone
         results := le 1 x.src.code.1 ++ le 1 x.src.code.2 ++ le 4 (centG x.charge) ++ le 1 (b2n x.src.isBound) ++ le
           1 (b2n x.shed) ++ pb x.seq ++ pb (0 : BitVec 32) } s.enter)) ∧
  (∀ (h : CmdHdr) (dir : BitVec 8) (flow : BitVec 8) (s : State) (f : Fin 64),
     let c : CmdSpec := { opcode := 0x0712, role := some .operator, params := pb dir ++ pb flow }
     let x := s.link.txFlows.get f
     s.accepts h c = true →
     fin? 64 flow.toNat = some f →
     dir = 1 →
     exec (.lkFlowQuery h dir flow) s = .next (s.answered h c
       { status := stDone
         results := le 1 x.src.code.1 ++ le 1 x.src.code.2 ++ le 4 (centG x.charge) ++ le 1 (b2n x.src.isBound) ++ le
           1 (b2n x.shed) ++ pb x.seq ++ pb (x.limit : BitVec 32) } s.enter)) ∧
  (∀ (h : CmdHdr) (dir : BitVec 8) (s : State),
     let c : CmdSpec := { opcode := 0x0713, role := some .operator, params := pb dir }
     let tx := decide (dir = 1)
     s.accepts h c = true →
     dir.toNat ≤ 1 →
     exec (.lkBudgetGet h dir) s = .next (s.answered h c
       { status := stDone
         results := le 4 (centG (capacity s tx)) ++ le 4 (centG (sumFlows s tx (fun _ => true))) ++ le 4 (centG
           (memRate s tx)) ++ le 4 (sumBufs s (fun _ => true) / 1024) } s.enter)) ∧
  (∀ (h : CmdHdr) (replayT : BitVec 32) (holdMs : BitVec 32) (memTo : BitVec 32) (route : BitVec 8) (s : State),
     let c : CmdSpec :=
       { opcode := 0x0714
         role := some .installer
         journal := true
         params := pb replayT ++ pb holdMs ++ pb memTo ++ pb route }
     s.accepts h c = true →
     4096 ≤ replayT.toNat ∧ replayT.toNat ≤ 983040 →
     100 ≤ holdMs.toNat ∧ holdMs.toNat ≤ 60000 →
     98304 ≤ memTo.toNat ∧ memTo.toNat ≤ 98304000 →
     route.toNat ≤ 1 →
     exec (.lkRelCfg h replayT holdMs memTo route) s = .next (s.answered h c { status := stDone }
       { s.enter with
         link :=
           { s.link with
             replayT := replayT.setWidth 20
             holdMs := holdMs
             memTo := memTo
             evtRoute := decide (route = 1) } }))

/-- Packets of the Zenfa Link: commands, acknowledgements, replays, credits, streams and events -/
def Obligations.LinkPacketsRun : Prop :=
  (∀ (pkt : RxPkt) (s : State) (m : Fin 4),
     let u : State :=
       { s with
         link :=
           { s.link with
             relRx := s.link.relRx + 1
             nakFor := none
             unacked := s.link.unacked + 1
             ackDue := some (s.link.ackDue.getD (s.time.ticks + 1967)) } }
     let t := u.pup.ctail.get m
     s.rxScreen pkt 255 (decide (pkt.fmt &&& 0x87#8 = 7)) = none →
     pkt.seq = s.link.relRx →
     fin? 4 pkt.flow.toNat = some m →
     u.pup.mbCfg.getLsbD m.val = true →
     pkt.flags.getLsbD 8 = false →
     (t - u.pup.chead.get m).toNat < 32 →
     exec (.ctrlCmdPacket pkt) s = .next
       ({ u with
          pup :=
            { u.pup with
              mbRam := memWrite 0 u.pup.mbRam (m.val * 0x800 + (t.toNat % 32) * 64) (padTo 64 (pkt.payload.take 64))
              ctail := u.pup.ctail.set m.val (t + 1) m.isLt } })) ∧
  (∀ (pkt : RxPkt) (s : State) (m : Fin 4),
     let u : State :=
       { s with
         link :=
           { s.link with
             relRx := s.link.relRx + 1
             nakFor := none
             unacked := s.link.unacked + 1
             ackDue := some (s.link.ackDue.getD (s.time.ticks + 1967)) } }
     s.rxScreen pkt 255 (decide (pkt.fmt &&& 0x87#8 = 7)) = none →
     pkt.seq = s.link.relRx →
     fin? 4 pkt.flow.toNat = some m →
     exec (.ctrlCmdPacket pkt) s = .next (u.placeCmd m pkt)) ∧
  (∀ (pkt : RxPkt) (s : State),
     let u : State :=
       { s with
         link :=
           { s.link with
             relRx := s.link.relRx + 1
             nakFor := none
             unacked := s.link.unacked + 1
             ackDue := some (s.link.ackDue.getD (s.time.ticks + 1967)) } }
     s.rxScreen pkt 255 (decide (pkt.fmt &&& 0x87#8 = 7)) = none →
     pkt.seq = s.link.relRx →
     4 ≤ pkt.flow.toNat →
     exec (.ctrlCmdPacket pkt) s = .next ({ u with link.unexp := satAdd u.link.unexp 1 })) ∧
  (∀ (pkt : RxPkt) (s : State),
     let ack := BitVec.ofNat 16 (unle (pkt.payload.take 2))
     let old := fun (q : BitVec 16) => decide ((ack - q).toNat < 32768)
     let u : State :=
       { s with
         link.held := s.link.held.filter (fun h => !old h.pkt.seq)
         pup.evtAcked := s.pup.evtAcked.filter (fun e => !old e.1) }
     let v1 : State := (s.pup.evtAcked.filter (fun e => old e.1)).foldl (fun s e => s.releaseEvts (e.2.1 +
       BitVec.ofNat 9 e.2.2)) u
     let v : State := if pkt.flags.getLsbD 7 then
       { v1 with
         link := { v1.link with relRx := BitVec.ofNat 16 (unle ((pkt.payload.drop 4).take 2)), nakFor := none } } else
       v1
     let w : State := if pkt.flags.getLsbD 6 then v.replayAll else v
     s.rxScreen pkt 0 (decide (pkt.fmt &&& 0x87#8 = 7)) = none →
     exec (.ackPacket pkt) s = .next (w.sendWaiting)) ∧
  (∀ (s : State),
     s.link.unacked ≠ 0 →
     exec .ackSend s = .next (s.sendAck 0)) ∧
  (∀ (s : State) (x : Held) (xs : List Held),
     s.link.held = x :: xs →
     x.sent + s.link.replayT.toNat ≤ s.time.ticks →
     exec .replayTimeout s = .next (s.replayAll)) ∧
  (∀ (s : State) (x : Held) (xs : List Held),
     let u : State :=
       { s with
         link := { s.link with held := [], relSeq := 0, flushed := satAdd s.link.flushed s.link.held.length }
         pup := { s.pup with evtAcked := [], evtSent := s.pup.evtRd } }
     s.link.held = x :: xs →
     x.first + s.link.holdMs.toNat * 983040 ≤ s.time.ticks →
     exec .reliableHoldExpiry s = .next (((u.sendAck 0x80).emitNow 0x0710 0x07FF (le 2
       s.link.held.length)).sendWaiting)) ∧
  (∀ (f : Fin 64) (s : State),
     let x := s.link.txFlows.get f
     let lim := x.limitNow
     let p : Packet :=
       { type := 0x1F
         flow := 0
         flags := 0
         seq := 0
         time := BitVec.ofNat 48 s.time.ticks
         aper := 0
         fmt := 0x7F
         payload := le 1 f.val ++ le 1 (b2n x.due) ++ [0, 0] ++ pb lim }
     x.src.isBound = true ∧ x.shed = false ∧ s.link.up = true →
     x.due = true ∨ bufferOf x.charge / 8 ≤ x.freed ∨ x.creditAt + 9830 ≤ s.time.ticks →
     exec (.creditReport f) s = .next
       ({ s with
          link :=
            { s.link with
              out := s.link.out ++ [p]
              txFlows := vmod s.link.txFlows f (fun x =>
                { x with limit := lim, due := false, freed := 0, creditAt := s.time.ticks }) } })) ∧
  (∀ (f : Fin 64) (s : State) (p : Packet) (ps : List Packet),
     (s.link.rxFlows.get f).ready = p :: ps →
     (s.link.up && s.flowRuns f) = true →
     exec (.streamPacketSend f) s = .next
       ({ s with
          link :=
            { s.link with
              out := s.link.out ++ [p]
              rxFlows := vmod s.link.rxFlows f (fun x => { x with ready := ps }) } })) ∧
  (∀ (s : State),
     let a := if (s.pup.evtSent - s.pup.evtRd).toNat ≤ s.pup.evtUsed then s.pup.evtSent else s.pup.evtRd
     let n := (s.pup.evtWr - a).toNat
     let u : State :=
       { s with pup := { s.pup with evtSent := s.pup.evtWr, evtAcked := s.pup.evtAcked ++ [(s.link.relSeq, a, n)] } }
     s.link.evtRoute = true ∧ s.link.up = true ∧ s.link.held.length < 128 →
     0 < n →
     exec .eventPacketSend s = .next (u.sendRel 0x12 0 0 ((List.range n).flatMap (fun i => memRead 0 s.pup.mbRam
       (0x3000 + ((a.toNat + i) % 256) * 32) 32))))

/-- Commands of the DMA engine and the check units: each runs to the state its rule gives -/
def Obligations.DmaCommandsRun : Prop :=
  (∀ (h : CmdHdr) (channel : BitVec 8) (op : BitVec 8) (mode : BitVec 8) (base : BitVec 32) (len : BitVec 16) (burst :
    BitVec 8) (uses : BitVec 8) (rate : BitVec 16) (paceTile : BitVec 8) (paceQ : BitVec 8) (high : BitVec 16) (low :
    BitVec 16) (bound : BitVec 8) (evt : BitVec 8) (s : State) (k : Fin 64),
     let c : CmdSpec :=
       { opcode := 0x0C01
         role := some .operator
         params := pb channel ++ pb op ++ pb mode ++ pb base ++ pb len ++ pb burst ++ pb uses ++ pb rate ++ pb
           paceTile ++ pb paceQ ++ pb high ++ pb low ++ pb bound ++ pb evt }
     let x := s.dma.chans.get k
     s.accepts h c = true →
     hostChan channel = some k →
     op = 1 →
     (!x.state.isStopped && decide (x.state ≠ .idle)) = false →
     exec (.dmChanCfg h channel op mode base len burst uses rate paceTile paceQ high low bound evt) s = .next
       (s.answered h c { status := stDone } (s.enter.modDm k (fun x =>
       { x with configured := false, state := .idle, run := none })))) ∧
  (∀ (h : CmdHdr) (channel : BitVec 8) (op : BitVec 8) (mode : BitVec 8) (base : BitVec 32) (len : BitVec 16) (burst :
    BitVec 8) (uses : BitVec 8) (rate : BitVec 16) (paceTile : BitVec 8) (paceQ : BitVec 8) (high : BitVec 16) (low :
    BitVec 16) (bound : BitVec 8) (evt : BitVec 8) (s : State) (k : Fin 64),
     let c : CmdSpec :=
       { opcode := 0x0C01
         role := some .operator
         params := pb channel ++ pb op ++ pb mode ++ pb base ++ pb len ++ pb burst ++ pb uses ++ pb rate ++ pb
           paceTile ++ pb paceQ ++ pb high ++ pb low ++ pb bound ++ pb evt }
     let x := s.dma.chans.get k
     let b := 64 * burst.toNat
     let paced := decide (paceTile ≠ 0xFF)
     let q := decide (paceQ = 1)
     let pt : Fin 8 := (paceTile.setWidth 3 : BitVec 3).toFin
     let u : State := s.enter.modDm k (fun x =>
       { x with
         state := .ready
         configured := true
         ring := decide (mode = 1)
         base := if mode = 1 then base else x.base
         len := if mode = 1 then len.setWidth 13 else x.len
         head := 0
         tail := 0
         killed := false
         run := none
         burst := burst.setWidth 7
         uses := uses.setWidth 4
         rate := rate
         paced := paced
         paceT := if paced then pt else 0
         paceQ := paced && q
         high := if paced then high else BitVec.ofNat 16 b
         low := if paced then low else BitVec.ofNat 16 (b - 1)
         boundT := if bound = 0xFF then none else some (bound.setWidth 3 : BitVec 3).toFin
         evtEn := decide (evt = 1)
         req := !paced })
     s.accepts h c = true →
     hostChan channel = some k →
     op = 0 →
     (!x.state.isStopped && decide (x.state ≠ .idle)) = false →
     mode.toNat ≤ 1 ∧ burst ≠ 0 ∧ burst.toNat ≤ 64 ∧ uses.toNat < 16 ∧ rate ≠ 0 ∧ rate.toNat ≤ 48000 ∧ evt.toNat ≤ 1 →
     bound.toNat ≤ 7 ∨ bound = 0xFF →
     paceTile.toNat ≤ 7 ∨ paceTile = 0xFF →
     mode ≠ 1 ∨ (base.toNat % 32 = 0 ∧ len ≠ 0 ∧ len.toNat ≤ 4096) →
     paceTile = 0xFF ∨ (paceQ.toNat ≤ 1 ∧ b ≤ high.toNat ∧ b ≤ low.toNat + 1 ∧ low.toNat < high.toNat) →
     paceTile = 0xFF ∨ s.pacedBy pt q = none ∨ s.pacedBy pt q = some k →
     u.dmFits k = true →
     exec (.dmChanCfg h channel op mode base len burst uses rate paceTile paceQ high low bound evt) s = .next
       (s.answered h c { status := stDone } (if paced = true then u.sampleReq k else u))) ∧
  (∀ (h : CmdHdr) (chans : BitVec 64) (addr : BitVec 32) (s : State),
     let c : CmdSpec := { opcode := 0x0C02, role := some .operator, params := pb chans ++ pb addr }
     let cs := maskBits 64 chans.toNat
     s.accepts h c = true →
     chans.getLsbD 63 = false →
     (cs.filter (fun c => (s.dma.chans.get c).needsAddr)).length ≤ 1 →
     cs.any (fun c => !(s.dma.chans.get c).state.isStopped || ((s.dma.chans.get c).ring && (s.dma.chans.get
       c).killed)) = false →
     exec (.dmStart h chans addr) s = .next (s.answered h c { status := stDone } (cs.foldl (fun s c => s.modDm c
       (DmChan.start addr)) s.enter))) ∧
  (∀ (h : CmdHdr) (channel : BitVec 8) (tail : BitVec 16) (s : State) (k : Fin 64),
     let c : CmdSpec := { opcode := 0x0C03, role := some .operator, params := pb channel ++ pb tail }
     s.accepts h c = true →
     hostChan channel = some k →
     tail.toNat < (s.dma.chans.get k).len.toNat →
     exec (.dmTail h channel tail) s = .next (s.answered h c { status := stDone } (s.enter.setTail k (tail.setWidth
       12)))) ∧
  (∀ (h : CmdHdr) (chans : BitVec 64) (s : State),
     let c : CmdSpec := { opcode := 0x0C04, role := some .operator, params := pb chans }
     s.accepts h c = true →
     chans.getLsbD 63 = false →
     exec (.chStop h chans) s = .next (s.answered h c { status := stAccepted } ((maskBits 64 chans.toNat).foldl (fun s
       c => s.dmStop c) s.enter))) ∧
  (∀ (h : CmdHdr) (chans : BitVec 64) (s : State),
     let c : CmdSpec := { opcode := 0x0C05, role := some .operator, params := pb chans }
     s.accepts h c = true →
     chans.getLsbD 63 = false →
     exec (.chKill h chans) s = .next (s.answered h c { status := stDone } ((maskBits 64 chans.toNat).foldl (fun s c
       => s.dmKill c) s.enter))) ∧
  (∀ (h : CmdHdr) (channel : BitVec 8) (s : State) (k : Fin 64),
     let c : CmdSpec := { opcode := 0x0C06, role := some .operator, params := pb channel }
     let x := s.dma.chans.get k
     s.accepts h c = true →
     hostChan channel = some k →
     exec (.dmStatus h channel) s = .next (s.answered h c
       { status := stDone
         results := le 4 (regDmStat x) ++ pb x.descAt ++ pb x.bytes ++ pb x.doneCnt ++ le 2 x.head.toNat ++ le 2
           x.tail.toNat } s.enter)) ∧
  (∀ (h : CmdHdr) (unit : BitVec 8) (crc : BitVec 8) (s : State) (u : Fin 8),
     let c : CmdSpec := { opcode := 0x0C10, role := some .operator, params := pb unit ++ pb crc }
     s.accepts h c = true →
     hostUnit unit = some u →
     crc.toNat ≤ 2 →
     (s.dma.units.get u).owner = none →
     exec (.cuCfg h unit crc) s = .next (s.answered h c { status := stDone } (s.enter.modCu u (fun x =>
       { x with crc := crc.setWidth 2 })))) ∧
  (∀ (h : CmdHdr) (unit : BitVec 8) (s : State) (u : Fin 8),
     let c : CmdSpec := { opcode := 0x0C11, role := some .operator, params := pb unit }
     let x := s.dma.units.get u
     s.accepts h c = true →
     hostUnit unit = some u →
     exec (.cuStatus h unit) s = .next (s.answered h c
       { status := stDone, results := le 4 (regCuStat x) ++ pb x.seed ++ pb x.result ++ pb x.bytes } s.enter)) ∧
  (∀ (ch : Fin 64) (data : BitVec 32) (s : State),
     let n := bitsOf data.toNat 12 0
     s.mgmtOn = true →
     (s.dma.chans.get ch).state.isStopped = true →
     1 ≤ n ∧ n ≤ 4096 →
     exec (.dmRingLenWrite ch data) s = .next (s.modDm ch (fun x =>
       { x with len := BitVec.ofNat 13 n, head := 0, tail := 0, killed := false }))) ∧
  (∀ (ch : Fin 64) (data : BitVec 32) (s : State),
     s.mgmtOn = true →
     bitsOf data.toNat 11 0 < (s.dma.chans.get ch).len.toNat →
     exec (.dmRingPtrWrite ch data) s = .next (s.setTail ch (BitVec.ofNat 12 (bitsOf data.toNat 11 0))))

/-- Descriptors and bursts of the DMA engine, and the answers to host reads -/
def Obligations.DmaEventsRun : Prop :=
  (∀ (c : Fin 64) (s : State),
     let x := s.dma.chans.get c
     let d := descOf ((List.range 32).map (fun i => s.localByte (x.descAt.toNat + i)))
     s.dmOn = true ∧ x.state = .running ∧ x.run = none →
     x.ring = false ∨ x.head ≠ x.tail →
     s.localWaits x.descAt.toNat = false →
     s.descCause c x.descAt.toNat = 0 →
     exec (.descriptorFetch c) s = .next ((s.cuBind c d).modDm c (fun x =>
       { x with
         run := some
           { desc := d
             addr := (s.dma.chans.get c).descAt.toNat
             moved := 0
             burst := none
             lo := 0
             data := []
             fenceAt := none } }))) ∧
  (∀ (c : Fin 64) (s : State) (r : DescRun),
     let v := s.sampleReq c
     let n := r.desc.burstLen (64 * (v.dma.chans.get c).burst.toNat) r.moved
     let data := (List.range n).map (fun i => r.desc.outByte (fun k => v.localByte (r.desc.src.toNat + k)) (r.moved +
       i))
     let w := v.modDm c (fun x =>
       { x with
         run := some { r with burst := some n, lo := 0, data := data }
         nextAt := v.time.ticks + burstTicks x })
     (s.dma.chans.get c).run = some r →
     r.burst = none →
     s.dmOn = true →
     v.burstReady c r = true →
     r.desc.srcKind = 0 →
     exec (.dmaBurstStart c) s = .next (if r.desc.dstKind = 1 then w.memWr c (r.desc.place r.moved).1 data else w)) ∧
  (∀ (c : Fin 64) (s : State) (r : DescRun) (tag : Nat),
     let v := s.sampleReq c
     let n := r.desc.burstLen (64 * (v.dma.chans.get c).burst.toNat) r.moved
     let sp := r.desc.span r.moved n
     let q : MemRead :=
       { tag := BitVec.ofNat 8 tag
         chan := c
         addr := BitVec.ofNat 64 (r.desc.src.toNat + sp.1)
         bytes := sp.2 - sp.1
         got := []
         sent := v.time.ticks }
     let w : State := v.modDm c (fun x =>
       { x with
         run := some { r with burst := some n, lo := sp.1, data := [] }
         nextAt := v.time.ticks + burstTicks x })
     (s.dma.chans.get c).run = some r →
     r.burst = none →
     s.dmOn = true →
     v.burstReady c r = true →
     r.desc.srcKind ≠ 0 →
     v.freeTag = some tag →
     exec (.dmaBurstStart c) s = .next ({ w with link.reads := w.link.reads ++ [q] }.sendRel 0x14 c.val 0 (le 8
       (r.desc.src.toNat + sp.1) ++ le 2 (sp.2 - sp.1) ++ le 1 tag ++ [0]))) ∧
  (∀ (pkt : RxPkt) (s : State) (m : MemRead),
     let f := fun (o n : Nat) => unle ((pkt.payload.drop o).take n)
     let u : State :=
       { s with
         link :=
           { s.link with
             relRx := s.link.relRx + 1
             nakFor := none
             unacked := s.link.unacked + 1
             ackDue := some (s.link.ackDue.getD (s.time.ticks + 1967)) } }
     let got := m.got ++ ((pkt.payload.drop 16).take (f 8 2)).take (m.bytes - m.got.length)
     let others := s.link.reads.filter (fun y => decide (y.tag ≠ m.tag))
     let v : State := { u with link.reads := { m with got := got } :: others }
     let w : State := { u with link.reads := others }
     s.rxScreen pkt 63 (decide (pkt.fmt &&& 0x87#8 = 7)) = none →
     pkt.seq = s.link.relRx →
     s.link.reads.find? (fun m => decide (m.tag.toNat = f 10 1 ∧ m.chan.val = pkt.flow.toNat ∧ f 12 4 = m.got.length ∧
       f 0 8 = m.addr.toNat + m.got.length)) = some m →
     f 11 1 = 0 →
     exec (.memRdDataPacket pkt) s = .next (if got.length < m.bytes then v else w.modDm m.chan (fun x =>
       { x with
         run := x.run.map (fun r =>
           { r with
             data := (List.range (r.burst.getD 0)).map (fun i => r.desc.outByte (fun k => got.getD (k - r.lo) 0)
               (r.moved + i)) }) }))) ∧
  (∀ (tag : Fin 32) (s : State) (m : MemRead),
     s.link.reads.find? (fun m => decide (m.tag.toNat = tag.val)) = some m →
     m.sent + s.link.memTo.toNat ≤ s.time.ticks →
     exec (.memReadTimeout tag) s = .next
       ({ s with
          link :=
            { s.link with
              reads := s.link.reads.filter (fun y => decide (y.tag ≠ m.tag))
              memTouts := satAdd s.link.memTouts 1 } }.dmError m.chan 8)) ∧
  (∀ (c : Fin 64) (s : State) (r : DescRun) (n : Nat),
     let u := if r.desc.dstKind = 0 then s.setLocals (r.desc.place r.moved).1 r.data else s
     let v : State := match (u.dma.chans.get c).cu with
       | some k => if r.desc.check = true then u.modCu k (fun x =>
           { x with reg := r.data.foldl (cuByte x.crc) x.reg, bytes := x.bytes + BitVec.ofNat 32 n }) else u
       | none => u
     let w : State := v.modDm c (fun x =>
       { x with
         bytes := if r.desc.dstKind = 2 then x.bytes else x.bytes + BitVec.ofNat 32 n
         run := some { r with moved := r.moved + n, burst := none, data := [] } })
     (s.dma.chans.get c).run = some r →
     r.burst = some n →
     s.dmOn = true ∧ r.data.length = n →
     exec (.dmaBurstEnd c) s = .next ((w.levelTaken c n).sampleReq c)) ∧
  (∀ (c : Fin 64) (s : State) (r : DescRun) (since : Nat),
     (s.dma.chans.get c).run = some r →
     s.dmOn = true ∧ r.burst = none ∧ r.desc.outLen ≤ r.moved →
     r.fenceAt = some since →
     s.fenceHere c r.desc = true →
     exec (.descriptorComplete c) s = .next (s.dmComplete c r (s.time.ticks - since))) ∧
  (∀ (c : Fin 64) (s : State) (r : DescRun),
     (s.dma.chans.get c).run = some r →
     s.dmOn = true ∧ r.burst = none ∧ r.desc.outLen ≤ r.moved →
     r.fenceAt = none →
     r.desc.append = false →
     exec (.descriptorComplete c) s = .next (if r.desc.fence = true ∧ r.desc.dstKind ≠ 2 then s.modDm c (fun x =>
       { x with run := some { r with fenceAt := some s.time.ticks } }) else s.dmComplete c r 0))

/-- Commands of the power states: each runs to the state its rule gives -/
def Obligations.PowerCommandsRun : Prop :=
  (∀ (h : CmdHdr) (target : BitVec 8) (lane : BitVec 8) (s : State),
     let c : CmdSpec := { opcode := 0x0910, role := some .operator, params := pb target ++ pb lane }
     s.accepts h c = true →
     target = 0 →
     s.pw.dev = .doze →
     exec (.pwStateSet h target lane) s = .next (s.answered h c { status := stAccepted } (s.enter.wakeRequest 2))) ∧
  (∀ (h : CmdHdr) (target : BitVec 8) (lane : BitVec 8) (s : State),
     let c : CmdSpec := { opcode := 0x0910, role := some .operator, params := pb target ++ pb lane }
     s.accepts h c = true →
     target = 1 ∨ target = 2 →
     target = 2 ∨ lane = 1 ∨ lane = 2 →
     s.pw.entry = none ∧ s.pw.wake = none ∧ (s.pw.dev ≠ .doze ∨ target = 2) →
     exec (.pwStateSet h target lane) s = .next (s.answered h c { status := stAccepted }
       { s.enter with
         pw.entry := some
           { toRetain := decide (target = 2)
             ragdoll := decide (target = 1 ∧ lane = 2)
             asked := 1
             since := s.time.ticks
             phase2 := none
             evtSlot := 0 } })) ∧
  (∀ (h : CmdHdr) (tiles : BitVec 8) (s : State),
     let c : CmdSpec := { opcode := 0x0911, role := some .operator, params := pb tiles }
     let new := tiles &&& ~~~s.pw.parked
     let u : State :=
       { s.enter with
         pw := { s.pw with parked := tiles, unparking := s.pw.unparking ||| (s.pw.parked &&& ~~~tiles) } }
     s.accepts h c = true →
     (maskBits 8 new.toNat).any (fun t => decide ((s.radio.get t).use ≠ .out ∨ (s.radio.get t).state ≠ .off) ||
       (s.radio.get t).transit.isSome || s.pw.unparking.getLsbD t.val) = false →
     exec (.pwPark h tiles) s = .next (s.answered h c { status := stDone } ((maskBits 8 new.toNat).foldl (fun s t =>
       (if s.pw.tileOn.getLsbD t.val = true then s.tileOff t else s).emitNow 0x0913 (0x0900 + t.val) (le 1 t.val ++ le
       1 1)) u))) ∧
  (∀ (h : CmdHdr) (banks : BitVec 16) (s : State),
     let c : CmdSpec := { opcode := 0x0912, role := some .operator, params := pb banks }
     s.accepts h c = true →
     banks.toNat < 512 →
     exec (.pwRetainCfg h banks) s = .next (s.answered h c { status := stDone }
       { s.enter with pw.retain := banks.setWidth 9 })) ∧
  (∀ (h : CmdHdr) (pinEn : BitVec 8) (timerEn : BitVec 8) (timer : BitVec 32) (s : State),
     let c : CmdSpec :=
       { opcode := 0x0913, role := some .installer, journal := true, params := pb pinEn ++ pb timerEn ++ pb timer }
     s.accepts h c = true →
     pinEn.toNat ≤ 1 ∧ timerEn.toNat ≤ 1 →
     exec (.pwWakeCfg h pinEn timerEn timer) s = .next (s.answered h c { status := stDone }
       { s.enter with
         pw := { s.pw with pinEn := decide (pinEn = 1), timerEn := decide (timerEn = 1), timer := timer } })) ∧
  (∀ (h : CmdHdr) (s : State),
     let c : CmdSpec := { opcode := 0x0914, role := some .operator, params := [] }
     s.accepts h c = true →
     exec (.pwStatus h) s = .next (s.answered h c
       { status := stDone
         results := le 4 (regPwStat s.pw) ++ le 4 (regPwRefuse s.pw) ++ le 4 s.pw.retain.toNat ++ le 4 (regWakeStatus
           s.pw) ++ le 4 s.pw.held.toNat } s.enter))

/-- Events of the power states: the answers of an entry, its second phase, unparking and the wake -/
def Obligations.PowerEventsRun : Prop :=
  (∀ (block : Fin 15) (ok : Bool) (s : State) (e : Entry),
     ok = true →
     s.pw.entry = some e →
     e.phase2 = none ∧ blockAt e.asked = block.val →
     s.entryReason e block.val = 0 →
     exec (.blockEntryAnswer block ok) s = .next (s.entryAgree e)) ∧
  (∀ (s : State) (e : Entry),
     s.pw.entry = some e →
     e.phase2 = none ∧ e.since + msTicks ≤ s.time.ticks →
     s.entryReason e (blockAt e.asked) ≠ 7 →
     exec .blockAnswerTimeout s = .next (s.pwRefuse (blockAt e.asked) 12)) ∧
  (∀ (s : State) (e : Entry) (since : Nat),
     let u : State := { s with pw := { s.pw with entry := none, wakeLatch := none } }
     s.pw.entry = some e →
     e.phase2 = some since →
     (s.pup.evtRd - (e.evtSlot + 1)).toNat ≤ 256 ∨ since + msTicks ≤ s.time.ticks →
     exec .entryPhase2Proceed s = .next ((if e.toRetain = true then u.enterRetain else u.enterDoze e).wakeLatched
       s.pw.wakeLatch)) ∧
  (∀ (t : Fin 8) (s : State),
     let u : State := { s with pw.unparking := s.pw.unparking &&& ~~~(1#8 <<< t.val) }
     let v : State := if s.pw.dev = .doze then u else
       { u with pw.tileOn := u.pw.tileOn ||| (1#8 <<< t.val), pw.held := s.pw.held &&& ~~~(tilePads t) }
     s.mgmtOn = true →
     s.pw.unparking.getLsbD t.val = true →
     exec (.tileUnparkComplete t) s = .next (v.emitNow 0x0913 (0x0900 + t.val) (le 1 t.val ++ le 1 0))) ∧
  (∀ (heldTwo : Bool) (s : State),
     heldTwo = true →
     s.pw.pinEn = true ∧ s.resetN = true ∧ s.pw.vddio = true →
     exec (.wakePinEdge heldTwo) s = .next (s.wakeRequest 1)) ∧
  (∀ (s : State),
     s.pw.dev = .retain ∧ s.pw.timerEn = true ∧ s.pw.timer.toNat ≤ s.pw.slept →
     exec .sleepTimerExpiry s = .next (s.wakeRequest 3)) ∧
  (∀ (s : State) (w : WakeRun),
     let on := ~~~(s.pw.parked ||| s.pw.unparking)
     let u : State :=
       { s with
         pw :=
           { s.pw with
             dev := .active
             wake := none
             tileOn := on
             beamOn := true
             anlzOn := true
             acqOn := true
             dramSr := false
             wakeCnt := satAdd s.pw.wakeCnt 1
             prev := 2
             source := w.source
             retried := 0 }
         link.lanes := vmap s.link.lanes (fun k (x : Lane) => if s.pw.lanesOn.getLsbD k.val = true then x.toState
           s.time.ticks .on else x) }
     s.pw.wake = some w →
     s.pw.dev = .doze →
     exec .dozeWakeComplete s = .next ((u.emitNow 0x0912 0x09FF (le 1 2 ++ le 1 w.source.toNat ++ le 1 0 ++ le 4
       (sat32 ((s.time.ticks - s.pw.enteredAt) / 30000)) ++ le 1 0)).releasePads (on.setWidth 11))) ∧
  (∀ (s : State) (w : WakeRun),
     s.pw.wake = some w →
     s.pw.dev = .retain →
     w.step < 4 →
     exec .wakeStepReady s = .next ({ s with pw.wake := some { w with step := w.step + 1, retry := false } })) ∧
  (∀ (s : State) (w : WakeRun),
     s.pw.wake = some w →
     s.pw.dev = .retain →
     4 ≤ w.step →
     exec .wakeStepReady s = .next (s.wakeUp w)) ∧
  (∀ (s : State) (w : WakeRun),
     s.pw.wake = some w →
     s.pw.dev = .retain →
     w.retry = false →
     exec .wakeStepTimeout s = .next
       ({ s with
          pw :=
            { s.pw with wake := some { w with retry := true }, retried := s.pw.retried ||| (1#4 <<< (w.step - 1)) } })) ∧
  (∀ (s : State) (w : WakeRun),
     s.pw.wake = some w →
     s.pw.dev = .retain →
     w.retry = true →
     exec .wakeStepTimeout s = .next
       ({ s with
          pw := { s.pw with wake := none, failed := true, failStep := BitVec.ofNat 3 w.step, source := w.source }
          pup.irq := s.pup.irq ||| 0x80#8 }))

/-- Events of supplies, RESET_N and boot: each runs to the state its rule gives -/
def Obligations.SupplyAndBootEventsRun : Prop :=
  (∀ (s : State),
     s.pw.vddio = false →
     exec .powerUpVddio s = .next ({ s with pw := { s.pw with vddio := true, padsReset := true } })) ∧
  (∀ (rail : Fin 10) (s : State),
     let io := s.pw.vddio && decide (rail.val < 8)
     s.pw.dev ≠ .retain ∨ s.railSpare rail = false →
     exec (.supplyRemoved rail) s = .next
       ({ s.cold with resetN := s.resetN, pw.dev := .off, pw.vddio := io, pw.padsReset := io })) ∧
  (∀ (s : State),
     s.resetN = true ∧ s.pw.vddio = true ∧ s.pw.dev ≠ .off →
     exec .resetNAssert s = .next (s.cold)) ∧
  (∀ (bootmode : BitVec 2) (refclk : Bool) (s : State),
     let u : State :=
       { s with
         resetN := true
         pw := { s.pw with dev := .active, padsReset := false }
         pup.mode := bootmode
         time.dspRuns := true
         clk := { s.clk with refOk := refclk, fbosc := !refclk, mgmtSafe := true, dspSafe := true } }
     let v : State := [0, 1, 2, 5].foldl (fun (s : State) (p : Fin 16) => s.relock p true) u
     s.resetN = false ∧ s.pw.vddio = true →
     exec (.resetNRelease bootmode refclk) s = .next (v.romBoot .boot v.bootOrder false false v.time.ticks)) ∧
  (∀ (s : State) (b : BootRun),
     let t := s.bootAdopt b
     let u : State :=
       { t with pup := { t.pup with ready := true, restarting := false, recovery := false, boot := none } }
     let v := u.emitNow 0x0102 0x01FF (le 1 b.cause.code ++ le 1 (b2n b.slotB) ++ le 1 (b2n b.fallback) ++ pb
       u.pup.fwVer ++ le 2 ((u.time.ticks - b.start) / 983040))
     let w := (List.finRange 8).foldl (fun (s : State) (t : Fin 8) => s.drainMsgs t) v
     let x := if b.cause = .boot then w else w.storeEnd stAborted
     let z : State := { x with pw := { x.pw with wakeCnt := satAdd x.pw.wakeCnt 1, prev := 1 } }
     let y : State := if b.fromWake = true then z.emitNow 0x0912 0x09FF (le 1 1 ++ le 1 z.pw.source.toNat ++ le 1
       z.pw.retried.toNat ++ pb z.pw.sleepCnt ++ le 1 (b2n z.pw.bank7Ok)) else x
     s.pup.boot = some b →
     s.mgmtOn = true ∧ s.pup.halted = false ∧ s.bootDone b = true →
     exec .firmwareReady s = .next (y.bootAnswers b)) ∧
  (∀ (s : State) (b : BootRun),
     s.pup.boot = some b →
     s.mgmtOn = true ∧ b.trial = true ∧ b.start + 294912000 ≤ s.time.ticks →
     exec .trialBootTimeout s = .next
       ({ s with pup := { s.pup with rejected := s.pup.rejected ||| slotBit b.slotB } }.romBoot b.cause [!b.slotB]
       true b.fromWake b.start)) ∧
  (∀ (s : State),
     let times := s.pup.faultTimes.filter (fun t => decide (s.time.ticks < t + 60 * secTicks))
     let u := s.restart .watchdog (s.pup.slotB :: s.bootOrder.filter (fun b => b != s.pup.slotB))
     let v : State := { u with pup.faultTimes := s.time.ticks :: times }
     let y := v.cutWork
     s.mgmtOn = true ∧ s.pup.halted = false →
     exec .watchdogExpiry s = .next (if 2 ≤ times.length then
       { y with pup := { y.pup with halted := true, restarting := false, boot := none } } else y)) ∧
  (∀ (s : State),
     let times := s.pup.faultTimes.filter (fun t => decide (s.time.ticks < t + 60 * secTicks))
     let u := s.restart .lockstep (s.pup.slotB :: s.bootOrder.filter (fun b => b != s.pup.slotB))
     let v : State := { u with pup.faultTimes := s.time.ticks :: times }
     let y := v.cutWork
     s.mgmtOn = true ∧ s.pup.halted = false →
     exec .lockstepFault s = .next (if 2 ≤ times.length then
       { y with pup := { y.pup with halted := true, restarting := false, boot := none } } else y))

/-- Commands and registers of the Puppeteer: each runs to the state its rule gives -/
def Obligations.PuppeteerCommandsRun : Prop :=
  (∀ (h : CmdHdr) (s : State),
     let c : CmdSpec := { opcode := 0x0101, role := some .operator, params := [] }
     s.accepts h c = true →
     exec (.sysInfo h) s = .next (s.answered h c
       { status := stDone
         results := le 4 hpId ++ le 4 hpRev ++ pb s.pup.fwVer ++ le 4 (regHpBoot s.pup) ++ pb s.pup.restarts }
       s.enter)) ∧
  (∀ (h : CmdHdr) (s : State),
     let c : CmdSpec := { opcode := 0x0104, role := some .operator, params := [] }
     s.accepts h c = true →
     exec (.fwSlotInfo h) s = .next (s.answered h c
       { status := stDone
         results := [false, true].flatMap (fun b => le 1 (b2n (decide (s.imageCause b = 0))) ++ pb (s.imgVersion b) ++
           pb (s.imgSeq b) ++ le 1 (b2n (decide (s.pup.rejected &&& slotBit b ≠ 0)))) } s.enter)) ∧
  (∀ (h : CmdHdr) (offset : BitVec 32) (length : BitVec 32) (ptr : BitVec 32) (final : BitVec 8) (s : State),
     let n := length.toNat
     let c : CmdSpec :=
       { opcode := 0x0102
         role := some .installer
         journal := true
         params := pb offset ++ pb length ++ pb ptr ++ pb final
         ptrs := [(ptr.toNat, n)] }
     let b := !s.pup.slotB
     s.accepts h c = true →
     s.hk.halt = false ∧ s.tempForbidden = false →
     4 ≤ n ∧ n ≤ 32768 ∧ n % 4 = 0 ∧ final.toNat ≤ 1 ∧ offset.toNat + n ≤ 459008 →
     s.cal.store = none ∧ s.journalBusy = false ∧ s.pup.job = .none →
     offset = 0 →
     exec (.fwStage h offset length ptr final) s = .next (s.answered h c { status := stDone, wait := some .fwStage }
       { s.enter with
         pup :=
           { s.enter.pup with
             stage := some
               { slotB := b
                 next := n
                 held := memRead 0 s.pup.mbRam ptr.toNat n
                 todo := []
                 final := decide (final = 1)
                 checked := false }
             fresh := s.pup.fresh &&& ~~~(slotBit b)
             rejected := s.pup.rejected &&& ~~~(slotBit b)
             job := .stageErase 0 } })) ∧
  (∀ (h : CmdHdr) (offset : BitVec 32) (length : BitVec 32) (ptr : BitVec 32) (final : BitVec 8) (s : State) (x :
    StageRun),
     let n := length.toNat
     let c : CmdSpec :=
       { opcode := 0x0102
         role := some .installer
         journal := true
         params := pb offset ++ pb length ++ pb ptr ++ pb final
         ptrs := [(ptr.toNat, n)] }
     s.accepts h c = true →
     s.hk.halt = false ∧ s.tempForbidden = false →
     4 ≤ n ∧ n ≤ 32768 ∧ n % 4 = 0 ∧ final.toNat ≤ 1 ∧ offset.toNat + n ≤ 459008 →
     s.cal.store = none ∧ s.journalBusy = false ∧ s.pup.job = .none →
     offset ≠ 0 ∧ s.pup.stage = some x ∧ offset.toNat = x.next →
     exec (.fwStage h offset length ptr final) s = .next (s.answered h c { status := stDone, wait := some .fwStage }
       { s.enter with
         pup :=
           { s.enter.pup with
             stage := some
               { x with
                 next := offset.toNat + n
                 final := decide (final = 1)
                 todo := pagesOf 130 (slotBase x.slotB + offset.toNat) (memRead 0 s.pup.mbRam ptr.toNat n) }
             job := .stageWrite } })) ∧
  (∀ (h : CmdHdr) (slot : BitVec 8) (s : State),
     let c : CmdSpec := { opcode := 0x0103, role := some .installer, journal := true, params := pb slot }
     let b := if slot = 0 then s.pup.slotB else decide (slot = 2)
     s.accepts h c = true →
     slot.toNat ≤ 2 →
     s.imageCause b = 0 →
     exec (.fwRestart h slot) s = .next (s.answered h c { status := stAccepted } (s.enter.restart .fwRestart [b]))) ∧
  (∀ (mb : Fin 4) (data : BitVec 32) (s : State),
     let c : BitVec 6 := data.setWidth 6
     s.portOpen = true →
     s.pup.mbCfg.getLsbD mb.val = false ∧ (c - s.pup.chead.get mb).toNat ≤ 32 →
     exec (.mbDoorbell mb data) s = .next ({ s with pup.ctail := s.pup.ctail.set mb.val c mb.isLt })) ∧
  (∀ (data : BitVec 32) (s : State),
     s.portOpen = true →
     (List.finRange 4).any (fun m => ((data.setWidth 4 : BitVec 4).getLsbD m.val != s.pup.mbCfg.getLsbD m.val) &&
       decide (s.pup.chead.get m ≠ s.pup.ctail.get m)) = false →
     exec (.hpMbCfgWrite data) s = .next ({ s with pup.mbCfg := data.setWidth 4 })) ∧
  (∀ (data : BitVec 32) (s : State),
     s.portOpen = true →
     ((data.setWidth 9 : BitVec 9) - s.pup.evtRd).toNat ≤ s.pup.evtUsed →
     exec (.hpEvtRdWrite data) s = .next ({ s with pup.evtRd := data.setWidth 9 })) ∧
  (∀ (data : BitVec 32) (s : State),
     let u : State := { s with pw := { s.pw with timerEn := data.getLsbD 2, pinEn := data.getLsbD 1 } }
     s.aoOn = true →
     exec (.hpWakeCtlWrite data) s = .next (if data.getLsbD 0 = true then u.wakeRequest 2 else u)) ∧
  (∀ (data : BitVec 32) (s : State),
     s.aoOn = true →
     exec (.hpPadReleaseWrite data) s = .next ({ s with pw.held := s.pw.held &&& ~~~(data.setWidth 11) }))

/-- Flash work and the journal's writes -/
def Obligations.FlashAndJournalEventsRun : Prop :=
  (∀ (s : State) (r : StoreRun),
     let v := s.storePage r
     s.mgmtOn = true →
     s.pup.job = .calStore →
     s.cal.store = some r →
     4 ≤ r.erased →
     exec .flashProgramDone s = .next (if v.hk.shutdown = true then
       { v with hk.shutAt := max v.hk.shutAt (v.time.ticks + 2458) } else v)) ∧
  (∀ (s : State) (b : Bool) (bytes : List Byte) (r : Nat) (code : BitVec 8),
     s.mgmtOn = true →
     s.pup.job = .keyRecord b bytes r code 1 →
     exec .flashProgramDone s = .next
       ({ s.flashWrite (keyBase b + 8) (bytes.drop 8) with pup.job := .keyRecord b bytes r code 2 })) ∧
  (∀ (s : State) (b : Bool) (bytes : List Byte) (r : Nat) (code : BitVec 8),
     s.mgmtOn = true →
     s.pup.job = .keyRecord b bytes r code 2 →
     exec .flashProgramDone s = .next ((s.flashWrite (keyBase b) (bytes.take 8)).keyDone r code)) ∧
  (∀ (s : State),
     s.mgmtOn = true →
     s.pup.job = .stageWrite →
     exec .flashProgramDone s = .next (s.stagePage)) ∧
  (∀ (s : State) (r : StoreRun),
     s.mgmtOn = true →
     s.pup.job = .calStore →
     s.cal.store = some r →
     r.erased < 4 →
     exec .flashEraseDone s = .next (s.storeSector r)) ∧
  (∀ (s : State) (b : Bool) (bytes : List Byte) (r : Nat) (code : BitVec 8),
     s.mgmtOn = true →
     s.pup.job = .keyRecord b bytes r code 0 →
     exec .flashEraseDone s = .next ({ s.flashErase (keyBase b) 4096 with pup.job := .keyRecord b bytes r code 1 })) ∧
  (∀ (s : State) (n : Nat),
     let u : State := { s.flashErase (0x400000 + n * 4096) 4096 with pup.job := .journalErase (n + 1) }
     s.mgmtOn = true →
     s.pup.job = .journalErase n →
     exec .flashEraseDone s = .next (if n = 63 then u.eraseDone else u)) ∧
  (∀ (s : State) (n : Nat) (x : StageRun),
     let u := s.flashErase (slotBase x.slotB + n * 65536) 65536
     s.mgmtOn = true →
     s.pup.job = .stageErase n →
     s.pup.stage = some x →
     exec .flashEraseDone s = .next (if n = 15 then u.stageNext x else { u with pup.job := .stageErase (n + 1) })) ∧
  (∀ (s : State) (k : Nat),
     s.mgmtOn = true →
     s.pup.job = .none →
     s.pup.jSector = some k →
     exec .flashEraseDone s = .next ({ s.flashErase (0x400000 + k * 4096) 4096 with pup.jSector := none })) ∧
  (∀ (mb : Fin 4) (s : State) (p : InProgress),
     s.pup.busy.get mb = some p →
     p.waits = .journal ∧ s.writesJournal = true →
     p.entry = none →
     exec (.journalEntryWrite mb) s = .next (s.answer mb p)) ∧
  (∀ (mb : Fin 4) (s : State) (p : InProgress) (e : JEntry),
     s.pup.busy.get mb = some p →
     p.waits = .journal ∧ s.writesJournal = true →
     p.entry = some e →
     s.tempForbidden = true →
     exec (.journalEntryWrite mb) s = .next ((s.bufferEntry e).answer mb p)) ∧
  (∀ (mb : Fin 4) (s : State) (p : InProgress) (e : JEntry),
     let u : State := if s.pup.jGap = 0 then s else { s.writeEntry (s.gapEntry s.pup.jGap) with pup.jGap := 0 }
     s.pup.busy.get mb = some p →
     p.waits = .journal ∧ s.writesJournal = true →
     p.entry = some e →
     s.tempForbidden = false ∧ s.pup.jBuf = [] →
     exec (.journalEntryWrite mb) s = .next ((u.writeEntry e).answer mb p)) ∧
  (∀ (s : State) (e : JEntry) (es : List JEntry),
     s.writesJournal = true ∧ s.tempForbidden = false →
     s.pup.jBuf = e :: es →
     exec .journalBufferDrain s = .next ({ s with pup.jBuf := es }.writeEntry e))

/-- Accesses to registers by the ports, by SPI frames and by the window commands -/
def Obligations.RegisterCommandsRun : Prop :=
  (∀ (addr : BitVec 32) (data : BitVec 32) (s : State),
     s.portOpen = true →
     s.wordRefuses (addr.toNat / 4 * 4) = none →
     exec (.registerWrite addr data) s = .next (s.regWrite (addr.toNat / 4 * 4) data)) ∧
  (∀ (addr : BitVec 32) (s : State),
     let r := s.regRead (addr.toNat / 4 * 4)
     s.portOpen = true →
     exec (.rcRegisterRead addr) s = .next ({ r.2 with pup.rdata := BitVec.ofNat 32 r.1 })) ∧
  (∀ (addr : BitVec 32) (s : State),
     let r := s.regRead (addr.toNat / 4 * 4)
     s.portOpen = true →
     exec (.latchingLoRead addr) s = .next ({ r.2 with pup.rdata := BitVec.ofNat 32 r.1 })) ∧
  (∀ (khz : BitVec 16) (bytes : List (BitVec 8)) (bits : Fin 8) (s : State),
     let hd := unle (bytes.take 4)
     let n := bitsOf hd 27 24 + 1
     let o := bitsOf hd 16 0
     let data := bytes.length - 5
     let r := s.spiReads o (min n (data / 4))
     let bad := r.2.2 || decide (n * 4 < data ∨ (data = n * 4 ∧ bits ≠ 0 ∧ 5 ≤ bytes.length)) || decide (data < n * 4
       ∧ 5 ≤ bytes.length ∧ (data % 4 ≠ 0 ∨ bits ≠ 0))
     s.aoOn = true ∧ 4 ≤ bytes.length →
     (s.slowSclk && decide (10000 < khz.toNat)) = false ∧ bitsOf hd 30 28 = 0 ∧ bitsOf hd 23 17 = 0 ∧ o % 4 = 0 →
     hd.testBit 31 = true ∧ 5 ≤ bytes.length →
     exec (.spiFrame khz bytes bits) s = .next
       ({ r.2.1 with
          pup.frameErr := r.2.1.pup.frameErr || bad
          pup.miso := s.spiStatus :: padTo (data + 1) ((0 : Byte) :: r.1) })) ∧
  (∀ (khz : BitVec 16) (bytes : List (BitVec 8)) (bits : Fin 8) (s : State),
     let hd := unle (bytes.take 4)
     let n := bitsOf hd 27 24 + 1
     let o := bitsOf hd 16 0
     let data := bytes.length - 4
     let r := s.spiWrites o ((chunks 4 (min n (data / 4)) (bytes.drop 4)).map (fun b => BitVec.ofNat 32 (unle b)))
     let bad := r.2 || decide (n * 4 < data ∨ (data = n * 4 ∧ bits ≠ 0)) || decide (data < n * 4 ∧ (data % 4 ≠ 0 ∨
       bits ≠ 0))
     s.aoOn = true ∧ 4 ≤ bytes.length →
     (s.slowSclk && decide (10000 < khz.toNat)) = false ∧ bitsOf hd 30 28 = 0 ∧ bitsOf hd 23 17 = 0 ∧ o % 4 = 0 →
     hd.testBit 31 = false →
     exec (.spiFrame khz bytes bits) s = .next
       ({ r.1 with pup.frameErr := r.1.pup.frameErr || bad, pup.miso := [s.spiStatus] })) ∧
  (∀ (h : CmdHdr) (addr : BitVec 32) (count : BitVec 8) (s : State),
     let n := count.toNat
     let c : CmdSpec := { opcode := 0x0D01, role := some .operator, params := pb addr ++ pb count }
     let r := s.enter.regReads addr.toNat n
     s.accepts h c = true →
     1 ≤ n ∧ n ≤ 6 →
     windowOk addr.toNat n = true →
     s.windowLacks h addr.toNat n = false ∧ s.windowDown addr.toNat = false →
     exec (.regRead h addr count) s = .next (s.answered h c { status := stDone, results := r.1.flatMap (le 4) } r.2)) ∧
  (∀ (h : CmdHdr) (addr : BitVec 32) (count : BitVec 8) (words : List (BitVec 32)) (s : State),
     let n := count.toNat
     let c : CmdSpec :=
       { opcode := 0x0D02
         role := some .installer
         journal := true
         params := pb addr ++ pb count ++ words.flatMap pb }
     s.accepts h c = true →
     words.length = n ∧ 1 ≤ n ∧ n ≤ 12 →
     windowOk addr.toNat words.length = true →
     s.windowLacks h addr.toNat words.length = false ∧ s.windowDown addr.toNat = false →
     (wordsAt addr.toNat words.length).findSome? (fun x => s.wordRefuses x) = none →
     exec (.regWrite h addr count words) s = .next (s.answered h c { status := stDone } (s.enter.regWrites addr.toNat
       words))) ∧
  (∀ (h : CmdHdr) (addr : BitVec 32) (bytes : BitVec 16) (ptr : BitVec 32) (s : State),
     let n := bytes.toNat
     let c : CmdSpec :=
       { opcode := 0x0D03, role := some .operator, params := pb addr ++ pb bytes ++ pb ptr, ptrs := [(ptr.toNat, n)] }
     let r := s.enter.regReads addr.toNat (n / 4)
     s.accepts h c = true →
     4 ≤ n ∧ n ≤ 8192 ∧ n % 4 = 0 →
     windowOk addr.toNat (n / 4) = true →
     s.windowLacks h addr.toNat (n / 4) = false ∧ s.windowDown addr.toNat = false →
     exec (.regReadBlock h addr bytes ptr) s = .next (s.answered h c
       { status := stDone, block := some (ptr.toNat, n) }
       { r.2 with pup.mbRam := memWrite 0 r.2.pup.mbRam ptr.toNat (r.1.flatMap (le 4)) })) ∧
  (∀ (h : CmdHdr) (addr : BitVec 32) (bytes : BitVec 16) (ptr : BitVec 32) (s : State),
     let n := bytes.toNat
     let ws := (chunks 4 (n / 4) (memRead 0 s.pup.mbRam ptr.toNat n)).map (fun b => BitVec.ofNat 32 (unle b))
     let c : CmdSpec :=
       { opcode := 0x0D04
         role := some .installer
         journal := true
         params := pb addr ++ pb bytes ++ pb ptr
         ptrs := [(ptr.toNat, n)] }
     s.accepts h c = true →
     4 ≤ n ∧ n ≤ 8192 ∧ n % 4 = 0 →
     windowOk addr.toNat ws.length = true →
     s.windowLacks h addr.toNat ws.length = false ∧ s.windowDown addr.toNat = false →
     (wordsAt addr.toNat ws.length).findSome? (fun x => s.wordRefuses x) = none →
     exec (.regWriteBlock h addr bytes ptr) s = .next (s.answered h c { status := stDone } (s.enter.regWrites
       addr.toNat ws))) ∧
  (∀ (h : CmdHdr) (path : BitVec 8) (mode : BitVec 8) (offset : BitVec 32) (level : BitVec 8) (sinks : BitVec 128)
    (orx : BitVec 8) (duration : BitVec 32) (s : State) (p : Fin 64),
     let till := s.time.ticks + duration.toNat
     let a := fun (q : Fin 64) => sinks.getLsbD (2 * q.val)
     let b := fun (q : Fin 64) => sinks.getLsbD (2 * q.val + 1)
     let c : CmdSpec :=
       { opcode := 0x0D05
         role := some .installer
         journal := true
         params := pb path ++ pb mode ++ pb offset ++ pb level ++ pb sinks ++ pb orx ++ pb duration }
     let t := s.enter.markBus p (decide (mode = 2)) a b (fun u => orx.getLsbD u.val)
     let u : State := if mode = 0 then t.modPath p (fun x => { x with cbSource := false }) else t
     s.accepts h c = true →
     fin? 64 path.toNat = some p →
     mode.toNat ≤ 2 ∧ -60 ≤ level.toInt ∧ level.toInt ≤ -10 ∧ 1 ≤ duration.toNat ∧ duration.toNat ≤ 19661 →
     s.cal.bus = .free ∧ s.busFree s.time.ticks till = true →
     ((List.finRange 64).filter (fun q => decide (q = p) || a q || b q)).any (fun q => !s.pathIdle q) = false →
     exec (.calbusDiag h path mode offset level sinks orx duration) s = .next (s.answered h c
       { status := stDone, wait := some .calbus } { u with cal.bus := CalBusUser.diag h.mb till })) ∧
  (∀ (s : State) (m : Fin 4) (till : Nat),
     s.cal.bus = .diag m till →
     till ≤ s.time.ticks →
     exec .calbusDiagEnd s = .next ({ s.clearMarks with cal.bus := .free }.complete m stDone [] none))

/-- Sessions: opening, authentication, closing, and their ends by time -/
def Obligations.SessionCommandsRun : Prop :=
  (∀ (h : CmdHdr) (role : BitVec 8) (s : State) (r : Role) (k : Fin 8),
     let c : CmdSpec := { opcode := 0x0A01, role := none, params := pb role }
     let n := Config.nonce s.pup.nonces
     let t := s.enter.setSession k (.awaiting r n s.time.ticks)
     s.accepts h c = true →
     role? role.toNat = some r →
     s.lockedOut r = false →
     s.freeHandle = some k →
     exec (.sessionOpen h role) s = .next (s.answered h c { status := stDone, results := le 1 (k.val + 1) ++ pb n }
       { t with pup.nonces := s.pup.nonces + 1 })) ∧
  (∀ (h : CmdHdr) (handle : BitVec 8) (mac : List (BitVec 8)) (s : State) (k : Fin 8) (r : Role) (n : BitVec 128)
    (since : Nat),
     let c : CmdSpec := { opcode := 0x0A02, role := none, params := pb handle ++ mac }
     let t := s.enter.setSession k (.opened r n (s.time.ticks + lifetime r * secTicks))
     s.accepts h c = true →
     handle? handle = some k →
     mac.length = 32 →
     s.pup.sessions.get k = .awaiting r n since →
     s.time.ticks < since + 10 * secTicks →
     mac = s.authMac k r n →
     exec (.sessionAuth h handle mac) s = .next (s.answered h c { status := stDone, results := le 4 (lifetime r) }
       { t with pup.wrongMac := vmod t.pup.wrongMac (Fin.ofNat 3 r.rank) (fun _ => 0) })) ∧
  (∀ (h : CmdHdr) (handle : BitVec 8) (mac : List (BitVec 8)) (s : State) (k : Fin 8) (r : Role) (n : BitVec 128)
    (since : Nat),
     let c : CmdSpec := { opcode := 0x0A02, role := none, params := pb handle ++ mac }
     s.accepts h c = true →
     handle? handle = some k →
     mac.length = 32 →
     s.pup.sessions.get k = .awaiting r n since →
     s.time.ticks < since + 10 * secTicks →
     mac ≠ s.authMac k r n →
     exec (.sessionAuth h handle mac) s = .next (s.answered h c { status := stDenied } ((s.enter.setSession k
       .free).countWrong r))) ∧
  (∀ (h : CmdHdr) (handle : BitVec 8) (s : State) (k : Fin 8) (r : Role) (n : BitVec 128) (till : Nat),
     let c : CmdSpec := { opcode := 0x0A03, role := some .operator, params := pb handle }
     s.accepts h c = true →
     handle? handle = some k →
     s.pup.sessions.get k = .opened r n till →
     handle = h.session ∨ r.rank ≤ (s.sessionRole h.session).elim 0 Role.rank →
     exec (.sessionClose h handle) s = .next (s.answered h c { status := stDone } (s.enter.endSession k 1))) ∧
  (∀ (src : Fin 8) (s : State) (r : Role) (n : BitVec 128) (since : Nat),
     s.pup.sessions.get src = .awaiting r n since →
     since + 10 * secTicks ≤ s.time.ticks →
     exec (.sessionAuthTimeout src) s = .next (s.setSession src .free)) ∧
  (∀ (src : Fin 8) (s : State) (r : Role) (n : BitVec 128) (till : Nat),
     s.pup.sessions.get src = .opened r n till →
     till ≤ s.time.ticks →
     exec (.sessionLifetimeExpiry src) s = .next (s.endSession src 2)) ∧
  (∀ (r : Fin 3) (s : State) (t : Nat),
     s.pup.lockout.get r = some t →
     t ≤ s.time.ticks →
     exec (.lockoutExpiry r) s = .next ({ s with pup.lockout := s.pup.lockout.set r.val none r.isLt }))

/-- KEY_SET, the commands of the change journal and of the one-time-programmable memory. Whether an OTP write verifies
  is the free value of the assumption log. -/
def Obligations.KeyJournalAndOtpCommandsRun : Prop :=
  (∀ (h : CmdHdr) (role : BitVec 8) (ptr : BitVec 32) (s : State) (k : Fin 8) (issuer : Role) (n : BitVec 128) (till :
    Nat) (key : List Byte),
     let c : CmdSpec :=
       { opcode := 0x0A04
         role := some .installer
         journal := true
         params := pb role ++ pb ptr
         ptrs := [(ptr.toNat, 64)] }
     let t : State := { s.enter with pup.mbRam := memWrite 0 s.pup.mbRam ptr.toNat (List.replicate 64 0) }
     let slotB := s.keySlot.elim false (fun x => !x)
     let seq := s.keySlot.elim 1 (fun x => s.keySeq x + 1)
     s.accepts h c = true →
     role.toNat ≤ 2 ∧ (role ≠ 2 ∨ 2 ≤ (s.sessionRole h.session).elim 0 Role.rank) →
     s.cal.store = none ∧ s.flashBusy = false ∧ s.tempForbidden = false →
     handle? h.session = some k →
     s.pup.sessions.get k = .opened issuer n till →
     s.newKey k issuer n role.toNat (memRead 0 s.pup.mbRam ptr.toNat 64) = some key →
     exec (.keySet h role ptr) s = .next (s.answered h c { status := stDone, wait := some .keySet }
       { t with pup.job := .keyRecord slotB (s.keyRecord slotB seq role.toNat key) role.toNat h.session 0 })) ∧
  (∀ (h : CmdHdr) (first : BitVec 32) (count : BitVec 8) (ptr : BitVec 32) (s : State),
     let c : CmdSpec :=
       { opcode := 0x0A05
         role := some .operator
         journal := true
         params := pb first ++ pb count ++ pb ptr
         ptrs := [(ptr.toNat, 64 * count.toNat)] }
     let next := s.pup.jNext.toNat
     let old := jOldest next
     let n := if first.toNat < old ∨ next ≤ first.toNat then 0 else min count.toNat (next - first.toNat)
     s.accepts h c = true →
     1 ≤ count.toNat ∧ count.toNat ≤ 64 →
     exec (.journalRead h first count ptr) s = .next (s.answered h c
       { status := stDone, results := le 4 old ++ le 4 next ++ le 1 n, block := some (ptr.toNat, 64 * n) }
       { s.enter with
         pup.mbRam := memWrite 0 s.pup.mbRam ptr.toNat ((List.range n).flatMap (fun k => s.flashRead (jAddr
           (first.toNat + k)) 64)) })) ∧
  (∀ (h : CmdHdr) (confirm : BitVec 32) (s : State),
     let c : CmdSpec := { opcode := 0x0A06, role := some .maker, journal := true, params := pb confirm }
     s.accepts h c = true →
     s.overLink h = false ∧ confirm = 0x4A524E4C →
     s.cal.store = none ∧ s.flashBusy = false ∧ s.tempForbidden = false →
     exec (.journalErase h confirm) s = .next (s.answered h c { status := stDone, wait := some .jErase }
       { s.enter with pup.job := .journalErase 0 })) ∧
  (∀ (h : CmdHdr) (index : BitVec 8) (ptr : BitVec 32) (s : State) (k : Fin 4),
     let c : CmdSpec :=
       { opcode := 0x0A07
         role := some .maker
         journal := true
         params := pb index ++ pb ptr
         ptrs := [(ptr.toNat, 64)] }
     let t : State := { s.enter with free := s.free + 1 }
     let b := memRead 0 s.pup.mbRam ptr.toNat 64
     s.accepts h c = true →
     s.overLink h = false →
     fin? 4 index.toNat = some k →
     p256On (unbe (b.take 32)) (unbe (b.drop 32)) = true ∧ (s.otp.keys.get k).written = false ∧ (s.otp.keys.get
       k).failed = false →
     exec (.otpKeyWrite h index ptr) s = .next (s.answered h c
       { status := if Config.otpFails s.free = true then stInternal else stDone } (if Config.otpFails s.free = true
       then t.modOtp k (fun x => { x with failed := true }) else t.modOtp k (fun x =>
       { x with written := true, key := b })))) ∧
  (∀ (h : CmdHdr) (index : BitVec 8) (s : State) (k : Fin 4),
     let c : CmdSpec := { opcode := 0x0A08, role := some .maker, journal := true, params := pb index }
     let t : State := { s.enter with free := s.free + 1 }
     s.accepts h c = true →
     s.overLink h = false →
     fin? 4 index.toNat = some k →
     (List.finRange 4).any (fun j => decide (j ≠ k) && (s.otp.keys.get j).written && !(s.otp.keys.get j).failed &&
       !(s.otp.keys.get j).revoked) = true →
     exec (.otpKeyRevoke h index) s = .next (s.answered h c
       { status := if Config.otpFails s.free = true then stInternal else stDone } (if Config.otpFails s.free = true
       then t.modOtp k (fun x => { x with failed := true }) else t.modOtp k (fun x => { x with revoked := true })))) ∧
  (∀ (h : CmdHdr) (version : BitVec 32) (s : State),
     let c : CmdSpec := { opcode := 0x0A09, role := some .maker, journal := true, params := pb version }
     let t : State := { s.enter with free := s.free + 1 }
     s.accepts h c = true →
     s.overLink h = false →
     s.otpFloorNow ≤ version.toNat ∧ version.toNat ≤ s.pup.fwVer.toNat ∧ s.otp.floor.length < 16 →
     exec (.otpFloorSet h version) s = .next (s.answered h c
       { status := if Config.otpFails s.free = true then stInternal else stDone } (if Config.otpFails s.free = true
       then { t with otp.floor := t.otp.floor ++ [none] } else { t with otp.floor := t.otp.floor ++ [some version] }))) ∧
  (∀ (h : CmdHdr) (group : BitVec 16) (length : BitVec 16) (ptr : BitVec 32) (s : State),
     let c : CmdSpec :=
       { opcode := 0x0A0A
         role := some .maker
         journal := true
         params := pb group ++ pb length ++ pb ptr
         ptrs := [(ptr.toNat, length.toNat)] }
     let t : State := { s.enter with free := s.free + 1 }
     s.accepts h c = true →
     s.overLink h = false →
     s.otp.trim.any (fun g => decide (g.1 = group)) = false →
     exec (.otpTrimWrite h group length ptr) s = .next (s.answered h c
       { status := if Config.otpFails s.free = true then stInternal else stDone } (if Config.otpFails s.free = true
       then { t with otp.trim := t.otp.trim ++ [(group, none)] } else
       { t with otp.trim := t.otp.trim ++ [(group, some (memRead 0 s.pup.mbRam ptr.toNat length.toNat))] })))

/-- Commands of temperature monitoring: each runs to the state its rule gives -/
def Obligations.ThermalCommandsRun : Prop :=
  (∀ (h : CmdHdr) (rha : BitVec 16) (ch : BitVec 16) (ta : BitVec 16) (s : State),
     let c : CmdSpec :=
       { opcode := 0x0901, role := some .installer, journal := true, params := pb rha ++ pb ch ++ pb ta }
     s.accepts h c = true →
     10 ≤ rha.toNat ∧ rha.toNat ≤ 5000 →
     1 ≤ ch.toNat ∧ ch.toNat ≤ 10000 →
     -3200 ≤ ta.toInt ∧ ta.toInt ≤ 5440 →
     exec (.hkModelCfg h rha ch ta) s = .next (s.answered h c { status := stDone }
       { s.enter with hk := { s.hk with rha := rha, ch := ch, ta := ta } })) ∧
  (∀ (h : CmdHdr) (steps : List (BitVec 8)) (interval : BitVec 16) (duty : BitVec 8) (s : State) (l : List (BitVec
    3)),
     let c : CmdSpec :=
       { opcode := 0x0902
         role := some .installer
         journal := true
         params := padTo 5 steps ++ pb interval ++ pb duty }
     s.accepts h c = true →
     1 ≤ interval.toNat ∧ interval.toNat ≤ 10000 →
     10 ≤ duty.toNat ∧ duty.toNat ≤ 90 →
     stepList (padTo 5 steps) = some l ∧ stepsOk l = true →
     s.hk.throttle = false →
     exec (.hkThrottleCfg h steps interval duty) s = .next (s.answered h c { status := stDone }
       { s.enter with hk := { s.hk with order := l, interval := interval, duty := duty } })) ∧
  (∀ (h : CmdHdr) (enable : BitVec 8) (s : State),
     let c : CmdSpec := { opcode := 0x0903, role := some .installer, journal := true, params := pb enable }
     s.accepts h c = true →
     enable = 1 →
     exec (.hkBandCfg h enable) s = .next (s.answered h c { status := stDone } { s.enter with hk.bandSel := true })) ∧
  (∀ (h : CmdHdr) (enable : BitVec 8) (s : State),
     let c : CmdSpec := { opcode := 0x0903, role := some .installer, journal := true, params := pb enable }
     let u : State := { s.enter with hk.bandSel := decide (enable = 1) }
     s.accepts h c = true →
     enable = 0 →
     exec (.hkBandCfg h enable) s = .next (s.answered h c { status := stDone } ((((List.finRange 8).foldl (fun s t =>
       s.setTileBand t 3) u).setLinkBand 3).setDramBand 3))) ∧
  (∀ (h : CmdHdr) (s : State),
     let c : CmdSpec := { opcode := 0x0904, role := some .operator, params := [] }
     let u : State := { s.enter with hk := { s.hk with halt := false, cut := 0 } }
     s.accepts h c = true →
     s.hk.halt = true →
     s.hk.regions.toList.any (fun r => r.shut.tripped) = false →
     exec (.hkResume h) s = .next (s.answered h c { status := stDone } (u.emitNow 0x0905 0x09FF (pb s.hottest)))) ∧
  (∀ (h : CmdHdr) (s : State),
     let c : CmdSpec := { opcode := 0x0905, role := some .operator, params := [] }
     s.accepts h c = true →
     exec (.hkStatus h) s = .next (s.answered h c
       { status := stDone
         results := le 4 (regThermStat s) ++ le 4 (regThrSteps s.hk) ++ le 4 (regHkBand s.hk) ++ le 4 s.hk.vstat.toNat
           ++ le 4 (regThermCnt s.hk) } s.enter)) ∧
  (∀ (h : CmdHdr) (cls : BitVec 8) (s : State),
     let c : CmdSpec := { opcode := 0x0906, role := some .operator, params := pb cls }
     let rs := s.hk.regions.toList
     s.accepts h c = true →
     cls.toNat ≤ 3 →
     exec (.hkRead h cls) s = .next (s.answered h c
       { status := stDone
         results := if cls = 0 then rs.flatMap (fun x => le 4 (regHkTemp x)) else if cls = 1 then rs.flatMap (fun x =>
           le 4 x.pwr.toNat) else if cls = 2 then s.hk.rails.toList.flatMap (fun x => le 4 (regHkVolt x)) else
           rs.flatMap (fun x => le 4 (regHkProc x)) } s.enter))

/-- Events of temperature monitoring: evaluations, throttle steps, the slow round and the entry of THERMAL_HALT -/
def Obligations.ThermalEventsRun : Prop :=
  (∀ (r : Fin 12) (est : BitVec 16) (powers : List (BitVec 12)) (s : State),
     let x := s.hk.regions.get r
     let e := est.toInt
     let f := x.powerF.run 4 powers
     let power := Config.powerMw r.val f.2.sum f.2.length
     let nodes : List Int := [if 6400 ≤ x.est.toInt then 19661 else 983040, power.toNat, s.hk.rha.toNat,
       s.hk.ch.toNat, e, x.nodeS, x.nodeH, s.hk.ta.toInt * 256 + s.hk.bias]
     let u := s.modRegion r (fun x =>
       { x with
         est := est
         pwr := power
         powerF := f.1
         nodeS := Config.thermalS r.val nodes
         nodeH := Config.thermalH r.val nodes
         warn := x.warn.eval warnTrip e
         throttle := x.throttle.eval throttleTrip e
         shut := x.shut.eval shutTrip e
         wasShut := x.wasShut || x.shut.tripped
         evalAt := s.time.ticks + (if 6400 ≤ e then 19661 else 983040) })
     let v := (((u.calTemp r e).followBands r e).warnChange r est).throttleChange
     let trip := v.shutTripped && !s.shutTripped
     let w := if trip = true then v.shutdownOn r est else v
     s.mgmtOn = true ∧ x.seen = true ∧ x.evalAt ≤ s.time.ticks →
     exec (.thermalEvaluation r est powers) s = .next (if cutAt ≤ e then w.shutCut trip else w)) ∧
  (∀ (s : State),
     s.mgmtOn = true ∧ s.hk.throttle = true ∧ s.hk.stepAt ≤ s.time.ticks →
     exec .throttleStep s = .next ((if throttleTrip.1 ≤ s.hottest.toInt then s.applyStep else s).nextStep)) ∧
  (∀ (s : State),
     s.mgmtOn = true ∧ s.hk.throttle = false ∧ s.hk.reverting = true ∧ s.hk.applied ≠ [] ∧ s.hk.stepAt ≤ s.time.ticks
       →
     exec .throttleRevert s = .next (s.revertStep.nextStep)) ∧
  (∀ (s : State),
     s.mgmtOn = true ∧ s.hk.shutdown = true ∧ s.hk.shutAt ≤ s.time.ticks ∧ s.pageRuns = false →
     exec .thermalHaltEntry s = .next (s.enterHalt)) ∧
  (∀ (diodes : List (List (BitVec 12))) (volts : List (List (BitVec 12))) (counts : List (BitVec 16)) (devs : List
    (BitVec 16)) (vhold : BitVec 16) (s : State),
     let q := s.hkSamples diodes volts
     let u : State :=
       { q with
         hk.roundAt := q.time.ticks + 9830400
         cal.vhold := vhold
         hk.regions := vmap q.hk.regions (fun r x =>
           { x with procCnt := counts.getD r.val 0, procDev := devs.getD r.val 0 }) }
     let v := (List.finRange 12).foldl (fun (s : State) r => s.diodeRound r (Config.diodeTemp r.val (s.hk.regions.get
       r).diodeF.out)) u
     s.mgmtOn = true ∧ s.hk.roundAt ≤ s.time.ticks →
     exec (.slowRound diodes volts counts devs vhold) s = .next ((List.finRange 10).foldl (fun (s : State) k =>
       s.railRound k (Config.railMv k.val (s.hk.rails.get k).filter.out)) v))

/-- Instructions of the JTAG TAP and its reset -/
def Obligations.JtagCommandsRun : Prop :=
  (∀ (low : Bool) (s : State),
     low = true →
     exec (.jtagTrst low) s = .next ({ s with jtag.trstLow := true, jtag.ir := 2 })) ∧
  (∀ (low : Bool) (s : State),
     low = false →
     exec (.jtagTrst low) s = .next ({ s with jtag.trstLow := false })) ∧
  (∀ (cells : BitVec 344) (s : State),
     s.jtagOn = true ∧ s.jtag.trstLow = false →
     exec (.extest cells) s = .next
       ({ s with jtag := { s.jtag with ir := 0, captured := s.capture, boundary := cells }, free := s.free + 1 })) ∧
  (∀ (cells : BitVec 344) (s : State),
     s.jtagOn = true ∧ s.jtag.trstLow = false →
     exec (.samplePreload cells) s = .next
       ({ s with jtag := { s.jtag with ir := 1, captured := s.capture, boundary := cells }, free := s.free + 1 })) ∧
  (∀ (cells : BitVec 344) (s : State),
     s.jtagOn = true ∧ s.jtag.trstLow = false →
     exec (.extestPulse cells) s = .next
       ({ s with jtag := { s.jtag with ir := 3, captured := s.capture, boundary := cells }, free := s.free + 1 })) ∧
  (∀ (cells : BitVec 344) (s : State),
     s.jtagOn = true ∧ s.jtag.trstLow = false →
     exec (.extestTrain cells) s = .next
       ({ s with jtag := { s.jtag with ir := 4, captured := s.capture, boundary := cells }, free := s.free + 1 })) ∧
  (∀ (s : State),
     s.jtagOn = true ∧ s.jtag.trstLow = false →
     exec .idcode s = .next ({ s with jtag := { s.jtag with ir := 2, captured := 1 } })) ∧
  (∀ (s : State),
     s.jtagOn = true ∧ s.jtag.trstLow = false →
     exec .highz s = .next ({ s with jtag := { s.jtag with ir := 5, captured := 0 } })) ∧
  (∀ (s : State),
     s.jtagOn = true ∧ s.jtag.trstLow = false →
     exec .clamp s = .next ({ s with jtag := { s.jtag with ir := 6, captured := 0 } })) ∧
  (∀ (code : BitVec 8) (s : State),
     s.jtagOn = true ∧ s.jtag.trstLow = false ∧ 7 ≤ code.toNat →
     exec (.bypass code) s = .next ({ s with jtag := { s.jtag with ir := code, captured := 0 } }))

/-- Samples: a receive sample to its beams, a transmit sample to its ports, and the TX_IQ packets that feed beams -/
def Obligations.SamplesRun : Prop :=
  (∀ (p : Fin 64) (code : BitVec 14) (q : BitVec 14) (s : State),
     let full := overrange code q
     let v := if full = true then s.overload p else s
     s.rxLive p = true ∧ (s.chan.rx.get p).count < s.rxIndex + 2 →
     exec (.rxSample p code q) s = .next (v.rxNext p (v.corrected p code q) (v.rxFlags p full))) ∧
  (∀ (b : Fin 32) (s : State),
     let front := (txFrontHalf s.chan.txPreset + 1) / 2
     let bank := (s.txBankAt (Int.ofNat (s.time.ticks + front) - Int.ofNat s.clk.loadedV)).1
     let aper := (s.txBankAt (Int.ofNat (s.time.ticks + front) - Int.ofNat s.clk.loadedV)).2
     let rate := (bank.nbOf b).1
     let preset := (bank.nbOf b).2
     let g := nbDelay preset rate
     let t := s.txWanted b rate preset
     let flow : Fin 64 := if bank.element = true then (bank.elem.flows.getD b.val 0).toFin else (bank.beams.get
       b).flow.toFin
     let r := takeInput t (s.beam.input.get flow)
     let x : State :=
       { s with
         beam.input := vmod s.beam.input flow (fun _ => r.2.1)
         beam.txNext := vmod s.beam.txNext b (fun _ => t - g + 4) }
     let v := x.txFree flow r.2.2
     let u := Int.ofNat t - Int.ofNat s.clk.loadedV
     let cut := v.txCut b u (u - Int.ofNat g) || (!bank.element && v.hk.halved && bank.halved b)
     let w := if (r.1.isNone && !cut && !bank.element) = true then v.underflow b t else v
     s.time.dspRuns = true ∧ (bank.txSources aper).contains b = true ∧ t ≤ s.time.ticks + front + g →
     exec (.beamTxGridSample b) s = .next (if (r.1.isSome && !cut) = true then
       { w with beam.staged := vmod w.beam.staged b (fun l => l ++ [(u, r.1.getD [])]) } else w)) ∧
  (∀ (pkt : RxPkt) (s : State) (f : Fin 64) (elem : Bool) (b : Nat) (rate : BitVec 3) (preset : BitVec 2) (fmt :
    BitVec 2),
     let fmtOk := decide (pkt.fmt.getLsbD 7 = false ∧ (pkt.fmt &&& 7#8).toNat < 3 ∧ (pkt.fmt >>> 3).toNat < 8)
     let x := s.link.txFlows.get f
     let n := x.count + BitVec.ofNat 32 (cdiv pkt.payload.length 64)
     let u : State :=
       { s with
         link.txFlows := vmod s.link.txFlows f (fun x =>
           { x with
             count := n
             seq := pkt.seq + 1
             buf := x.buf + pkt.payload.length
             gap := if pkt.seq ≠ (s.link.txFlows.get f).seq then satAdd x.gap 1 else x.gap
             badfmt := satAdd x.badfmt (txSamples fmt elem pkt.payload).2 }) }
     s.rxScreen pkt 63 fmtOk = none →
     fin? 64 pkt.flow.toNat = some f →
     s.txSrc x.src = some (elem, b, rate, preset, fmt) →
     (pkt.fmt &&& 7#8).toNat = fmt.toNat ∧ (pkt.fmt >>> 3).toNat = rate.toNat →
     (x.limit - n).toNat < 2 ^ 31 →
     exec (.txIqPacket pkt) s = .next (u.txEnter f elem b rate preset (u.fullTicks pkt.time) pkt.payload.length
       (txSamples fmt elem pkt.payload).1)) ∧
  (∀ (pkt : RxPkt) (s : State) (f : Fin 64) (elem : Bool) (b : Nat) (rate : BitVec 3) (preset : BitVec 2) (fmt :
    BitVec 2),
     let fmtOk := decide (pkt.fmt.getLsbD 7 = false ∧ (pkt.fmt &&& 7#8).toNat < 3 ∧ (pkt.fmt >>> 3).toNat < 8)
     let x := s.link.txFlows.get f
     let n := x.count + BitVec.ofNat 32 (cdiv pkt.payload.length 64)
     let u : State :=
       { s with
         link.txFlows := vmod s.link.txFlows f (fun x =>
           { x with overrun := satAdd x.overrun 1, ovrSeen := true, seq := pkt.seq + 1 }) }
     s.rxScreen pkt 63 fmtOk = none →
     fin? 64 pkt.flow.toNat = some f →
     s.txSrc x.src = some (elem, b, rate, preset, fmt) →
     (pkt.fmt &&& 7#8).toNat = fmt.toNat ∧ (pkt.fmt >>> 3).toNat = rate.toNat →
     2 ^ 31 ≤ (x.limit - n).toNat →
     exec (.txIqPacket pkt) s = .next (if x.ovrSeen then u else u.emitNow 0x0711 (0x0700 + f.val) (le 1 f.val)))
end

