-- ==== Sys2Proof/Laws/Actions.lean ====
section
/-! SUPPORT. What judging a ripe action comes to. -/

namespace Sys2Proof.Machine

/-- The head of a queue once it is ripe: it is held, refused or taken. A swap's joining tiles start without its window. -/
theorem State.judge_ripe {s : State} {q : Fin 9} {a : QAct} (h : s.ripe q a = true) :
    s.judge q =
      match (match fin? 8 q.val with
        | some t => s.takeTile t a
        | none => s.takeDevice a) with
      | .hold why => s.holdHead q a why
      | .refuse st =>
        let s := s.finishAct q a st s.nowT
        if a.act.code = 3 ∧ st = stNoResource then { s with hk.capCnt := satAdd s.hk.capCnt 1 } else s
      | .took s => s
      | .waits s => s := by
  simp only [State.ripe, Bool.and_eq_true, decide_eq_true_eq, Bool.not_eq_true'] at h
  obtain ⟨⟨⟨⟨h1, h2⟩, h3⟩, h4⟩, h5⟩ := h
  unfold State.judge
  simp only [h1, h2, h4, Bool.false_and, Bool.false_eq_true, if_false]
  rw [if_neg (Int.not_lt.mpr h3)]
  refine (if_neg ?_).trans rfl
  · cases hw : a.window with
    | none => simp
    | some w =>
      rw [hw] at h5
      simp only at h5
      simp [h5]

theorem State.judgeKind_ripe {s : State} {q : Fin 9} {a : QAct} {k : Nat} (h : s.ripe q a = true) (hk : a.act.code = k) :
    s.judgeKind q k = s.judge q := by
  have h1 := h
  simp only [State.ripe, Bool.and_eq_true, decide_eq_true_eq] at h1
  simp only [State.judgeKind, h1.1.1.1.1, hk, if_true]

theorem fin?_tileQ (t : Fin 8) : fin? 8 (tileQ t).val = some t := by
  simp [fin?, tileQ]

end Sys2Proof.Machine
end

