-- ==== Sys2Proof/Laws/Banks.lean ====
section
/-! SUPPORT. Writing a shadow bank that no swap holds. -/

namespace Sys2Proof.Machine

theorem State.shadowSet_free {s : State} {tx : Bool} {f : Bank → Bank} (h : (s.beam.dir tx).lock = none) :
    s.shadowSet tx f = ({ status := stDone }, s.modDir tx (fun d => { d with shadow := f d.shadow })) := by
  simp [State.shadowSet, h, done]

end Sys2Proof.Machine
end

