-- ==== Sys2Proof/Laws/Crypto.lean ====
section
/-! SUPPORT. Lengths of what SHA-256 and HMAC give, and the key block that KEY_SET takes for a key (20_roles.md R555). -/

namespace Sys2Proof.Machine

@[simp] theorem be_length (n v : Nat) : (be n v).length = n := by
  have h : ∀ n v, (le n v).length = n := by
    intro n
    induction n with
    | zero => intro _; rfl
    | succ n ih => intro v; simp [le, ih]
  simp [be, h]

@[simp] theorem le_length (n v : Nat) : (le n v).length = n := by
  induction n generalizing v with
  | zero => rfl
  | succ n ih => simp [le, ih]

theorem shaBlock_length (h : List (BitVec 32)) (b : List Byte) (hl : h.length = 8) : (shaBlock h b).length = 8 := by
  unfold shaBlock
  simp only [List.length_zipWith, hl]
  have H : ∀ (xs v : List (BitVec 32)), v.length = 8 → (xs.foldl shaRound v).length = 8 := by
    intro xs
    induction xs with
    | nil => intro v hv; exact hv
    | cons x xs ih =>
      intro v hv
      refine ih _ ?_
      simp [shaRound, hv]
  rw [H _ _ hl]
  rfl

theorem sha256_length (bs : List Byte) : (sha256 bs).length = 32 := by
  unfold sha256
  simp only
  have H : ∀ (xs : List (List Byte)) (v : List (BitVec 32)), v.length = 8 → (xs.foldl shaBlock v).length = 8 := by
    intro xs
    induction xs with
    | nil => intro v hv; exact hv
    | cons x xs ih => intro v hv; exact ih _ (shaBlock_length v x hv)
  rw [List.length_flatMap]
  simp only [be_length, List.map_const', List.sum_replicate, smul_eq_mul]
  rw [H _ _ rfl]

theorem hmac_length (k m : List Byte) : (hmac k m).length = 32 := sha256_length _

theorem xorBytes_xorBytes (a b : List Byte) (h : a.length = b.length) : xorBytes (xorBytes a b) b = a := by
  induction a generalizing b with
  | nil => simp [xorBytes]
  | cons x a ih =>
    cases b with
    | nil => simp at h
    | cons y b =>
      simp only [List.length_cons, Nat.add_right_cancel_iff] at h
      have e := ih b h
      simp only [xorBytes, List.zipWith_cons_cons, List.cons.injEq] at e ⊢
      exact ⟨by rw [BitVec.xor_assoc, BitVec.xor_self, BitVec.xor_zero], e⟩

theorem xorBytes_length (a b : List Byte) (h : a.length = b.length) : (xorBytes a b).length = b.length := by
  simp [xorBytes, h]

/-- The pad that hides a key in its block (R555). -/
theorem newKey_right (s : State) (i : Fin 8) (issuer : Role) (nonce : BitVec 128) (r : Nat) (key pad : List Byte)
    (hp : pad = hmac (s.roleKey issuer.rank)
      (tag4 0x4B 0x57 0x52 0x50 ++ le 1 (i.val + 1) ++ le 1 issuer.rank ++ pb nonce)) (hk : key.length = 32) :
    s.newKey i issuer nonce r
      (le 1 r ++ (List.replicate 3 0 ++ (xorBytes key pad ++
        ((hmac key (tag4 0x4B 0x43 0x48 0x4B ++ pb nonce)).take 16 ++ List.replicate 12 0)))) = some key := by
  have lp : pad.length = 32 := by rw [hp]; exact hmac_length _ _
  have lx : (xorBytes key pad).length = 32 := by rw [xorBytes_length _ _ (hk.trans lp.symm), lp]
  generalize hQ : hmac key (tag4 0x4B 0x43 0x48 0x4B ++ pb nonce) = Q
  have lQ : (Q.take 16).length = 16 := by rw [← hQ, List.length_take, hmac_length]; rfl
  generalize hX : xorBytes key pad = X at *
  generalize hT : Q.take 16 = T at *
  have d1 : ∀ ys : List Byte, (le 1 r ++ ys).drop 1 = ys := fun _ => rfl
  have dn : ∀ (n m : Nat) (xs ys : List Byte), xs.length = n → (xs ++ ys).drop (n + m) = ys.drop m := by
    intro n m xs ys h
    rw [← h, List.drop_append, List.drop_eq_nil_of_le (Nat.le_add_right _ _), Nat.add_sub_cancel_left]
    rfl
  have tn : ∀ (n : Nat) (xs ys : List Byte), xs.length = n → (xs ++ ys).take n = xs := by
    intro n xs ys h
    rw [← h, List.take_left]
  unfold State.newKey
  simp only [← hp]
  have d4 : ∀ ys : List Byte, (le 1 r ++ (List.replicate 3 0 ++ ys)).drop 4 = ys := fun _ => rfl
  rw [d4, tn 32 X _ lx, ← hX,
    xorBytes_xorBytes _ _ (hk.trans lp.symm), hQ, hT]
  rw [if_pos]
  refine ⟨rfl, rfl, ?_, ?_⟩
  · have e : (le 1 r ++ (List.replicate 3 0 ++ (xorBytes key pad ++ (T ++ List.replicate 12 0)))).drop 52 =
        List.replicate 12 0 := by
      show (xorBytes key pad ++ (T ++ List.replicate 12 0)).drop 48 = _
      rw [dn 32 16 _ _ (by rw [hX]; exact lx), dn 16 0 _ _ lQ]
      rfl
    simp only [e]
    rfl
  · have e : (le 1 r ++ (List.replicate 3 0 ++ (xorBytes key pad ++ (T ++ List.replicate 12 0)))).drop 36 =
        T ++ List.replicate 12 0 := by
      show (xorBytes key pad ++ (T ++ List.replicate 12 0)).drop 32 = _
      rw [dn 32 0 _ _ (by rw [hX]; exact lx)]
      rfl
    rw [e, tn 16 _ _ lQ]

end Sys2Proof.Machine
end

