-- ==== Sys2Proof/Laws/Kept.lean ====
section
/-! SUPPORT. What no effect of a command reaches: the queue, and the one-time programmable memory but for its own
commands. -/

namespace Sys2Proof.Machine

/-- The queue of waiting commands and the one-time programmable memory. -/
def State.kept (s : State) : List Instr × OtpBlock := (s.pending, s.otp)

/-- An answer that is a next state whose queue and one-time programmable memory are those of s. -/
def Keeps (s : State) (o : Out) : Prop := ∃ t, o = .next t ∧ t.kept = s.kept

theorem State.kept_foldl {α : Type} (f : State → α → State) (h : ∀ s a, (f s a).kept = s.kept) :
    ∀ (l : List α) (s : State), (l.foldl f s).kept = s.kept := by
  intro l
  induction l with
  | nil => intro s; rfl
  | cons a l ih => intro s; rw [List.foldl_cons, ih, h]

theorem State.kept_foldl_fst {α β : Type} (f : State × β → α → State × β) (h : ∀ r a, (f r a).1.kept = r.1.kept) :
    ∀ (l : List α) (r : State × β), (l.foldl f r).1.kept = r.1.kept := by
  intro l
  induction l with
  | nil => intro r; rfl
  | cons a l ih => intro r; rw [List.foldl_cons, ih, h]

theorem State.kept_foldl_snd {α β : Type} (f : β × State → α → β × State) (h : ∀ r a, (f r a).2.kept = r.2.kept) :
    ∀ (l : List α) (r : β × State), (l.foldl f r).2.kept = r.2.kept := by
  intro l
  induction l with
  | nil => intro r; rfl
  | cons a l ih => intro r; rw [List.foldl_cons, ih, h]

/-- How the kept part of a state that is built or chosen is read. -/
theorem State.kept_rules :
    (∀ s : State, (s.pending, s.otp) = s.kept) ∧
    (∀ (pending : List Instr) (free : Nat) (resetN : Bool) (time : TimeBlock) (pup : PupBlock) (clk : ClkBlock)
      (paths : Vector Path 64) (res : Vector TileRes 8) (pick : Vector PickGroup 8) (radio : Vector Radio 8)
      (chan : ChanBlock) (beam : BeamBlock) (pd : PdBlock) (an : AnBlock) (aq : AqBlock) (tdsp : Vector Tdsp 8)
      (link : LinkBlock) (dma : DmaBlock) (cal : CalBlock) (hk : HkBlock) (pw : PwBlock) (jtag : Jtag) (otp : OtpBlock),
      (State.mk pending free resetN time pup clk paths res pick radio chan beam pd an aq tdsp link dma cal hk pw jtag
        otp).kept = (pending, otp)) ∧
    (∀ (c : Prop) [Decidable c] (a b : State), (if c then a else b).kept = if c then a.kept else b.kept) ∧
    (∀ (c : Prop) [Decidable c] (a : c → State) (b : ¬c → State),
      (dite c a b).kept = dite c (fun h => (a h).kept) (fun h => (b h).kept)) ∧
    (∀ (c : Prop) [Decidable c] (a b : Reply × State),
      (if c then a else b).2.kept = if c then a.2.kept else b.2.kept) ∧
    (∀ (c : Prop) [Decidable c] (a b : Nat × State),
      (if c then a else b).2.kept = if c then a.2.kept else b.2.kept) ∧
    (∀ (c : Prop) [Decidable c] (a b : State × Bool),
      (if c then a else b).1.kept = if c then a.1.kept else b.1.kept) ∧
    (∀ (c : Prop) [Decidable c] (a b : State × Nat),
      (if c then a else b).1.kept = if c then a.1.kept else b.1.kept) :=
  ⟨fun _ => rfl, fun _ _ _ _ _ _ _ _ _ _ _ _ _ _ _ _ _ _ _ _ _ _ _ => rfl, fun c _ => apply_ite State.kept c,
    fun c _ => apply_dite State.kept c,
    fun c _ => apply_ite (fun x : Reply × State => x.2.kept) c, fun c _ => apply_ite (fun x : Nat × State => x.2.kept) c,
    fun c _ => apply_ite (fun x : State × Bool => x.1.kept) c, fun c _ => apply_ite (fun x : State × Nat => x.1.kept) c⟩

/-- The same for an answer. -/
theorem keeps_rules :
    (∀ s t : State, Keeps s (.next t) = (t.kept = s.kept)) ∧
    (∀ (s : State) (c : Prop) [Decidable c] (a b : Out),
      Keeps s (if c then a else b) = if c then Keeps s a else Keeps s b) := by
  refine ⟨fun s t => propext ⟨?_, fun h => ⟨t, rfl, h⟩⟩, fun s c _ => apply_ite (Keeps s) c⟩
  rintro ⟨u, h, hk⟩
  cases h
  exact hk

/-- The state that an action leaves when it is taken, where it is, has the queue and the one-time programmable memory of s. -/
def Take.Keeps (s : State) : Take → Prop
  | .hold _ => True
  | .refuse _ => True
  | .took t => t.kept = s.kept
  | .waits t => t.kept = s.kept

theorem Take.Keeps.of_eq {s : State} {x y : Take} (h : Take.Keeps s x) (e : x = y) : Take.Keeps s y := e ▸ h

theorem Take.keeps_rules :
    (∀ (s : State) (n : Nat), Take.Keeps s (.hold n) = True) ∧
    (∀ (s : State) (st : BitVec 8), Take.Keeps s (.refuse st) = True) ∧
    (∀ s t : State, Take.Keeps s (.took t) = (t.kept = s.kept)) ∧
    (∀ s t : State, Take.Keeps s (.waits t) = (t.kept = s.kept)) ∧
    (∀ (s : State) (c : Prop) [Decidable c] (a b : Take),
      Take.Keeps s (if c then a else b) = if c then Take.Keeps s a else Take.Keeps s b) :=
  ⟨fun _ _ => rfl, fun _ _ => rfl, fun _ _ => rfl, fun _ _ => rfl, fun s c _ => apply_ite (Take.Keeps s) c⟩

end Sys2Proof.Machine
end

