-- ==== Sys2Proof/Laws/KeptOps.lean ====
section
/-! SUPPORT. The queue and the one-time programmable memory under the operations of Machine/Ops.lean. -/

set_option linter.all false

namespace Sys2Proof.Machine

theorem State.tagWindows_kept (s : State) (set : ℕ) : (State.tagWindows s set).kept = s.kept := by
  unfold State.tagWindows
  simp only [↓State.kept_rules, ite_self, dite_eq_ite]

theorem State.placeEvt_kept (s : State) (e : EvtSlot) : (State.placeEvt s e).kept = s.kept := by
  unfold State.placeEvt
  simp only [↓State.kept_rules, ite_self, dite_eq_ite, ↓State.tagWindows_kept]

theorem State.emit_kept (s : State) (code : ℕ) (src : ℕ) (t : Time) (data : List Byte) : (State.emit s code src t
    data).kept = s.kept := by
  unfold State.emit
  simp only [↓State.kept_rules, ite_self, dite_eq_ite, ↓State.tagWindows_kept, ↓State.placeEvt_kept]

theorem State.emitNow_kept (s : State) (code : ℕ) (src : ℕ) (data : List Byte) : (State.emitNow s code src data).kept
    = s.kept := by
  unfold State.emitNow
  simp only [↓State.kept_rules, ite_self, dite_eq_ite, ↓State.emit_kept]

theorem refuse_kept (st : BitVec 8) (s : State) : (refuse st s).2.kept = s.kept := by
  unfold refuse
  simp only [↓State.kept_rules, ite_self, dite_eq_ite]

theorem State.enter_kept (s : State) : (State.enter s).kept = s.kept := by
  unfold State.enter
  simp only [↓State.kept_rules, ite_self, dite_eq_ite]

theorem State.leave_kept (s : State) : (State.leave s).kept = s.kept := by
  unfold State.leave
  simp only [↓State.kept_rules, ite_self, dite_eq_ite]

theorem State.sendRel_kept (s : State) (type : ℕ) (flow : ℕ) (flags : ℕ) (payload : List Byte) : (State.sendRel s type
    flow flags payload).kept = s.kept := by
  unfold State.sendRel
  simp only [↓State.kept_rules, ite_self, dite_eq_ite]

theorem State.placeAll_kept (s : State) (es : List EvtSlot) : (s.placeAll es).kept = s.kept := by
  induction es generalizing s with
  | nil => rfl
  | cons e es ih =>
    unfold State.placeAll
    rw [ih, State.placeEvt_kept]

theorem State.answer_kept (s : State) (m : Fin 4) (p : InProgress) : (State.answer s m p).kept = s.kept := by
  unfold State.answer
  try simp only [↓State.kept_rules, ite_self, dite_eq_ite, ↓State.sendRel_kept, ↓State.placeAll_kept]
  repeat'
    first
    | with_reducible rfl
    | ((with_reducible refine (State.kept_foldl _ (fun s a => ?_) _ _).trans ?_) <;>
        try simp only [↓State.kept_rules, ite_self, dite_eq_ite, ↓State.sendRel_kept, ↓State.placeAll_kept])
    | (split <;> try simp only [↓State.kept_rules, ite_self, dite_eq_ite, ↓State.sendRel_kept, ↓State.placeAll_kept])
    | rfl

theorem State.finish_kept (s : State) (m : Fin 4) (p : InProgress) : (State.finish s m p).kept = s.kept := by
  unfold State.finish
  try simp only [↓State.kept_rules, ite_self, dite_eq_ite, ↓State.answer_kept]
  repeat'
    first
    | with_reducible rfl
    | ((with_reducible refine (State.kept_foldl _ (fun s a => ?_) _ _).trans ?_) <;>
        try simp only [↓State.kept_rules, ite_self, dite_eq_ite, ↓State.answer_kept])
    | (split <;> try simp only [↓State.kept_rules, ite_self, dite_eq_ite, ↓State.answer_kept])
    | rfl

theorem State.settle_kept (t : State) (h : CmdHdr) (c : CmdSpec) (role : Option Role) (r : Reply) : (State.settle t h
    c role r).kept = t.kept := by
  unfold State.settle
  try simp only [↓State.kept_rules, ite_self, dite_eq_ite, ↓State.leave_kept, ↓State.finish_kept]
  repeat'
    first
    | with_reducible rfl
    | ((with_reducible refine (State.kept_foldl _ (fun s a => ?_) _ _).trans ?_) <;>
        try simp only [↓State.kept_rules, ite_self, dite_eq_ite, ↓State.leave_kept, ↓State.finish_kept])
    | (split <;> try simp only [↓State.kept_rules, ite_self, dite_eq_ite, ↓State.leave_kept, ↓State.finish_kept])
    | rfl

theorem serve_kept (h : CmdHdr) (c : CmdSpec) (body : State → Reply × State) (s : State)
    (hb : ∀ t, (body t).2.kept = t.kept) : (serve h c body s).kept = s.kept := by
  unfold serve
  split
  · rfl
  · rw [State.settle_kept]
    split
    · rfl
    · exact hb _

theorem checks_kept (cs : List (BitVec 8 × Bool)) (s : State) (body : Unit → Reply × State)
    (h : (body ()).2.kept = s.kept) : (checks cs s body).2.kept = s.kept := by
  unfold checks
  split
  · rfl
  · exact h

theorem done_kept (s : State) : (done s).2.kept = s.kept := by
  unfold done
  simp only [↓State.kept_rules, ite_self, dite_eq_ite]

theorem State.modPll_kept (s : State) (p : Fin 16) (f : Pll → Pll) : (State.modPll s p f).kept = s.kept := by
  unfold State.modPll
  simp only [↓State.kept_rules, ite_self, dite_eq_ite]

theorem State.emitSet_kept (s : State) (code : ℕ) (src : ℕ) (t : Time) (set : ℕ) (data : List Byte) : (State.emitSet s
    code src t set data).kept = s.kept := by
  unfold State.emitSet
  simp only [↓State.kept_rules, ite_self, dite_eq_ite, ↓State.tagWindows_kept, ↓State.placeEvt_kept]

theorem State.complete_kept (s : State) (m : Fin 4) (st : BitVec 8) (results : List Byte) (block : Option (ℕ × ℕ)) :
    (State.complete s m st results block).kept = s.kept := by
  unfold State.complete
  try simp only [↓State.kept_rules, ite_self, dite_eq_ite, ↓State.finish_kept]
  repeat'
    first
    | with_reducible rfl
    | ((with_reducible refine (State.kept_foldl _ (fun s a => ?_) _ _).trans ?_) <;>
        try simp only [↓State.kept_rules, ite_self, dite_eq_ite, ↓State.finish_kept])
    | (split <;> try simp only [↓State.kept_rules, ite_self, dite_eq_ite, ↓State.finish_kept])
    | rfl

theorem doneR_kept (rs : List Byte) (s : State) : (doneR rs s).2.kept = s.kept := by
  unfold doneR
  simp only [↓State.kept_rules, ite_self, dite_eq_ite]

theorem State.sendWaiting_kept (s : State) : (State.sendWaiting s).kept = s.kept := by
  unfold State.sendWaiting
  simp only [↓State.kept_rules, State.kept_foldl, State.kept_foldl_fst, State.kept_foldl_snd, implies_true, ite_self,
    dite_eq_ite, ↓State.sendRel_kept]

theorem accepted_kept (s : State) : (accepted s).2.kept = s.kept := by
  unfold accepted
  simp only [↓State.kept_rules, ite_self, dite_eq_ite]

end Sys2Proof.Machine
end

