-- ==== Sys2Proof/Laws/KeptLinkOps.lean ====
section
/-! SUPPORT. The queue and the one-time programmable memory under the operations of Machine/LinkOps.lean. -/

set_option linter.all false

namespace Sys2Proof.Machine

theorem unbindRx_kept (s : State) (f : ℕ) : (unbindRx s f).kept = s.kept := by
  unfold unbindRx
  try simp only [↓State.kept_rules, ite_self, dite_eq_ite]
  repeat'
    first
    | with_reducible rfl
    | ((with_reducible refine (State.kept_foldl _ (fun s a => ?_) _ _).trans ?_) <;>
        try simp only [↓State.kept_rules, ite_self, dite_eq_ite])
    | (split <;> try simp only [↓State.kept_rules, ite_self, dite_eq_ite])
    | rfl

theorem unbindRxIf_kept (s : State) (p : FlowSrc → Bool) : (unbindRxIf s p).kept = s.kept := by
  unfold unbindRxIf
  try simp only [↓State.kept_rules, State.kept_foldl, State.kept_foldl_fst, State.kept_foldl_snd, implies_true,
    ite_self, dite_eq_ite, ↓unbindRx_kept]
  repeat'
    first
    | with_reducible rfl
    | ((with_reducible refine (State.kept_foldl _ (fun s a => ?_) _ _).trans ?_) <;>
        try simp only [↓State.kept_rules, State.kept_foldl, State.kept_foldl_fst, State.kept_foldl_snd, implies_true,
        ite_self, dite_eq_ite, ↓unbindRx_kept])
    | (split <;> try simp only [↓State.kept_rules, State.kept_foldl, State.kept_foldl_fst, State.kept_foldl_snd, implies_true,
        ite_self, dite_eq_ite, ↓unbindRx_kept])
    | rfl

theorem bindRx_kept (s : State) (f : ℕ) (src : FlowSrc) (charge : ℕ) (shed : Bool) : (bindRx s f src charge shed).kept
    = s.kept := by
  unfold bindRx
  try simp only [↓State.kept_rules, ite_self, dite_eq_ite]
  repeat'
    first
    | with_reducible rfl
    | ((with_reducible refine (State.kept_foldl _ (fun s a => ?_) _ _).trans ?_) <;>
        try simp only [↓State.kept_rules, ite_self, dite_eq_ite])
    | (split <;> try simp only [↓State.kept_rules, ite_self, dite_eq_ite])
    | rfl

theorem State.laneState_kept (s : State) (m : BitVec 16) (t : LaneTarget) : (State.laneState s m t).kept = s.kept :=
    by
  unfold State.laneState
  simp only [↓State.kept_rules, ite_self, dite_eq_ite]

theorem State.modLane_kept (s : State) (l : Fin 16) (f : Lane → Lane) : (State.modLane s l f).kept = s.kept := by
  unfold State.modLane
  simp only [↓State.kept_rules, ite_self, dite_eq_ite]

theorem State.sendAck_kept (s : State) (flags : ℕ) : (State.sendAck s flags).kept = s.kept := by
  unfold State.sendAck
  simp only [↓State.kept_rules, ite_self, dite_eq_ite]

theorem State.checkStart_kept (s : State) (already : Bool) : (State.checkStart s already).kept = s.kept := by
  unfold State.checkStart
  simp only [↓State.kept_rules, ite_self, dite_eq_ite, ↓State.emitNow_kept]

theorem State.laneFailEvt_kept (s : State) (l : Fin 16) (cause : ℕ) : (State.laneFailEvt s l cause).kept = s.kept :=
    by
  unfold State.laneFailEvt
  simp only [↓State.kept_rules, ite_self, dite_eq_ite, ↓State.emitNow_kept, ↓State.modLane_kept]

theorem markShed_kept (s : State) (tx : Bool) (f : ℕ) (on : Bool) : (markShed s tx f on).kept = s.kept := by
  unfold markShed
  try simp only [↓State.kept_rules, ite_self, dite_eq_ite]
  repeat'
    first
    | with_reducible rfl
    | ((with_reducible refine (State.kept_foldl _ (fun s a => ?_) _ _).trans ?_) <;>
        try simp only [↓State.kept_rules, ite_self, dite_eq_ite])
    | (split <;> try simp only [↓State.kept_rules, ite_self, dite_eq_ite])
    | rfl

theorem shedLoop_kept (tx : Bool) (x1 : ℕ) (x2 : State) (x3 : ℕ) : (shedLoop tx x1 x2 x3).1.kept = x2.kept := by
  induction x1 generalizing x2 x3 with
  | zero => unfold shedLoop; rfl
  | succ n ih =>
    unfold shedLoop
    try simp only [↓State.kept_rules, ite_self, dite_eq_ite, ↓markShed_kept, ↓ih]
    repeat' (first | rfl | (split <;> try simp only [↓State.kept_rules, ite_self, dite_eq_ite, ↓markShed_kept, ↓ih]))

theorem restripeDown_kept (s : State) (tx : Bool) : (restripeDown s tx).kept = s.kept := by
  unfold restripeDown
  simp only [↓State.kept_rules, ite_self, dite_eq_ite, ↓State.emitNow_kept, ↓shedLoop_kept]

theorem State.replayAll_kept (s : State) : (State.replayAll s).kept = s.kept := by
  unfold State.replayAll
  simp only [↓State.kept_rules, ite_self, dite_eq_ite]

theorem State.linkUp_kept (s : State) : (State.linkUp s).kept = s.kept := by
  unfold State.linkUp
  simp only [↓State.kept_rules, ite_self, dite_eq_ite, ↓State.emitNow_kept, ↓State.sendAck_kept, ↓State.replayAll_kept]

theorem State.linkDown_kept (s : State) (before : BitVec 16) : (State.linkDown s before).kept = s.kept := by
  unfold State.linkDown
  simp only [↓State.kept_rules, ite_self, dite_eq_ite, ↓State.emitNow_kept]

theorem State.relevel_kept (s : State) (before : BitVec 16) : (State.relevel s before).1.kept = s.kept := by
  unfold State.relevel
  simp only [↓State.kept_rules, ite_self, dite_eq_ite, ↓restripeDown_kept, ↓State.linkUp_kept, ↓State.linkDown_kept]

theorem restoreLoop_kept (tx : Bool) (x1 : ℕ) (x2 : State) (x3 : ℕ) : (restoreLoop tx x1 x2 x3).1.kept = x2.kept := by
  induction x1 generalizing x2 x3 with
  | zero => unfold restoreLoop; rfl
  | succ n ih =>
    unfold restoreLoop
    try simp only [↓State.kept_rules, ite_self, dite_eq_ite, ↓markShed_kept, ↓ih]
    repeat' (first | rfl | (split <;> try simp only [↓State.kept_rules, ite_self, dite_eq_ite, ↓markShed_kept, ↓ih]))

theorem restripeUp_kept (s : State) (tx : Bool) : (restripeUp s tx).kept = s.kept := by
  unfold restripeUp
  simp only [↓State.kept_rules, ite_self, dite_eq_ite, ↓State.emitNow_kept, ↓restoreLoop_kept]

theorem unbindTx_kept (s : State) (f : ℕ) : (unbindTx s f).kept = s.kept := by
  unfold unbindTx
  try simp only [↓State.kept_rules, ite_self, dite_eq_ite]
  repeat'
    first
    | with_reducible rfl
    | ((with_reducible refine (State.kept_foldl _ (fun s a => ?_) _ _).trans ?_) <;>
        try simp only [↓State.kept_rules, ite_self, dite_eq_ite])
    | (split <;> try simp only [↓State.kept_rules, ite_self, dite_eq_ite])
    | rfl

theorem endRx_kept (s : State) (f : ℕ) : (endRx s f).kept = s.kept := by
  unfold endRx
  try simp only [↓State.kept_rules, ite_self, dite_eq_ite]
  repeat'
    first
    | with_reducible rfl
    | ((with_reducible refine (State.kept_foldl _ (fun s a => ?_) _ _).trans ?_) <;>
        try simp only [↓State.kept_rules, ite_self, dite_eq_ite])
    | (split <;> try simp only [↓State.kept_rules, ite_self, dite_eq_ite])
    | rfl

theorem bindTx_kept (s : State) (f : ℕ) (src : FlowSrc) (charge : ℕ) (shed : Bool) : (bindTx s f src charge shed).kept
    = s.kept := by
  unfold bindTx
  try simp only [↓State.kept_rules, ite_self, dite_eq_ite]
  repeat'
    first
    | with_reducible rfl
    | ((with_reducible refine (State.kept_foldl _ (fun s a => ?_) _ _).trans ?_) <;>
        try simp only [↓State.kept_rules, ite_self, dite_eq_ite])
    | (split <;> try simp only [↓State.kept_rules, ite_self, dite_eq_ite])
    | rfl

theorem rebindRx_kept (s : State) (f : ℕ) (src : FlowSrc) (charge : ℕ) (shed : Bool) (eff : ℕ) : (rebindRx s f src
    charge shed eff).kept = s.kept := by
  unfold rebindRx
  try simp only [↓State.kept_rules, ite_self, dite_eq_ite]
  repeat'
    first
    | with_reducible rfl
    | ((with_reducible refine (State.kept_foldl _ (fun s a => ?_) _ _).trans ?_) <;>
        try simp only [↓State.kept_rules, ite_self, dite_eq_ite])
    | (split <;> try simp only [↓State.kept_rules, ite_self, dite_eq_ite])
    | rfl

theorem State.laneUps_kept (s : State) (m : ℕ) : (State.laneUps s m).kept = s.kept := by
  unfold State.laneUps
  simp only [↓State.kept_rules, State.kept_foldl, State.kept_foldl_fst, State.kept_foldl_snd, implies_true, ite_self,
    dite_eq_ite, ↓State.emitNow_kept]

theorem State.setActive_kept (s : State) (m : BitVec 16) : (State.setActive s m).kept = s.kept := by
  unfold State.setActive
  simp only [↓State.kept_rules, ite_self, dite_eq_ite, ↓State.checkStart_kept, ↓restripeDown_kept, ↓State.relevel_kept,
    ↓restripeUp_kept, ↓State.laneUps_kept]

theorem State.laneFail_kept (s : State) (l : Fin 16) (cause : ℕ) : (State.laneFail s l cause).kept = s.kept := by
  unfold State.laneFail
  simp only [↓State.kept_rules, ite_self, dite_eq_ite, ↓State.modLane_kept, ↓State.laneFailEvt_kept]

theorem State.setRxActive_kept (s : State) (m : BitVec 16) : (State.setRxActive s m).kept = s.kept := by
  unfold State.setRxActive
  simp only [↓State.kept_rules, ite_self, dite_eq_ite, ↓restripeDown_kept, ↓restripeUp_kept]

end Sys2Proof.Machine
end

