-- ==== Sys2Proof/Laws/KeptPackets.lean ====
section
/-! SUPPORT. The queue and the one-time programmable memory under the operations of Machine/Packets.lean. -/

set_option linter.all false

namespace Sys2Proof.Machine

theorem State.formPacket_kept (s : State) (f : Fin 64) (type : BitVec 8) (fmt : BitVec 8) (aper : BitVec 8) (flags :
    BitVec 8) (time : ℕ) (payload : List Byte) : (State.formPacket s f type fmt aper flags time payload).kept = s.kept
    := by
  unfold State.formPacket
  simp only [↓State.kept_rules, ite_self, dite_eq_ite]

theorem State.closePend_kept (s : State) (f : Fin 64) (sub : List Byte) : (State.closePend s f sub).kept = s.kept :=
    by
  unfold State.closePend
  try simp only [↓State.kept_rules, ite_self, dite_eq_ite, ↓State.formPacket_kept]
  repeat'
    first
    | with_reducible rfl
    | ((with_reducible refine (State.kept_foldl _ (fun s a => ?_) _ _).trans ?_) <;>
        try simp only [↓State.kept_rules, ite_self, dite_eq_ite, ↓State.formPacket_kept])
    | (split <;> try simp only [↓State.kept_rules, ite_self, dite_eq_ite, ↓State.formPacket_kept])
    | rfl

theorem State.pendPush_kept (s : State) (f : Fin 64) (new : Pend) (item : List Cplx) (fl : BitVec 8) (last : Option
    (List Byte)) : (State.pendPush s f new item fl last).kept = s.kept := by
  unfold State.pendPush
  try simp only [↓State.kept_rules, ite_self, dite_eq_ite, ↓State.closePend_kept]
  repeat'
    first
    | with_reducible rfl
    | ((with_reducible refine (State.kept_foldl _ (fun s a => ?_) _ _).trans ?_) <;>
        try simp only [↓State.kept_rules, ite_self, dite_eq_ite, ↓State.closePend_kept])
    | (split <;> try simp only [↓State.kept_rules, ite_self, dite_eq_ite, ↓State.closePend_kept])
    | rfl

theorem State.sendRow_kept (s : State) (ctl : Bool) (blocks : List (List Byte)) : (State.sendRow s ctl blocks).kept =
    s.kept := by
  unfold State.sendRow
  simp only [↓State.kept_rules, ite_self, dite_eq_ite]

theorem State.sendIdleRow_kept (s : State) : (State.sendIdleRow s).kept = s.kept := by
  unfold State.sendIdleRow
  simp only [↓State.kept_rules, ite_self, dite_eq_ite, ↓State.sendRow_kept]

theorem State.layRows_kept (s : State) : (State.layRows s).kept = s.kept := by
  unfold State.layRows
  simp only [↓State.kept_rules, State.kept_foldl, State.kept_foldl_fst, State.kept_foldl_snd, implies_true, ite_self,
    dite_eq_ite, ↓State.sendRow_kept, ↓State.sendIdleRow_kept]

theorem State.sendMarkers_kept (s : State) : (State.sendMarkers s).kept = s.kept := by
  unfold State.sendMarkers
  simp only [↓State.kept_rules, ite_self, dite_eq_ite]

end Sys2Proof.Machine
end

