-- ==== Sys2Proof/Laws/KeptRadioOps.lean ====
section
/-! SUPPORT. The queue and the one-time programmable memory under the operations of Machine/RadioOps.lean. -/

set_option linter.all false

namespace Sys2Proof.Machine

theorem State.modQueue_kept (s : State) (q : Fin 9) (f : ActQueue → ActQueue) : (State.modQueue s q f).kept = s.kept
    := by
  unfold State.modQueue
  simp only [↓State.kept_rules, ite_self, dite_eq_ite]

theorem State.modPath_kept (s : State) (p : Fin 64) (f : Path → Path) : (State.modPath s p f).kept = s.kept := by
  unfold State.modPath
  simp only [↓State.kept_rules, ite_self, dite_eq_ite]

theorem State.keepOutcome_kept (s : State) (h : BitVec 16) (code : BitVec 8) (q : Fin 9) (t : Time) :
    (State.keepOutcome s h code q t).kept = s.kept := by
  unfold State.keepOutcome
  simp only [↓State.kept_rules, ite_self, dite_eq_ite]

theorem State.dropAct_kept (s : State) (q : Fin 9) (h : BitVec 16) : (State.dropAct s q h).kept = s.kept := by
  unfold State.dropAct
  simp only [↓State.kept_rules, ite_self, dite_eq_ite, ↓State.modQueue_kept]

theorem State.actionDone_kept (s : State) (q : Fin 9) (h : BitVec 16) (kind : ℕ) (t : Time) (st : BitVec 8) (eff :
    Time) : (State.actionDone s q h kind t st eff).kept = s.kept := by
  unfold State.actionDone
  simp only [↓State.kept_rules, ite_self, dite_eq_ite, ↓State.emit_kept]

theorem State.finishAct_kept (s : State) (q : Fin 9) (a : QAct) (st : BitVec 8) (eff : Time) : (State.finishAct s q a
    st eff).kept = s.kept := by
  unfold State.finishAct
  simp only [↓State.kept_rules, ite_self, dite_eq_ite, ↓State.modQueue_kept, ↓State.keepOutcome_kept,
    ↓State.dropAct_kept, ↓State.actionDone_kept]

theorem State.modRadio_kept (s : State) (t : Fin 8) (f : Radio → Radio) : (State.modRadio s t f).kept = s.kept := by
  unfold State.modRadio
  simp only [↓State.kept_rules, ite_self, dite_eq_ite]

theorem State.startTransit_kept (s : State) (t : Fin 8) (at_ : ℕ) (tgt : RState) (till : ℕ) (d : Option ActRec) :
    (State.startTransit s t at_ tgt till d).kept = s.kept := by
  unfold State.startTransit
  simp only [↓State.kept_rules, ite_self, dite_eq_ite, ↓State.modRadio_kept]

theorem State.lockUp_kept (s : State) (t : Fin 8) (at_ : ℕ) : (State.lockUp s t at_).kept = s.kept := by
  unfold State.lockUp
  try simp only [↓State.kept_rules, ite_self, dite_eq_ite, ↓State.modRadio_kept, ↓State.modPll_kept]
  repeat'
    first
    | with_reducible rfl
    | ((with_reducible refine (State.kept_foldl _ (fun s a => ?_) _ _).trans ?_) <;>
        try simp only [↓State.kept_rules, ite_self, dite_eq_ite, ↓State.modRadio_kept, ↓State.modPll_kept])
    | (split <;> try simp only [↓State.kept_rules, ite_self, dite_eq_ite, ↓State.modRadio_kept, ↓State.modPll_kept])
    | rfl

theorem State.noteMutes_kept (s : State) : (State.noteMutes s).kept = s.kept := by
  unfold State.noteMutes
  simp only [↓State.kept_rules, ite_self, dite_eq_ite]

theorem State.burstEnd_kept (s : State) (t : Fin 8) : (State.burstEnd s t).kept = s.kept := by
  unfold State.burstEnd
  try simp only [↓State.kept_rules, ite_self, dite_eq_ite, ↓State.emit_kept, ↓State.modRadio_kept]
  repeat'
    first
    | with_reducible rfl
    | ((with_reducible refine (State.kept_foldl _ (fun s a => ?_) _ _).trans ?_) <;>
        try simp only [↓State.kept_rules, ite_self, dite_eq_ite, ↓State.emit_kept, ↓State.modRadio_kept])
    | (split <;> try simp only [↓State.kept_rules, ite_self, dite_eq_ite, ↓State.emit_kept, ↓State.modRadio_kept])
    | rfl

theorem State.arrive_kept (s : State) (t : Fin 8) : (State.arrive s t).kept = s.kept := by
  unfold State.arrive
  try simp only [↓State.kept_rules, ite_self, dite_eq_ite, ↓State.actionDone_kept, ↓State.modRadio_kept,
    ↓State.startTransit_kept, ↓State.modPll_kept, ↓State.lockUp_kept, ↓State.noteMutes_kept, ↓State.burstEnd_kept]
  repeat'
    first
    | with_reducible rfl
    | ((with_reducible refine (State.kept_foldl _ (fun s a => ?_) _ _).trans ?_) <;>
        try simp only [↓State.kept_rules, ite_self, dite_eq_ite, ↓State.actionDone_kept, ↓State.modRadio_kept,
        ↓State.startTransit_kept, ↓State.modPll_kept, ↓State.lockUp_kept, ↓State.noteMutes_kept, ↓State.burstEnd_kept])
    | (split <;> try simp only [↓State.kept_rules, ite_self, dite_eq_ite, ↓State.actionDone_kept, ↓State.modRadio_kept,
        ↓State.startTransit_kept, ↓State.modPll_kept, ↓State.lockUp_kept, ↓State.noteMutes_kept, ↓State.burstEnd_kept])
    | rfl

theorem State.goHome_kept (s : State) (t : Fin 8) (at_ : ℕ) : (State.goHome s t at_).kept = s.kept := by
  unfold State.goHome
  simp only [↓State.kept_rules, ite_self, dite_eq_ite, ↓State.startTransit_kept, ↓State.arrive_kept]

theorem State.modRes_kept (s : State) (t : Fin 8) (f : TileRes → TileRes) : (State.modRes s t f).kept = s.kept := by
  unfold State.modRes
  simp only [↓State.kept_rules, ite_self, dite_eq_ite]

theorem State.takeAct_kept (s : State) (q : Fin 9) (a : QAct) : (State.takeAct s q a).kept = s.kept := by
  unfold State.takeAct
  simp only [↓State.kept_rules, ite_self, dite_eq_ite, ↓State.keepOutcome_kept, ↓State.dropAct_kept]

theorem State.endBurst_kept (s : State) (t : Fin 8) (at_ : ℕ) (cut : Bool) : (State.endBurst s t at_ cut).kept =
    s.kept := by
  unfold State.endBurst
  try simp only [↓State.kept_rules, ite_self, dite_eq_ite, ↓State.modRadio_kept]
  repeat'
    first
    | with_reducible rfl
    | ((with_reducible refine (State.kept_foldl _ (fun s a => ?_) _ _).trans ?_) <;>
        try simp only [↓State.kept_rules, ite_self, dite_eq_ite, ↓State.modRadio_kept])
    | (split <;> try simp only [↓State.kept_rules, ite_self, dite_eq_ite, ↓State.modRadio_kept])
    | rfl

theorem State.cutBurst_kept (s : State) (t : Fin 8) (at_ : ℕ) : (State.cutBurst s t at_).kept = s.kept := by
  unfold State.cutBurst
  try simp only [↓State.kept_rules, ite_self, dite_eq_ite, ↓State.endBurst_kept]
  repeat'
    first
    | with_reducible rfl
    | ((with_reducible refine (State.kept_foldl _ (fun s a => ?_) _ _).trans ?_) <;>
        try simp only [↓State.kept_rules, ite_self, dite_eq_ite, ↓State.endBurst_kept])
    | (split <;> try simp only [↓State.kept_rules, ite_self, dite_eq_ite, ↓State.endBurst_kept])
    | rfl

theorem State.takeRadioState_kept (s : State) (t : Fin 8) (a : QAct) (tgt : RState) (dwell : ℕ) : Take.Keeps s
    (State.takeRadioState s t a tgt dwell) := by
  unfold State.takeRadioState
  simp only [↓State.kept_rules, ↓Take.keeps_rules, ite_self, dite_eq_ite, ↓State.modRadio_kept,
    ↓State.startTransit_kept, ↓State.arrive_kept, ↓State.takeAct_kept, ↓State.cutBurst_kept]

theorem State.glideFallback_kept (s : State) (t : Fin 8) (target : ℕ) (start : ℕ) : (State.glideFallback s t target
    start).kept = s.kept := by
  unfold State.glideFallback
  simp only [↓State.kept_rules, ite_self, dite_eq_ite, ↓State.emitNow_kept, ↓State.modRadio_kept, ↓State.modPll_kept]

theorem State.glideStep_kept (s : State) (t : Fin 8) (base : ℕ) (target : ℕ) (left : ℕ) (start : ℕ) : (State.glideStep
    s t base target left start).kept = s.kept := by
  unfold State.glideStep
  simp only [↓State.kept_rules, ite_self, dite_eq_ite, ↓State.modRadio_kept, ↓State.glideFallback_kept]

theorem State.takeRetune_kept (s : State) (t : Fin 8) (a : QAct) (fc : ℕ) (mode : RetuneMode) : Take.Keeps s
    (State.takeRetune s t a fc mode) := by
  unfold State.takeRetune
  try simp only [↓State.kept_rules, ↓Take.keeps_rules, ite_self, dite_eq_ite, ↓State.finishAct_kept,
    ↓State.modRadio_kept, ↓State.modPll_kept, ↓State.modRes_kept, ↓State.glideStep_kept]
  repeat'
    first
    | with_reducible rfl
    | ((with_reducible refine (State.kept_foldl _ (fun s a => ?_) _ _).trans ?_) <;>
        try simp only [↓State.kept_rules, ↓Take.keeps_rules, ite_self, dite_eq_ite, ↓State.finishAct_kept,
        ↓State.modRadio_kept, ↓State.modPll_kept, ↓State.modRes_kept, ↓State.glideStep_kept])
    | (split <;> try simp only [↓State.kept_rules, ↓Take.keeps_rules, ite_self, dite_eq_ite, ↓State.finishAct_kept,
        ↓State.modRadio_kept, ↓State.modPll_kept, ↓State.modRes_kept, ↓State.glideStep_kept])
    | rfl

theorem State.takeTxBurst_kept (s : State) (t : Fin 8) (a : QAct) (len : ℕ) : Take.Keeps s (State.takeTxBurst s t a
    len) := by
  unfold State.takeTxBurst
  simp only [↓State.kept_rules, ↓Take.keeps_rules, ite_self, dite_eq_ite, ↓State.modRadio_kept,
    ↓State.startTransit_kept, ↓State.takeAct_kept, ↓State.cutBurst_kept]

theorem State.loConfirm_kept (s : State) (t : Fin 8) : (State.loConfirm s t).kept = s.kept := by
  unfold State.loConfirm
  simp only [↓State.kept_rules, ite_self, dite_eq_ite, ↓State.modRadio_kept]

end Sys2Proof.Machine
end

