-- ==== Sys2Proof/Laws/KeptPdOps.lean ====
section
/-! SUPPORT. The queue and the one-time programmable memory under the operations of Machine/PdOps.lean. -/

set_option linter.all false

namespace Sys2Proof.Machine

theorem State.modPdTile_kept (s : State) (t : Fin 8) (f : PdTile → PdTile) : (State.modPdTile s t f).kept = s.kept :=
    by
  unfold State.modPdTile
  simp only [↓State.kept_rules, ite_self, dite_eq_ite]

theorem State.pdStale_kept (s : State) (p : Fin 64) : (State.pdStale s p).kept = s.kept := by
  unfold State.pdStale
  simp only [↓State.kept_rules, ite_self, dite_eq_ite, ↓State.modPdTile_kept]

theorem State.modPd_kept (s : State) (p : Fin 64) (f : PdPath → PdPath) : (State.modPd s p f).kept = s.kept := by
  unfold State.modPd
  simp only [↓State.kept_rules, ite_self, dite_eq_ite]

theorem State.pdGainChanged_kept (s : State) (p : Fin 64) : (State.pdGainChanged s p).kept = s.kept := by
  unfold State.pdGainChanged
  simp only [↓State.kept_rules, ite_self, dite_eq_ite, ↓State.modPdTile_kept, ↓State.pdStale_kept, ↓State.modPd_kept]

theorem State.pdBoundary_kept (s : State) (p : Fin 64) : (State.pdBoundary s p).kept = s.kept := by
  unfold State.pdBoundary
  try simp only [↓State.kept_rules, ite_self, dite_eq_ite, ↓State.modPd_kept, ↓State.pdGainChanged_kept,
    ↓State.modPath_kept, ↓State.emitNow_kept]
  repeat'
    first
    | with_reducible rfl
    | ((with_reducible refine (State.kept_foldl _ (fun s a => ?_) _ _).trans ?_) <;>
        try simp only [↓State.kept_rules, ite_self, dite_eq_ite, ↓State.modPd_kept, ↓State.pdGainChanged_kept,
        ↓State.modPath_kept, ↓State.emitNow_kept])
    | (split <;> try simp only [↓State.kept_rules, ite_self, dite_eq_ite, ↓State.modPd_kept, ↓State.pdGainChanged_kept,
        ↓State.modPath_kept, ↓State.emitNow_kept])
    | rfl

theorem State.pdTileBoundary_kept (s : State) (t : Fin 8) : (State.pdTileBoundary s t).kept = s.kept := by
  unfold State.pdTileBoundary
  simp only [↓State.kept_rules, State.kept_foldl, State.kept_foldl_fst, State.kept_foldl_snd, implies_true, ite_self,
    dite_eq_ite, ↓State.modPdTile_kept, ↓State.pdBoundary_kept]

theorem State.orxServe_kept (s : State) (t : Fin 8) : (State.orxServe s t).kept = s.kept := by
  unfold State.orxServe
  try simp only [↓State.kept_rules, ite_self, dite_eq_ite, ↓State.modRes_kept]
  repeat'
    first
    | with_reducible rfl
    | ((with_reducible refine (State.kept_foldl _ (fun s a => ?_) _ _).trans ?_) <;>
        try simp only [↓State.kept_rules, ite_self, dite_eq_ite, ↓State.modRes_kept])
    | (split <;> try simp only [↓State.kept_rules, ite_self, dite_eq_ite, ↓State.modRes_kept])
    | rfl

theorem State.setPd_kept (s : State) (p : Fin 64) (st : PdState) : (State.setPd s p st).kept = s.kept := by
  unfold State.setPd
  simp only [↓State.kept_rules, ite_self, dite_eq_ite, ↓State.modPd_kept, ↓State.emitNow_kept]

theorem State.pdRefresh_kept (s : State) (t : Fin 8) : (State.pdRefresh s t).kept = s.kept := by
  unfold State.pdRefresh
  simp only [↓State.kept_rules, State.kept_foldl, State.kept_foldl_fst, State.kept_foldl_snd, implies_true, ite_self,
    dite_eq_ite, ↓State.setPd_kept]

theorem State.kernelStop_kept (s : State) (t : Fin 8) (reason : ℕ) : (State.kernelStop s t reason).kept = s.kept := by
  unfold State.kernelStop
  simp only [↓State.kept_rules, ite_self, dite_eq_ite, ↓State.emitNow_kept]

theorem State.reach_kept (s : State) (t : Fin 8) : (State.reach s t).kept = s.kept := by
  unfold State.reach
  simp only [↓State.kept_rules, ite_self, dite_eq_ite, ↓State.pdTileBoundary_kept, ↓State.arrive_kept,
    ↓State.orxServe_kept]

end Sys2Proof.Machine
end

