-- ==== Sys2Proof/Laws/KeptAqOps.lean ====
section
/-! SUPPORT. The queue and the one-time programmable memory under the operations of Machine/AqOps.lean. -/

set_option linter.all false

namespace Sys2Proof.Machine

theorem State.closeBound_kept (s : State) (w : Fin 64) (t : Time) : (State.closeBound s w t).kept = s.kept := by
  unfold State.closeBound
  simp only [↓State.kept_rules, ite_self, dite_eq_ite]

theorem State.modCh_kept (s : State) (c : Fin 16) (f : AqChan → AqChan) : (State.modCh s c f).kept = s.kept := by
  unfold State.modCh
  simp only [↓State.kept_rules, ite_self, dite_eq_ite]

theorem State.chCut_kept (s : State) (c : Fin 16) (after : ChState) : (State.chCut s c after).kept = s.kept := by
  unfold State.chCut
  simp only [↓State.kept_rules, ite_self, dite_eq_ite, ↓State.modCh_kept]

theorem State.chSourceLost_kept (s : State) (c : Fin 16) : (State.chSourceLost s c).kept = s.kept := by
  unfold State.chSourceLost
  simp only [↓State.kept_rules, ite_self, dite_eq_ite, ↓State.emitNow_kept, ↓State.chCut_kept]

theorem State.sourcesLost_kept (s : State) (p : AqChan → Bool) : (State.sourcesLost s p).kept = s.kept := by
  unfold State.sourcesLost
  simp only [↓State.kept_rules, State.kept_foldl, State.kept_foldl_fst, State.kept_foldl_snd, implies_true, ite_self,
    dite_eq_ite, ↓State.chSourceLost_kept]

theorem State.arm_kept (s : State) (mask : BitVec 16) (w : Option (Fin 64)) : (State.arm s mask w).kept = s.kept := by
  unfold State.arm
  simp only [↓State.kept_rules, ite_self, dite_eq_ite]

theorem State.softFire_kept (s : State) (mask : BitVec 16) (code : ℕ) (t : Time) : (State.softFire s mask code t).kept
    = s.kept := by
  unfold State.softFire
  simp only [↓State.kept_rules, ite_self, dite_eq_ite]

theorem State.rehorizon_kept (s : State) : (State.rehorizon s).kept = s.kept := by
  unfold State.rehorizon
  simp only [↓State.kept_rules, ite_self, dite_eq_ite]

theorem State.levelSample_kept (s : State) (kind : ℕ) (index : ℕ) (period : ℕ) (v : TSample) : (State.levelSample s
    kind index period v).kept = s.kept := by
  unfold State.levelSample
  simp only [↓State.kept_rules, ite_self, dite_eq_ite]

theorem State.storeWrite_kept (s : State) (a : ℕ) (bs : List Byte) : (State.storeWrite s a bs).kept = s.kept := by
  unfold State.storeWrite
  simp only [↓State.kept_rules, ite_self, dite_eq_ite]

theorem State.putIq_kept (s : State) (x1 : AqChan) (slot : ℕ) (n : ℕ) (v : Cplx) : (State.putIq s x1 slot n v).kept =
    s.kept := by
  unfold State.putIq
  simp only [↓State.kept_rules, ite_self, dite_eq_ite, ↓State.storeWrite_kept]

theorem State.streamThrough_kept (s : State) (c : Fin 16) (r : Record) (v : TSample) : (State.streamThrough s c r
    v).kept = s.kept := by
  unfold State.streamThrough
  try simp only [↓State.kept_rules, ite_self, dite_eq_ite, ↓State.pendPush_kept]
  repeat'
    first
    | with_reducible rfl
    | ((with_reducible refine (State.kept_foldl _ (fun s a => ?_) _ _).trans ?_) <;>
        try simp only [↓State.kept_rules, ite_self, dite_eq_ite, ↓State.pendPush_kept])
    | (split <;> try simp only [↓State.kept_rules, ite_self, dite_eq_ite, ↓State.pendPush_kept])
    | rfl

theorem State.aqSample_kept (s : State) (c : Fin 16) (v : TSample) : (State.aqSample s c v).kept = s.kept := by
  unfold State.aqSample
  try simp only [↓State.kept_rules, ite_self, dite_eq_ite, ↓State.modCh_kept, ↓State.storeWrite_kept, ↓State.putIq_kept,
    ↓State.streamThrough_kept]
  repeat'
    first
    | with_reducible rfl
    | ((with_reducible refine (State.kept_foldl _ (fun s a => ?_) _ _).trans ?_) <;>
        try simp only [↓State.kept_rules, ite_self, dite_eq_ite, ↓State.modCh_kept, ↓State.storeWrite_kept, ↓State.putIq_kept,
        ↓State.streamThrough_kept])
    | (split <;> try simp only [↓State.kept_rules, ite_self, dite_eq_ite, ↓State.modCh_kept, ↓State.storeWrite_kept, ↓State.putIq_kept,
        ↓State.streamThrough_kept])
    | rfl

theorem State.chAperCut_kept (s : State) (c : Fin 16) (last : ℕ) (first : ℕ) : (State.chAperCut s c last first).kept =
    s.kept := by
  unfold State.chAperCut
  simp only [↓State.kept_rules, ite_self, dite_eq_ite, ↓State.modCh_kept]

theorem State.pulseRoutes_kept (s : State) (kind : ℕ) (index : ℕ) : (State.pulseRoutes s kind index).kept = s.kept :=
    by
  unfold State.pulseRoutes
  simp only [↓State.kept_rules, ite_self, dite_eq_ite]

theorem State.fire_kept (s : State) (code : ℕ) (idx : ℕ) (t : Time) (set : ℕ) : (State.fire s code idx t set).kept =
    s.kept := by
  unfold State.fire
  simp only [↓State.kept_rules, ite_self, dite_eq_ite, ↓State.pulseRoutes_kept]

theorem State.beginRecord_kept (s : State) (c : Fin 16) (u : Fin 16) (f : Firing) : (State.beginRecord s c u f).kept =
    s.kept := by
  unfold State.beginRecord
  simp only [↓State.kept_rules, State.kept_foldl, State.kept_foldl_fst, State.kept_foldl_snd, implies_true, ite_self,
    dite_eq_ite, ↓State.modCh_kept, ↓State.streamThrough_kept]

theorem State.missTrig_kept (s : State) (c : Fin 16) (t : Time) (set : ℕ) : (State.missTrig s c t set).kept = s.kept
    := by
  unfold State.missTrig
  simp only [↓State.kept_rules, ite_self, dite_eq_ite, ↓State.emitSet_kept, ↓State.modCh_kept]

theorem State.chTrigger_kept (s : State) (c : Fin 16) (u : Fin 16) (f : Firing) : (State.chTrigger s c u f).kept =
    s.kept := by
  unfold State.chTrigger
  try simp only [↓State.kept_rules, ite_self, dite_eq_ite, ↓State.modCh_kept, ↓State.beginRecord_kept,
    ↓State.missTrig_kept]
  repeat'
    first
    | with_reducible rfl
    | ((with_reducible refine (State.kept_foldl _ (fun s a => ?_) _ _).trans ?_) <;>
        try simp only [↓State.kept_rules, ite_self, dite_eq_ite, ↓State.modCh_kept, ↓State.beginRecord_kept,
        ↓State.missTrig_kept])
    | (split <;> try simp only [↓State.kept_rules, ite_self, dite_eq_ite, ↓State.modCh_kept, ↓State.beginRecord_kept,
        ↓State.missTrig_kept])
    | rfl

theorem State.unitFire_kept (s : State) (u : Fin 16) (f : Firing) : (State.unitFire s u f).kept = s.kept := by
  unfold State.unitFire
  simp only [↓State.kept_rules, State.kept_foldl, State.kept_foldl_fst, State.kept_foldl_snd, implies_true, ite_self,
    dite_eq_ite, ↓State.emitSet_kept, ↓State.pulseRoutes_kept, ↓State.chTrigger_kept]

end Sys2Proof.Machine
end

