-- ==== Sys2Proof/Laws/KeptAcquisition.lean ====
section
/-! SUPPORT. The queue and the one-time programmable memory under the operations of Machine/Acquisition.lean. -/

set_option linter.all false

namespace Sys2Proof.Machine

theorem execAqSoftTrig_kept (h : CmdHdr) (units : BitVec 16) (s : State) : Keeps s (execAqSoftTrig h units s) := by
  unfold execAqSoftTrig
  simp only [↓State.kept_rules, ↓keeps_rules, implies_true, ite_self, dite_eq_ite, ↓serve_kept, ↓State.softFire_kept,
    ↓doneR_kept]

theorem execLevelCrossing_kept (lv : Fin 16) (s : State) : Keeps s (execLevelCrossing lv s) := by
  unfold execLevelCrossing
  try simp only [↓State.kept_rules, ↓keeps_rules, ite_self, dite_eq_ite, ↓State.fire_kept]
  repeat'
    first
    | with_reducible rfl
    | ((with_reducible refine (State.kept_foldl _ (fun s a => ?_) _ _).trans ?_) <;>
        try simp only [↓State.kept_rules, ↓keeps_rules, ite_self, dite_eq_ite, ↓State.fire_kept])
    | (split <;> try simp only [↓State.kept_rules, ↓keeps_rules, ite_self, dite_eq_ite, ↓State.fire_kept])
    | rfl

theorem execAqBudgetGet_kept (h : CmdHdr) (s : State) : Keeps s (execAqBudgetGet h s) := by
  unfold execAqBudgetGet
  simp only [↓State.kept_rules, ↓keeps_rules, implies_true, ite_self, dite_eq_ite, ↓serve_kept, ↓doneR_kept]

theorem State.unconfigure_kept (s : State) (c : Fin 16) : (State.unconfigure s c).kept = s.kept := by
  unfold State.unconfigure
  simp only [↓State.kept_rules, ite_self, dite_eq_ite, ↓unbindRxIf_kept, ↓State.modCh_kept]

theorem execRecordRearm_kept (c : Fin 16) (s : State) : Keeps s (execRecordRearm c s) := by
  unfold execRecordRearm
  try simp only [↓State.kept_rules, ↓keeps_rules, ite_self, dite_eq_ite, ↓State.emitNow_kept, ↓State.emitSet_kept,
    ↓State.modCh_kept]
  repeat'
    first
    | with_reducible rfl
    | ((with_reducible refine (State.kept_foldl _ (fun s a => ?_) _ _).trans ?_) <;>
        try simp only [↓State.kept_rules, ↓keeps_rules, ite_self, dite_eq_ite, ↓State.emitNow_kept, ↓State.emitSet_kept,
        ↓State.modCh_kept])
    | (split <;> try simp only [↓State.kept_rules, ↓keeps_rules, ite_self, dite_eq_ite, ↓State.emitNow_kept, ↓State.emitSet_kept,
        ↓State.modCh_kept])
    | rfl

theorem State.writeRecord_kept (s : State) (c : Fin 16) (x2 : AqChan) (r : Record) (st : Stored) (streamed : ℕ) :
    (State.writeRecord s c x2 r st streamed).2.kept = s.kept := by
  unfold State.writeRecord
  simp only [↓State.kept_rules, ite_self, dite_eq_ite, ↓State.storeWrite_kept]

theorem execTriggerFiringArrival_kept (u : Fin 16) (s : State) : Keeps s (execTriggerFiringArrival u s) := by
  unfold execTriggerFiringArrival
  try simp only [↓State.kept_rules, ↓keeps_rules, ite_self, dite_eq_ite, ↓State.unitFire_kept]
  repeat'
    first
    | with_reducible rfl
    | ((with_reducible refine (State.kept_foldl _ (fun s a => ?_) _ _).trans ?_) <;>
        try simp only [↓State.kept_rules, ↓keeps_rules, ite_self, dite_eq_ite, ↓State.unitFire_kept])
    | (split <;> try simp only [↓State.kept_rules, ↓keeps_rules, ite_self, dite_eq_ite, ↓State.unitFire_kept])
    | rfl

theorem execAqTriginCfg_kept (h : CmdHdr) (input : BitVec 8) (edges : BitVec 8) (s : State) : Keeps s (execAqTriginCfg
    h input edges s) := by
  unfold execAqTriginCfg
  refine ⟨_, rfl, serve_kept _ _ _ _ (fun u => ?_)⟩
  try simp only [↓State.kept_rules, ↓keeps_rules, implies_true, ite_self, dite_eq_ite, ↓refuse_kept, ↓serve_kept,
    ↓checks_kept, ↓done_kept]
  repeat'
    first
    | with_reducible rfl
    | ((refine checks_kept _ _ _ ?_) <;> try simp only [↓State.kept_rules, ↓keeps_rules, implies_true, ite_self, dite_eq_ite, ↓refuse_kept, ↓serve_kept,
        ↓checks_kept, ↓done_kept])
    | ((with_reducible refine (State.kept_foldl _ (fun s a => ?_) _ _).trans ?_) <;>
        try simp only [↓State.kept_rules, ↓keeps_rules, implies_true, ite_self, dite_eq_ite, ↓refuse_kept, ↓serve_kept,
        ↓checks_kept, ↓done_kept])
    | (split <;> try simp only [↓State.kept_rules, ↓keeps_rules, implies_true, ite_self, dite_eq_ite, ↓refuse_kept, ↓serve_kept,
        ↓checks_kept, ↓done_kept])
    | rfl

theorem execAqSegmentFree_kept (h : CmdHdr) (segment : BitVec 8) (s : State) : Keeps s (execAqSegmentFree h segment s)
    := by
  unfold execAqSegmentFree
  refine ⟨_, rfl, serve_kept _ _ _ _ (fun u => ?_)⟩
  try simp only [↓State.kept_rules, ↓keeps_rules, implies_true, ite_self, dite_eq_ite, ↓refuse_kept, ↓serve_kept,
    ↓checks_kept, ↓done_kept]
  repeat'
    first
    | with_reducible rfl
    | ((refine checks_kept _ _ _ ?_) <;> try simp only [↓State.kept_rules, ↓keeps_rules, implies_true, ite_self, dite_eq_ite, ↓refuse_kept, ↓serve_kept,
        ↓checks_kept, ↓done_kept])
    | ((with_reducible refine (State.kept_foldl _ (fun s a => ?_) _ _).trans ?_) <;>
        try simp only [↓State.kept_rules, ↓keeps_rules, implies_true, ite_self, dite_eq_ite, ↓refuse_kept, ↓serve_kept,
        ↓checks_kept, ↓done_kept])
    | (split <;> try simp only [↓State.kept_rules, ↓keeps_rules, implies_true, ite_self, dite_eq_ite, ↓refuse_kept, ↓serve_kept,
        ↓checks_kept, ↓done_kept])
    | rfl

theorem State.decidePairs_kept (s : State) (u : Fin 16) (x2 : ℕ) : (State.decidePairs s u x2).kept = s.kept := by
  induction x2 generalizing s with
  | zero => unfold State.decidePairs; rfl
  | succ n ih =>
    unfold State.decidePairs
    try simp only [↓State.kept_rules, ite_self, dite_eq_ite, ↓State.unitFire_kept, ↓ih]
    repeat' (first | rfl | (split <;> try simp only [↓State.kept_rules, ite_self, dite_eq_ite, ↓State.unitFire_kept, ↓ih]))

theorem execTuPairDecision_kept (u : Fin 16) (s : State) : Keeps s (execTuPairDecision u s) := by
  unfold execTuPairDecision
  simp only [↓State.kept_rules, ↓keeps_rules, ite_self, dite_eq_ite, ↓State.decidePairs_kept]

theorem execAqLevelCfg_kept (h : CmdHdr) (det : BitVec 8) (kind : BitVec 8) (index : BitVec 8) (w : BitVec 8) (thr :
    BitVec 16) (hys : BitVec 16) (dir : BitVec 8) (dwell : BitVec 16) (s : State) : Keeps s (execAqLevelCfg h det kind
    index w thr hys dir dwell s) := by
  unfold execAqLevelCfg
  refine ⟨_, rfl, serve_kept _ _ _ _ (fun u => ?_)⟩
  try simp only [↓State.kept_rules, ↓keeps_rules, implies_true, ite_self, dite_eq_ite, ↓refuse_kept, ↓serve_kept,
    ↓checks_kept, ↓done_kept, ↓State.rehorizon_kept]
  repeat'
    first
    | with_reducible rfl
    | ((refine checks_kept _ _ _ ?_) <;> try simp only [↓State.kept_rules, ↓keeps_rules, implies_true, ite_self, dite_eq_ite, ↓refuse_kept, ↓serve_kept,
        ↓checks_kept, ↓done_kept, ↓State.rehorizon_kept])
    | ((with_reducible refine (State.kept_foldl _ (fun s a => ?_) _ _).trans ?_) <;>
        try simp only [↓State.kept_rules, ↓keeps_rules, implies_true, ite_self, dite_eq_ite, ↓refuse_kept, ↓serve_kept,
        ↓checks_kept, ↓done_kept, ↓State.rehorizon_kept])
    | (split <;> try simp only [↓State.kept_rules, ↓keeps_rules, implies_true, ite_self, dite_eq_ite, ↓refuse_kept, ↓serve_kept,
        ↓checks_kept, ↓done_kept, ↓State.rehorizon_kept])
    | rfl

theorem execAqRetainSet_kept (h : CmdHdr) (units : BitVec 8) (s : State) : Keeps s (execAqRetainSet h units s) := by
  unfold execAqRetainSet
  simp only [↓State.kept_rules, ↓keeps_rules, implies_true, ite_self, dite_eq_ite, ↓serve_kept, ↓done_kept]

theorem execAqTrigoutCfg_kept (h : CmdHdr) (pin : BitVec 8) (owner : BitVec 8) (kind : BitVec 8) (index : BitVec 8)
    (polarity : BitVec 8) (width : BitVec 16) (s : State) : Keeps s (execAqTrigoutCfg h pin owner kind index polarity
    width s) := by
  unfold execAqTrigoutCfg
  refine ⟨_, rfl, serve_kept _ _ _ _ (fun u => ?_)⟩
  try simp only [↓State.kept_rules, ↓keeps_rules, implies_true, ite_self, dite_eq_ite, ↓refuse_kept, ↓serve_kept,
    ↓checks_kept, ↓done_kept]
  repeat'
    first
    | with_reducible rfl
    | ((refine checks_kept _ _ _ ?_) <;> try simp only [↓State.kept_rules, ↓keeps_rules, implies_true, ite_self, dite_eq_ite, ↓refuse_kept, ↓serve_kept,
        ↓checks_kept, ↓done_kept])
    | ((with_reducible refine (State.kept_foldl _ (fun s a => ?_) _ _).trans ?_) <;>
        try simp only [↓State.kept_rules, ↓keeps_rules, implies_true, ite_self, dite_eq_ite, ↓refuse_kept, ↓serve_kept,
        ↓checks_kept, ↓done_kept])
    | (split <;> try simp only [↓State.kept_rules, ↓keeps_rules, implies_true, ite_self, dite_eq_ite, ↓refuse_kept, ↓serve_kept,
        ↓checks_kept, ↓done_kept])
    | rfl

theorem execTrigOutPulseEnd_kept (pin : Fin 4) (s : State) : Keeps s (execTrigOutPulseEnd pin s) := by
  unfold execTrigOutPulseEnd
  try simp only [↓State.kept_rules, ↓keeps_rules, ite_self, dite_eq_ite]
  repeat'
    first
    | with_reducible rfl
    | ((with_reducible refine (State.kept_foldl _ (fun s a => ?_) _ _).trans ?_) <;>
        try simp only [↓State.kept_rules, ↓keeps_rules, ite_self, dite_eq_ite])
    | (split <;> try simp only [↓State.kept_rules, ↓keeps_rules, ite_self, dite_eq_ite])
    | rfl

theorem execRecordEnd_kept (c : Fin 16) (s : State) : Keeps s (execRecordEnd c s) := by
  unfold execRecordEnd
  try simp only [↓State.kept_rules, ↓keeps_rules, ite_self, dite_eq_ite, ↓State.modCh_kept, ↓State.closePend_kept,
    ↓State.writeRecord_kept]
  repeat'
    first
    | with_reducible rfl
    | ((with_reducible refine (State.kept_foldl _ (fun s a => ?_) _ _).trans ?_) <;>
        try simp only [↓State.kept_rules, ↓keeps_rules, ite_self, dite_eq_ite, ↓State.modCh_kept, ↓State.closePend_kept,
        ↓State.writeRecord_kept])
    | (split <;> try simp only [↓State.kept_rules, ↓keeps_rules, ite_self, dite_eq_ite, ↓State.modCh_kept, ↓State.closePend_kept,
        ↓State.writeRecord_kept])
    | rfl

theorem execAqSegmentDefine_kept (h : CmdHdr) (segment : BitVec 8) (base : BitVec 32) (length : BitVec 32) (slots :
    BitVec 16) (s : State) : Keeps s (execAqSegmentDefine h segment base length slots s) := by
  unfold execAqSegmentDefine
  refine ⟨_, rfl, serve_kept _ _ _ _ (fun u => ?_)⟩
  try simp only [↓State.kept_rules, ↓keeps_rules, implies_true, ite_self, dite_eq_ite, ↓refuse_kept, ↓serve_kept,
    ↓checks_kept, ↓done_kept]
  repeat'
    first
    | with_reducible rfl
    | ((refine checks_kept _ _ _ ?_) <;> try simp only [↓State.kept_rules, ↓keeps_rules, implies_true, ite_self, dite_eq_ite, ↓refuse_kept, ↓serve_kept,
        ↓checks_kept, ↓done_kept])
    | ((with_reducible refine (State.kept_foldl _ (fun s a => ?_) _ _).trans ?_) <;>
        try simp only [↓State.kept_rules, ↓keeps_rules, implies_true, ite_self, dite_eq_ite, ↓refuse_kept, ↓serve_kept,
        ↓checks_kept, ↓done_kept])
    | (split <;> try simp only [↓State.kept_rules, ↓keeps_rules, implies_true, ite_self, dite_eq_ite, ↓refuse_kept, ↓serve_kept,
        ↓checks_kept, ↓done_kept])
    | rfl

theorem execAqChanCfg_kept (h : CmdHdr) (channel : BitVec 8) (op : BitVec 8) (kind : BitVec 8) (index : BitVec 8)
    (segment : BitVec 8) (unit : BitVec 8) (pre : BitVec 32) (post : BitVec 32) (format : BitVec 8) (mode : BitVec 8)
    (reductions : BitVec 8) (bt : BitVec 8) (flow : BitVec 8) (s : State) : Keeps s (execAqChanCfg h channel op kind
    index segment unit pre post format mode reductions bt flow s) := by
  unfold execAqChanCfg
  refine ⟨_, rfl, serve_kept _ _ _ _ (fun u => ?_)⟩
  try simp only [↓State.kept_rules, ↓keeps_rules, implies_true, ite_self, dite_eq_ite, ↓refuse_kept, ↓serve_kept,
    ↓checks_kept, ↓bindRx_kept, ↓State.modCh_kept, ↓doneR_kept, ↓State.unconfigure_kept]
  repeat'
    first
    | with_reducible rfl
    | ((refine checks_kept _ _ _ ?_) <;> try simp only [↓State.kept_rules, ↓keeps_rules, implies_true, ite_self, dite_eq_ite, ↓refuse_kept, ↓serve_kept,
        ↓checks_kept, ↓bindRx_kept, ↓State.modCh_kept, ↓doneR_kept, ↓State.unconfigure_kept])
    | ((with_reducible refine (State.kept_foldl _ (fun s a => ?_) _ _).trans ?_) <;>
        try simp only [↓State.kept_rules, ↓keeps_rules, implies_true, ite_self, dite_eq_ite, ↓refuse_kept, ↓serve_kept,
        ↓checks_kept, ↓bindRx_kept, ↓State.modCh_kept, ↓doneR_kept, ↓State.unconfigure_kept])
    | (split <;> try simp only [↓State.kept_rules, ↓keeps_rules, implies_true, ite_self, dite_eq_ite, ↓refuse_kept, ↓serve_kept,
        ↓checks_kept, ↓bindRx_kept, ↓State.modCh_kept, ↓doneR_kept, ↓State.unconfigure_kept])
    | rfl

theorem execAqTrigCfg_kept (h : CmdHdr) (unit : BitVec 8) (aCode : BitVec 8) (aIdx : BitVec 8) (bCode : BitVec 8)
    (bIdx : BitVec 8) (op : BitVec 8) (limit : BitVec 32) (holdoff : BitVec 32) (evt : BitVec 8) (s : State) : Keeps s
    (execAqTrigCfg h unit aCode aIdx bCode bIdx op limit holdoff evt s) := by
  unfold execAqTrigCfg
  refine ⟨_, rfl, serve_kept _ _ _ _ (fun u => ?_)⟩
  try simp only [↓State.kept_rules, ↓keeps_rules, implies_true, ite_self, dite_eq_ite, ↓refuse_kept, ↓serve_kept,
    ↓checks_kept, ↓done_kept, ↓State.rehorizon_kept]
  repeat'
    first
    | with_reducible rfl
    | ((refine checks_kept _ _ _ ?_) <;> try simp only [↓State.kept_rules, ↓keeps_rules, implies_true, ite_self, dite_eq_ite, ↓refuse_kept, ↓serve_kept,
        ↓checks_kept, ↓done_kept, ↓State.rehorizon_kept])
    | ((with_reducible refine (State.kept_foldl _ (fun s a => ?_) _ _).trans ?_) <;>
        try simp only [↓State.kept_rules, ↓keeps_rules, implies_true, ite_self, dite_eq_ite, ↓refuse_kept, ↓serve_kept,
        ↓checks_kept, ↓done_kept, ↓State.rehorizon_kept])
    | (split <;> try simp only [↓State.kept_rules, ↓keeps_rules, implies_true, ite_self, dite_eq_ite, ↓refuse_kept, ↓serve_kept,
        ↓checks_kept, ↓done_kept, ↓State.rehorizon_kept])
    | rfl

theorem execAqArm_kept (h : CmdHdr) (chans : BitVec 16) (window : BitVec 8) (s : State) : Keeps s (execAqArm h chans
    window s) := by
  unfold execAqArm
  simp only [↓State.kept_rules, ↓keeps_rules, implies_true, ite_self, dite_eq_ite, ↓serve_kept, ↓checks_kept,
    ↓done_kept, ↓State.arm_kept]

theorem execAqDisarm_kept (h : CmdHdr) (chans : BitVec 16) (s : State) : Keeps s (execAqDisarm h chans s) := by
  unfold execAqDisarm
  simp only [↓State.kept_rules, ↓keeps_rules, State.kept_foldl, State.kept_foldl_fst, State.kept_foldl_snd,
    implies_true, ite_self, dite_eq_ite, ↓serve_kept, ↓done_kept, ↓State.chCut_kept]

theorem execAqStatus_kept (h : CmdHdr) (channel : BitVec 8) (s : State) : Keeps s (execAqStatus h channel s) := by
  unfold execAqStatus
  refine ⟨_, rfl, serve_kept _ _ _ _ (fun u => ?_)⟩
  try simp only [↓State.kept_rules, ↓keeps_rules, implies_true, ite_self, dite_eq_ite, ↓refuse_kept, ↓serve_kept,
    ↓doneR_kept]
  repeat'
    first
    | with_reducible rfl
    | ((refine checks_kept _ _ _ ?_) <;> try simp only [↓State.kept_rules, ↓keeps_rules, implies_true, ite_self, dite_eq_ite, ↓refuse_kept, ↓serve_kept,
        ↓doneR_kept])
    | ((with_reducible refine (State.kept_foldl _ (fun s a => ?_) _ _).trans ?_) <;>
        try simp only [↓State.kept_rules, ↓keeps_rules, implies_true, ite_self, dite_eq_ite, ↓refuse_kept, ↓serve_kept,
        ↓doneR_kept])
    | (split <;> try simp only [↓State.kept_rules, ↓keeps_rules, implies_true, ite_self, dite_eq_ite, ↓refuse_kept, ↓serve_kept,
        ↓doneR_kept])
    | rfl

end Sys2Proof.Machine
end

