-- ==== Sys2Proof/Laws/KeptCalOps.lean ====
section
/-! SUPPORT. The queue and the one-time programmable memory under the operations of Machine/CalOps.lean. -/

set_option linter.all false

namespace Sys2Proof.Machine

theorem State.modCal_kept (s : State) (t : Fin 8) (f : CalTile → CalTile) : (State.modCal s t f).kept = s.kept := by
  unfold State.modCal
  simp only [↓State.kept_rules, ite_self, dite_eq_ite]

theorem State.slotCancel_kept (s : State) (t : Fin 8) (h : BitVec 16) : (State.slotCancel s t h).kept = s.kept := by
  unfold State.slotCancel
  simp only [↓State.kept_rules, ite_self, dite_eq_ite, ↓State.dropAct_kept, ↓State.modCal_kept]

theorem State.clearMarks_kept (s : State) : (State.clearMarks s).kept = s.kept := by
  unfold State.clearMarks
  simp only [↓State.kept_rules, ite_self, dite_eq_ite]

theorem State.slotFree_kept (s : State) (t : Fin 8) : (State.slotFree s t).kept = s.kept := by
  unfold State.slotFree
  simp only [↓State.kept_rules, ite_self, dite_eq_ite, ↓State.clearMarks_kept, ↓State.modRes_kept]

theorem State.modPend_kept (s : State) (t : Fin 8) (k : CalKind) (f : CalPend → CalPend) : (State.modPend s t k
    f).kept = s.kept := by
  unfold State.modPend
  simp only [↓State.kept_rules, ite_self, dite_eq_ite, ↓State.modCal_kept]

theorem State.slotEnd_kept (s : State) (t : Fin 8) (complete : Bool) : (State.slotEnd s t complete).kept = s.kept :=
    by
  unfold State.slotEnd
  try simp only [↓State.kept_rules, ite_self, dite_eq_ite, ↓State.modCal_kept, ↓State.slotFree_kept,
    ↓State.modPend_kept]
  repeat'
    first
    | with_reducible rfl
    | ((with_reducible refine (State.kept_foldl _ (fun s a => ?_) _ _).trans ?_) <;>
        try simp only [↓State.kept_rules, ite_self, dite_eq_ite, ↓State.modCal_kept, ↓State.slotFree_kept,
        ↓State.modPend_kept])
    | (split <;> try simp only [↓State.kept_rules, ite_self, dite_eq_ite, ↓State.modCal_kept, ↓State.slotFree_kept,
        ↓State.modPend_kept])
    | rfl

theorem State.slotCut_kept (s : State) (t : Fin 8) : (State.slotCut s t).kept = s.kept := by
  unfold State.slotCut
  simp only [↓State.kept_rules, ite_self, dite_eq_ite, ↓State.modRadio_kept, ↓State.goHome_kept, ↓State.slotEnd_kept]

theorem State.slotYield_kept (s : State) (t : Fin 8) (p : CalSlotRun → Bool) : (State.slotYield s t p).kept = s.kept
    := by
  unfold State.slotYield
  simp only [↓State.kept_rules, State.kept_foldl, State.kept_foldl_fst, State.kept_foldl_snd, implies_true, ite_self,
    dite_eq_ite, ↓State.slotCancel_kept, ↓State.slotCut_kept]

theorem State.calYieldWin_kept (s : State) (w : Fin 64) (at_ : ℕ) : (State.calYieldWin s w at_).kept = s.kept := by
  unfold State.calYieldWin
  simp only [↓State.kept_rules, State.kept_foldl, State.kept_foldl_fst, State.kept_foldl_snd, implies_true, ite_self,
    dite_eq_ite, ↓State.slotYield_kept]

theorem State.markBus_kept (s : State) (src : Fin 64) (loop : Bool) (a : Fin 64 → Bool) (b : Fin 64 → Bool) (o : Fin 8
    → Bool) : (State.markBus s src loop a b o).kept = s.kept := by
  unfold State.markBus
  simp only [↓State.kept_rules, ite_self, dite_eq_ite]

theorem State.slotBus_kept (s : State) (t : Fin 8) (k : CalKind) (n : ℕ) : (State.slotBus s t k n).kept = s.kept := by
  unfold State.slotBus
  try simp only [↓State.kept_rules, ite_self, dite_eq_ite, ↓State.markBus_kept]
  repeat'
    first
    | with_reducible rfl
    | ((with_reducible refine (State.kept_foldl _ (fun s a => ?_) _ _).trans ?_) <;>
        try simp only [↓State.kept_rules, ite_self, dite_eq_ite, ↓State.markBus_kept])
    | (split <;> try simp only [↓State.kept_rules, ite_self, dite_eq_ite, ↓State.markBus_kept])
    | rfl

theorem State.slotBegin_kept (s : State) (t : Fin 8) (h : BitVec 16) : (State.slotBegin s t h).kept = s.kept := by
  unfold State.slotBegin
  try simp only [↓State.kept_rules, ite_self, dite_eq_ite, ↓State.modCal_kept, ↓State.modRes_kept, ↓State.orxServe_kept,
    ↓State.slotBus_kept]
  repeat'
    first
    | with_reducible rfl
    | ((with_reducible refine (State.kept_foldl _ (fun s a => ?_) _ _).trans ?_) <;>
        try simp only [↓State.kept_rules, ite_self, dite_eq_ite, ↓State.modCal_kept, ↓State.modRes_kept, ↓State.orxServe_kept,
        ↓State.slotBus_kept])
    | (split <;> try simp only [↓State.kept_rules, ite_self, dite_eq_ite, ↓State.modCal_kept, ↓State.modRes_kept, ↓State.orxServe_kept,
        ↓State.slotBus_kept])
    | rfl

theorem State.flashWrite_kept (s : State) (a : ℕ) (bs : List Byte) : (State.flashWrite s a bs).kept = s.kept := by
  unfold State.flashWrite
  simp only [↓State.kept_rules, ite_self, dite_eq_ite]

theorem State.calBoot_kept (s : State) : (State.calBoot s).kept = s.kept := by
  unfold State.calBoot
  simp only [↓State.kept_rules, ite_self, dite_eq_ite]

theorem State.flashErase_kept (s : State) (a : ℕ) (n : ℕ) : (State.flashErase s a n).kept = s.kept := by
  unfold State.flashErase
  simp only [↓State.kept_rules, ite_self, dite_eq_ite]

theorem State.firmwareDma_kept (s : State) (st : DmState) : (State.firmwareDma s st).kept = s.kept := by
  unfold State.firmwareDma
  simp only [↓State.kept_rules, ite_self, dite_eq_ite]

theorem State.storeEnd_kept (s : State) (st : BitVec 8) : (State.storeEnd s st).kept = s.kept := by
  unfold State.storeEnd
  try simp only [↓State.kept_rules, ite_self, dite_eq_ite, ↓State.emitNow_kept, ↓State.firmwareDma_kept]
  repeat'
    first
    | with_reducible rfl
    | ((with_reducible refine (State.kept_foldl _ (fun s a => ?_) _ _).trans ?_) <;>
        try simp only [↓State.kept_rules, ite_self, dite_eq_ite, ↓State.emitNow_kept, ↓State.firmwareDma_kept])
    | (split <;> try simp only [↓State.kept_rules, ite_self, dite_eq_ite, ↓State.emitNow_kept, ↓State.firmwareDma_kept])
    | rfl

theorem State.storeSector_kept (s : State) (r : StoreRun) : (State.storeSector s r).kept = s.kept := by
  unfold State.storeSector
  simp only [↓State.kept_rules, ite_self, dite_eq_ite, ↓State.flashErase_kept, ↓State.storeEnd_kept]

theorem State.calDone_kept (s : State) (t : Fin 8) (k : CalKind) (st : BitVec 8) (tm : BitVec 16) (failing : BitVec
    16) : (State.calDone s t k st tm failing).kept = s.kept := by
  unfold State.calDone
  simp only [↓State.kept_rules, ite_self, dite_eq_ite, ↓State.emitNow_kept, ↓State.modCal_kept]

theorem State.setHw_kept (s : State) (k : ℕ) (v : ℤ) : (State.setHw s k v).kept = s.kept := by
  unfold State.setHw
  simp only [↓State.kept_rules, ite_self, dite_eq_ite]

theorem State.setFreq_kept (s : State) (base : ℕ) (f : ℕ) : (State.setFreq s base f).kept = s.kept := by
  unfold State.setFreq
  simp only [↓State.kept_rules, State.kept_foldl, State.kept_foldl_fst, State.kept_foldl_snd, implies_true, ite_self,
    dite_eq_ite, ↓State.setHw_kept]

theorem State.needLo_kept (s : State) (t : Fin 8) (f : ℕ) : (State.needLo s t f).1.kept = s.kept := by
  unfold State.needLo
  cases s.loEntry t f
  · simp only [Option.elim, ↓State.kept_rules, ↓State.setFreq_kept]
  · rfl

theorem State.storePage_kept (s : State) (r : StoreRun) : (State.storePage s r).kept = s.kept := by
  unfold State.storePage
  simp only [↓State.kept_rules, ite_self, dite_eq_ite, ↓State.flashWrite_kept, ↓State.storeEnd_kept]

theorem State.calMove_kept (s : State) (base : ℕ) (stride : ℕ) (t : ℤ) (r : ℤ) : (State.calMove s base stride t
    r).kept = s.kept := by
  unfold State.calMove
  simp only [↓State.kept_rules, ite_self, dite_eq_ite, ↓State.setHw_kept]

theorem State.needEq_kept (s : State) (l : Fin 8) : (State.needEq s l).1.kept = s.kept := by
  unfold State.needEq
  cases s.eqEntry l
  · simp only [Option.elim, ↓State.kept_rules, ↓State.setFreq_kept, ↓State.setHw_kept]
  · rfl

theorem State.calApply_kept (s : State) (t : Fin 8) (k : CalKind) (tm : ℤ) (rs : List (BitVec 16 × BitVec 16)) :
    (State.calApply s t k tm rs).kept = s.kept := by
  unfold State.calApply
  try simp only [↓State.kept_rules, State.kept_foldl, State.kept_foldl_fst, State.kept_foldl_snd, implies_true,
    ite_self, dite_eq_ite, ↓State.needLo_kept, ↓State.calMove_kept, ↓State.needEq_kept]
  repeat'
    first
    | with_reducible rfl
    | ((with_reducible refine (State.kept_foldl _ (fun s a => ?_) _ _).trans ?_) <;>
        try simp only [↓State.kept_rules, State.kept_foldl, State.kept_foldl_fst, State.kept_foldl_snd, implies_true,
        ite_self, dite_eq_ite, ↓State.needLo_kept, ↓State.calMove_kept, ↓State.needEq_kept])
    | (split <;> try simp only [↓State.kept_rules, State.kept_foldl, State.kept_foldl_fst, State.kept_foldl_snd, implies_true,
        ite_self, dite_eq_ite, ↓State.needLo_kept, ↓State.calMove_kept, ↓State.needEq_kept])
    | rfl

theorem State.claimCut_kept (s : State) (t : Fin 8) : (State.claimCut s t).kept = s.kept := by
  unfold State.claimCut
  try simp only [↓State.kept_rules, ite_self, dite_eq_ite, ↓State.modPath_kept, ↓State.noteMutes_kept,
    ↓State.modCal_kept, ↓State.slotFree_kept]
  repeat'
    first
    | with_reducible rfl
    | ((with_reducible refine (State.kept_foldl _ (fun s a => ?_) _ _).trans ?_) <;>
        try simp only [↓State.kept_rules, ite_self, dite_eq_ite, ↓State.modPath_kept, ↓State.noteMutes_kept,
        ↓State.modCal_kept, ↓State.slotFree_kept])
    | (split <;> try simp only [↓State.kept_rules, ite_self, dite_eq_ite, ↓State.modPath_kept, ↓State.noteMutes_kept,
        ↓State.modCal_kept, ↓State.slotFree_kept])
    | rfl

theorem State.placeSlot_kept (s : State) (t : Fin 8) (client : Fin 8) (k : CalKind) (a : ℕ) : (State.placeSlot s t
    client k a).kept = s.kept := by
  unfold State.placeSlot
  simp only [↓State.kept_rules, ite_self, dite_eq_ite, ↓State.modQueue_kept, ↓State.modCal_kept]

theorem State.tryPlace_kept (s : State) (t : Fin 8) (c : CalPend) : ∀ u, State.tryPlace s t c = some u → u.kept =
    s.kept := by
  intro u hu
  unfold State.tryPlace at hu
  simp only [] at hu
  split at hu
  · cases hu
  · split at hu
    · split at hu
      · cases hu
        simp only [↓State.placeSlot_kept]
      · cases hu
    · cases hu
      simp only [↓State.placeSlot_kept]

theorem State.announceClaim_kept (s : State) (t : Fin 8) (c : CalPend) : (State.announceClaim s t c).kept = s.kept :=
    by
  unfold State.announceClaim
  try simp only [↓State.kept_rules, ite_self, dite_eq_ite, ↓State.emitNow_kept, ↓State.modCal_kept, ↓State.modPend_kept]
  repeat'
    first
    | with_reducible rfl
    | ((with_reducible refine (State.kept_foldl _ (fun s a => ?_) _ _).trans ?_) <;>
        try simp only [↓State.kept_rules, ite_self, dite_eq_ite, ↓State.emitNow_kept, ↓State.modCal_kept, ↓State.modPend_kept])
    | (split <;> try simp only [↓State.kept_rules, ite_self, dite_eq_ite, ↓State.emitNow_kept, ↓State.modCal_kept, ↓State.modPend_kept])
    | rfl

theorem State.judgeCal_kept (s : State) (t : Fin 8) (c : CalPend) : (State.judgeCal s t c).kept = s.kept := by
  unfold State.judgeCal
  simp only [↓State.kept_rules, ite_self, dite_eq_ite, ↓State.emitNow_kept, ↓State.modPend_kept, ↓State.calDone_kept,
    ↓State.announceClaim_kept]
  repeat'
    first
    | rfl
    | (rename_i u hu; exact State.tryPlace_kept _ _ _ _ hu)
    | (split <;> try simp only [↓State.kept_rules, ite_self, dite_eq_ite, ↓State.emitNow_kept, ↓State.modPend_kept, ↓State.calDone_kept,
    ↓State.announceClaim_kept])

theorem State.calYieldAct_kept (s : State) (t : Fin 8) (startT : ℕ) (endT : ℕ) : (State.calYieldAct s t startT
    endT).kept = s.kept := by
  unfold State.calYieldAct
  simp only [↓State.kept_rules, ite_self, dite_eq_ite, ↓State.slotYield_kept]

end Sys2Proof.Machine
end

