-- ==== Sys2Proof/Laws/KeptLink.lean ====
section
/-! SUPPORT. The queue and the one-time programmable memory under the operations of Machine/Link.lean. -/

set_option linter.all false

namespace Sys2Proof.Machine

theorem execLkAniqCfg_kept (h : CmdHdr) (lane : BitVec 8) (flow : BitVec 8) (format : BitVec 8) (s : State) : Keeps s
    (execLkAniqCfg h lane flow format s) := by
  unfold execLkAniqCfg
  refine ⟨_, rfl, serve_kept _ _ _ _ (fun u => ?_)⟩
  try simp only [↓State.kept_rules, ↓keeps_rules, implies_true, ite_self, dite_eq_ite, ↓refuse_kept, ↓serve_kept,
    ↓checks_kept, ↓unbindRxIf_kept, ↓done_kept, ↓bindRx_kept]
  repeat'
    first
    | with_reducible rfl
    | ((refine checks_kept _ _ _ ?_) <;> try simp only [↓State.kept_rules, ↓keeps_rules, implies_true, ite_self, dite_eq_ite, ↓refuse_kept, ↓serve_kept,
        ↓checks_kept, ↓unbindRxIf_kept, ↓done_kept, ↓bindRx_kept])
    | ((with_reducible refine (State.kept_foldl _ (fun s a => ?_) _ _).trans ?_) <;>
        try simp only [↓State.kept_rules, ↓keeps_rules, implies_true, ite_self, dite_eq_ite, ↓refuse_kept, ↓serve_kept,
        ↓checks_kept, ↓unbindRxIf_kept, ↓done_kept, ↓bindRx_kept])
    | (split <;> try simp only [↓State.kept_rules, ↓keeps_rules, implies_true, ite_self, dite_eq_ite, ↓refuse_kept, ↓serve_kept,
        ↓checks_kept, ↓unbindRxIf_kept, ↓done_kept, ↓bindRx_kept])
    | rfl

theorem execLkStateSet_kept (h : CmdHdr) (lanes : BitVec 16) (state : BitVec 8) (s : State) : Keeps s (execLkStateSet
    h lanes state s) := by
  unfold execLkStateSet
  refine ⟨_, rfl, serve_kept _ _ _ _ (fun u => ?_)⟩
  try simp only [↓State.kept_rules, ↓keeps_rules, implies_true, ite_self, dite_eq_ite, ↓refuse_kept, ↓serve_kept,
    ↓done_kept, ↓State.laneState_kept]
  repeat'
    first
    | with_reducible rfl
    | ((refine checks_kept _ _ _ ?_) <;> try simp only [↓State.kept_rules, ↓keeps_rules, implies_true, ite_self, dite_eq_ite, ↓refuse_kept, ↓serve_kept,
        ↓done_kept, ↓State.laneState_kept])
    | ((with_reducible refine (State.kept_foldl _ (fun s a => ?_) _ _).trans ?_) <;>
        try simp only [↓State.kept_rules, ↓keeps_rules, implies_true, ite_self, dite_eq_ite, ↓refuse_kept, ↓serve_kept,
        ↓done_kept, ↓State.laneState_kept])
    | (split <;> try simp only [↓State.kept_rules, ↓keeps_rules, implies_true, ite_self, dite_eq_ite, ↓refuse_kept, ↓serve_kept,
        ↓done_kept, ↓State.laneState_kept])
    | rfl

theorem execReliableHoldExpiry_kept (s : State) : Keeps s (execReliableHoldExpiry s) := by
  unfold execReliableHoldExpiry
  try simp only [↓State.kept_rules, ↓keeps_rules, ite_self, dite_eq_ite, ↓State.emitNow_kept, ↓State.sendAck_kept,
    ↓State.sendWaiting_kept]
  repeat'
    first
    | with_reducible rfl
    | ((with_reducible refine (State.kept_foldl _ (fun s a => ?_) _ _).trans ?_) <;>
        try simp only [↓State.kept_rules, ↓keeps_rules, ite_self, dite_eq_ite, ↓State.emitNow_kept, ↓State.sendAck_kept,
        ↓State.sendWaiting_kept])
    | (split <;> try simp only [↓State.kept_rules, ↓keeps_rules, ite_self, dite_eq_ite, ↓State.emitNow_kept, ↓State.sendAck_kept,
        ↓State.sendWaiting_kept])
    | rfl

theorem execLkBudgetGet_kept (h : CmdHdr) (dir : BitVec 8) (s : State) : Keeps s (execLkBudgetGet h dir s) := by
  unfold execLkBudgetGet
  refine ⟨_, rfl, serve_kept _ _ _ _ (fun u => ?_)⟩
  try simp only [↓State.kept_rules, ↓keeps_rules, implies_true, ite_self, dite_eq_ite, ↓refuse_kept, ↓serve_kept,
    ↓doneR_kept]
  repeat'
    first
    | with_reducible rfl
    | ((refine checks_kept _ _ _ ?_) <;> try simp only [↓State.kept_rules, ↓keeps_rules, implies_true, ite_self, dite_eq_ite, ↓refuse_kept, ↓serve_kept,
        ↓doneR_kept])
    | ((with_reducible refine (State.kept_foldl _ (fun s a => ?_) _ _).trans ?_) <;>
        try simp only [↓State.kept_rules, ↓keeps_rules, implies_true, ite_self, dite_eq_ite, ↓refuse_kept, ↓serve_kept,
        ↓doneR_kept])
    | (split <;> try simp only [↓State.kept_rules, ↓keeps_rules, implies_true, ite_self, dite_eq_ite, ↓refuse_kept, ↓serve_kept,
        ↓doneR_kept])
    | rfl

theorem execLkFlowCfg_kept (h : CmdHdr) (dir : BitVec 8) (flow : BitVec 8) (prio : BitVec 8) (lenMax : BitVec 16) (s :
    State) : Keeps s (execLkFlowCfg h dir flow prio lenMax s) := by
  unfold execLkFlowCfg
  refine ⟨_, rfl, serve_kept _ _ _ _ (fun u => ?_)⟩
  try simp only [↓State.kept_rules, ↓keeps_rules, implies_true, ite_self, dite_eq_ite, ↓refuse_kept, ↓serve_kept,
    ↓checks_kept, ↓done_kept]
  repeat'
    first
    | with_reducible rfl
    | ((refine checks_kept _ _ _ ?_) <;> try simp only [↓State.kept_rules, ↓keeps_rules, implies_true, ite_self, dite_eq_ite, ↓refuse_kept, ↓serve_kept,
        ↓checks_kept, ↓done_kept])
    | ((with_reducible refine (State.kept_foldl _ (fun s a => ?_) _ _).trans ?_) <;>
        try simp only [↓State.kept_rules, ↓keeps_rules, implies_true, ite_self, dite_eq_ite, ↓refuse_kept, ↓serve_kept,
        ↓checks_kept, ↓done_kept])
    | (split <;> try simp only [↓State.kept_rules, ↓keeps_rules, implies_true, ite_self, dite_eq_ite, ↓refuse_kept, ↓serve_kept,
        ↓checks_kept, ↓done_kept])
    | rfl

theorem State.rxScreen_kept (s : State) (p : RxPkt) (maxFlow : ℕ) (fmtOk : Bool) : ∀ u, State.rxScreen s p maxFlow
    fmtOk = some u → u.kept = s.kept := by
  intro u hu
  unfold State.rxScreen at hu
  repeat' split at hu
  all_goals first
    | (cases hu; done)
    | (cases hu; rfl)

theorem State.releaseEvts_kept (s : State) (upTo : BitVec 9) : (State.releaseEvts s upTo).kept = s.kept := by
  unfold State.releaseEvts
  simp only [↓State.kept_rules, ite_self, dite_eq_ite]

theorem execLaneLockLossTimeout_kept (l : Fin 16) (s : State) : Keeps s (execLaneLockLossTimeout l s) := by
  unfold execLaneLockLossTimeout
  try simp only [↓State.kept_rules, ↓keeps_rules, ite_self, dite_eq_ite, ↓State.emitNow_kept, ↓State.modLane_kept,
    ↓State.laneFailEvt_kept]
  repeat'
    first
    | with_reducible rfl
    | ((with_reducible refine (State.kept_foldl _ (fun s a => ?_) _ _).trans ?_) <;>
        try simp only [↓State.kept_rules, ↓keeps_rules, ite_self, dite_eq_ite, ↓State.emitNow_kept, ↓State.modLane_kept,
        ↓State.laneFailEvt_kept])
    | (split <;> try simp only [↓State.kept_rules, ↓keeps_rules, ite_self, dite_eq_ite, ↓State.emitNow_kept, ↓State.modLane_kept,
        ↓State.laneFailEvt_kept])
    | rfl

theorem execIdleRowSend_kept (s : State) : Keeps s (execIdleRowSend s) := by
  unfold execIdleRowSend
  simp only [↓State.kept_rules, ↓keeps_rules, ite_self, dite_eq_ite, ↓State.layRows_kept]

theorem execLkCfg_kept (h : CmdHdr) (rate : BitVec 8) (minLanes : BitVec 8) (auto : BitVec 8) (manual : BitVec 8)
    (timeout : BitVec 16) (swing : BitVec 8) (s : State) : Keeps s (execLkCfg h rate minLanes auto manual timeout
    swing s) := by
  unfold execLkCfg
  refine ⟨_, rfl, serve_kept _ _ _ _ (fun u => ?_)⟩
  try simp only [↓State.kept_rules, ↓keeps_rules, implies_true, ite_self, dite_eq_ite, ↓serve_kept, ↓checks_kept,
    ↓done_kept, ↓State.checkStart_kept, ↓State.relevel_kept]
  repeat'
    first
    | with_reducible rfl
    | ((refine checks_kept _ _ _ ?_) <;> try simp only [↓State.kept_rules, ↓keeps_rules, implies_true, ite_self, dite_eq_ite, ↓serve_kept, ↓checks_kept,
        ↓done_kept, ↓State.checkStart_kept, ↓State.relevel_kept])
    | ((with_reducible refine (State.kept_foldl _ (fun s a => ?_) _ _).trans ?_) <;>
        try simp only [↓State.kept_rules, ↓keeps_rules, implies_true, ite_self, dite_eq_ite, ↓serve_kept, ↓checks_kept,
        ↓done_kept, ↓State.checkStart_kept, ↓State.relevel_kept])
    | (split <;> try simp only [↓State.kept_rules, ↓keeps_rules, implies_true, ite_self, dite_eq_ite, ↓serve_kept, ↓checks_kept,
        ↓done_kept, ↓State.checkStart_kept, ↓State.relevel_kept])
    | rfl

theorem execReplayTimeout_kept (s : State) : Keeps s (execReplayTimeout s) := by
  unfold execReplayTimeout
  try simp only [↓State.kept_rules, ↓keeps_rules, ite_self, dite_eq_ite, ↓State.replayAll_kept]
  repeat'
    first
    | with_reducible rfl
    | ((with_reducible refine (State.kept_foldl _ (fun s a => ?_) _ _).trans ?_) <;>
        try simp only [↓State.kept_rules, ↓keeps_rules, ite_self, dite_eq_ite, ↓State.replayAll_kept])
    | (split <;> try simp only [↓State.kept_rules, ↓keeps_rules, ite_self, dite_eq_ite, ↓State.replayAll_kept])
    | rfl

theorem execStreamPacketSend_kept (f : Fin 64) (s : State) : Keeps s (execStreamPacketSend f s) := by
  unfold execStreamPacketSend
  try simp only [↓State.kept_rules, ↓keeps_rules, ite_self, dite_eq_ite]
  repeat'
    first
    | with_reducible rfl
    | ((with_reducible refine (State.kept_foldl _ (fun s a => ?_) _ _).trans ?_) <;>
        try simp only [↓State.kept_rules, ↓keeps_rules, ite_self, dite_eq_ite])
    | (split <;> try simp only [↓State.kept_rules, ↓keeps_rules, ite_self, dite_eq_ite])
    | rfl

theorem execAutoSlip_kept (l : Fin 16) (s : State) : Keeps s (execAutoSlip l s) := by
  unfold execAutoSlip
  simp only [↓State.kept_rules, ↓keeps_rules, ite_self, dite_eq_ite, ↓State.modLane_kept, ↓State.laneFail_kept]

theorem State.hwRsp_kept (s : State) (flow : ℕ) (slot : List Byte) (st : BitVec 8) : (State.hwRsp s flow slot st).kept
    = s.kept := by
  unfold State.hwRsp
  simp only [↓State.kept_rules, ite_self, dite_eq_ite, ↓State.sendRel_kept]

theorem execLkStart_kept (h : CmdHdr) (lanes : BitVec 16) (s : State) : Keeps s (execLkStart h lanes s) := by
  unfold execLkStart
  refine ⟨_, rfl, serve_kept _ _ _ _ (fun u => ?_)⟩
  try simp only [↓State.kept_rules, ↓keeps_rules, implies_true, ite_self, dite_eq_ite, ↓serve_kept, ↓accepted_kept,
    ↓State.checkStart_kept]
  repeat'
    first
    | with_reducible rfl
    | ((refine checks_kept _ _ _ ?_) <;> try simp only [↓State.kept_rules, ↓keeps_rules, implies_true, ite_self, dite_eq_ite, ↓serve_kept, ↓accepted_kept,
        ↓State.checkStart_kept])
    | ((with_reducible refine (State.kept_foldl _ (fun s a => ?_) _ _).trans ?_) <;>
        try simp only [↓State.kept_rules, ↓keeps_rules, implies_true, ite_self, dite_eq_ite, ↓serve_kept, ↓accepted_kept,
        ↓State.checkStart_kept])
    | (split <;> try simp only [↓State.kept_rules, ↓keeps_rules, implies_true, ite_self, dite_eq_ite, ↓serve_kept, ↓accepted_kept,
        ↓State.checkStart_kept])
    | rfl

theorem execLkPrbs_kept (h : CmdHdr) (lanes : BitVec 16) (gen : BitVec 8) (chk : BitVec 8) (s : State) : Keeps s
    (execLkPrbs h lanes gen chk s) := by
  unfold execLkPrbs
  refine ⟨_, rfl, serve_kept _ _ _ _ (fun u => ?_)⟩
  try simp only [↓State.kept_rules, ↓keeps_rules, implies_true, ite_self, dite_eq_ite, ↓serve_kept, ↓checks_kept,
    ↓done_kept]
  repeat'
    first
    | with_reducible rfl
    | ((refine checks_kept _ _ _ ?_) <;> try simp only [↓State.kept_rules, ↓keeps_rules, implies_true, ite_self, dite_eq_ite, ↓serve_kept, ↓checks_kept,
        ↓done_kept])
    | ((with_reducible refine (State.kept_foldl _ (fun s a => ?_) _ _).trans ?_) <;>
        try simp only [↓State.kept_rules, ↓keeps_rules, implies_true, ite_self, dite_eq_ite, ↓serve_kept, ↓checks_kept,
        ↓done_kept])
    | (split <;> try simp only [↓State.kept_rules, ↓keeps_rules, implies_true, ite_self, dite_eq_ite, ↓serve_kept, ↓checks_kept,
        ↓done_kept])
    | rfl

theorem execLkBerGet_kept (h : CmdHdr) (lane : BitVec 8) (s : State) : Keeps s (execLkBerGet h lane s) := by
  unfold execLkBerGet
  refine ⟨_, rfl, serve_kept _ _ _ _ (fun u => ?_)⟩
  try simp only [↓State.kept_rules, ↓keeps_rules, implies_true, ite_self, dite_eq_ite, ↓refuse_kept, ↓serve_kept,
    ↓doneR_kept]
  repeat'
    first
    | with_reducible rfl
    | ((refine checks_kept _ _ _ ?_) <;> try simp only [↓State.kept_rules, ↓keeps_rules, implies_true, ite_self, dite_eq_ite, ↓refuse_kept, ↓serve_kept,
        ↓doneR_kept])
    | ((with_reducible refine (State.kept_foldl _ (fun s a => ?_) _ _).trans ?_) <;>
        try simp only [↓State.kept_rules, ↓keeps_rules, implies_true, ite_self, dite_eq_ite, ↓refuse_kept, ↓serve_kept,
        ↓doneR_kept])
    | (split <;> try simp only [↓State.kept_rules, ↓keeps_rules, implies_true, ite_self, dite_eq_ite, ↓refuse_kept, ↓serve_kept,
        ↓doneR_kept])
    | rfl

theorem execLkPresetSet_kept (h : CmdHdr) (lanes : BitVec 16) (p1 : BitVec 8) (p2 : BitVec 8) (p3 : BitVec 8) (p4 :
    BitVec 8) (s : State) : Keeps s (execLkPresetSet h lanes p1 p2 p3 p4 s) := by
  unfold execLkPresetSet
  refine ⟨_, rfl, serve_kept _ _ _ _ (fun u => ?_)⟩
  try simp only [↓State.kept_rules, ↓keeps_rules, implies_true, ite_self, dite_eq_ite, ↓serve_kept, ↓checks_kept,
    ↓done_kept]
  repeat'
    first
    | with_reducible rfl
    | ((refine checks_kept _ _ _ ?_) <;> try simp only [↓State.kept_rules, ↓keeps_rules, implies_true, ite_self, dite_eq_ite, ↓serve_kept, ↓checks_kept,
        ↓done_kept])
    | ((with_reducible refine (State.kept_foldl _ (fun s a => ?_) _ _).trans ?_) <;>
        try simp only [↓State.kept_rules, ↓keeps_rules, implies_true, ite_self, dite_eq_ite, ↓serve_kept, ↓checks_kept,
        ↓done_kept])
    | (split <;> try simp only [↓State.kept_rules, ↓keeps_rules, implies_true, ite_self, dite_eq_ite, ↓serve_kept, ↓checks_kept,
        ↓done_kept])
    | rfl

theorem execAckPacket_kept (pkt : RxPkt) (s : State) : Keeps s (execAckPacket pkt s) := by
  unfold execAckPacket
  try simp only [↓State.kept_rules, ↓keeps_rules, State.kept_foldl, State.kept_foldl_fst, State.kept_foldl_snd,
    implies_true, ite_self, dite_eq_ite, ↓State.sendWaiting_kept, ↓State.releaseEvts_kept, ↓State.replayAll_kept]
  repeat'
    first
    | with_reducible rfl
    | exact State.rxScreen_kept _ _ _ _ _ (by assumption)
    | ((with_reducible refine (State.kept_foldl _ (fun s a => ?_) _ _).trans ?_) <;>
        try simp only [↓State.kept_rules, ↓keeps_rules, State.kept_foldl, State.kept_foldl_fst, State.kept_foldl_snd,
        implies_true, ite_self, dite_eq_ite, ↓State.sendWaiting_kept, ↓State.releaseEvts_kept, ↓State.replayAll_kept])
    | (split <;> try simp only [↓State.kept_rules, ↓keeps_rules, State.kept_foldl, State.kept_foldl_fst, State.kept_foldl_snd,
        implies_true, ite_self, dite_eq_ite, ↓State.sendWaiting_kept, ↓State.releaseEvts_kept, ↓State.replayAll_kept])
    | rfl

theorem State.leaveOn_kept (s : State) : (State.leaveOn s).kept = s.kept := by
  unfold State.leaveOn
  simp only [↓State.kept_rules, ite_self, dite_eq_ite]

theorem execMarkerSent_kept (s : State) : Keeps s (execMarkerSent s) := by
  unfold execMarkerSent
  simp only [↓State.kept_rules, ↓keeps_rules, ite_self, dite_eq_ite, ↓State.sendMarkers_kept, ↓State.setActive_kept,
    ↓State.leaveOn_kept]

theorem execLkRelCfg_kept (h : CmdHdr) (replayT : BitVec 32) (holdMs : BitVec 32) (memTo : BitVec 32) (route : BitVec
    8) (s : State) : Keeps s (execLkRelCfg h replayT holdMs memTo route s) := by
  unfold execLkRelCfg
  refine ⟨_, rfl, serve_kept _ _ _ _ (fun u => ?_)⟩
  try simp only [↓State.kept_rules, ↓keeps_rules, implies_true, ite_self, dite_eq_ite, ↓serve_kept, ↓checks_kept,
    ↓done_kept]
  repeat'
    first
    | with_reducible rfl
    | ((refine checks_kept _ _ _ ?_) <;> try simp only [↓State.kept_rules, ↓keeps_rules, implies_true, ite_self, dite_eq_ite, ↓serve_kept, ↓checks_kept,
        ↓done_kept])
    | ((with_reducible refine (State.kept_foldl _ (fun s a => ?_) _ _).trans ?_) <;>
        try simp only [↓State.kept_rules, ↓keeps_rules, implies_true, ite_self, dite_eq_ite, ↓serve_kept, ↓checks_kept,
        ↓done_kept])
    | (split <;> try simp only [↓State.kept_rules, ↓keeps_rules, implies_true, ite_self, dite_eq_ite, ↓serve_kept, ↓checks_kept,
        ↓done_kept])
    | rfl

theorem execLkLoop_kept (h : CmdHdr) (lanes : BitVec 16) (loop : BitVec 8) (s : State) : Keeps s (execLkLoop h lanes
    loop s) := by
  unfold execLkLoop
  refine ⟨_, rfl, serve_kept _ _ _ _ (fun u => ?_)⟩
  try simp only [↓State.kept_rules, ↓keeps_rules, implies_true, ite_self, dite_eq_ite, ↓serve_kept, ↓checks_kept,
    ↓done_kept]
  repeat'
    first
    | with_reducible rfl
    | ((refine checks_kept _ _ _ ?_) <;> try simp only [↓State.kept_rules, ↓keeps_rules, implies_true, ite_self, dite_eq_ite, ↓serve_kept, ↓checks_kept,
        ↓done_kept])
    | ((with_reducible refine (State.kept_foldl _ (fun s a => ?_) _ _).trans ?_) <;>
        try simp only [↓State.kept_rules, ↓keeps_rules, implies_true, ite_self, dite_eq_ite, ↓serve_kept, ↓checks_kept,
        ↓done_kept])
    | (split <;> try simp only [↓State.kept_rules, ↓keeps_rules, implies_true, ite_self, dite_eq_ite, ↓serve_kept, ↓checks_kept,
        ↓done_kept])
    | rfl

theorem execLkInject_kept (h : CmdHdr) (lanes : BitVec 16) (burst : BitVec 8) (rep : BitVec 8) (s : State) : Keeps s
    (execLkInject h lanes burst rep s) := by
  unfold execLkInject
  refine ⟨_, rfl, serve_kept _ _ _ _ (fun u => ?_)⟩
  try simp only [↓State.kept_rules, ↓keeps_rules, implies_true, ite_self, dite_eq_ite, ↓serve_kept, ↓checks_kept,
    ↓done_kept]
  repeat'
    first
    | with_reducible rfl
    | ((refine checks_kept _ _ _ ?_) <;> try simp only [↓State.kept_rules, ↓keeps_rules, implies_true, ite_self, dite_eq_ite, ↓serve_kept, ↓checks_kept,
        ↓done_kept])
    | ((with_reducible refine (State.kept_foldl _ (fun s a => ?_) _ _).trans ?_) <;>
        try simp only [↓State.kept_rules, ↓keeps_rules, implies_true, ite_self, dite_eq_ite, ↓serve_kept, ↓checks_kept,
        ↓done_kept])
    | (split <;> try simp only [↓State.kept_rules, ↓keeps_rules, implies_true, ite_self, dite_eq_ite, ↓serve_kept, ↓checks_kept,
        ↓done_kept])
    | rfl

theorem execEventPacketSend_kept (s : State) : Keeps s (execEventPacketSend s) := by
  unfold execEventPacketSend
  simp only [↓State.kept_rules, ↓keeps_rules, ite_self, dite_eq_ite, ↓State.sendRel_kept]

theorem State.placeCmd_kept (s : State) (m : Fin 4) (p : RxPkt) : (State.placeCmd s m p).kept = s.kept := by
  unfold State.placeCmd
  simp only [↓State.kept_rules, ite_self, dite_eq_ite, ↓State.hwRsp_kept]

theorem State.adaptEq_kept (s : State) (l : Fin 16) : (State.adaptEq s l).kept = s.kept := by
  unfold State.adaptEq
  simp only [↓State.kept_rules, ite_self, dite_eq_ite, ↓State.modLane_kept]

theorem State.markerLane_kept (s : State) (l : Fin 16) (number : ℕ) (skew : BitVec 8) (complemented : Bool) :
    (State.markerLane s l number skew complemented).kept = s.kept := by
  unfold State.markerLane
  simp only [↓State.kept_rules, State.kept_foldl, State.kept_foldl_fst, State.kept_foldl_snd, implies_true, ite_self,
    dite_eq_ite, ↓State.modLane_kept, ↓State.laneFail_kept]

theorem execMarkerReceived_kept (l : Fin 16) (payload : BitVec 64) (skew : BitVec 8) (complemented : Bool) (s : State)
    : Keeps s (execMarkerReceived l payload skew complemented s) := by
  unfold execMarkerReceived
  simp only [↓State.kept_rules, ↓keeps_rules, ite_self, dite_eq_ite, ↓State.leaveOn_kept, ↓State.markerLane_kept,
    ↓State.setRxActive_kept]

theorem State.relAccept_kept (s : State) (seq : BitVec 16) : (State.relAccept s seq).1.kept = s.kept := by
  unfold State.relAccept
  simp only [↓State.kept_rules, ite_self, dite_eq_ite, ↓State.sendAck_kept]

theorem execInjectRepeat_kept (l : Fin 16) (s : State) : Keeps s (execInjectRepeat l s) := by
  unfold execInjectRepeat
  simp only [↓State.kept_rules, ↓keeps_rules, ite_self, dite_eq_ite, ↓State.modLane_kept]

theorem execCreditReport_kept (f : Fin 64) (s : State) : Keeps s (execCreditReport f s) := by
  unfold execCreditReport
  simp only [↓State.kept_rules, ↓keeps_rules, ite_self, dite_eq_ite]

theorem execLkStartTimeout_kept (s : State) : Keeps s (execLkStartTimeout s) := by
  unfold execLkStartTimeout
  try simp only [↓State.kept_rules, ↓keeps_rules, State.kept_foldl, State.kept_foldl_fst, State.kept_foldl_snd,
    implies_true, ite_self, dite_eq_ite, ↓State.emitNow_kept, ↓State.laneFailEvt_kept]
  repeat'
    first
    | with_reducible rfl
    | ((with_reducible refine (State.kept_foldl _ (fun s a => ?_) _ _).trans ?_) <;>
        try simp only [↓State.kept_rules, ↓keeps_rules, State.kept_foldl, State.kept_foldl_fst, State.kept_foldl_snd,
        implies_true, ite_self, dite_eq_ite, ↓State.emitNow_kept, ↓State.laneFailEvt_kept])
    | (split <;> try simp only [↓State.kept_rules, ↓keeps_rules, State.kept_foldl, State.kept_foldl_fst, State.kept_foldl_snd,
        implies_true, ite_self, dite_eq_ite, ↓State.emitNow_kept, ↓State.laneFailEvt_kept])
    | rfl

theorem execLkBitslip_kept (h : CmdHdr) (lane : BitVec 8) (count : BitVec 8) (s : State) : Keeps s (execLkBitslip h
    lane count s) := by
  unfold execLkBitslip
  refine ⟨_, rfl, serve_kept _ _ _ _ (fun u => ?_)⟩
  try simp only [↓State.kept_rules, ↓keeps_rules, implies_true, ite_self, dite_eq_ite, ↓refuse_kept, ↓serve_kept,
    ↓checks_kept, ↓doneR_kept, ↓State.modLane_kept]
  repeat'
    first
    | with_reducible rfl
    | ((refine checks_kept _ _ _ ?_) <;> try simp only [↓State.kept_rules, ↓keeps_rules, implies_true, ite_self, dite_eq_ite, ↓refuse_kept, ↓serve_kept,
        ↓checks_kept, ↓doneR_kept, ↓State.modLane_kept])
    | ((with_reducible refine (State.kept_foldl _ (fun s a => ?_) _ _).trans ?_) <;>
        try simp only [↓State.kept_rules, ↓keeps_rules, implies_true, ite_self, dite_eq_ite, ↓refuse_kept, ↓serve_kept,
        ↓checks_kept, ↓doneR_kept, ↓State.modLane_kept])
    | (split <;> try simp only [↓State.kept_rules, ↓keeps_rules, implies_true, ite_self, dite_eq_ite, ↓refuse_kept, ↓serve_kept,
        ↓checks_kept, ↓doneR_kept, ↓State.modLane_kept])
    | rfl

theorem execLkStatus_kept (h : CmdHdr) (lane : BitVec 8) (s : State) : Keeps s (execLkStatus h lane s) := by
  unfold execLkStatus
  refine ⟨_, rfl, serve_kept _ _ _ _ (fun u => ?_)⟩
  try simp only [↓State.kept_rules, ↓keeps_rules, implies_true, ite_self, dite_eq_ite, ↓refuse_kept, ↓serve_kept,
    ↓doneR_kept]
  repeat'
    first
    | with_reducible rfl
    | ((refine checks_kept _ _ _ ?_) <;> try simp only [↓State.kept_rules, ↓keeps_rules, implies_true, ite_self, dite_eq_ite, ↓refuse_kept, ↓serve_kept,
        ↓doneR_kept])
    | ((with_reducible refine (State.kept_foldl _ (fun s a => ?_) _ _).trans ?_) <;>
        try simp only [↓State.kept_rules, ↓keeps_rules, implies_true, ite_self, dite_eq_ite, ↓refuse_kept, ↓serve_kept,
        ↓doneR_kept])
    | (split <;> try simp only [↓State.kept_rules, ↓keeps_rules, implies_true, ite_self, dite_eq_ite, ↓refuse_kept, ↓serve_kept,
        ↓doneR_kept])
    | rfl

theorem execLaneExitComplete_kept (l : Fin 16) (s : State) : Keeps s (execLaneExitComplete l s) := by
  unfold execLaneExitComplete
  try simp only [↓State.kept_rules, ↓keeps_rules, ite_self, dite_eq_ite, ↓State.modPll_kept, ↓State.modLane_kept]
  repeat'
    first
    | with_reducible rfl
    | ((with_reducible refine (State.kept_foldl _ (fun s a => ?_) _ _).trans ?_) <;>
        try simp only [↓State.kept_rules, ↓keeps_rules, ite_self, dite_eq_ite, ↓State.modPll_kept, ↓State.modLane_kept])
    | (split <;> try simp only [↓State.kept_rules, ↓keeps_rules, ite_self, dite_eq_ite, ↓State.modPll_kept, ↓State.modLane_kept])
    | rfl

theorem execCdrLockAcquired_kept (l : Fin 16) (s : State) : Keeps s (execCdrLockAcquired l s) := by
  unfold execCdrLockAcquired
  simp only [↓State.kept_rules, ↓keeps_rules, ite_self, dite_eq_ite, ↓State.modLane_kept, ↓State.adaptEq_kept]

theorem execCdrLockTimeout_kept (l : Fin 16) (s : State) : Keeps s (execCdrLockTimeout l s) := by
  unfold execCdrLockTimeout
  simp only [↓State.kept_rules, ↓keeps_rules, ite_self, dite_eq_ite, ↓State.laneFail_kept]

theorem execLaneBlockReceived_kept (l : Fin 16) (hdr : BitVec 2) (s : State) : Keeps s (execLaneBlockReceived l hdr s)
    := by
  unfold execLaneBlockReceived
  simp only [↓State.kept_rules, ↓keeps_rules, ite_self, dite_eq_ite, ↓State.modLane_kept]

theorem execEqDensityWindowEnd_kept (l : Fin 16) (transitions : BitVec 12) (s : State) : Keeps s
    (execEqDensityWindowEnd l transitions s) := by
  unfold execEqDensityWindowEnd
  simp only [↓State.kept_rules, ↓keeps_rules, ite_self, dite_eq_ite, ↓State.modLane_kept, ↓State.adaptEq_kept]

theorem execCtrlCmdPacket_kept (pkt : RxPkt) (s : State) : Keeps s (execCtrlCmdPacket pkt s) := by
  unfold execCtrlCmdPacket
  try simp only [↓State.kept_rules, ↓keeps_rules, ite_self, dite_eq_ite, ↓State.placeCmd_kept, ↓State.relAccept_kept]
  repeat'
    first
    | with_reducible rfl
    | exact State.rxScreen_kept _ _ _ _ _ (by assumption)
    | ((with_reducible refine (State.kept_foldl _ (fun s a => ?_) _ _).trans ?_) <;>
        try simp only [↓State.kept_rules, ↓keeps_rules, ite_self, dite_eq_ite, ↓State.placeCmd_kept, ↓State.relAccept_kept])
    | (split <;> try simp only [↓State.kept_rules, ↓keeps_rules, ite_self, dite_eq_ite, ↓State.placeCmd_kept, ↓State.relAccept_kept])
    | rfl

theorem execAckSend_kept (s : State) : Keeps s (execAckSend s) := by
  unfold execAckSend
  simp only [↓State.kept_rules, ↓keeps_rules, ite_self, dite_eq_ite, ↓State.sendAck_kept]

theorem execLkFlowQuery_kept (h : CmdHdr) (dir : BitVec 8) (flow : BitVec 8) (s : State) : Keeps s (execLkFlowQuery h
    dir flow s) := by
  unfold execLkFlowQuery
  refine ⟨_, rfl, serve_kept _ _ _ _ (fun u => ?_)⟩
  try simp only [↓State.kept_rules, ↓keeps_rules, implies_true, ite_self, dite_eq_ite, ↓refuse_kept, ↓serve_kept,
    ↓doneR_kept]
  repeat'
    first
    | with_reducible rfl
    | ((refine checks_kept _ _ _ ?_) <;> try simp only [↓State.kept_rules, ↓keeps_rules, implies_true, ite_self, dite_eq_ite, ↓refuse_kept, ↓serve_kept,
        ↓doneR_kept])
    | ((with_reducible refine (State.kept_foldl _ (fun s a => ?_) _ _).trans ?_) <;>
        try simp only [↓State.kept_rules, ↓keeps_rules, implies_true, ite_self, dite_eq_ite, ↓refuse_kept, ↓serve_kept,
        ↓doneR_kept])
    | (split <;> try simp only [↓State.kept_rules, ↓keeps_rules, implies_true, ite_self, dite_eq_ite, ↓refuse_kept, ↓serve_kept,
        ↓doneR_kept])
    | rfl

theorem execPrbsCheckerBits_kept (l : Fin 16) (bits : List Bool) (s : State) : Keeps s (execPrbsCheckerBits l bits s)
    := by
  unfold execPrbsCheckerBits
  simp only [↓State.kept_rules, ↓keeps_rules, State.kept_foldl, State.kept_foldl_fst, State.kept_foldl_snd,
    implies_true, ite_self, dite_eq_ite, ↓State.modLane_kept]

end Sys2Proof.Machine
end

