-- ==== Sys2Proof/Laws/KeptAnOps.lean ====
section
/-! SUPPORT. The queue and the one-time programmable memory under the operations of Machine/AnOps.lean. -/

set_option linter.all false

namespace Sys2Proof.Machine

theorem State.modAn_kept (s : State) (a : Fin 9) (f : AnSource → AnSource) : (State.modAn s a f).kept = s.kept := by
  unfold State.modAn
  simp only [↓State.kept_rules, ite_self, dite_eq_ite]

theorem State.checkStitch_kept (s : State) : (State.checkStitch s).kept = s.kept := by
  unfold State.checkStitch
  simp only [↓State.kept_rules, ite_self, dite_eq_ite, ↓State.emitNow_kept]

theorem State.laneLost_kept (s : State) (l : Fin 8) : (State.laneLost s l).kept = s.kept := by
  unfold State.laneLost
  simp only [↓State.kept_rules, ite_self, dite_eq_ite, ↓State.sourcesLost_kept]

theorem State.stitchPort_kept (s : State) (l : Fin 8) : (State.stitchPort s l).kept = s.kept := by
  unfold State.stitchPort
  try simp only [↓State.kept_rules, ite_self, dite_eq_ite]
  repeat'
    first
    | with_reducible rfl
    | ((with_reducible refine (State.kept_foldl _ (fun s a => ?_) _ _).trans ?_) <;>
        try simp only [↓State.kept_rules, ite_self, dite_eq_ite])
    | (split <;> try simp only [↓State.kept_rules, ite_self, dite_eq_ite])
    | rfl

theorem State.sendDensity_kept (s : State) (l : Fin 8) (d : DensCfg) (b : DensBank) : (State.sendDensity s l d b).kept
    = s.kept := by
  unfold State.sendDensity
  try simp only [↓State.kept_rules, State.kept_foldl, State.kept_foldl_fst, State.kept_foldl_snd, implies_true,
    ite_self, dite_eq_ite, ↓State.formPacket_kept]
  repeat'
    first
    | with_reducible rfl
    | ((with_reducible refine (State.kept_foldl _ (fun s a => ?_) _ _).trans ?_) <;>
        try simp only [↓State.kept_rules, State.kept_foldl, State.kept_foldl_fst, State.kept_foldl_snd, implies_true,
        ite_self, dite_eq_ite, ↓State.formPacket_kept])
    | (split <;> try simp only [↓State.kept_rules, State.kept_foldl, State.kept_foldl_fst, State.kept_foldl_snd, implies_true,
        ite_self, dite_eq_ite, ↓State.formPacket_kept])
    | rfl

theorem State.densSwap_kept (s : State) (l : Fin 8) : (State.densSwap s l).kept = s.kept := by
  unfold State.densSwap
  simp only [↓State.kept_rules, ite_self, dite_eq_ite, ↓State.modAn_kept, ↓State.sendDensity_kept]

theorem State.densFor_kept (s : State) (l : Fin 8) (new : AnCfg) : (State.densFor s l new).kept = s.kept := by
  unfold State.densFor
  simp only [↓State.kept_rules, ite_self, dite_eq_ite, ↓State.modAn_kept, ↓State.densSwap_kept]

theorem State.rebindTo_kept (s : State) (src : FlowSrc) (flow : Option (Fin 64)) (charge : ℕ) : (State.rebindTo s src
    flow charge).kept = s.kept := by
  unfold State.rebindTo
  try simp only [↓State.kept_rules, ite_self, dite_eq_ite, ↓unbindRxIf_kept, ↓bindRx_kept]
  repeat'
    first
    | with_reducible rfl
    | ((with_reducible refine (State.kept_foldl _ (fun s a => ?_) _ _).trans ?_) <;>
        try simp only [↓State.kept_rules, ite_self, dite_eq_ite, ↓unbindRxIf_kept, ↓bindRx_kept])
    | (split <;> try simp only [↓State.kept_rules, ite_self, dite_eq_ite, ↓unbindRxIf_kept, ↓bindRx_kept])
    | rfl

theorem State.bindOuts_kept (s : State) (a : Fin 9) : (State.bindOuts s a).kept = s.kept := by
  unfold State.bindOuts
  try simp only [↓State.kept_rules, State.kept_foldl, State.kept_foldl_fst, State.kept_foldl_snd, implies_true,
    ite_self, dite_eq_ite, ↓State.rebindTo_kept]
  repeat'
    first
    | with_reducible rfl
    | ((with_reducible refine (State.kept_foldl _ (fun s a => ?_) _ _).trans ?_) <;>
        try simp only [↓State.kept_rules, State.kept_foldl, State.kept_foldl_fst, State.kept_foldl_snd, implies_true,
        ite_self, dite_eq_ite, ↓State.rebindTo_kept])
    | (split <;> try simp only [↓State.kept_rules, State.kept_foldl, State.kept_foldl_fst, State.kept_foldl_snd, implies_true,
        ite_self, dite_eq_ite, ↓State.rebindTo_kept])
    | rfl

theorem State.reframe_kept (s : State) (a : Fin 9) (old : AnCfg) (thr : BitVec 2) (t : ℕ) : (State.reframe s a old thr
    t).kept = s.kept := by
  unfold State.reframe
  simp only [↓State.kept_rules, ite_self, dite_eq_ite, ↓State.modAn_kept]

theorem State.anApply_kept (s : State) (a : Fin 9) : (State.anApply s a).kept = s.kept := by
  unfold State.anApply
  try simp only [↓State.kept_rules, ite_self, dite_eq_ite, ↓State.modAn_kept, ↓State.stitchPort_kept,
    ↓State.densFor_kept, ↓State.rehorizon_kept, ↓State.bindOuts_kept, ↓State.reframe_kept]
  repeat'
    first
    | with_reducible rfl
    | ((with_reducible refine (State.kept_foldl _ (fun s a => ?_) _ _).trans ?_) <;>
        try simp only [↓State.kept_rules, ite_self, dite_eq_ite, ↓State.modAn_kept, ↓State.stitchPort_kept,
        ↓State.densFor_kept, ↓State.rehorizon_kept, ↓State.bindOuts_kept, ↓State.reframe_kept])
    | (split <;> try simp only [↓State.kept_rules, ite_self, dite_eq_ite, ↓State.modAn_kept, ↓State.stitchPort_kept,
        ↓State.densFor_kept, ↓State.rehorizon_kept, ↓State.bindOuts_kept, ↓State.reframe_kept])
    | rfl

theorem State.applySource_kept (s : State) (a : Fin 9) : (State.applySource s a).kept = s.kept := by
  unfold State.applySource
  simp only [↓State.kept_rules, ite_self, dite_eq_ite, ↓State.laneLost_kept, ↓State.anApply_kept]

theorem State.anRestart_kept (s : State) (a : Fin 9) : (State.anRestart s a).kept = s.kept := by
  unfold State.anRestart
  simp only [↓State.kept_rules, ite_self, dite_eq_ite, ↓State.modAn_kept]

theorem State.recharge_kept (s : State) (a : Fin 9) : (State.recharge s a).kept = s.kept := by
  unfold State.recharge
  try simp only [↓State.kept_rules, State.kept_foldl, State.kept_foldl_fst, State.kept_foldl_snd, implies_true,
    ite_self, dite_eq_ite]
  repeat'
    first
    | with_reducible rfl
    | ((with_reducible refine (State.kept_foldl _ (fun s a => ?_) _ _).trans ?_) <;>
        try simp only [↓State.kept_rules, State.kept_foldl, State.kept_foldl_fst, State.kept_foldl_snd, implies_true,
        ite_self, dite_eq_ite])
    | (split <;> try simp only [↓State.kept_rules, State.kept_foldl, State.kept_foldl_fst, State.kept_foldl_snd, implies_true,
        ite_self, dite_eq_ite])
    | rfl

theorem State.throttleOverlap_kept (s : State) (n : BitVec 2) : (State.throttleOverlap s n).kept = s.kept := by
  unfold State.throttleOverlap
  simp only [↓State.kept_rules, State.kept_foldl, State.kept_foldl_fst, State.kept_foldl_snd, implies_true, ite_self,
    dite_eq_ite, ↓State.emitNow_kept, ↓State.modAn_kept, ↓State.rehorizon_kept, ↓State.reframe_kept]

theorem State.densCount_kept (s : State) (l : Fin 9) (cell : ℕ) : (State.densCount s l cell).kept = s.kept := by
  unfold State.densCount
  simp only [↓State.kept_rules, ite_self, dite_eq_ite, ↓State.emitNow_kept, ↓State.modAn_kept]

theorem State.densFrame_kept (s : State) (l : Fin 9) (start : ℕ) (fl : BitVec 8) (bins : List (BitVec 16)) :
    (State.densFrame s l start fl bins).kept = s.kept := by
  unfold State.densFrame
  simp only [↓State.kept_rules, State.kept_foldl, State.kept_foldl_fst, State.kept_foldl_snd, implies_true, ite_self,
    dite_eq_ite, ↓State.modAn_kept, ↓State.densCount_kept]

theorem State.sendSpectrum_kept (s : State) (a : Fin 9) (o : Fin 4) (x3 : AnOutput) (d : SpecHdr) (time : ℕ) (bins :
    List (BitVec 16)) : (State.sendSpectrum s a o x3 d time bins).kept = s.kept := by
  unfold State.sendSpectrum
  try simp only [↓State.kept_rules, State.kept_foldl, State.kept_foldl_fst, State.kept_foldl_snd, implies_true,
    ite_self, dite_eq_ite, ↓State.formPacket_kept]
  repeat'
    first
    | with_reducible rfl
    | ((with_reducible refine (State.kept_foldl _ (fun s a => ?_) _ _).trans ?_) <;>
        try simp only [↓State.kept_rules, State.kept_foldl, State.kept_foldl_fst, State.kept_foldl_snd, implies_true,
        ite_self, dite_eq_ite, ↓State.formPacket_kept])
    | (split <;> try simp only [↓State.kept_rules, State.kept_foldl, State.kept_foldl_fst, State.kept_foldl_snd, implies_true,
        ite_self, dite_eq_ite, ↓State.formPacket_kept])
    | rfl

theorem State.storeSpectrum_kept (s : State) (a : Fin 9) (o : Fin 4) (x3 : AnOutput) (d : SpecHdr) (bins : List
    (BitVec 16)) : (State.storeSpectrum s a o x3 d bins).kept = s.kept := by
  unfold State.storeSpectrum
  try simp only [↓State.kept_rules, ite_self, dite_eq_ite, ↓State.modAn_kept, ↓State.storeWrite_kept]
  repeat'
    first
    | with_reducible rfl
    | ((with_reducible refine (State.kept_foldl _ (fun s a => ?_) _ _).trans ?_) <;>
        try simp only [↓State.kept_rules, ite_self, dite_eq_ite, ↓State.modAn_kept, ↓State.storeWrite_kept])
    | (split <;> try simp only [↓State.kept_rules, ite_self, dite_eq_ite, ↓State.modAn_kept, ↓State.storeWrite_kept])
    | rfl

theorem State.putSpectrum_kept (s : State) (a : Fin 9) (o : Fin 4) (x3 : AnOutput) (d : SpecHdr) (time : ℕ) (bins :
    List (BitVec 16)) : (State.putSpectrum s a o x3 d time bins).kept = s.kept := by
  unfold State.putSpectrum
  simp only [↓State.kept_rules, ite_self, dite_eq_ite, ↓State.sendSpectrum_kept, ↓State.storeSpectrum_kept]

theorem State.traceClose_kept (s : State) (a : Fin 9) (o : Fin 4) : (State.traceClose s a o).kept = s.kept := by
  unfold State.traceClose
  try simp only [↓State.kept_rules, ite_self, dite_eq_ite, ↓State.modAn_kept, ↓State.putSpectrum_kept]
  repeat'
    first
    | with_reducible rfl
    | ((with_reducible refine (State.kept_foldl _ (fun s a => ?_) _ _).trans ?_) <;>
        try simp only [↓State.kept_rules, ite_self, dite_eq_ite, ↓State.modAn_kept, ↓State.putSpectrum_kept])
    | (split <;> try simp only [↓State.kept_rules, ite_self, dite_eq_ite, ↓State.modAn_kept, ↓State.putSpectrum_kept])
    | rfl

theorem State.outFrame_kept (s : State) (a : Fin 9) (o : Fin 4) (start : ℕ) (k : ℕ) (reason : ℕ) (notReady : ℕ) (fl :
    BitVec 8) (bins : List (BitVec 16)) : (State.outFrame s a o start k reason notReady fl bins).kept = s.kept := by
  unfold State.outFrame
  try simp only [↓State.kept_rules, ite_self, dite_eq_ite, ↓State.modAn_kept, ↓State.putSpectrum_kept,
    ↓State.traceClose_kept]
  repeat'
    first
    | with_reducible rfl
    | ((with_reducible refine (State.kept_foldl _ (fun s a => ?_) _ _).trans ?_) <;>
        try simp only [↓State.kept_rules, ite_self, dite_eq_ite, ↓State.modAn_kept, ↓State.putSpectrum_kept,
        ↓State.traceClose_kept])
    | (split <;> try simp only [↓State.kept_rules, ite_self, dite_eq_ite, ↓State.modAn_kept, ↓State.putSpectrum_kept,
        ↓State.traceClose_kept])
    | rfl

theorem State.maskEdge_kept (s : State) (a : Fin 9) (m : Fin 4) (enter : Bool) (evt : Bool) (run : MaskRun) :
    (State.maskEdge s a m enter evt run).kept = s.kept := by
  unfold State.maskEdge
  try simp only [↓State.kept_rules, ite_self, dite_eq_ite, ↓State.emit_kept, ↓State.fire_kept]
  repeat'
    first
    | with_reducible rfl
    | ((with_reducible refine (State.kept_foldl _ (fun s a => ?_) _ _).trans ?_) <;>
        try simp only [↓State.kept_rules, ite_self, dite_eq_ite, ↓State.emit_kept, ↓State.fire_kept])
    | (split <;> try simp only [↓State.kept_rules, ite_self, dite_eq_ite, ↓State.emit_kept, ↓State.fire_kept])
    | rfl

theorem State.memberEnters_kept (s : State) (m : Fin 4) : (State.memberEnters s m).kept = s.kept := by
  unfold State.memberEnters
  simp only [↓State.kept_rules, State.kept_foldl, State.kept_foldl_fst, State.kept_foldl_snd, implies_true, ite_self,
    dite_eq_ite, ↓State.modAn_kept]

theorem State.maskFrame_kept (s : State) (a : Fin 9) (m : Fin 4) (centre : ℤ) (skip : Bool) (bins : List (BitVec 16))
    : (State.maskFrame s a m centre skip bins).kept = s.kept := by
  unfold State.maskFrame
  try simp only [↓State.kept_rules, ite_self, dite_eq_ite, ↓State.modAn_kept, ↓State.maskEdge_kept,
    ↓State.memberEnters_kept]
  repeat'
    first
    | with_reducible rfl
    | ((with_reducible refine (State.kept_foldl _ (fun s a => ?_) _ _).trans ?_) <;>
        try simp only [↓State.kept_rules, ite_self, dite_eq_ite, ↓State.modAn_kept, ↓State.maskEdge_kept,
        ↓State.memberEnters_kept])
    | (split <;> try simp only [↓State.kept_rules, ite_self, dite_eq_ite, ↓State.modAn_kept, ↓State.maskEdge_kept,
        ↓State.memberEnters_kept])
    | rfl

theorem State.frameDone_kept (s : State) (a : Fin 9) (start : ℕ) (reason : ℕ) (notReady : ℕ) (full : BitVec 8) (bins :
    List (BitVec 16)) : (State.frameDone s a start reason notReady full bins).kept = s.kept := by
  unfold State.frameDone
  simp only [↓State.kept_rules, State.kept_foldl, State.kept_foldl_fst, State.kept_foldl_snd, implies_true, ite_self,
    dite_eq_ite, ↓State.modAn_kept, ↓State.densFrame_kept, ↓State.outFrame_kept, ↓State.maskFrame_kept]

theorem State.laneFrame_kept (s : State) (l : Fin 8) : (State.laneFrame s l).kept = s.kept := by
  unfold State.laneFrame
  try simp only [↓State.kept_rules, ite_self, dite_eq_ite, ↓State.modAn_kept, ↓State.checkStitch_kept,
    ↓State.frameDone_kept]
  repeat'
    first
    | with_reducible rfl
    | ((with_reducible refine (State.kept_foldl _ (fun s a => ?_) _ _).trans ?_) <;>
        try simp only [↓State.kept_rules, ite_self, dite_eq_ite, ↓State.modAn_kept, ↓State.checkStitch_kept,
        ↓State.frameDone_kept])
    | (split <;> try simp only [↓State.kept_rules, ite_self, dite_eq_ite, ↓State.modAn_kept, ↓State.checkStitch_kept,
        ↓State.frameDone_kept])
    | rfl

theorem State.oldFrame_kept (s : State) (l : Fin 8) (c : AnCfg) (hop : ℕ) (start : ℕ) : (State.oldFrame s l c hop
    start).kept = s.kept := by
  unfold State.oldFrame
  try simp only [↓State.kept_rules, ite_self, dite_eq_ite, ↓State.putSpectrum_kept]
  repeat'
    first
    | with_reducible rfl
    | ((with_reducible refine (State.kept_foldl _ (fun s a => ?_) _ _).trans ?_) <;>
        try simp only [↓State.kept_rules, ite_self, dite_eq_ite, ↓State.putSpectrum_kept])
    | (split <;> try simp only [↓State.kept_rules, ite_self, dite_eq_ite, ↓State.putSpectrum_kept])
    | rfl

theorem State.laneNext_kept (s : State) (l : Fin 8) : (State.laneNext s l).kept = s.kept := by
  unfold State.laneNext
  try simp only [↓State.kept_rules, ite_self, dite_eq_ite, ↓State.modAn_kept, ↓State.laneFrame_kept,
    ↓State.oldFrame_kept]
  repeat'
    first
    | with_reducible rfl
    | ((with_reducible refine (State.kept_foldl _ (fun s a => ?_) _ _).trans ?_) <;>
        try simp only [↓State.kept_rules, ite_self, dite_eq_ite, ↓State.modAn_kept, ↓State.laneFrame_kept,
        ↓State.oldFrame_kept])
    | (split <;> try simp only [↓State.kept_rules, ite_self, dite_eq_ite, ↓State.modAn_kept, ↓State.laneFrame_kept,
        ↓State.oldFrame_kept])
    | rfl

theorem State.stitchFrame_kept (s : State) : (State.stitchFrame s).kept = s.kept := by
  unfold State.stitchFrame
  simp only [↓State.kept_rules, State.kept_foldl, State.kept_foldl_fst, State.kept_foldl_snd, implies_true, ite_self,
    dite_eq_ite, ↓State.frameDone_kept]

end Sys2Proof.Machine
end

