-- ==== Sys2Proof/Laws/KeptAnalyser.lean ====
section
/-! SUPPORT. The queue and the one-time programmable memory under the operations of Machine/Analyser.lean. -/

set_option linter.all false

namespace Sys2Proof.Machine

theorem State.askSwap_kept (s : State) (ls : List (Fin 8)) : (State.askSwap s ls).kept = s.kept := by
  unfold State.askSwap
  simp only [↓State.kept_rules, State.kept_foldl, State.kept_foldl_fst, State.kept_foldl_snd, implies_true, ite_self,
    dite_eq_ite, ↓State.modAn_kept]

theorem State.clearStitch_kept (s : State) : (State.clearStitch s).kept = s.kept := by
  unfold State.clearStitch
  simp only [↓State.kept_rules, ite_self, dite_eq_ite, ↓unbindRxIf_kept, ↓State.modAn_kept]

theorem State.stitchTake_kept (s : State) (c : LaneCfg) (a : Fin 9) : (State.stitchTake s c a).kept = s.kept := by
  unfold State.stitchTake
  try simp only [↓State.kept_rules, ite_self, dite_eq_ite, ↓State.modAn_kept, ↓State.densFor_kept, ↓State.reframe_kept,
    ↓State.recharge_kept]
  repeat'
    first
    | with_reducible rfl
    | ((with_reducible refine (State.kept_foldl _ (fun s a => ?_) _ _).trans ?_) <;>
        try simp only [↓State.kept_rules, ite_self, dite_eq_ite, ↓State.modAn_kept, ↓State.densFor_kept, ↓State.reframe_kept,
        ↓State.recharge_kept])
    | (split <;> try simp only [↓State.kept_rules, ite_self, dite_eq_ite, ↓State.modAn_kept, ↓State.densFor_kept, ↓State.reframe_kept,
        ↓State.recharge_kept])
    | rfl

theorem execAnStitchCfg_kept (h : CmdHdr) (tiles : BitVec 8) (f0 : BitVec 64) (z : BitVec 8) (s : State) : Keeps s
    (execAnStitchCfg h tiles f0 z s) := by
  unfold execAnStitchCfg
  refine ⟨_, rfl, serve_kept _ _ _ _ (fun u => ?_)⟩
  try simp only [↓State.kept_rules, ↓keeps_rules, State.kept_foldl, State.kept_foldl_fst, State.kept_foldl_snd,
    implies_true, ite_self, dite_eq_ite, ↓refuse_kept, ↓serve_kept, ↓checks_kept, ↓State.checkStitch_kept,
    ↓State.rehorizon_kept, ↓doneR_kept, ↓State.clearStitch_kept, ↓State.stitchTake_kept]
  repeat'
    first
    | with_reducible rfl
    | ((refine checks_kept _ _ _ ?_) <;> try simp only [↓State.kept_rules, ↓keeps_rules, State.kept_foldl, State.kept_foldl_fst, State.kept_foldl_snd,
        implies_true, ite_self, dite_eq_ite, ↓refuse_kept, ↓serve_kept, ↓checks_kept, ↓State.checkStitch_kept,
        ↓State.rehorizon_kept, ↓doneR_kept, ↓State.clearStitch_kept, ↓State.stitchTake_kept])
    | ((with_reducible refine (State.kept_foldl _ (fun s a => ?_) _ _).trans ?_) <;>
        try simp only [↓State.kept_rules, ↓keeps_rules, State.kept_foldl, State.kept_foldl_fst, State.kept_foldl_snd,
        implies_true, ite_self, dite_eq_ite, ↓refuse_kept, ↓serve_kept, ↓checks_kept, ↓State.checkStitch_kept,
        ↓State.rehorizon_kept, ↓doneR_kept, ↓State.clearStitch_kept, ↓State.stitchTake_kept])
    | (split <;> try simp only [↓State.kept_rules, ↓keeps_rules, State.kept_foldl, State.kept_foldl_fst, State.kept_foldl_snd,
        implies_true, ite_self, dite_eq_ite, ↓refuse_kept, ↓serve_kept, ↓checks_kept, ↓State.checkStitch_kept,
        ↓State.rehorizon_kept, ↓doneR_kept, ↓State.clearStitch_kept, ↓State.stitchTake_kept])
    | rfl

theorem execAnDensitySwap_kept (h : CmdHdr) (lanes : BitVec 16) (s : State) : Keeps s (execAnDensitySwap h lanes s) :=
    by
  unfold execAnDensitySwap
  refine ⟨_, rfl, serve_kept _ _ _ _ (fun u => ?_)⟩
  try simp only [↓State.kept_rules, ↓keeps_rules, implies_true, ite_self, dite_eq_ite, ↓serve_kept, ↓checks_kept,
    ↓done_kept, ↓State.askSwap_kept]
  repeat'
    first
    | with_reducible rfl
    | ((refine checks_kept _ _ _ ?_) <;> try simp only [↓State.kept_rules, ↓keeps_rules, implies_true, ite_self, dite_eq_ite, ↓serve_kept, ↓checks_kept,
        ↓done_kept, ↓State.askSwap_kept])
    | ((with_reducible refine (State.kept_foldl _ (fun s a => ?_) _ _).trans ?_) <;>
        try simp only [↓State.kept_rules, ↓keeps_rules, implies_true, ite_self, dite_eq_ite, ↓serve_kept, ↓checks_kept,
        ↓done_kept, ↓State.askSwap_kept])
    | (split <;> try simp only [↓State.kept_rules, ↓keeps_rules, implies_true, ite_self, dite_eq_ite, ↓serve_kept, ↓checks_kept,
        ↓done_kept, ↓State.askSwap_kept])
    | rfl

theorem State.stage_kept (s : State) (a : Fin 9) (f : AnCfg → AnCfg) : (State.stage s a f).kept = s.kept := by
  unfold State.stage
  simp only [↓State.kept_rules, ite_self, dite_eq_ite, ↓State.modAn_kept]

theorem execAnMaskLoad_kept (h : CmdHdr) (source : BitVec 8) (mask : BitVec 8) (polarity : BitVec 8) (enterD : BitVec
    16) (leaveD : BitVec 16) (evt : BitVec 8) (count : BitVec 16) (ptr : BitVec 32) (s : State) : Keeps s
    (execAnMaskLoad h source mask polarity enterD leaveD evt count ptr s) := by
  unfold execAnMaskLoad
  refine ⟨_, rfl, serve_kept _ _ _ _ (fun u => ?_)⟩
  try simp only [↓State.kept_rules, ↓keeps_rules, State.kept_foldl, State.kept_foldl_fst, State.kept_foldl_snd,
    implies_true, ite_self, dite_eq_ite, ↓refuse_kept, ↓serve_kept, ↓checks_kept, ↓done_kept, ↓State.rehorizon_kept,
    ↓State.stage_kept]
  repeat'
    first
    | with_reducible rfl
    | ((refine checks_kept _ _ _ ?_) <;> try simp only [↓State.kept_rules, ↓keeps_rules, State.kept_foldl, State.kept_foldl_fst, State.kept_foldl_snd,
        implies_true, ite_self, dite_eq_ite, ↓refuse_kept, ↓serve_kept, ↓checks_kept, ↓done_kept,
        ↓State.rehorizon_kept, ↓State.stage_kept])
    | ((with_reducible refine (State.kept_foldl _ (fun s a => ?_) _ _).trans ?_) <;>
        try simp only [↓State.kept_rules, ↓keeps_rules, State.kept_foldl, State.kept_foldl_fst, State.kept_foldl_snd,
        implies_true, ite_self, dite_eq_ite, ↓refuse_kept, ↓serve_kept, ↓checks_kept, ↓done_kept,
        ↓State.rehorizon_kept, ↓State.stage_kept])
    | (split <;> try simp only [↓State.kept_rules, ↓keeps_rules, State.kept_foldl, State.kept_foldl_fst, State.kept_foldl_snd,
        implies_true, ite_self, dite_eq_ite, ↓refuse_kept, ↓serve_kept, ↓checks_kept, ↓done_kept,
        ↓State.rehorizon_kept, ↓State.stage_kept])
    | rfl

theorem execAnLaneCfg_kept (h : CmdHdr) (lanes : BitVec 16) (mode : BitVec 8) (path : BitVec 8) (port : BitVec 8) (z :
    BitVec 8) (window : BitVec 8) (overlap : BitVec 8) (units : BitVec 8) (s : State) : Keeps s (execAnLaneCfg h lanes
    mode path port z window overlap units s) := by
  unfold execAnLaneCfg
  refine ⟨_, rfl, serve_kept _ _ _ _ (fun u => ?_)⟩
  try simp only [↓State.kept_rules, ↓keeps_rules, State.kept_foldl, State.kept_foldl_fst, State.kept_foldl_snd,
    implies_true, ite_self, dite_eq_ite, ↓refuse_kept, ↓serve_kept, ↓checks_kept, ↓done_kept, ↓State.rehorizon_kept,
    ↓State.stage_kept]
  repeat'
    first
    | with_reducible rfl
    | ((refine checks_kept _ _ _ ?_) <;> try simp only [↓State.kept_rules, ↓keeps_rules, State.kept_foldl, State.kept_foldl_fst, State.kept_foldl_snd,
        implies_true, ite_self, dite_eq_ite, ↓refuse_kept, ↓serve_kept, ↓checks_kept, ↓done_kept,
        ↓State.rehorizon_kept, ↓State.stage_kept])
    | ((with_reducible refine (State.kept_foldl _ (fun s a => ?_) _ _).trans ?_) <;>
        try simp only [↓State.kept_rules, ↓keeps_rules, State.kept_foldl, State.kept_foldl_fst, State.kept_foldl_snd,
        implies_true, ite_self, dite_eq_ite, ↓refuse_kept, ↓serve_kept, ↓checks_kept, ↓done_kept,
        ↓State.rehorizon_kept, ↓State.stage_kept])
    | (split <;> try simp only [↓State.kept_rules, ↓keeps_rules, State.kept_foldl, State.kept_foldl_fst, State.kept_foldl_snd,
        implies_true, ite_self, dite_eq_ite, ↓refuse_kept, ↓serve_kept, ↓checks_kept, ↓done_kept,
        ↓State.rehorizon_kept, ↓State.stage_kept])
    | rfl

theorem execAnRefSet_kept (h : CmdHdr) (lanes : BitVec 16) (offset : BitVec 16) (s : State) : Keeps s (execAnRefSet h
    lanes offset s) := by
  unfold execAnRefSet
  refine ⟨_, rfl, serve_kept _ _ _ _ (fun u => ?_)⟩
  try simp only [↓State.kept_rules, ↓keeps_rules, State.kept_foldl, State.kept_foldl_fst, State.kept_foldl_snd,
    implies_true, ite_self, dite_eq_ite, ↓serve_kept, ↓checks_kept, ↓done_kept, ↓State.modAn_kept]
  repeat'
    first
    | with_reducible rfl
    | ((refine checks_kept _ _ _ ?_) <;> try simp only [↓State.kept_rules, ↓keeps_rules, State.kept_foldl, State.kept_foldl_fst, State.kept_foldl_snd,
        implies_true, ite_self, dite_eq_ite, ↓serve_kept, ↓checks_kept, ↓done_kept, ↓State.modAn_kept])
    | ((with_reducible refine (State.kept_foldl _ (fun s a => ?_) _ _).trans ?_) <;>
        try simp only [↓State.kept_rules, ↓keeps_rules, State.kept_foldl, State.kept_foldl_fst, State.kept_foldl_snd,
        implies_true, ite_self, dite_eq_ite, ↓serve_kept, ↓checks_kept, ↓done_kept, ↓State.modAn_kept])
    | (split <;> try simp only [↓State.kept_rules, ↓keeps_rules, State.kept_foldl, State.kept_foldl_fst, State.kept_foldl_snd,
        implies_true, ite_self, dite_eq_ite, ↓serve_kept, ↓checks_kept, ↓done_kept, ↓State.modAn_kept])
    | rfl

theorem execAnOutputCfg_kept (h : CmdHdr) (source : BitVec 8) (output : BitVec 8) (first : BitVec 32) (count : BitVec
    32) (period : BitVec 16) (k : BitVec 32) (avgMode : BitVec 8) (inclBlanked : BitVec 8) (maskOvl : BitVec 8) (flow
    : BitVec 8) (segment : BitVec 8) (s : State) : Keeps s (execAnOutputCfg h source output first count period k
    avgMode inclBlanked maskOvl flow segment s) := by
  unfold execAnOutputCfg
  refine ⟨_, rfl, serve_kept _ _ _ _ (fun u => ?_)⟩
  try simp only [↓State.kept_rules, ↓keeps_rules, implies_true, ite_self, dite_eq_ite, ↓refuse_kept, ↓serve_kept,
    ↓checks_kept, ↓done_kept, ↓State.stage_kept]
  repeat'
    first
    | with_reducible rfl
    | ((refine checks_kept _ _ _ ?_) <;> try simp only [↓State.kept_rules, ↓keeps_rules, implies_true, ite_self, dite_eq_ite, ↓refuse_kept, ↓serve_kept,
        ↓checks_kept, ↓done_kept, ↓State.stage_kept])
    | ((with_reducible refine (State.kept_foldl _ (fun s a => ?_) _ _).trans ?_) <;>
        try simp only [↓State.kept_rules, ↓keeps_rules, implies_true, ite_self, dite_eq_ite, ↓refuse_kept, ↓serve_kept,
        ↓checks_kept, ↓done_kept, ↓State.stage_kept])
    | (split <;> try simp only [↓State.kept_rules, ↓keeps_rules, implies_true, ite_self, dite_eq_ite, ↓refuse_kept, ↓serve_kept,
        ↓checks_kept, ↓done_kept, ↓State.stage_kept])
    | rfl

theorem execSpectralFrameEnd_kept (src : Fin 9) (s : State) : Keeps s (execSpectralFrameEnd src s) := by
  unfold execSpectralFrameEnd
  try simp only [↓State.kept_rules, ↓keeps_rules, ite_self, dite_eq_ite, ↓State.modAn_kept, ↓State.checkStitch_kept,
    ↓State.laneNext_kept, ↓State.stitchFrame_kept]
  repeat'
    first
    | with_reducible rfl
    | ((with_reducible refine (State.kept_foldl _ (fun s a => ?_) _ _).trans ?_) <;>
        try simp only [↓State.kept_rules, ↓keeps_rules, ite_self, dite_eq_ite, ↓State.modAn_kept, ↓State.checkStitch_kept,
        ↓State.laneNext_kept, ↓State.stitchFrame_kept])
    | (split <;> try simp only [↓State.kept_rules, ↓keeps_rules, ite_self, dite_eq_ite, ↓State.modAn_kept, ↓State.checkStitch_kept,
        ↓State.laneNext_kept, ↓State.stitchFrame_kept])
    | rfl

theorem execAnStatus_kept (h : CmdHdr) (lane : BitVec 8) (s : State) : Keeps s (execAnStatus h lane s) := by
  unfold execAnStatus
  refine ⟨_, rfl, serve_kept _ _ _ _ (fun u => ?_)⟩
  try simp only [↓State.kept_rules, ↓keeps_rules, implies_true, ite_self, dite_eq_ite, ↓refuse_kept, ↓serve_kept,
    ↓doneR_kept]
  repeat'
    first
    | with_reducible rfl
    | ((refine checks_kept _ _ _ ?_) <;> try simp only [↓State.kept_rules, ↓keeps_rules, implies_true, ite_self, dite_eq_ite, ↓refuse_kept, ↓serve_kept,
        ↓doneR_kept])
    | ((with_reducible refine (State.kept_foldl _ (fun s a => ?_) _ _).trans ?_) <;>
        try simp only [↓State.kept_rules, ↓keeps_rules, implies_true, ite_self, dite_eq_ite, ↓refuse_kept, ↓serve_kept,
        ↓doneR_kept])
    | (split <;> try simp only [↓State.kept_rules, ↓keeps_rules, implies_true, ite_self, dite_eq_ite, ↓refuse_kept, ↓serve_kept,
        ↓doneR_kept])
    | rfl

theorem execTraceBlockEnd_kept (src : Fin 9) (out : Fin 4) (s : State) : Keeps s (execTraceBlockEnd src out s) := by
  unfold execTraceBlockEnd
  try simp only [↓State.kept_rules, ↓keeps_rules, ite_self, dite_eq_ite, ↓State.traceClose_kept]
  repeat'
    first
    | with_reducible rfl
    | ((with_reducible refine (State.kept_foldl _ (fun s a => ?_) _ _).trans ?_) <;>
        try simp only [↓State.kept_rules, ↓keeps_rules, ite_self, dite_eq_ite, ↓State.traceClose_kept])
    | (split <;> try simp only [↓State.kept_rules, ↓keeps_rules, ite_self, dite_eq_ite, ↓State.traceClose_kept])
    | rfl

theorem execAnDensityCfg_kept (h : CmdHdr) (lane : BitVec 8) (b0 : BitVec 32) (c : BitVec 32) (top : BitVec 16) (step
    : BitVec 8) (flow : BitVec 8) (s : State) : Keeps s (execAnDensityCfg h lane b0 c top step flow s) := by
  unfold execAnDensityCfg
  refine ⟨_, rfl, serve_kept _ _ _ _ (fun u => ?_)⟩
  try simp only [↓State.kept_rules, ↓keeps_rules, implies_true, ite_self, dite_eq_ite, ↓refuse_kept, ↓serve_kept,
    ↓checks_kept, ↓done_kept, ↓State.stage_kept]
  repeat'
    first
    | with_reducible rfl
    | ((refine checks_kept _ _ _ ?_) <;> try simp only [↓State.kept_rules, ↓keeps_rules, implies_true, ite_self, dite_eq_ite, ↓refuse_kept, ↓serve_kept,
        ↓checks_kept, ↓done_kept, ↓State.stage_kept])
    | ((with_reducible refine (State.kept_foldl _ (fun s a => ?_) _ _).trans ?_) <;>
        try simp only [↓State.kept_rules, ↓keeps_rules, implies_true, ite_self, dite_eq_ite, ↓refuse_kept, ↓serve_kept,
        ↓checks_kept, ↓done_kept, ↓State.stage_kept])
    | (split <;> try simp only [↓State.kept_rules, ↓keeps_rules, implies_true, ite_self, dite_eq_ite, ↓refuse_kept, ↓serve_kept,
        ↓checks_kept, ↓done_kept, ↓State.stage_kept])
    | rfl

theorem execAnApply_kept (h : CmdHdr) (lanes : BitVec 16) (s : State) : Keeps s (execAnApply h lanes s) := by
  unfold execAnApply
  refine ⟨_, rfl, serve_kept _ _ _ _ (fun u => ?_)⟩
  try simp only [↓State.kept_rules, ↓keeps_rules, State.kept_foldl, State.kept_foldl_fst, State.kept_foldl_snd,
    implies_true, ite_self, dite_eq_ite, ↓serve_kept, ↓checks_kept, ↓State.applySource_kept, ↓doneR_kept]
  repeat'
    first
    | with_reducible rfl
    | ((refine checks_kept _ _ _ ?_) <;> try simp only [↓State.kept_rules, ↓keeps_rules, State.kept_foldl, State.kept_foldl_fst, State.kept_foldl_snd,
        implies_true, ite_self, dite_eq_ite, ↓serve_kept, ↓checks_kept, ↓State.applySource_kept, ↓doneR_kept])
    | ((with_reducible refine (State.kept_foldl _ (fun s a => ?_) _ _).trans ?_) <;>
        try simp only [↓State.kept_rules, ↓keeps_rules, State.kept_foldl, State.kept_foldl_fst, State.kept_foldl_snd,
        implies_true, ite_self, dite_eq_ite, ↓serve_kept, ↓checks_kept, ↓State.applySource_kept, ↓doneR_kept])
    | (split <;> try simp only [↓State.kept_rules, ↓keeps_rules, State.kept_foldl, State.kept_foldl_fst, State.kept_foldl_snd,
        implies_true, ite_self, dite_eq_ite, ↓serve_kept, ↓checks_kept, ↓State.applySource_kept, ↓doneR_kept])
    | rfl

theorem execDensitySwapEffect_kept (l : Fin 8) (s : State) : Keeps s (execDensitySwapEffect l s) := by
  unfold execDensitySwapEffect
  try simp only [↓State.kept_rules, ↓keeps_rules, ite_self, dite_eq_ite, ↓State.densSwap_kept]
  repeat'
    first
    | with_reducible rfl
    | ((with_reducible refine (State.kept_foldl _ (fun s a => ?_) _ _).trans ?_) <;>
        try simp only [↓State.kept_rules, ↓keeps_rules, ite_self, dite_eq_ite, ↓State.densSwap_kept])
    | (split <;> try simp only [↓State.kept_rules, ↓keeps_rules, ite_self, dite_eq_ite, ↓State.densSwap_kept])
    | rfl

theorem execDensityReadoutDone_kept (l : Fin 8) (s : State) : Keeps s (execDensityReadoutDone l s) := by
  unfold execDensityReadoutDone
  simp only [↓State.kept_rules, ↓keeps_rules, ite_self, dite_eq_ite, ↓State.modAn_kept]

end Sys2Proof.Machine
end

