-- ==== Sys2Proof/Laws/KeptPathOps.lean ====
section
/-! SUPPORT. The queue and the one-time programmable memory under the operations of Machine/PathOps.lean. -/

set_option linter.all false

namespace Sys2Proof.Machine

theorem State.groupPort_kept (s : State) (g : Fin 8) (b : Bool) : (State.groupPort s g b).kept = s.kept := by
  unfold State.groupPort
  simp only [↓State.kept_rules, ite_self, dite_eq_ite]

theorem State.modPick_kept (s : State) (g : Fin 8) (f : PickGroup → PickGroup) : (State.modPick s g f).kept = s.kept
    := by
  unfold State.modPick
  simp only [↓State.kept_rules, ite_self, dite_eq_ite]

theorem State.emitPreamble_kept (s : State) (t : Fin 8) (stamp : Time) (set : ℕ) (rho : BitVec 16) (outcome : ℕ)
    (cHome : BitVec 16) (cOther : BitVec 16) : (State.emitPreamble s t stamp set rho outcome cHome cOther).kept =
    s.kept := by
  unfold State.emitPreamble
  simp only [↓State.kept_rules, ite_self, dite_eq_ite, ↓State.emitSet_kept]

theorem State.pickReport_kept (s : State) (g : Fin 8) (outcome : ℕ) (cOther : BitVec 16) : (State.pickReport s g
    outcome cOther).kept = s.kept := by
  unfold State.pickReport
  try simp only [↓State.kept_rules, ite_self, dite_eq_ite, ↓State.emitPreamble_kept]
  repeat'
    first
    | with_reducible rfl
    | ((with_reducible refine (State.kept_foldl _ (fun s a => ?_) _ _).trans ?_) <;>
        try simp only [↓State.kept_rules, ite_self, dite_eq_ite, ↓State.emitPreamble_kept])
    | (split <;> try simp only [↓State.kept_rules, ite_self, dite_eq_ite, ↓State.emitPreamble_kept])
    | rfl

theorem State.pickCount_kept (s : State) (g : Fin 8) (f : PickCnt → PickCnt) : (State.pickCount s g f).kept = s.kept
    := by
  unfold State.pickCount
  simp only [↓State.kept_rules, State.kept_foldl, State.kept_foldl_fst, State.kept_foldl_snd, implies_true, ite_self,
    dite_eq_ite, ↓State.modRes_kept]

theorem State.pickAbort_kept (s : State) (g : Fin 8) : (State.pickAbort s g).kept = s.kept := by
  unfold State.pickAbort
  try simp only [↓State.kept_rules, ite_self, dite_eq_ite, ↓State.groupPort_kept, ↓State.modPick_kept,
    ↓State.pickReport_kept, ↓State.pickCount_kept]
  repeat'
    first
    | with_reducible rfl
    | ((with_reducible refine (State.kept_foldl _ (fun s a => ?_) _ _).trans ?_) <;>
        try simp only [↓State.kept_rules, ite_self, dite_eq_ite, ↓State.groupPort_kept, ↓State.modPick_kept,
        ↓State.pickReport_kept, ↓State.pickCount_kept])
    | (split <;> try simp only [↓State.kept_rules, ite_self, dite_eq_ite, ↓State.groupPort_kept, ↓State.modPick_kept,
        ↓State.pickReport_kept, ↓State.pickCount_kept])
    | rfl

theorem State.writePaCtl_kept (s : State) (p : Fin 64) (v : BitVec 32) : (State.writePaCtl s p v).kept = s.kept := by
  unfold State.writePaCtl
  simp only [↓State.kept_rules, ite_self, dite_eq_ite, ↓State.pdGainChanged_kept, ↓State.modPath_kept]

theorem State.detSample_kept (s : State) (b : Fin 32) (period : ℕ) (v : TSample) : (State.detSample s b period v).kept
    = s.kept := by
  unfold State.detSample
  simp only [↓State.kept_rules, ite_self, dite_eq_ite]

theorem State.judgePicks_kept (s : State) : (State.judgePicks s).kept = s.kept := by
  unfold State.judgePicks
  try simp only [↓State.kept_rules, State.kept_foldl, State.kept_foldl_fst, State.kept_foldl_snd, implies_true,
    ite_self, dite_eq_ite, ↓State.emitNow_kept, ↓State.modPick_kept, ↓State.pickAbort_kept]
  repeat'
    first
    | with_reducible rfl
    | ((with_reducible refine (State.kept_foldl _ (fun s a => ?_) _ _).trans ?_) <;>
        try simp only [↓State.kept_rules, State.kept_foldl, State.kept_foldl_fst, State.kept_foldl_snd, implies_true,
        ite_self, dite_eq_ite, ↓State.emitNow_kept, ↓State.modPick_kept, ↓State.pickAbort_kept])
    | (split <;> try simp only [↓State.kept_rules, State.kept_foldl, State.kept_foldl_fst, State.kept_foldl_snd, implies_true,
        ite_self, dite_eq_ite, ↓State.emitNow_kept, ↓State.modPick_kept, ↓State.pickAbort_kept])
    | rfl

theorem State.rffeFault_kept (s : State) (t : Fin 8) (cause : ℕ) (idx : ℕ) : (State.rffeFault s t cause idx).kept =
    s.kept := by
  unfold State.rffeFault
  simp only [↓State.kept_rules, ite_self, dite_eq_ite, ↓State.emitNow_kept]

theorem State.endPicks_kept (s : State) : (State.endPicks s).kept = s.kept := by
  unfold State.endPicks
  simp only [↓State.kept_rules, State.kept_foldl, State.kept_foldl_fst, State.kept_foldl_snd, implies_true, ite_self,
    dite_eq_ite, ↓State.pickAbort_kept]

theorem State.relead_kept (s : State) : (State.relead s).kept = s.kept := by
  unfold State.relead
  simp only [↓State.kept_rules, ite_self, dite_eq_ite, ↓State.judgePicks_kept]

end Sys2Proof.Machine
end

