-- ==== Sys2Proof/Laws/KeptBeamOps.lean ====
section
/-! SUPPORT. The queue and the one-time programmable memory under the operations of Machine/BeamOps.lean. -/

set_option linter.all false

namespace Sys2Proof.Machine

theorem State.txFree_kept (s : State) (f : Fin 64) (n : ℕ) : (State.txFree s f n).kept = s.kept := by
  unfold State.txFree
  simp only [↓State.kept_rules, ite_self, dite_eq_ite]

theorem State.unlock_kept (s : State) (h : BitVec 16) : (State.unlock s h).kept = s.kept := by
  unfold State.unlock
  simp only [↓State.kept_rules, ite_self, dite_eq_ite]

theorem State.homeAt_kept (s : State) (t : Fin 8) (at_ : ℕ) : (State.homeAt s t at_).kept = s.kept := by
  unfold State.homeAt
  try simp only [↓State.kept_rules, ite_self, dite_eq_ite, ↓State.modRadio_kept, ↓State.goHome_kept]
  repeat'
    first
    | with_reducible rfl
    | ((with_reducible refine (State.kept_foldl _ (fun s a => ?_) _ _).trans ?_) <;>
        try simp only [↓State.kept_rules, ite_self, dite_eq_ite, ↓State.modRadio_kept, ↓State.goHome_kept])
    | (split <;> try simp only [↓State.kept_rules, ite_self, dite_eq_ite, ↓State.modRadio_kept, ↓State.goHome_kept])
    | rfl

theorem State.homeNow_kept (s : State) (t : Fin 8) : (State.homeNow s t).kept = s.kept := by
  unfold State.homeNow
  try simp only [↓State.kept_rules, ite_self, dite_eq_ite, ↓State.homeAt_kept]
  repeat'
    first
    | with_reducible rfl
    | ((with_reducible refine (State.kept_foldl _ (fun s a => ?_) _ _).trans ?_) <;>
        try simp only [↓State.kept_rules, ite_self, dite_eq_ite, ↓State.homeAt_kept])
    | (split <;> try simp only [↓State.kept_rules, ite_self, dite_eq_ite, ↓State.homeAt_kept])
    | rfl

theorem State.swapDrop_kept (s : State) (h : BitVec 16) : (State.swapDrop s h).kept = s.kept := by
  unfold State.swapDrop
  try simp only [↓State.kept_rules, State.kept_foldl, State.kept_foldl_fst, State.kept_foldl_snd, implies_true,
    ite_self, dite_eq_ite, ↓State.unlock_kept, ↓State.homeNow_kept]
  repeat'
    first
    | with_reducible rfl
    | ((with_reducible refine (State.kept_foldl _ (fun s a => ?_) _ _).trans ?_) <;>
        try simp only [↓State.kept_rules, State.kept_foldl, State.kept_foldl_fst, State.kept_foldl_snd, implies_true,
        ite_self, dite_eq_ite, ↓State.unlock_kept, ↓State.homeNow_kept])
    | (split <;> try simp only [↓State.kept_rules, State.kept_foldl, State.kept_foldl_fst, State.kept_foldl_snd, implies_true,
        ite_self, dite_eq_ite, ↓State.unlock_kept, ↓State.homeNow_kept])
    | rfl

theorem State.modSwap_kept (s : State) (h : BitVec 16) (f : SwapRun → SwapRun) : (State.modSwap s h f).kept = s.kept
    := by
  unfold State.modSwap
  simp only [↓State.kept_rules, ite_self, dite_eq_ite]

theorem State.swapTake_kept (s : State) (w : SwapRun) (a : QAct) : (State.swapTake s w a).kept = s.kept := by
  unfold State.swapTake
  try simp only [↓State.kept_rules, State.kept_foldl, State.kept_foldl_fst, State.kept_foldl_snd, implies_true,
    ite_self, dite_eq_ite, ↓State.modPdTile_kept, ↓State.unlock_kept, ↓State.modRadio_kept, ↓State.homeAt_kept,
    ↓State.slotYield_kept, ↓State.takeAct_kept, ↓State.endBurst_kept, ↓State.modSwap_kept, ↓State.modAn_kept,
    ↓State.checkStitch_kept, ↓State.laneLost_kept, ↓State.stitchPort_kept]
  repeat'
    first
    | with_reducible rfl
    | ((with_reducible refine (State.kept_foldl _ (fun s a => ?_) _ _).trans ?_) <;>
        try simp only [↓State.kept_rules, State.kept_foldl, State.kept_foldl_fst, State.kept_foldl_snd, implies_true,
        ite_self, dite_eq_ite, ↓State.modPdTile_kept, ↓State.unlock_kept, ↓State.modRadio_kept, ↓State.homeAt_kept,
        ↓State.slotYield_kept, ↓State.takeAct_kept, ↓State.endBurst_kept, ↓State.modSwap_kept, ↓State.modAn_kept,
        ↓State.checkStitch_kept, ↓State.laneLost_kept, ↓State.stitchPort_kept])
    | (split <;> try simp only [↓State.kept_rules, State.kept_foldl, State.kept_foldl_fst, State.kept_foldl_snd, implies_true,
        ite_self, dite_eq_ite, ↓State.modPdTile_kept, ↓State.unlock_kept, ↓State.modRadio_kept, ↓State.homeAt_kept,
        ↓State.slotYield_kept, ↓State.takeAct_kept, ↓State.endBurst_kept, ↓State.modSwap_kept, ↓State.modAn_kept,
        ↓State.checkStitch_kept, ↓State.laneLost_kept, ↓State.stitchPort_kept])
    | rfl

theorem State.swapBegin_kept (s : State) (w : SwapRun) : (State.swapBegin s w).kept = s.kept := by
  unfold State.swapBegin
  simp only [↓State.kept_rules, State.kept_foldl, State.kept_foldl_fst, State.kept_foldl_snd, implies_true, ite_self,
    dite_eq_ite, ↓State.modRadio_kept, ↓State.startTransit_kept, ↓State.modSwap_kept]

theorem State.modDir_kept (s : State) (tx : Bool) (f : BeamDir → BeamDir) : (State.modDir s tx f).kept = s.kept := by
  unfold State.modDir
  simp only [↓State.kept_rules, ite_self, dite_eq_ite]

theorem State.shadowSet_kept (s : State) (tx : Bool) (f : Bank → Bank) : (State.shadowSet s tx f).2.kept = s.kept :=
    by
  unfold State.shadowSet
  simp only [↓State.kept_rules, ite_self, dite_eq_ite, ↓refuse_kept, ↓done_kept, ↓State.modDir_kept]

theorem State.cutChannels_kept (s : State) (old : Bank) (new : Bank) (eff : ℕ) (again : Fin 32 → Bool) (elems : Bool)
    : (State.cutChannels s old new eff again elems).kept = s.kept := by
  unfold State.cutChannels
  try simp only [↓State.kept_rules, State.kept_foldl, State.kept_foldl_fst, State.kept_foldl_snd, implies_true,
    ite_self, dite_eq_ite, ↓State.chAperCut_kept]
  repeat'
    first
    | with_reducible rfl
    | ((with_reducible refine (State.kept_foldl _ (fun s a => ?_) _ _).trans ?_) <;>
        try simp only [↓State.kept_rules, State.kept_foldl, State.kept_foldl_fst, State.kept_foldl_snd, implies_true,
        ite_self, dite_eq_ite, ↓State.chAperCut_kept])
    | (split <;> try simp only [↓State.kept_rules, State.kept_foldl, State.kept_foldl_fst, State.kept_foldl_snd, implies_true,
        ite_self, dite_eq_ite, ↓State.chAperCut_kept])
    | rfl

theorem State.swapDir_kept (s : State) (tx : Bool) (eff : ℕ) (maskCh : Bool) (aper : BitVec 8) : (State.swapDir s tx
    eff maskCh aper).kept = s.kept := by
  unfold State.swapDir
  simp only [↓State.kept_rules, ite_self, dite_eq_ite, ↓State.modDir_kept]

theorem State.bindBank_kept (s : State) (w : SwapRun) (tx : Bool) (aper : BitVec 8) (eff : ℕ) : (State.bindBank s w tx
    aper eff).kept = s.kept := by
  unfold State.bindBank
  try simp only [↓State.kept_rules, State.kept_foldl, State.kept_foldl_fst, State.kept_foldl_snd, implies_true,
    ite_self, dite_eq_ite, ↓unbindTx_kept, ↓endRx_kept, ↓bindTx_kept, ↓rebindRx_kept]
  repeat'
    first
    | with_reducible rfl
    | ((with_reducible refine (State.kept_foldl _ (fun s a => ?_) _ _).trans ?_) <;>
        try simp only [↓State.kept_rules, State.kept_foldl, State.kept_foldl_fst, State.kept_foldl_snd, implies_true,
        ite_self, dite_eq_ite, ↓unbindTx_kept, ↓endRx_kept, ↓bindTx_kept, ↓rebindRx_kept])
    | (split <;> try simp only [↓State.kept_rules, State.kept_foldl, State.kept_foldl_fst, State.kept_foldl_snd, implies_true,
        ite_self, dite_eq_ite, ↓unbindTx_kept, ↓endRx_kept, ↓bindTx_kept, ↓rebindRx_kept])
    | rfl

theorem State.swapEffect_kept (s : State) (w : SwapRun) (eff : ℕ) : (State.swapEffect s w eff).kept = s.kept := by
  unfold State.swapEffect
  simp only [↓State.kept_rules, State.kept_foldl, State.kept_foldl_fst, State.kept_foldl_snd, implies_true, ite_self,
    dite_eq_ite, ↓State.emit_kept, ↓State.actionDone_kept, ↓State.burstEnd_kept, ↓State.sourcesLost_kept,
    ↓State.rehorizon_kept, ↓State.cutChannels_kept, ↓State.swapDir_kept, ↓State.endPicks_kept, ↓State.bindBank_kept]

theorem State.txLateBy_kept (s : State) (elem : Bool) (b : ℕ) (n : ℕ) : (State.txLateBy s elem b n).kept = s.kept :=
    by
  unfold State.txLateBy
  try simp only [↓State.kept_rules, ite_self, dite_eq_ite]
  repeat'
    first
    | with_reducible rfl
    | ((with_reducible refine (State.kept_foldl _ (fun s a => ?_) _ _).trans ?_) <;>
        try simp only [↓State.kept_rules, ite_self, dite_eq_ite])
    | (split <;> try simp only [↓State.kept_rules, ite_self, dite_eq_ite])
    | rfl

theorem State.txEnter_kept (s : State) (f : Fin 64) (elem : Bool) (b : ℕ) (rate : BitVec 3) (preset : BitVec 2) (time
    : ℕ) (len : ℕ) (xs : List (List Cplx)) : (State.txEnter s f elem b rate preset time len xs).kept = s.kept := by
  unfold State.txEnter
  simp only [↓State.kept_rules, ite_self, dite_eq_ite, ↓State.txFree_kept, ↓State.txLateBy_kept]

theorem State.swapAdd_kept (s : State) (w : SwapRun) : (State.swapAdd s w).kept = s.kept := by
  unfold State.swapAdd
  simp only [↓State.kept_rules, ite_self, dite_eq_ite]

end Sys2Proof.Machine
end

