-- ==== Sys2Proof/Laws/KeptActOps.lean ====
section
/-! SUPPORT. The queue and the one-time programmable memory under the operations of Machine/ActOps.lean. -/

set_option linter.all false

namespace Sys2Proof.Machine

theorem State.enqueue_kept (s : State) (q : Fin 9) (a : QAct) : (State.enqueue s q a).kept = s.kept := by
  unfold State.enqueue
  simp only [↓State.kept_rules, ite_self, dite_eq_ite, ↓State.modQueue_kept]

theorem State.modWin_kept (s : State) (w : Fin 64) (f : Window → Window) : (State.modWin s w f).kept = s.kept := by
  unfold State.modWin
  simp only [↓State.kept_rules, ite_self, dite_eq_ite]

theorem State.discard_kept (s : State) (q : Fin 9) (a : QAct) (st : BitVec 8) : (State.discard s q a st).kept = s.kept
    := by
  unfold State.discard
  try simp only [↓State.kept_rules, ite_self, dite_eq_ite, ↓State.emit_kept, ↓State.finishAct_kept,
    ↓State.modRadio_kept, ↓State.swapDrop_kept, ↓State.slotCancel_kept]
  repeat'
    first
    | with_reducible rfl
    | ((with_reducible refine (State.kept_foldl _ (fun s a => ?_) _ _).trans ?_) <;>
        try simp only [↓State.kept_rules, ite_self, dite_eq_ite, ↓State.emit_kept, ↓State.finishAct_kept,
        ↓State.modRadio_kept, ↓State.swapDrop_kept, ↓State.slotCancel_kept])
    | (split <;> try simp only [↓State.kept_rules, ite_self, dite_eq_ite, ↓State.emit_kept, ↓State.finishAct_kept,
        ↓State.modRadio_kept, ↓State.swapDrop_kept, ↓State.slotCancel_kept])
    | rfl

theorem State.dropBound_kept (s : State) (w : Fin 64) : (State.dropBound s w).kept = s.kept := by
  unfold State.dropBound
  simp only [↓State.kept_rules, State.kept_foldl, State.kept_foldl_fst, State.kept_foldl_snd, implies_true, ite_self,
    dite_eq_ite, ↓State.discard_kept]

theorem State.winEmpty_kept (s : State) (w : Fin 64) : (State.winEmpty s w).kept = s.kept := by
  unfold State.winEmpty
  simp only [↓State.kept_rules, ite_self, dite_eq_ite, ↓State.modWin_kept, ↓State.closeBound_kept,
    ↓State.dropBound_kept]

theorem State.winSetOpen_kept (s : State) (w : Fin 64) (t : Time) : (State.winSetOpen s w t).kept = s.kept := by
  unfold State.winSetOpen
  try simp only [↓State.kept_rules, ite_self, dite_eq_ite, ↓State.modWin_kept, ↓State.winEmpty_kept]
  repeat'
    first
    | with_reducible rfl
    | ((with_reducible refine (State.kept_foldl _ (fun s a => ?_) _ _).trans ?_) <;>
        try simp only [↓State.kept_rules, ite_self, dite_eq_ite, ↓State.modWin_kept, ↓State.winEmpty_kept])
    | (split <;> try simp only [↓State.kept_rules, ite_self, dite_eq_ite, ↓State.modWin_kept, ↓State.winEmpty_kept])
    | rfl

theorem State.unholdHead_kept (s : State) (q : Fin 9) (a : QAct) : (State.unholdHead s q a).kept = s.kept := by
  unfold State.unholdHead
  simp only [↓State.kept_rules, ite_self, dite_eq_ite, ↓State.modQueue_kept]

theorem State.takeState_kept (s : State) (t : Fin 8) (a : QAct) (tgt : RState) (dwell : ℕ) : Take.Keeps s
    (State.takeState s t a tgt dwell) := by
  unfold State.takeState
  try simp only [↓State.kept_rules, ↓Take.keeps_rules, ite_self, dite_eq_ite, ↓State.slotEnd_kept,
    ↓State.takeRadioState_kept]
  repeat'
    first
    | with_reducible rfl
    | exact Take.Keeps.of_eq (State.takeRadioState_kept _ _ _ _ _) (by assumption)
    | ((with_reducible refine (State.kept_foldl _ (fun s a => ?_) _ _).trans ?_) <;>
        try simp only [↓State.kept_rules, ↓Take.keeps_rules, ite_self, dite_eq_ite, ↓State.slotEnd_kept,
        ↓State.takeRadioState_kept])
    | (split <;> try simp only [↓State.kept_rules, ↓Take.keeps_rules, ite_self, dite_eq_ite, ↓State.slotEnd_kept,
        ↓State.takeRadioState_kept])
    | rfl

theorem State.takePick_kept (s : State) (t : Fin 8) (a : QAct) (g : Fin 8) (m : PickMode) : Take.Keeps s
    (State.takePick s t a g m) := by
  unfold State.takePick
  simp only [↓State.kept_rules, ↓Take.keeps_rules, ite_self, dite_eq_ite, ↓State.modPick_kept, ↓State.finishAct_kept,
    ↓State.pickAbort_kept]

theorem State.takeFem_kept (s : State) (t : Fin 8) (a : QAct) (index : ℕ) (level : BitVec 8) : Take.Keeps s
    (State.takeFem s t a index level) := by
  unfold State.takeFem
  simp only [↓State.kept_rules, ↓Take.keeps_rules, ite_self, dite_eq_ite, ↓State.finishAct_kept, ↓State.modRes_kept]

theorem State.takeCalSlot_kept (s : State) (t : Fin 8) (a : QAct) (len : ℕ) : Take.Keeps s (State.takeCalSlot s t a
    len) := by
  unfold State.takeCalSlot
  simp only [↓State.kept_rules, ↓Take.keeps_rules, ite_self, dite_eq_ite, ↓State.modRadio_kept,
    ↓State.startTransit_kept, ↓State.slotCancel_kept, ↓State.takeAct_kept, ↓State.slotBegin_kept]

theorem State.takeTile_kept (s : State) (t : Fin 8) (a : QAct) : Take.Keeps s (State.takeTile s t a) := by
  unfold State.takeTile
  try simp only [↓State.kept_rules, ↓Take.keeps_rules, ite_self, dite_eq_ite, ↓State.takeState_kept,
    ↓State.takeRetune_kept, ↓State.takeTxBurst_kept, ↓State.takePick_kept, ↓State.takeFem_kept,
    ↓State.takeCalSlot_kept]
  repeat'
    first
    | with_reducible rfl
    | exact Take.Keeps.of_eq (State.takeCalSlot_kept _ _ _ _) (by assumption)
    | exact Take.Keeps.of_eq (State.takeFem_kept _ _ _ _ _) (by assumption)
    | exact Take.Keeps.of_eq (State.takePick_kept _ _ _ _ _) (by assumption)
    | exact Take.Keeps.of_eq (State.takeRetune_kept _ _ _ _ _) (by assumption)
    | exact Take.Keeps.of_eq (State.takeState_kept _ _ _ _ _) (by assumption)
    | exact Take.Keeps.of_eq (State.takeTxBurst_kept _ _ _ _) (by assumption)
    | ((with_reducible refine (State.kept_foldl _ (fun s a => ?_) _ _).trans ?_) <;>
        try simp only [↓State.kept_rules, ↓Take.keeps_rules, ite_self, dite_eq_ite, ↓State.takeState_kept,
        ↓State.takeRetune_kept, ↓State.takeTxBurst_kept, ↓State.takePick_kept, ↓State.takeFem_kept,
        ↓State.takeCalSlot_kept])
    | (split <;> try simp only [↓State.kept_rules, ↓Take.keeps_rules, ite_self, dite_eq_ite, ↓State.takeState_kept,
        ↓State.takeRetune_kept, ↓State.takeTxBurst_kept, ↓State.takePick_kept, ↓State.takeFem_kept,
        ↓State.takeCalSlot_kept])
    | rfl

theorem State.takeSwap_kept (s : State) (a : QAct) : Take.Keeps s (State.takeSwap s a) := by
  unfold State.takeSwap
  try simp only [↓State.kept_rules, ↓Take.keeps_rules, ite_self, dite_eq_ite, ↓State.swapTake_kept,
    ↓State.swapBegin_kept]
  repeat'
    first
    | with_reducible rfl
    | ((with_reducible refine (State.kept_foldl _ (fun s a => ?_) _ _).trans ?_) <;>
        try simp only [↓State.kept_rules, ↓Take.keeps_rules, ite_self, dite_eq_ite, ↓State.swapTake_kept,
        ↓State.swapBegin_kept])
    | (split <;> try simp only [↓State.kept_rules, ↓Take.keeps_rules, ite_self, dite_eq_ite, ↓State.swapTake_kept,
        ↓State.swapBegin_kept])
    | rfl

theorem State.anOp_kept (s : State) (op : AnOp) (a : Fin 9) : (State.anOp s op a).kept = s.kept := by
  unfold State.anOp
  try simp only [↓State.kept_rules, ite_self, dite_eq_ite, ↓State.applySource_kept, ↓State.askSwap_kept,
    ↓State.anRestart_kept]
  repeat'
    first
    | with_reducible rfl
    | ((with_reducible refine (State.kept_foldl _ (fun s a => ?_) _ _).trans ?_) <;>
        try simp only [↓State.kept_rules, ite_self, dite_eq_ite, ↓State.applySource_kept, ↓State.askSwap_kept,
        ↓State.anRestart_kept])
    | (split <;> try simp only [↓State.kept_rules, ite_self, dite_eq_ite, ↓State.applySource_kept, ↓State.askSwap_kept,
        ↓State.anRestart_kept])
    | rfl

theorem State.swapWith_kept (s : State) (a : QAct) : (State.swapWith s a).kept = s.kept := by
  unfold State.swapWith
  try simp only [↓State.kept_rules, ite_self, dite_eq_ite, ↓State.takeSwap_kept]
  repeat'
    first
    | with_reducible rfl
    | exact Take.Keeps.of_eq (State.takeSwap_kept _ _) (by assumption)
    | ((with_reducible refine (State.kept_foldl _ (fun s a => ?_) _ _).trans ?_) <;>
        try simp only [↓State.kept_rules, ite_self, dite_eq_ite, ↓State.takeSwap_kept])
    | (split <;> try simp only [↓State.kept_rules, ite_self, dite_eq_ite, ↓State.takeSwap_kept])
    | rfl

theorem State.takeDevice_kept (s : State) (a : QAct) : Take.Keeps s (State.takeDevice s a) := by
  unfold State.takeDevice
  try simp only [↓State.kept_rules, ↓Take.keeps_rules, State.kept_foldl, State.kept_foldl_fst, State.kept_foldl_snd,
    implies_true, ite_self, dite_eq_ite, ↓State.laneState_kept, ↓State.finishAct_kept, ↓State.takeSwap_kept,
    ↓State.arm_kept, ↓State.softFire_kept, ↓State.anOp_kept, ↓State.swapWith_kept]
  repeat'
    first
    | with_reducible rfl
    | exact Take.Keeps.of_eq (State.takeSwap_kept _ _) (by assumption)
    | ((with_reducible refine (State.kept_foldl _ (fun s a => ?_) _ _).trans ?_) <;>
        try simp only [↓State.kept_rules, ↓Take.keeps_rules, State.kept_foldl, State.kept_foldl_fst, State.kept_foldl_snd,
        implies_true, ite_self, dite_eq_ite, ↓State.laneState_kept, ↓State.finishAct_kept, ↓State.takeSwap_kept,
        ↓State.arm_kept, ↓State.softFire_kept, ↓State.anOp_kept, ↓State.swapWith_kept])
    | (split <;> try simp only [↓State.kept_rules, ↓Take.keeps_rules, State.kept_foldl, State.kept_foldl_fst, State.kept_foldl_snd,
        implies_true, ite_self, dite_eq_ite, ↓State.laneState_kept, ↓State.finishAct_kept, ↓State.takeSwap_kept,
        ↓State.arm_kept, ↓State.softFire_kept, ↓State.anOp_kept, ↓State.swapWith_kept])
    | rfl

theorem State.holdHead_kept (s : State) (q : Fin 9) (a : QAct) (why : ℕ) : (State.holdHead s q a why).kept = s.kept :=
    by
  unfold State.holdHead
  try simp only [↓State.kept_rules, ite_self, dite_eq_ite, ↓State.modQueue_kept, ↓State.modRadio_kept]
  repeat'
    first
    | with_reducible rfl
    | ((with_reducible refine (State.kept_foldl _ (fun s a => ?_) _ _).trans ?_) <;>
        try simp only [↓State.kept_rules, ite_self, dite_eq_ite, ↓State.modQueue_kept, ↓State.modRadio_kept])
    | (split <;> try simp only [↓State.kept_rules, ite_self, dite_eq_ite, ↓State.modQueue_kept, ↓State.modRadio_kept])
    | rfl

theorem State.judge_kept (s : State) (q : Fin 9) : (State.judge s q).kept = s.kept := by
  unfold State.judge
  split
  · rfl
  rename_i a _
  have ht : Take.Keeps s (match fin? 8 q.val with
      | some t => s.takeTile t a
      | none => s.takeDevice a) := by
    split
    · exact State.takeTile_kept _ _ _
    · exact State.takeDevice_kept _ _
  simp only [↓State.kept_rules, ite_self, dite_eq_ite, ↓State.finishAct_kept, ↓State.discard_kept, ↓State.unholdHead_kept,
    ↓State.takeTile_kept, ↓State.takeDevice_kept, ↓State.holdHead_kept]
  repeat'
    first
    | with_reducible rfl
    | (rename_i u hu; exact Take.Keeps.of_eq ht hu)
    | (split <;> try simp only [↓State.kept_rules, ite_self, dite_eq_ite, ↓State.finishAct_kept, ↓State.discard_kept, ↓State.unholdHead_kept,
    ↓State.takeTile_kept, ↓State.takeDevice_kept, ↓State.holdHead_kept])

theorem State.judgeKind_kept (s : State) (q : Fin 9) (kind : ℕ) : (State.judgeKind s q kind).kept = s.kept := by
  unfold State.judgeKind
  try simp only [↓State.kept_rules, ite_self, dite_eq_ite, ↓State.judge_kept]
  repeat'
    first
    | with_reducible rfl
    | ((with_reducible refine (State.kept_foldl _ (fun s a => ?_) _ _).trans ?_) <;>
        try simp only [↓State.kept_rules, ite_self, dite_eq_ite, ↓State.judge_kept])
    | (split <;> try simp only [↓State.kept_rules, ite_self, dite_eq_ite, ↓State.judge_kept])
    | rfl

theorem State.winOpen_kept (s : State) (w : Fin 64) : (State.winOpen s w).kept = s.kept := by
  unfold State.winOpen
  simp only [↓State.kept_rules, ite_self, dite_eq_ite, ↓State.emitNow_kept, ↓State.modWin_kept, ↓State.calYieldWin_kept,
    ↓State.fire_kept]

theorem State.winClose_kept (s : State) (w : Fin 64) (t : Time) (deleted : Bool) : (State.winClose s w t deleted).kept
    = s.kept := by
  unfold State.winClose
  simp only [↓State.kept_rules, ite_self, dite_eq_ite, ↓State.modWin_kept, ↓State.closeBound_kept,
    ↓State.dropBound_kept, ↓State.fire_kept]

end Sys2Proof.Machine
end

