-- ==== Sys2Proof/Laws/KeptActions.lean ====
section
/-! SUPPORT. The queue and the one-time programmable memory under the operations of Machine/Actions.lean. -/

set_option linter.all false

namespace Sys2Proof.Machine

theorem execFemLevels_kept (t : Fin 8) (s : State) : Keeps s (execFemLevels t s) := by
  unfold execFemLevels
  simp only [↓State.kept_rules, ↓keeps_rules, ite_self, dite_eq_ite, ↓State.judgeKind_kept]

theorem execPickCtl_kept (t : Fin 8) (s : State) : Keeps s (execPickCtl t s) := by
  unfold execPickCtl
  simp only [↓State.kept_rules, ↓keeps_rules, ite_self, dite_eq_ite, ↓State.judgeKind_kept]

theorem execBankSwap_kept (s : State) : Keeps s (execBankSwap s) := by
  unfold execBankSwap
  simp only [↓State.kept_rules, ↓keeps_rules, ite_self, dite_eq_ite, ↓State.judgeKind_kept]

theorem execCalSlot_kept (t : Fin 8) (s : State) : Keeps s (execCalSlot t s) := by
  unfold execCalSlot
  simp only [↓State.kept_rules, ↓keeps_rules, ite_self, dite_eq_ite, ↓State.judgeKind_kept]

theorem execSwapEffectiveSample_kept (s : State) : Keeps s (execSwapEffectiveSample s) := by
  unfold execSwapEffectiveSample
  try simp only [↓State.kept_rules, ↓keeps_rules, ite_self, dite_eq_ite, ↓State.judgePicks_kept, ↓State.swapEffect_kept,
    ↓State.relead_kept]
  repeat'
    first
    | with_reducible rfl
    | ((with_reducible refine (State.kept_foldl _ (fun s a => ?_) _ _).trans ?_) <;>
        try simp only [↓State.kept_rules, ↓keeps_rules, ite_self, dite_eq_ite, ↓State.judgePicks_kept, ↓State.swapEffect_kept,
        ↓State.relead_kept])
    | (split <;> try simp only [↓State.kept_rules, ↓keeps_rules, ite_self, dite_eq_ite, ↓State.judgePicks_kept, ↓State.swapEffect_kept,
        ↓State.relead_kept])
    | rfl

theorem execTrigOutEdge_kept (s : State) : Keeps s (execTrigOutEdge s) := by
  unfold execTrigOutEdge
  simp only [↓State.kept_rules, ↓keeps_rules, ite_self, dite_eq_ite, ↓State.judgeKind_kept]

theorem execAnalyserCfg_kept (s : State) : Keeps s (execAnalyserCfg s) := by
  unfold execAnalyserCfg
  simp only [↓State.kept_rules, ↓keeps_rules, ite_self, dite_eq_ite, ↓State.judgeKind_kept]

theorem execActQuery_kept (h : CmdHdr) (handle : BitVec 16) (queue : BitVec 8) (s : State) : Keeps s (execActQuery h
    handle queue s) := by
  unfold execActQuery
  refine ⟨_, rfl, serve_kept _ _ _ _ (fun u => ?_)⟩
  try simp only [↓State.kept_rules, ↓keeps_rules, implies_true, ite_self, dite_eq_ite, ↓refuse_kept, ↓serve_kept,
    ↓doneR_kept]
  repeat'
    first
    | with_reducible rfl
    | ((refine checks_kept _ _ _ ?_) <;> try simp only [↓State.kept_rules, ↓keeps_rules, implies_true, ite_self, dite_eq_ite, ↓refuse_kept, ↓serve_kept,
        ↓doneR_kept])
    | ((with_reducible refine (State.kept_foldl _ (fun s a => ?_) _ _).trans ?_) <;>
        try simp only [↓State.kept_rules, ↓keeps_rules, implies_true, ite_self, dite_eq_ite, ↓refuse_kept, ↓serve_kept,
        ↓doneR_kept])
    | (split <;> try simp only [↓State.kept_rules, ↓keeps_rules, implies_true, ite_self, dite_eq_ite, ↓refuse_kept, ↓serve_kept,
        ↓doneR_kept])
    | rfl

theorem execLaneState_kept (s : State) : Keeps s (execLaneState s) := by
  unfold execLaneState
  simp only [↓State.kept_rules, ↓keeps_rules, ite_self, dite_eq_ite, ↓State.judgeKind_kept]

theorem execActCancel_kept (h : CmdHdr) (handle : BitVec 16) (s : State) : Keeps s (execActCancel h handle s) := by
  unfold execActCancel
  refine ⟨_, rfl, serve_kept _ _ _ _ (fun u => ?_)⟩
  try simp only [↓State.kept_rules, ↓keeps_rules, implies_true, ite_self, dite_eq_ite, ↓refuse_kept, ↓serve_kept,
    ↓done_kept, ↓State.keepOutcome_kept, ↓State.dropAct_kept, ↓State.swapDrop_kept, ↓State.slotCancel_kept]
  repeat'
    first
    | with_reducible rfl
    | ((refine checks_kept _ _ _ ?_) <;> try simp only [↓State.kept_rules, ↓keeps_rules, implies_true, ite_self, dite_eq_ite, ↓refuse_kept, ↓serve_kept,
        ↓done_kept, ↓State.keepOutcome_kept, ↓State.dropAct_kept, ↓State.swapDrop_kept, ↓State.slotCancel_kept])
    | ((with_reducible refine (State.kept_foldl _ (fun s a => ?_) _ _).trans ?_) <;>
        try simp only [↓State.kept_rules, ↓keeps_rules, implies_true, ite_self, dite_eq_ite, ↓refuse_kept, ↓serve_kept,
        ↓done_kept, ↓State.keepOutcome_kept, ↓State.dropAct_kept, ↓State.swapDrop_kept, ↓State.slotCancel_kept])
    | (split <;> try simp only [↓State.kept_rules, ↓keeps_rules, implies_true, ite_self, dite_eq_ite, ↓refuse_kept, ↓serve_kept,
        ↓done_kept, ↓State.keepOutcome_kept, ↓State.dropAct_kept, ↓State.swapDrop_kept, ↓State.slotCancel_kept])
    | rfl

theorem execRetune_kept (t : Fin 8) (s : State) : Keeps s (execRetune t s) := by
  unfold execRetune
  simp only [↓State.kept_rules, ↓keeps_rules, ite_self, dite_eq_ite, ↓State.judgeKind_kept]

theorem execActEnqueue_kept (h : CmdHdr) (queue : BitVec 8) (kind : BitVec 8) (time : BitVec 72) (tol : BitVec 32)
    (window : BitVec 8) (params : List (BitVec 8)) (s : State) : Keeps s (execActEnqueue h queue kind time tol window
    params s) := by
  unfold execActEnqueue
  refine ⟨_, rfl, serve_kept _ _ _ _ (fun u => ?_)⟩
  try simp only [↓State.kept_rules, ↓keeps_rules, implies_true, ite_self, dite_eq_ite, ↓State.enqueue_kept,
    ↓refuse_kept, ↓serve_kept, ↓checks_kept, ↓doneR_kept, ↓State.calYieldAct_kept, ↓State.swapAdd_kept]
  repeat'
    first
    | with_reducible rfl
    | ((refine checks_kept _ _ _ ?_) <;> try simp only [↓State.kept_rules, ↓keeps_rules, implies_true, ite_self, dite_eq_ite, ↓State.enqueue_kept,
        ↓refuse_kept, ↓serve_kept, ↓checks_kept, ↓doneR_kept, ↓State.calYieldAct_kept, ↓State.swapAdd_kept])
    | ((with_reducible refine (State.kept_foldl _ (fun s a => ?_) _ _).trans ?_) <;>
        try simp only [↓State.kept_rules, ↓keeps_rules, implies_true, ite_self, dite_eq_ite, ↓State.enqueue_kept,
        ↓refuse_kept, ↓serve_kept, ↓checks_kept, ↓doneR_kept, ↓State.calYieldAct_kept, ↓State.swapAdd_kept])
    | (split <;> try simp only [↓State.kept_rules, ↓keeps_rules, implies_true, ite_self, dite_eq_ite, ↓State.enqueue_kept,
        ↓refuse_kept, ↓serve_kept, ↓checks_kept, ↓doneR_kept, ↓State.calYieldAct_kept, ↓State.swapAdd_kept])
    | rfl

theorem execActionToleranceExpiry_kept (q : Fin 9) (s : State) : Keeps s (execActionToleranceExpiry q s) := by
  unfold execActionToleranceExpiry
  try simp only [↓State.kept_rules, ↓keeps_rules, ite_self, dite_eq_ite, ↓State.judge_kept]
  repeat'
    first
    | with_reducible rfl
    | ((with_reducible refine (State.kept_foldl _ (fun s a => ?_) _ _).trans ?_) <;>
        try simp only [↓State.kept_rules, ↓keeps_rules, ite_self, dite_eq_ite, ↓State.judge_kept])
    | (split <;> try simp only [↓State.kept_rules, ↓keeps_rules, ite_self, dite_eq_ite, ↓State.judge_kept])
    | rfl

theorem execActionHoldRelease_kept (q : Fin 9) (s : State) : Keeps s (execActionHoldRelease q s) := by
  unfold execActionHoldRelease
  try simp only [↓State.kept_rules, ↓keeps_rules, ite_self, dite_eq_ite, ↓State.judge_kept]
  repeat'
    first
    | with_reducible rfl
    | ((with_reducible refine (State.kept_foldl _ (fun s a => ?_) _ _).trans ?_) <;>
        try simp only [↓State.kept_rules, ↓keeps_rules, ite_self, dite_eq_ite, ↓State.judge_kept])
    | (split <;> try simp only [↓State.kept_rules, ↓keeps_rules, ite_self, dite_eq_ite, ↓State.judge_kept])
    | rfl

theorem execRadioState_kept (t : Fin 8) (s : State) : Keeps s (execRadioState t s) := by
  unfold execRadioState
  simp only [↓State.kept_rules, ↓keeps_rules, ite_self, dite_eq_ite, ↓State.judgeKind_kept]

theorem execTxBurst_kept (t : Fin 8) (s : State) : Keeps s (execTxBurst t s) := by
  unfold execTxBurst
  simp only [↓State.kept_rules, ↓keeps_rules, ite_self, dite_eq_ite, ↓State.judgeKind_kept]

theorem execAcqArm_kept (s : State) : Keeps s (execAcqArm s) := by
  unfold execAcqArm
  simp only [↓State.kept_rules, ↓keeps_rules, ite_self, dite_eq_ite, ↓State.judgeKind_kept]

theorem execSoftTrigger_kept (s : State) : Keeps s (execSoftTrigger s) := by
  unfold execSoftTrigger
  simp only [↓State.kept_rules, ↓keeps_rules, ite_self, dite_eq_ite, ↓State.judgeKind_kept]

end Sys2Proof.Machine
end

