-- ==== Sys2Proof/Laws/KeptBeams.lean ====
section
/-! SUPPORT. The queue and the one-time programmable memory under the operations of Machine/Beams.lean. -/

set_option linter.all false

namespace Sys2Proof.Machine

theorem execBeamDelays_kept (h : CmdHdr) (dir : BitVec 8) (first : BitVec 8) (count : BitVec 8) (form : BitVec 8)
    (delays : List (BitVec 16)) (ptr : BitVec 32) (s : State) : Keeps s (execBeamDelays h dir first count form delays
    ptr s) := by
  unfold execBeamDelays
  simp only [↓State.kept_rules, ↓keeps_rules, implies_true, ite_self, dite_eq_ite, ↓serve_kept, ↓checks_kept,
    ↓State.shadowSet_kept]

theorem execBeamWeights_kept (h : CmdHdr) (dir : BitVec 8) (beam : BitVec 8) (port : BitVec 8) (first : BitVec 8)
    (count : BitVec 8) (ptr : BitVec 32) (s : State) : Keeps s (execBeamWeights h dir beam port first count ptr s) :=
    by
  unfold execBeamWeights
  simp only [↓State.kept_rules, ↓keeps_rules, State.kept_foldl, State.kept_foldl_fst, State.kept_foldl_snd,
    implies_true, ite_self, dite_eq_ite, ↓serve_kept, ↓checks_kept, ↓State.shadowSet_kept]

theorem execHkFilterSet_kept (h : CmdHdr) (cls : BitVec 8) (preset : BitVec 8) (s : State) : Keeps s (execHkFilterSet
    h cls preset s) := by
  unfold execHkFilterSet
  simp only [↓State.kept_rules, ↓keeps_rules, implies_true, ite_self, dite_eq_ite, ↓serve_kept, ↓checks_kept,
    ↓done_kept]

theorem execBeamQuery_kept (h : CmdHdr) (dir : BitVec 8) (bank : BitVec 8) (beam : BitVec 8) (s : State) : Keeps s
    (execBeamQuery h dir bank beam s) := by
  unfold execBeamQuery
  simp only [↓State.kept_rules, ↓keeps_rules, implies_true, ite_self, dite_eq_ite, ↓serve_kept, ↓checks_kept,
    ↓doneR_kept]

theorem execBeamBankCopy_kept (h : CmdHdr) (dirs : BitVec 8) (s : State) : Keeps s (execBeamBankCopy h dirs s) := by
  unfold execBeamBankCopy
  simp only [↓State.kept_rules, ↓keeps_rules, implies_true, ite_self, dite_eq_ite, ↓serve_kept, ↓checks_kept,
    ↓done_kept]

theorem execChanFrontSet_kept (h : CmdHdr) (dirs : BitVec 8) (rx : BitVec 8) (tx : BitVec 8) (s : State) : Keeps s
    (execChanFrontSet h dirs rx tx s) := by
  unfold execChanFrontSet
  simp only [↓State.kept_rules, ↓keeps_rules, implies_true, ite_self, dite_eq_ite, ↓serve_kept, ↓checks_kept,
    ↓done_kept, ↓State.rehorizon_kept, ↓State.judgePicks_kept]

theorem execChanInfo_kept (h : CmdHdr) (dir : BitVec 8) (front : BitVec 8) (narrow : BitVec 8) (rate : BitVec 8) (s :
    State) : Keeps s (execChanInfo h dir front narrow rate s) := by
  unfold execChanInfo
  simp only [↓State.kept_rules, ↓keeps_rules, implies_true, ite_self, dite_eq_ite, ↓serve_kept, ↓checks_kept,
    ↓doneR_kept]

theorem execBeamCfg_kept (h : CmdHdr) (dir : BitVec 8) (beam : BitVec 8) (enable : BitVec 8) (rate : BitVec 8) (preset
    : BitVec 8) (format : BitVec 8) (flow : BitVec 8) (freq : BitVec 32) (shift : BitVec 8) (s : State) : Keeps s
    (execBeamCfg h dir beam enable rate preset format flow freq shift s) := by
  unfold execBeamCfg
  refine ⟨_, rfl, serve_kept _ _ _ _ (fun u => ?_)⟩
  try simp only [↓State.kept_rules, ↓keeps_rules, implies_true, ite_self, dite_eq_ite, ↓refuse_kept, ↓serve_kept,
    ↓checks_kept, ↓State.shadowSet_kept]
  repeat'
    first
    | with_reducible rfl
    | ((refine checks_kept _ _ _ ?_) <;> try simp only [↓State.kept_rules, ↓keeps_rules, implies_true, ite_self, dite_eq_ite, ↓refuse_kept, ↓serve_kept,
        ↓checks_kept, ↓State.shadowSet_kept])
    | ((with_reducible refine (State.kept_foldl _ (fun s a => ?_) _ _).trans ?_) <;>
        try simp only [↓State.kept_rules, ↓keeps_rules, implies_true, ite_self, dite_eq_ite, ↓refuse_kept, ↓serve_kept,
        ↓checks_kept, ↓State.shadowSet_kept])
    | (split <;> try simp only [↓State.kept_rules, ↓keeps_rules, implies_true, ite_self, dite_eq_ite, ↓refuse_kept, ↓serve_kept,
        ↓checks_kept, ↓State.shadowSet_kept])
    | rfl

theorem execElemCfg_kept (h : CmdHdr) (dir : BitVec 8) (mode : BitVec 8) (rate : BitVec 8) (preset : BitVec 8) (format
    : BitVec 8) (flows : List (BitVec 8)) (txShift : BitVec 8) (s : State) : Keeps s (execElemCfg h dir mode rate
    preset format flows txShift s) := by
  unfold execElemCfg
  simp only [↓State.kept_rules, ↓keeps_rules, implies_true, ite_self, dite_eq_ite, ↓serve_kept, ↓checks_kept,
    ↓State.shadowSet_kept]

theorem execTxIqPacket_kept (pkt : RxPkt) (s : State) : Keeps s (execTxIqPacket pkt s) := by
  unfold execTxIqPacket
  try simp only [↓State.kept_rules, ↓keeps_rules, ite_self, dite_eq_ite, ↓State.emitNow_kept, ↓State.txEnter_kept]
  repeat'
    first
    | with_reducible rfl
    | exact State.rxScreen_kept _ _ _ _ _ (by assumption)
    | ((with_reducible refine (State.kept_foldl _ (fun s a => ?_) _ _).trans ?_) <;>
        try simp only [↓State.kept_rules, ↓keeps_rules, ite_self, dite_eq_ite, ↓State.emitNow_kept, ↓State.txEnter_kept])
    | (split <;> try simp only [↓State.kept_rules, ↓keeps_rules, ite_self, dite_eq_ite, ↓State.emitNow_kept, ↓State.txEnter_kept])
    | rfl

end Sys2Proof.Machine
end

