-- ==== Sys2Proof/Laws/KeptCalibration.lean ====
section
/-! SUPPORT. The queue and the one-time programmable memory under the operations of Machine/Calibration.lean. -/

set_option linter.all false

namespace Sys2Proof.Machine

theorem execCalClaimStart_kept (t : Fin 8) (s : State) : Keeps s (execCalClaimStart t s) := by
  unfold execCalClaimStart
  try simp only [↓State.kept_rules, ↓keeps_rules, ite_self, dite_eq_ite, ↓State.modPath_kept, ↓State.noteMutes_kept,
    ↓State.modCal_kept, ↓State.modRes_kept, ↓State.markBus_kept]
  repeat'
    first
    | with_reducible rfl
    | ((with_reducible refine (State.kept_foldl _ (fun s a => ?_) _ _).trans ?_) <;>
        try simp only [↓State.kept_rules, ↓keeps_rules, ite_self, dite_eq_ite, ↓State.modPath_kept, ↓State.noteMutes_kept,
        ↓State.modCal_kept, ↓State.modRes_kept, ↓State.markBus_kept])
    | (split <;> try simp only [↓State.kept_rules, ↓keeps_rules, ite_self, dite_eq_ite, ↓State.modPath_kept, ↓State.noteMutes_kept,
        ↓State.modCal_kept, ↓State.modRes_kept, ↓State.markBus_kept])
    | rfl

theorem execCalStatus_kept (h : CmdHdr) (tile : BitVec 8) (s : State) : Keeps s (execCalStatus h tile s) := by
  unfold execCalStatus
  refine ⟨_, rfl, serve_kept _ _ _ _ (fun u => ?_)⟩
  try simp only [↓State.kept_rules, ↓keeps_rules, implies_true, ite_self, dite_eq_ite, ↓refuse_kept, ↓serve_kept,
    ↓doneR_kept]
  repeat'
    first
    | with_reducible rfl
    | ((refine checks_kept _ _ _ ?_) <;> try simp only [↓State.kept_rules, ↓keeps_rules, implies_true, ite_self, dite_eq_ite, ↓refuse_kept, ↓serve_kept,
        ↓doneR_kept])
    | ((with_reducible refine (State.kept_foldl _ (fun s a => ?_) _ _).trans ?_) <;>
        try simp only [↓State.kept_rules, ↓keeps_rules, implies_true, ite_self, dite_eq_ite, ↓refuse_kept, ↓serve_kept,
        ↓doneR_kept])
    | (split <;> try simp only [↓State.kept_rules, ↓keeps_rules, implies_true, ite_self, dite_eq_ite, ↓refuse_kept, ↓serve_kept,
        ↓doneR_kept])
    | rfl

theorem execCalibrationComplete_kept (t : Fin 8) (kind : Fin 8) (failing : BitVec 16) (tm : BitVec 16) (results : List
    (BitVec 16 × BitVec 16)) (s : State) : Keeps s (execCalibrationComplete t kind failing tm results s) := by
  unfold execCalibrationComplete
  try simp only [↓State.kept_rules, ↓keeps_rules, ite_self, dite_eq_ite, ↓State.calDone_kept, ↓State.calApply_kept]
  repeat'
    first
    | with_reducible rfl
    | ((with_reducible refine (State.kept_foldl _ (fun s a => ?_) _ _).trans ?_) <;>
        try simp only [↓State.kept_rules, ↓keeps_rules, ite_self, dite_eq_ite, ↓State.calDone_kept, ↓State.calApply_kept])
    | (split <;> try simp only [↓State.kept_rules, ↓keeps_rules, ite_self, dite_eq_ite, ↓State.calDone_kept, ↓State.calApply_kept])
    | rfl

theorem State.calAbortKind_kept (s : State) (t : Fin 8) (k : CalKind) : (s.calAbortKind t k).kept = s.kept := by
  unfold State.calAbortKind
  simp only
  rw [State.calDone_kept]
  have hy : ∀ (f : CalSlotRun → Bool) (s : State),
      ((List.finRange 8).foldl (fun s v => s.slotYield v f) s).kept = s.kept :=
    fun f s => State.kept_foldl _ (fun s v => State.slotYield_kept s v f) _ s
  split
  · split
    · rw [State.claimCut_kept, hy]
    · rw [hy]
  · rw [hy]

theorem execCalAbort_kept (h : CmdHdr) (kinds : BitVec 8) (tiles : BitVec 8) (s : State) : Keeps s (execCalAbort h
    kinds tiles s) := by
  refine ⟨_, rfl, serve_kept _ _ _ _ (fun u => ?_)⟩
  rw [done_kept]
  exact State.kept_foldl _ (fun s a => State.kept_foldl _ (fun s k => State.calAbortKind_kept s a k) _ _) _ _

theorem execCalPlacementCheck_kept (t : Fin 8) (s : State) : Keeps s (execCalPlacementCheck t s) := by
  unfold execCalPlacementCheck
  simp only [↓State.kept_rules, ↓keeps_rules, State.kept_foldl, State.kept_foldl_fst, State.kept_foldl_snd,
    implies_true, ite_self, dite_eq_ite, ↓State.judgeCal_kept]

theorem State.holdUp_kept (s : State) : (State.holdUp s).1.kept = s.kept := by
  unfold State.holdUp
  simp only [↓State.kept_rules, ite_self, dite_eq_ite]

theorem execCalStore_kept (h : CmdHdr) (s : State) : Keeps s (execCalStore h s) := by
  unfold execCalStore
  simp only [↓State.kept_rules, ↓keeps_rules, State.kept_foldl, State.kept_foldl_fst, State.kept_foldl_snd,
    implies_true, ite_self, dite_eq_ite, ↓refuse_kept, ↓serve_kept, ↓accepted_kept, ↓State.holdUp_kept, ↓State.firmwareDma_kept]

theorem execCalRun_kept (h : CmdHdr) (kinds : BitVec 8) (tiles : BitVec 8) (deadline : BitVec 72) (count : BitVec 8)
    (fcs : List (BitVec 64)) (s : State) : Keeps s (execCalRun h kinds tiles deadline count fcs s) := by
  unfold execCalRun
  refine ⟨_, rfl, serve_kept _ _ _ _ (fun u => ?_)⟩
  try simp only [↓State.kept_rules, ↓keeps_rules, State.kept_foldl, State.kept_foldl_fst, State.kept_foldl_snd,
    implies_true, ite_self, dite_eq_ite, ↓serve_kept, ↓checks_kept, ↓State.modCal_kept, ↓accepted_kept]
  repeat'
    first
    | with_reducible rfl
    | ((refine checks_kept _ _ _ ?_) <;> try simp only [↓State.kept_rules, ↓keeps_rules, State.kept_foldl, State.kept_foldl_fst, State.kept_foldl_snd,
        implies_true, ite_self, dite_eq_ite, ↓serve_kept, ↓checks_kept, ↓State.modCal_kept, ↓accepted_kept])
    | ((with_reducible refine (State.kept_foldl _ (fun s a => ?_) _ _).trans ?_) <;>
        try simp only [↓State.kept_rules, ↓keeps_rules, State.kept_foldl, State.kept_foldl_fst, State.kept_foldl_snd,
        implies_true, ite_self, dite_eq_ite, ↓serve_kept, ↓checks_kept, ↓State.modCal_kept, ↓accepted_kept])
    | (split <;> try simp only [↓State.kept_rules, ↓keeps_rules, State.kept_foldl, State.kept_foldl_fst, State.kept_foldl_snd,
        implies_true, ite_self, dite_eq_ite, ↓serve_kept, ↓checks_kept, ↓State.modCal_kept, ↓accepted_kept])
    | rfl

theorem execCalRefCfg_kept (h : CmdHdr) (path : BitVec 8) (level : BitVec 8) (s : State) : Keeps s (execCalRefCfg h
    path level s) := by
  unfold execCalRefCfg
  refine ⟨_, rfl, serve_kept _ _ _ _ (fun u => ?_)⟩
  try simp only [↓State.kept_rules, ↓keeps_rules, implies_true, ite_self, dite_eq_ite, ↓refuse_kept, ↓serve_kept,
    ↓checks_kept, ↓done_kept]
  repeat'
    first
    | with_reducible rfl
    | ((refine checks_kept _ _ _ ?_) <;> try simp only [↓State.kept_rules, ↓keeps_rules, implies_true, ite_self, dite_eq_ite, ↓refuse_kept, ↓serve_kept,
        ↓checks_kept, ↓done_kept])
    | ((with_reducible refine (State.kept_foldl _ (fun s a => ?_) _ _).trans ?_) <;>
        try simp only [↓State.kept_rules, ↓keeps_rules, implies_true, ite_self, dite_eq_ite, ↓refuse_kept, ↓serve_kept,
        ↓checks_kept, ↓done_kept])
    | (split <;> try simp only [↓State.kept_rules, ↓keeps_rules, implies_true, ite_self, dite_eq_ite, ↓refuse_kept, ↓serve_kept,
        ↓checks_kept, ↓done_kept])
    | rfl

theorem execCalClaimEnd_kept (t : Fin 8) (s : State) : Keeps s (execCalClaimEnd t s) := by
  unfold execCalClaimEnd
  try simp only [↓State.kept_rules, ↓keeps_rules, ite_self, dite_eq_ite, ↓State.modPath_kept, ↓State.modCal_kept,
    ↓State.slotFree_kept, ↓State.modPend_kept]
  repeat'
    first
    | with_reducible rfl
    | ((with_reducible refine (State.kept_foldl _ (fun s a => ?_) _ _).trans ?_) <;>
        try simp only [↓State.kept_rules, ↓keeps_rules, ite_self, dite_eq_ite, ↓State.modPath_kept, ↓State.modCal_kept,
        ↓State.slotFree_kept, ↓State.modPend_kept])
    | (split <;> try simp only [↓State.kept_rules, ↓keeps_rules, ite_self, dite_eq_ite, ↓State.modPath_kept, ↓State.modCal_kept,
        ↓State.slotFree_kept, ↓State.modPend_kept])
    | rfl

theorem execCalGapCfg_kept (h : CmdHdr) (windows : BitVec 64) (limit : BitVec 16) (s : State) : Keeps s (execCalGapCfg
    h windows limit s) := by
  unfold execCalGapCfg
  simp only [↓State.kept_rules, ↓keeps_rules, implies_true, ite_self, dite_eq_ite, ↓serve_kept, ↓checks_kept,
    ↓done_kept]

theorem execCalHoldupCfg_kept (h : CmdHdr) (cap : BitVec 32) (vmin : BitVec 16) (divider : BitVec 16) (ePage : BitVec
    16) (eErase : BitVec 16) (s : State) : Keeps s (execCalHoldupCfg h cap vmin divider ePage eErase s) := by
  unfold execCalHoldupCfg
  simp only [↓State.kept_rules, ↓keeps_rules, implies_true, ite_self, dite_eq_ite, ↓serve_kept, ↓checks_kept,
    ↓done_kept]

theorem execCalFlashCfg_kept (h : CmdHdr) (offA : BitVec 16) (offB : BitVec 16) (rmin : BitVec 8) (rmax : BitVec 8)
    (ren : BitVec 8) (s : State) : Keeps s (execCalFlashCfg h offA offB rmin rmax ren s) := by
  unfold execCalFlashCfg
  simp only [↓State.kept_rules, ↓keeps_rules, implies_true, ite_self, dite_eq_ite, ↓serve_kept, ↓checks_kept,
    ↓done_kept]

theorem execCalSetRead_kept (h : CmdHdr) (kind : BitVec 8) (object : BitVec 8) (point : BitVec 8) (ptr : BitVec 32) (s
    : State) : Keeps s (execCalSetRead h kind object point ptr s) := by
  unfold execCalSetRead
  refine ⟨_, rfl, serve_kept _ _ _ _ (fun u => ?_)⟩
  try simp only [↓State.kept_rules, ↓keeps_rules, implies_true, ite_self, dite_eq_ite, ↓refuse_kept, ↓serve_kept]
  repeat'
    first
    | with_reducible rfl
    | ((refine checks_kept _ _ _ ?_) <;> try simp only [↓State.kept_rules, ↓keeps_rules, implies_true, ite_self, dite_eq_ite, ↓refuse_kept, ↓serve_kept])
    | ((with_reducible refine (State.kept_foldl _ (fun s a => ?_) _ _).trans ?_) <;>
        try simp only [↓State.kept_rules, ↓keeps_rules, implies_true, ite_self, dite_eq_ite, ↓refuse_kept, ↓serve_kept])
    | (split <;> try simp only [↓State.kept_rules, ↓keeps_rules, implies_true, ite_self, dite_eq_ite, ↓refuse_kept, ↓serve_kept])
    | rfl

end Sys2Proof.Machine
end

