-- ==== Sys2Proof/Laws/KeptClockOps.lean ====
section
/-! SUPPORT. The queue and the one-time programmable memory under the operations of Machine/ClockOps.lean. -/

set_option linter.all false

namespace Sys2Proof.Machine

theorem State.pllDone_kept (s : State) (p : Fin 16) : (State.pllDone s p).kept = s.kept := by
  unfold State.pllDone
  try simp only [↓State.kept_rules, ite_self, dite_eq_ite, ↓State.emitNow_kept, ↓State.modPll_kept,
    ↓State.loConfirm_kept]
  repeat'
    first
    | with_reducible rfl
    | ((with_reducible refine (State.kept_foldl _ (fun s a => ?_) _ _).trans ?_) <;>
        try simp only [↓State.kept_rules, ite_self, dite_eq_ite, ↓State.emitNow_kept, ↓State.modPll_kept,
        ↓State.loConfirm_kept])
    | (split <;> try simp only [↓State.kept_rules, ite_self, dite_eq_ite, ↓State.emitNow_kept, ↓State.modPll_kept,
        ↓State.loConfirm_kept])
    | rfl

theorem State.rephase_kept (s : State) (v : ℕ) : (State.rephase s v).kept = s.kept := by
  unfold State.rephase
  try simp only [↓State.kept_rules, State.kept_foldl, State.kept_foldl_fst, State.kept_foldl_snd, implies_true,
    ite_self, dite_eq_ite, ↓State.modAn_kept, ↓State.closePend_kept]
  repeat'
    first
    | with_reducible rfl
    | ((with_reducible refine (State.kept_foldl _ (fun s a => ?_) _ _).trans ?_) <;>
        try simp only [↓State.kept_rules, State.kept_foldl, State.kept_foldl_fst, State.kept_foldl_snd, implies_true,
        ite_self, dite_eq_ite, ↓State.modAn_kept, ↓State.closePend_kept])
    | (split <;> try simp only [↓State.kept_rules, State.kept_foldl, State.kept_foldl_fst, State.kept_foldl_snd, implies_true,
        ite_self, dite_eq_ite, ↓State.modAn_kept, ↓State.closePend_kept])
    | rfl

theorem State.shiftTime_kept (s : State) (d : ℤ) : (State.shiftTime s d).kept = s.kept := by
  unfold State.shiftTime
  simp only [↓State.kept_rules, ite_self, dite_eq_ite]

theorem State.convSlew_kept (s : State) (t : Fin 8) : (State.convSlew s t).kept = s.kept := by
  unfold State.convSlew
  simp only [↓State.kept_rules, ite_self, dite_eq_ite]

theorem State.relock_kept (s : State) (p : Fin 16) (planned : Bool) : (State.relock s p planned).kept = s.kept := by
  unfold State.relock
  simp only [↓State.kept_rules, ite_self, dite_eq_ite, ↓State.modPll_kept]

theorem State.groupLost_kept (s : State) (p : Fin 16) : (State.groupLost s p).kept = s.kept := by
  unfold State.groupLost
  simp only [↓State.kept_rules, ite_self, dite_eq_ite]

theorem State.storeLost_kept (s : State) : (State.storeLost s).kept = s.kept := by
  unfold State.storeLost
  simp only [↓State.kept_rules, State.kept_foldl, State.kept_foldl_fst, State.kept_foldl_snd, implies_true, ite_self,
    dite_eq_ite, ↓State.emitNow_kept, ↓State.modCh_kept]

theorem State.pllLost_kept (s : State) (p : Fin 16) : (State.pllLost s p).kept = s.kept := by
  unfold State.pllLost
  try simp only [↓State.kept_rules, State.kept_foldl, State.kept_foldl_fst, State.kept_foldl_snd, implies_true,
    ite_self, dite_eq_ite, ↓State.emitNow_kept, ↓State.modRadio_kept, ↓State.modPll_kept, ↓State.noteMutes_kept,
    ↓State.relock_kept, ↓State.groupLost_kept, ↓State.storeLost_kept, ↓State.claimCut_kept]
  repeat'
    first
    | with_reducible rfl
    | ((with_reducible refine (State.kept_foldl _ (fun s a => ?_) _ _).trans ?_) <;>
        try simp only [↓State.kept_rules, State.kept_foldl, State.kept_foldl_fst, State.kept_foldl_snd, implies_true,
        ite_self, dite_eq_ite, ↓State.emitNow_kept, ↓State.modRadio_kept, ↓State.modPll_kept, ↓State.noteMutes_kept,
        ↓State.relock_kept, ↓State.groupLost_kept, ↓State.storeLost_kept, ↓State.claimCut_kept])
    | (split <;> try simp only [↓State.kept_rules, State.kept_foldl, State.kept_foldl_fst, State.kept_foldl_snd, implies_true,
        ite_self, dite_eq_ite, ↓State.emitNow_kept, ↓State.modRadio_kept, ↓State.modPll_kept, ↓State.noteMutes_kept,
        ↓State.relock_kept, ↓State.groupLost_kept, ↓State.storeLost_kept, ↓State.claimCut_kept])
    | rfl

theorem State.syncCheck_kept (s : State) (stamp : Time) : (State.syncCheck s stamp).kept = s.kept := by
  unfold State.syncCheck
  simp only [↓State.kept_rules, ite_self, dite_eq_ite, ↓State.emitNow_kept]

theorem State.loadTime_kept (s : State) (v : ℕ) (stamp : Time) (comp : BitVec 7) : (State.loadTime s v stamp
    comp).kept = s.kept := by
  unfold State.loadTime
  simp only [↓State.kept_rules, State.kept_foldl, State.kept_foldl_fst, State.kept_foldl_snd, implies_true, ite_self,
    dite_eq_ite, ↓State.emitNow_kept, ↓State.rephase_kept, ↓State.shiftTime_kept]

end Sys2Proof.Machine
end

