-- ==== Sys2Proof/Laws/KeptClocks.lean ====
section
/-! SUPPORT. The queue and the one-time programmable memory under the operations of Machine/Clocks.lean. -/

set_option linter.all false

namespace Sys2Proof.Machine

theorem execPllLockAcquired_kept (pll : Fin 16) (s : State) : Keeps s (execPllLockAcquired pll s) := by
  unfold execPllLockAcquired
  try simp only [↓State.kept_rules, ↓keeps_rules, ite_self, dite_eq_ite, ↓State.modPll_kept, ↓State.lockUp_kept,
    ↓State.pllDone_kept]
  repeat'
    first
    | with_reducible rfl
    | ((with_reducible refine (State.kept_foldl _ (fun s a => ?_) _ _).trans ?_) <;>
        try simp only [↓State.kept_rules, ↓keeps_rules, ite_self, dite_eq_ite, ↓State.modPll_kept, ↓State.lockUp_kept,
        ↓State.pllDone_kept])
    | (split <;> try simp only [↓State.kept_rules, ↓keeps_rules, ite_self, dite_eq_ite, ↓State.modPll_kept, ↓State.lockUp_kept,
        ↓State.pllDone_kept])
    | rfl

theorem execCkLockmonSel_kept (h : CmdHdr) (sel : BitVec 8) (s : State) : Keeps s (execCkLockmonSel h sel s) := by
  unfold execCkLockmonSel
  simp only [↓State.kept_rules, ↓keeps_rules, implies_true, ite_self, dite_eq_ite, ↓serve_kept, ↓checks_kept,
    ↓done_kept]

theorem execPllRelockRetry_kept (pll : Fin 16) (s : State) : Keeps s (execPllRelockRetry pll s) := by
  unfold execPllRelockRetry
  try simp only [↓State.kept_rules, ↓keeps_rules, ite_self, dite_eq_ite, ↓State.modPll_kept]
  repeat'
    first
    | with_reducible rfl
    | ((with_reducible refine (State.kept_foldl _ (fun s a => ?_) _ _).trans ?_) <;>
        try simp only [↓State.kept_rules, ↓keeps_rules, ite_self, dite_eq_ite, ↓State.modPll_kept])
    | (split <;> try simp only [↓State.kept_rules, ↓keeps_rules, ite_self, dite_eq_ite, ↓State.modPll_kept])
    | rfl

theorem execRefclkMissingDetect_kept (s : State) : Keeps s (execRefclkMissingDetect s) := by
  unfold execRefclkMissingDetect
  simp only [↓State.kept_rules, ↓keeps_rules, State.kept_foldl, State.kept_foldl_fst, State.kept_foldl_snd,
    implies_true, ite_self, dite_eq_ite, ↓State.emitNow_kept, ↓State.pllLost_kept]

theorem execPllLockLoss_kept (pll : Fin 16) (s : State) : Keeps s (execPllLockLoss pll s) := by
  unfold execPllLockLoss
  simp only [↓State.kept_rules, ↓keeps_rules, ite_self, dite_eq_ite, ↓State.pllLost_kept]

theorem execRefclkReturn_kept (s : State) : Keeps s (execRefclkReturn s) := by
  unfold execRefclkReturn
  simp only [↓State.kept_rules, ↓keeps_rules, ite_self, dite_eq_ite, ↓State.emitNow_kept]

theorem execSyncEdge_kept (frac : BitVec 8) (lowBefore : Bool) (s : State) : Keeps s (execSyncEdge frac lowBefore s)
    := by
  unfold execSyncEdge
  simp only [↓State.kept_rules, ↓keeps_rules, ite_self, dite_eq_ite]

theorem execConvDelaySlewStep_kept (t : Fin 8) (s : State) : Keeps s (execConvDelaySlewStep t s) := by
  unfold execConvDelaySlewStep
  simp only [↓State.kept_rules, ↓keeps_rules, ite_self, dite_eq_ite]

theorem execCkStatus_kept (h : CmdHdr) (s : State) : Keeps s (execCkStatus h s) := by
  unfold execCkStatus
  simp only [↓State.kept_rules, ↓keeps_rules, implies_true, ite_self, dite_eq_ite, ↓serve_kept, ↓doneR_kept]

theorem execCkConvSet_kept (h : CmdHdr) (tiles : BitVec 8) (en : BitVec 8) (delay : BitVec 16) (trim1 : BitVec 8)
    (trim2 : BitVec 8) (trim3 : BitVec 8) (trim4 : BitVec 8) (s : State) : Keeps s (execCkConvSet h tiles en delay
    trim1 trim2 trim3 trim4 s) := by
  unfold execCkConvSet
  refine ⟨_, rfl, serve_kept _ _ _ _ (fun u => ?_)⟩
  try simp only [↓State.kept_rules, ↓keeps_rules, State.kept_foldl, State.kept_foldl_fst, State.kept_foldl_snd,
    implies_true, ite_self, dite_eq_ite, ↓serve_kept, ↓checks_kept, ↓done_kept, ↓State.convSlew_kept]
  repeat'
    first
    | with_reducible rfl
    | ((refine checks_kept _ _ _ ?_) <;> try simp only [↓State.kept_rules, ↓keeps_rules, State.kept_foldl, State.kept_foldl_fst, State.kept_foldl_snd,
        implies_true, ite_self, dite_eq_ite, ↓serve_kept, ↓checks_kept, ↓done_kept, ↓State.convSlew_kept])
    | ((with_reducible refine (State.kept_foldl _ (fun s a => ?_) _ _).trans ?_) <;>
        try simp only [↓State.kept_rules, ↓keeps_rules, State.kept_foldl, State.kept_foldl_fst, State.kept_foldl_snd,
        implies_true, ite_self, dite_eq_ite, ↓serve_kept, ↓checks_kept, ↓done_kept, ↓State.convSlew_kept])
    | (split <;> try simp only [↓State.kept_rules, ↓keeps_rules, State.kept_foldl, State.kept_foldl_fst, State.kept_foldl_snd,
        implies_true, ite_self, dite_eq_ite, ↓serve_kept, ↓checks_kept, ↓done_kept, ↓State.convSlew_kept])
    | rfl

theorem execCkSyncCfg_kept (h : CmdHdr) (period : BitVec 64) (limit : BitVec 16) (s : State) : Keeps s (execCkSyncCfg
    h period limit s) := by
  unfold execCkSyncCfg
  simp only [↓State.kept_rules, ↓keeps_rules, implies_true, ite_self, dite_eq_ite, ↓serve_kept, ↓checks_kept,
    ↓done_kept]

theorem execCkFaultAck_kept (h : CmdHdr) (plls : BitVec 16) (s : State) : Keeps s (execCkFaultAck h plls s) := by
  unfold execCkFaultAck
  simp only [↓State.kept_rules, ↓keeps_rules, implies_true, ite_self, dite_eq_ite, ↓serve_kept, ↓checks_kept,
    ↓done_kept, ↓State.noteMutes_kept]

theorem execCkPllRelock_kept (h : CmdHdr) (pll : BitVec 8) (s : State) : Keeps s (execCkPllRelock h pll s) := by
  unfold execCkPllRelock
  refine ⟨_, rfl, serve_kept _ _ _ _ (fun u => ?_)⟩
  try simp only [↓State.kept_rules, ↓keeps_rules, implies_true, ite_self, dite_eq_ite, ↓refuse_kept, ↓serve_kept,
    ↓checks_kept, ↓accepted_kept, ↓State.relock_kept]
  repeat'
    first
    | with_reducible rfl
    | ((refine checks_kept _ _ _ ?_) <;> try simp only [↓State.kept_rules, ↓keeps_rules, implies_true, ite_self, dite_eq_ite, ↓refuse_kept, ↓serve_kept,
        ↓checks_kept, ↓accepted_kept, ↓State.relock_kept])
    | ((with_reducible refine (State.kept_foldl _ (fun s a => ?_) _ _).trans ?_) <;>
        try simp only [↓State.kept_rules, ↓keeps_rules, implies_true, ite_self, dite_eq_ite, ↓refuse_kept, ↓serve_kept,
        ↓checks_kept, ↓accepted_kept, ↓State.relock_kept])
    | (split <;> try simp only [↓State.kept_rules, ↓keeps_rules, implies_true, ite_self, dite_eq_ite, ↓refuse_kept, ↓serve_kept,
        ↓checks_kept, ↓accepted_kept, ↓State.relock_kept])
    | rfl

theorem execCkRefCfg_kept (h : CmdHdr) (source : BitVec 8) (s : State) : Keeps s (execCkRefCfg h source s) := by
  unfold execCkRefCfg
  simp only [↓State.kept_rules, ↓keeps_rules, implies_true, ite_self, dite_eq_ite, ↓serve_kept, ↓checks_kept,
    ↓done_kept]

theorem execSyncQualified_kept (highAfter : Bool) (comp : BitVec 7) (s : State) : Keeps s (execSyncQualified highAfter
    comp s) := by
  unfold execSyncQualified
  try simp only [↓State.kept_rules, ↓keeps_rules, ite_self, dite_eq_ite, ↓State.syncCheck_kept, ↓State.loadTime_kept]
  repeat'
    first
    | with_reducible rfl
    | ((with_reducible refine (State.kept_foldl _ (fun s a => ?_) _ _).trans ?_) <;>
        try simp only [↓State.kept_rules, ↓keeps_rules, ite_self, dite_eq_ite, ↓State.syncCheck_kept, ↓State.loadTime_kept])
    | (split <;> try simp only [↓State.kept_rules, ↓keeps_rules, ite_self, dite_eq_ite, ↓State.syncCheck_kept, ↓State.loadTime_kept])
    | rfl

end Sys2Proof.Machine
end

