-- ==== Sys2Proof/Laws/KeptPowerOps.lean ====
section
/-! SUPPORT. The queue and the one-time programmable memory under the operations of Machine/PowerOps.lean. -/

set_option linter.all false

namespace Sys2Proof.Machine

theorem State.releasePads_kept (s : State) (groups : BitVec 11) : (State.releasePads s groups).kept = s.kept := by
  unfold State.releasePads
  simp only [↓State.kept_rules, ite_self, dite_eq_ite]

theorem State.pwRefuse_kept (s : State) (block : ℕ) (reason : ℕ) : (State.pwRefuse s block reason).kept = s.kept := by
  unfold State.pwRefuse
  try simp only [↓State.kept_rules, ite_self, dite_eq_ite, ↓State.emitNow_kept]
  repeat'
    first
    | with_reducible rfl
    | ((with_reducible refine (State.kept_foldl _ (fun s a => ?_) _ _).trans ?_) <;>
        try simp only [↓State.kept_rules, ite_self, dite_eq_ite, ↓State.emitNow_kept])
    | (split <;> try simp only [↓State.kept_rules, ite_self, dite_eq_ite, ↓State.emitNow_kept])
    | rfl

theorem State.wakeRequest_kept (s : State) (source : BitVec 2) : (State.wakeRequest s source).kept = s.kept := by
  unfold State.wakeRequest
  try simp only [↓State.kept_rules, ite_self, dite_eq_ite, ↓State.pwRefuse_kept]
  repeat'
    first
    | with_reducible rfl
    | ((with_reducible refine (State.kept_foldl _ (fun s a => ?_) _ _).trans ?_) <;>
        try simp only [↓State.kept_rules, ite_self, dite_eq_ite, ↓State.pwRefuse_kept])
    | (split <;> try simp only [↓State.kept_rules, ite_self, dite_eq_ite, ↓State.pwRefuse_kept])
    | rfl

theorem State.tileLost_kept (s : State) (t : Fin 8) : (State.tileLost s t).kept = s.kept := by
  unfold State.tileLost
  simp only [↓State.kept_rules, ite_self, dite_eq_ite, ↓State.modRadio_kept, ↓State.modRes_kept]

theorem State.latchPads_kept (s : State) (groups : BitVec 11) : (State.latchPads s groups).kept = s.kept := by
  unfold State.latchPads
  simp only [↓State.kept_rules, ite_self, dite_eq_ite]

theorem State.tileOff_kept (s : State) (t : Fin 8) : (State.tileOff s t).kept = s.kept := by
  unfold State.tileOff
  simp only [↓State.kept_rules, ite_self, dite_eq_ite, ↓State.tileLost_kept, ↓State.latchPads_kept]

end Sys2Proof.Machine
end

