-- ==== Sys2Proof/Laws/KeptDmaOps.lean ====
section
/-! SUPPORT. The queue and the one-time programmable memory under the operations of Machine/DmaOps.lean. -/

set_option linter.all false

namespace Sys2Proof.Machine

theorem State.modDm_kept (s : State) (c : Fin 64) (f : DmChan → DmChan) : (State.modDm s c f).kept = s.kept := by
  unfold State.modDm
  simp only [↓State.kept_rules, ite_self, dite_eq_ite]

theorem State.setTail_kept (s : State) (c : Fin 64) (v : BitVec 12) : (State.setTail s c v).kept = s.kept := by
  unfold State.setTail
  simp only [↓State.kept_rules, ite_self, dite_eq_ite, ↓State.modDm_kept]

theorem State.ringPtr_kept (s : State) (c : Fin 64) (v : BitVec 32) : (State.ringPtr s c v).kept = s.kept := by
  unfold State.ringPtr
  simp only [↓State.kept_rules, ite_self, dite_eq_ite, ↓State.setTail_kept]

theorem State.setLocal_kept (s : State) (a : ℕ) (b : Byte) : (State.setLocal s a b).kept = s.kept := by
  unfold State.setLocal
  try simp only [↓State.kept_rules, ite_self, dite_eq_ite]
  repeat'
    first
    | with_reducible rfl
    | ((with_reducible refine (State.kept_foldl _ (fun s a => ?_) _ _).trans ?_) <;>
        try simp only [↓State.kept_rules, ite_self, dite_eq_ite])
    | (split <;> try simp only [↓State.kept_rules, ite_self, dite_eq_ite])
    | rfl

theorem State.setLocals_kept (s : State) (a : ℕ) (x2 : List Byte) : (State.setLocals s a x2).kept = s.kept := by
  induction x2 generalizing s a with
  | nil => unfold State.setLocals; rfl
  | cons y ys ih =>
    unfold State.setLocals
    try simp only [↓State.kept_rules, ite_self, dite_eq_ite, ↓State.setLocal_kept, ↓ih]
    repeat' (first | rfl | (split <;> try simp only [↓State.kept_rules, ite_self, dite_eq_ite, ↓State.setLocal_kept, ↓ih]))

theorem State.modCu_kept (s : State) (u : Fin 8) (f : CheckUnit → CheckUnit) : (State.modCu s u f).kept = s.kept := by
  unfold State.modCu
  simp only [↓State.kept_rules, ite_self, dite_eq_ite]

theorem State.sampleReq_kept (s : State) (c : Fin 64) : (State.sampleReq s c).kept = s.kept := by
  unfold State.sampleReq
  simp only [↓State.kept_rules, ite_self, dite_eq_ite, ↓State.modDm_kept]

theorem State.levelChanged_kept (s : State) (t : Fin 8) (q : Bool) : (State.levelChanged s t q).kept = s.kept := by
  unfold State.levelChanged
  try simp only [↓State.kept_rules, ite_self, dite_eq_ite, ↓State.sampleReq_kept]
  repeat'
    first
    | with_reducible rfl
    | ((with_reducible refine (State.kept_foldl _ (fun s a => ?_) _ _).trans ?_) <;>
        try simp only [↓State.kept_rules, ite_self, dite_eq_ite, ↓State.sampleReq_kept])
    | (split <;> try simp only [↓State.kept_rules, ite_self, dite_eq_ite, ↓State.sampleReq_kept])
    | rfl

theorem State.ringLen_kept (s : State) (c : Fin 64) (v : BitVec 32) : (State.ringLen s c v).kept = s.kept := by
  unfold State.ringLen
  simp only [↓State.kept_rules, ite_self, dite_eq_ite, ↓State.modDm_kept]

theorem State.cuRelease_kept (s : State) (c : Fin 64) : (State.cuRelease s c).kept = s.kept := by
  unfold State.cuRelease
  try simp only [↓State.kept_rules, ite_self, dite_eq_ite, ↓State.modDm_kept, ↓State.modCu_kept]
  repeat'
    first
    | with_reducible rfl
    | ((with_reducible refine (State.kept_foldl _ (fun s a => ?_) _ _).trans ?_) <;>
        try simp only [↓State.kept_rules, ite_self, dite_eq_ite, ↓State.modDm_kept, ↓State.modCu_kept])
    | (split <;> try simp only [↓State.kept_rules, ite_self, dite_eq_ite, ↓State.modDm_kept, ↓State.modCu_kept])
    | rfl

theorem State.dmError_kept (s : State) (c : Fin 64) (cause : ℕ) : (State.dmError s c cause).kept = s.kept := by
  unfold State.dmError
  simp only [↓State.kept_rules, ite_self, dite_eq_ite, ↓State.modDm_kept, ↓State.emitNow_kept, ↓State.cuRelease_kept]

theorem State.dmStopped_kept (s : State) (c : Fin 64) (reason : ℕ) : (State.dmStopped s c reason).kept = s.kept := by
  unfold State.dmStopped
  simp only [↓State.kept_rules, ite_self, dite_eq_ite, ↓State.modDm_kept, ↓State.emitNow_kept]

end Sys2Proof.Machine
end

