-- ==== Sys2Proof/Laws/KeptDma.lean ====
section
/-! SUPPORT. The queue and the one-time programmable memory under the operations of Machine/Dma.lean. -/

set_option linter.all false

namespace Sys2Proof.Machine

theorem execDmRingPtrWrite_kept (ch : Fin 64) (data : BitVec 32) (s : State) : Keeps s (execDmRingPtrWrite ch data s)
    := by
  unfold execDmRingPtrWrite
  simp only [↓State.kept_rules, ↓keeps_rules, ite_self, dite_eq_ite, ↓State.ringPtr_kept]

theorem State.levelTaken_kept (s : State) (c : Fin 64) (n : ℕ) : (State.levelTaken s c n).kept = s.kept := by
  unfold State.levelTaken
  simp only [↓State.kept_rules, ite_self, dite_eq_ite]

theorem execDmaBurstEnd_kept (c : Fin 64) (s : State) : Keeps s (execDmaBurstEnd c s) := by
  unfold execDmaBurstEnd
  try simp only [↓State.kept_rules, ↓keeps_rules, State.kept_foldl, State.kept_foldl_fst, State.kept_foldl_snd,
    implies_true, ite_self, dite_eq_ite, ↓State.modDm_kept, ↓State.setLocals_kept, ↓State.modCu_kept,
    ↓State.sampleReq_kept, ↓State.levelTaken_kept]
  repeat'
    first
    | with_reducible rfl
    | ((with_reducible refine (State.kept_foldl _ (fun s a => ?_) _ _).trans ?_) <;>
        try simp only [↓State.kept_rules, ↓keeps_rules, State.kept_foldl, State.kept_foldl_fst, State.kept_foldl_snd,
        implies_true, ite_self, dite_eq_ite, ↓State.modDm_kept, ↓State.setLocals_kept, ↓State.modCu_kept,
        ↓State.sampleReq_kept, ↓State.levelTaken_kept])
    | (split <;> try simp only [↓State.kept_rules, ↓keeps_rules, State.kept_foldl, State.kept_foldl_fst, State.kept_foldl_snd,
        implies_true, ite_self, dite_eq_ite, ↓State.modDm_kept, ↓State.setLocals_kept, ↓State.modCu_kept,
        ↓State.sampleReq_kept, ↓State.levelTaken_kept])
    | rfl

theorem execMemReadTimeout_kept (tag : Fin 32) (s : State) : Keeps s (execMemReadTimeout tag s) := by
  unfold execMemReadTimeout
  try simp only [↓State.kept_rules, ↓keeps_rules, ite_self, dite_eq_ite, ↓State.dmError_kept]
  repeat'
    first
    | with_reducible rfl
    | ((with_reducible refine (State.kept_foldl _ (fun s a => ?_) _ _).trans ?_) <;>
        try simp only [↓State.kept_rules, ↓keeps_rules, ite_self, dite_eq_ite, ↓State.dmError_kept])
    | (split <;> try simp only [↓State.kept_rules, ↓keeps_rules, ite_self, dite_eq_ite, ↓State.dmError_kept])
    | rfl

theorem State.dmComplete_kept (s : State) (c : Fin 64) (r : DescRun) (wait : ℕ) : (State.dmComplete s c r wait).kept =
    s.kept := by
  unfold State.dmComplete
  try simp only [↓State.kept_rules, ite_self, dite_eq_ite, ↓State.modDm_kept, ↓State.emitNow_kept, ↓State.modCu_kept,
    ↓State.dmStopped_kept]
  repeat'
    first
    | with_reducible rfl
    | ((with_reducible refine (State.kept_foldl _ (fun s a => ?_) _ _).trans ?_) <;>
        try simp only [↓State.kept_rules, ite_self, dite_eq_ite, ↓State.modDm_kept, ↓State.emitNow_kept, ↓State.modCu_kept,
        ↓State.dmStopped_kept])
    | (split <;> try simp only [↓State.kept_rules, ite_self, dite_eq_ite, ↓State.modDm_kept, ↓State.emitNow_kept, ↓State.modCu_kept,
        ↓State.dmStopped_kept])
    | rfl

theorem State.memWr_kept (s : State) (c : Fin 64) (a : ℕ) (bs : List Byte) : (State.memWr s c a bs).kept = s.kept :=
    by
  unfold State.memWr
  simp only [↓State.kept_rules, ite_self, dite_eq_ite, ↓State.sendRel_kept]

theorem execDescriptorComplete_kept (c : Fin 64) (s : State) : Keeps s (execDescriptorComplete c s) := by
  unfold execDescriptorComplete
  try simp only [↓State.kept_rules, ↓keeps_rules, ite_self, dite_eq_ite, ↓State.modDm_kept, ↓State.setLocals_kept,
    ↓State.dmComplete_kept, ↓State.memWr_kept]
  repeat'
    first
    | with_reducible rfl
    | ((with_reducible refine (State.kept_foldl _ (fun s a => ?_) _ _).trans ?_) <;>
        try simp only [↓State.kept_rules, ↓keeps_rules, ite_self, dite_eq_ite, ↓State.modDm_kept, ↓State.setLocals_kept,
        ↓State.dmComplete_kept, ↓State.memWr_kept])
    | (split <;> try simp only [↓State.kept_rules, ↓keeps_rules, ite_self, dite_eq_ite, ↓State.modDm_kept, ↓State.setLocals_kept,
        ↓State.dmComplete_kept, ↓State.memWr_kept])
    | rfl

theorem execDmaBurstStart_kept (c : Fin 64) (s : State) : Keeps s (execDmaBurstStart c s) := by
  unfold execDmaBurstStart
  try simp only [↓State.kept_rules, ↓keeps_rules, ite_self, dite_eq_ite, ↓State.modDm_kept, ↓State.sendRel_kept,
    ↓State.sampleReq_kept, ↓State.memWr_kept]
  repeat'
    first
    | with_reducible rfl
    | ((with_reducible refine (State.kept_foldl _ (fun s a => ?_) _ _).trans ?_) <;>
        try simp only [↓State.kept_rules, ↓keeps_rules, ite_self, dite_eq_ite, ↓State.modDm_kept, ↓State.sendRel_kept,
        ↓State.sampleReq_kept, ↓State.memWr_kept])
    | (split <;> try simp only [↓State.kept_rules, ↓keeps_rules, ite_self, dite_eq_ite, ↓State.modDm_kept, ↓State.sendRel_kept,
        ↓State.sampleReq_kept, ↓State.memWr_kept])
    | rfl

theorem State.dmStop_kept (s : State) (c : Fin 64) : (State.dmStop s c).kept = s.kept := by
  unfold State.dmStop
  simp only [↓State.kept_rules, ite_self, dite_eq_ite, ↓State.modDm_kept, ↓State.dmStopped_kept]

theorem execChStop_kept (h : CmdHdr) (chans : BitVec 64) (s : State) : Keeps s (execChStop h chans s) := by
  unfold execChStop
  refine ⟨_, rfl, serve_kept _ _ _ _ (fun u => ?_)⟩
  try simp only [↓State.kept_rules, ↓keeps_rules, State.kept_foldl, State.kept_foldl_fst, State.kept_foldl_snd,
    implies_true, ite_self, dite_eq_ite, ↓serve_kept, ↓checks_kept, ↓accepted_kept, ↓State.dmStop_kept]
  repeat'
    first
    | with_reducible rfl
    | ((refine checks_kept _ _ _ ?_) <;> try simp only [↓State.kept_rules, ↓keeps_rules, State.kept_foldl, State.kept_foldl_fst, State.kept_foldl_snd,
        implies_true, ite_self, dite_eq_ite, ↓serve_kept, ↓checks_kept, ↓accepted_kept, ↓State.dmStop_kept])
    | ((with_reducible refine (State.kept_foldl _ (fun s a => ?_) _ _).trans ?_) <;>
        try simp only [↓State.kept_rules, ↓keeps_rules, State.kept_foldl, State.kept_foldl_fst, State.kept_foldl_snd,
        implies_true, ite_self, dite_eq_ite, ↓serve_kept, ↓checks_kept, ↓accepted_kept, ↓State.dmStop_kept])
    | (split <;> try simp only [↓State.kept_rules, ↓keeps_rules, State.kept_foldl, State.kept_foldl_fst, State.kept_foldl_snd,
        implies_true, ite_self, dite_eq_ite, ↓serve_kept, ↓checks_kept, ↓accepted_kept, ↓State.dmStop_kept])
    | rfl

theorem State.cuBind_kept (s : State) (c : Fin 64) (d : Desc) : (State.cuBind s c d).kept = s.kept := by
  unfold State.cuBind
  simp only [↓State.kept_rules, ite_self, dite_eq_ite, ↓State.modDm_kept, ↓State.modCu_kept]

theorem execDmStart_kept (h : CmdHdr) (chans : BitVec 64) (addr : BitVec 32) (s : State) : Keeps s (execDmStart h
    chans addr s) := by
  unfold execDmStart
  refine ⟨_, rfl, serve_kept _ _ _ _ (fun u => ?_)⟩
  try simp only [↓State.kept_rules, ↓keeps_rules, State.kept_foldl, State.kept_foldl_fst, State.kept_foldl_snd,
    implies_true, ite_self, dite_eq_ite, ↓State.modDm_kept, ↓serve_kept, ↓checks_kept, ↓done_kept]
  repeat'
    first
    | with_reducible rfl
    | ((refine checks_kept _ _ _ ?_) <;> try simp only [↓State.kept_rules, ↓keeps_rules, State.kept_foldl, State.kept_foldl_fst, State.kept_foldl_snd,
        implies_true, ite_self, dite_eq_ite, ↓State.modDm_kept, ↓serve_kept, ↓checks_kept, ↓done_kept])
    | ((with_reducible refine (State.kept_foldl _ (fun s a => ?_) _ _).trans ?_) <;>
        try simp only [↓State.kept_rules, ↓keeps_rules, State.kept_foldl, State.kept_foldl_fst, State.kept_foldl_snd,
        implies_true, ite_self, dite_eq_ite, ↓State.modDm_kept, ↓serve_kept, ↓checks_kept, ↓done_kept])
    | (split <;> try simp only [↓State.kept_rules, ↓keeps_rules, State.kept_foldl, State.kept_foldl_fst, State.kept_foldl_snd,
        implies_true, ite_self, dite_eq_ite, ↓State.modDm_kept, ↓serve_kept, ↓checks_kept, ↓done_kept])
    | rfl

theorem execCuStatus_kept (h : CmdHdr) (unit : BitVec 8) (s : State) : Keeps s (execCuStatus h unit s) := by
  unfold execCuStatus
  refine ⟨_, rfl, serve_kept _ _ _ _ (fun u => ?_)⟩
  try simp only [↓State.kept_rules, ↓keeps_rules, implies_true, ite_self, dite_eq_ite, ↓refuse_kept, ↓serve_kept,
    ↓doneR_kept]
  repeat'
    first
    | with_reducible rfl
    | ((refine checks_kept _ _ _ ?_) <;> try simp only [↓State.kept_rules, ↓keeps_rules, implies_true, ite_self, dite_eq_ite, ↓refuse_kept, ↓serve_kept,
        ↓doneR_kept])
    | ((with_reducible refine (State.kept_foldl _ (fun s a => ?_) _ _).trans ?_) <;>
        try simp only [↓State.kept_rules, ↓keeps_rules, implies_true, ite_self, dite_eq_ite, ↓refuse_kept, ↓serve_kept,
        ↓doneR_kept])
    | (split <;> try simp only [↓State.kept_rules, ↓keeps_rules, implies_true, ite_self, dite_eq_ite, ↓refuse_kept, ↓serve_kept,
        ↓doneR_kept])
    | rfl

theorem execDescriptorFetch_kept (c : Fin 64) (s : State) : Keeps s (execDescriptorFetch c s) := by
  unfold execDescriptorFetch
  simp only [↓State.kept_rules, ↓keeps_rules, ite_self, dite_eq_ite, ↓State.modDm_kept, ↓State.dmError_kept,
    ↓State.cuBind_kept]

theorem execDmStatus_kept (h : CmdHdr) (channel : BitVec 8) (s : State) : Keeps s (execDmStatus h channel s) := by
  unfold execDmStatus
  refine ⟨_, rfl, serve_kept _ _ _ _ (fun u => ?_)⟩
  try simp only [↓State.kept_rules, ↓keeps_rules, implies_true, ite_self, dite_eq_ite, ↓refuse_kept, ↓serve_kept,
    ↓doneR_kept]
  repeat'
    first
    | with_reducible rfl
    | ((refine checks_kept _ _ _ ?_) <;> try simp only [↓State.kept_rules, ↓keeps_rules, implies_true, ite_self, dite_eq_ite, ↓refuse_kept, ↓serve_kept,
        ↓doneR_kept])
    | ((with_reducible refine (State.kept_foldl _ (fun s a => ?_) _ _).trans ?_) <;>
        try simp only [↓State.kept_rules, ↓keeps_rules, implies_true, ite_self, dite_eq_ite, ↓refuse_kept, ↓serve_kept,
        ↓doneR_kept])
    | (split <;> try simp only [↓State.kept_rules, ↓keeps_rules, implies_true, ite_self, dite_eq_ite, ↓refuse_kept, ↓serve_kept,
        ↓doneR_kept])
    | rfl

theorem execDmRingLenWrite_kept (ch : Fin 64) (data : BitVec 32) (s : State) : Keeps s (execDmRingLenWrite ch data s)
    := by
  unfold execDmRingLenWrite
  simp only [↓State.kept_rules, ↓keeps_rules, ite_self, dite_eq_ite, ↓State.ringLen_kept]

theorem execDmChanCfg_kept (h : CmdHdr) (channel : BitVec 8) (op : BitVec 8) (mode : BitVec 8) (base : BitVec 32) (len
    : BitVec 16) (burst : BitVec 8) (uses : BitVec 8) (rate : BitVec 16) (paceTile : BitVec 8) (paceQ : BitVec 8)
    (high : BitVec 16) (low : BitVec 16) (bound : BitVec 8) (evt : BitVec 8) (s : State) : Keeps s (execDmChanCfg h
    channel op mode base len burst uses rate paceTile paceQ high low bound evt s) := by
  unfold execDmChanCfg
  refine ⟨_, rfl, serve_kept _ _ _ _ (fun u => ?_)⟩
  try simp only [↓State.kept_rules, ↓keeps_rules, implies_true, ite_self, dite_eq_ite, ↓State.modDm_kept, ↓refuse_kept,
    ↓serve_kept, ↓checks_kept, ↓done_kept, ↓State.sampleReq_kept]
  repeat'
    first
    | with_reducible rfl
    | ((refine checks_kept _ _ _ ?_) <;> try simp only [↓State.kept_rules, ↓keeps_rules, implies_true, ite_self, dite_eq_ite, ↓State.modDm_kept, ↓refuse_kept,
        ↓serve_kept, ↓checks_kept, ↓done_kept, ↓State.sampleReq_kept])
    | ((with_reducible refine (State.kept_foldl _ (fun s a => ?_) _ _).trans ?_) <;>
        try simp only [↓State.kept_rules, ↓keeps_rules, implies_true, ite_self, dite_eq_ite, ↓State.modDm_kept, ↓refuse_kept,
        ↓serve_kept, ↓checks_kept, ↓done_kept, ↓State.sampleReq_kept])
    | (split <;> try simp only [↓State.kept_rules, ↓keeps_rules, implies_true, ite_self, dite_eq_ite, ↓State.modDm_kept, ↓refuse_kept,
        ↓serve_kept, ↓checks_kept, ↓done_kept, ↓State.sampleReq_kept])
    | rfl

theorem execMemRdDataPacket_kept (pkt : RxPkt) (s : State) : Keeps s (execMemRdDataPacket pkt s) := by
  unfold execMemRdDataPacket
  try simp only [↓State.kept_rules, ↓keeps_rules, ite_self, dite_eq_ite, ↓State.modDm_kept, ↓State.dmError_kept,
    ↓State.relAccept_kept]
  repeat'
    first
    | with_reducible rfl
    | exact State.rxScreen_kept _ _ _ _ _ (by assumption)
    | ((with_reducible refine (State.kept_foldl _ (fun s a => ?_) _ _).trans ?_) <;>
        try simp only [↓State.kept_rules, ↓keeps_rules, ite_self, dite_eq_ite, ↓State.modDm_kept, ↓State.dmError_kept,
        ↓State.relAccept_kept])
    | (split <;> try simp only [↓State.kept_rules, ↓keeps_rules, ite_self, dite_eq_ite, ↓State.modDm_kept, ↓State.dmError_kept,
        ↓State.relAccept_kept])
    | rfl

theorem execDmTail_kept (h : CmdHdr) (channel : BitVec 8) (tail : BitVec 16) (s : State) : Keeps s (execDmTail h
    channel tail s) := by
  unfold execDmTail
  refine ⟨_, rfl, serve_kept _ _ _ _ (fun u => ?_)⟩
  try simp only [↓State.kept_rules, ↓keeps_rules, implies_true, ite_self, dite_eq_ite, ↓State.setTail_kept,
    ↓refuse_kept, ↓serve_kept, ↓checks_kept, ↓done_kept]
  repeat'
    first
    | with_reducible rfl
    | ((refine checks_kept _ _ _ ?_) <;> try simp only [↓State.kept_rules, ↓keeps_rules, implies_true, ite_self, dite_eq_ite, ↓State.setTail_kept,
        ↓refuse_kept, ↓serve_kept, ↓checks_kept, ↓done_kept])
    | ((with_reducible refine (State.kept_foldl _ (fun s a => ?_) _ _).trans ?_) <;>
        try simp only [↓State.kept_rules, ↓keeps_rules, implies_true, ite_self, dite_eq_ite, ↓State.setTail_kept,
        ↓refuse_kept, ↓serve_kept, ↓checks_kept, ↓done_kept])
    | (split <;> try simp only [↓State.kept_rules, ↓keeps_rules, implies_true, ite_self, dite_eq_ite, ↓State.setTail_kept,
        ↓refuse_kept, ↓serve_kept, ↓checks_kept, ↓done_kept])
    | rfl

theorem State.dmKill_kept (s : State) (c : Fin 64) : (State.dmKill s c).kept = s.kept := by
  unfold State.dmKill
  try simp only [↓State.kept_rules, State.kept_foldl, State.kept_foldl_fst, State.kept_foldl_snd, implies_true,
    ite_self, dite_eq_ite, ↓State.modDm_kept, ↓State.setLocal_kept, ↓State.cuRelease_kept, ↓State.dmStopped_kept]
  repeat'
    first
    | with_reducible rfl
    | ((with_reducible refine (State.kept_foldl _ (fun s a => ?_) _ _).trans ?_) <;>
        try simp only [↓State.kept_rules, State.kept_foldl, State.kept_foldl_fst, State.kept_foldl_snd, implies_true,
        ite_self, dite_eq_ite, ↓State.modDm_kept, ↓State.setLocal_kept, ↓State.cuRelease_kept, ↓State.dmStopped_kept])
    | (split <;> try simp only [↓State.kept_rules, State.kept_foldl, State.kept_foldl_fst, State.kept_foldl_snd, implies_true,
        ite_self, dite_eq_ite, ↓State.modDm_kept, ↓State.setLocal_kept, ↓State.cuRelease_kept, ↓State.dmStopped_kept])
    | rfl

theorem execChKill_kept (h : CmdHdr) (chans : BitVec 64) (s : State) : Keeps s (execChKill h chans s) := by
  unfold execChKill
  refine ⟨_, rfl, serve_kept _ _ _ _ (fun u => ?_)⟩
  try simp only [↓State.kept_rules, ↓keeps_rules, State.kept_foldl, State.kept_foldl_fst, State.kept_foldl_snd,
    implies_true, ite_self, dite_eq_ite, ↓serve_kept, ↓checks_kept, ↓done_kept, ↓State.dmKill_kept]
  repeat'
    first
    | with_reducible rfl
    | ((refine checks_kept _ _ _ ?_) <;> try simp only [↓State.kept_rules, ↓keeps_rules, State.kept_foldl, State.kept_foldl_fst, State.kept_foldl_snd,
        implies_true, ite_self, dite_eq_ite, ↓serve_kept, ↓checks_kept, ↓done_kept, ↓State.dmKill_kept])
    | ((with_reducible refine (State.kept_foldl _ (fun s a => ?_) _ _).trans ?_) <;>
        try simp only [↓State.kept_rules, ↓keeps_rules, State.kept_foldl, State.kept_foldl_fst, State.kept_foldl_snd,
        implies_true, ite_self, dite_eq_ite, ↓serve_kept, ↓checks_kept, ↓done_kept, ↓State.dmKill_kept])
    | (split <;> try simp only [↓State.kept_rules, ↓keeps_rules, State.kept_foldl, State.kept_foldl_fst, State.kept_foldl_snd,
        implies_true, ite_self, dite_eq_ite, ↓serve_kept, ↓checks_kept, ↓done_kept, ↓State.dmKill_kept])
    | rfl

theorem execCuCfg_kept (h : CmdHdr) (unit : BitVec 8) (crc : BitVec 8) (s : State) : Keeps s (execCuCfg h unit crc s)
    := by
  unfold execCuCfg
  refine ⟨_, rfl, serve_kept _ _ _ _ (fun u => ?_)⟩
  try simp only [↓State.kept_rules, ↓keeps_rules, implies_true, ite_self, dite_eq_ite, ↓refuse_kept, ↓serve_kept,
    ↓checks_kept, ↓done_kept, ↓State.modCu_kept]
  repeat'
    first
    | with_reducible rfl
    | ((refine checks_kept _ _ _ ?_) <;> try simp only [↓State.kept_rules, ↓keeps_rules, implies_true, ite_self, dite_eq_ite, ↓refuse_kept, ↓serve_kept,
        ↓checks_kept, ↓done_kept, ↓State.modCu_kept])
    | ((with_reducible refine (State.kept_foldl _ (fun s a => ?_) _ _).trans ?_) <;>
        try simp only [↓State.kept_rules, ↓keeps_rules, implies_true, ite_self, dite_eq_ite, ↓refuse_kept, ↓serve_kept,
        ↓checks_kept, ↓done_kept, ↓State.modCu_kept])
    | (split <;> try simp only [↓State.kept_rules, ↓keeps_rules, implies_true, ite_self, dite_eq_ite, ↓refuse_kept, ↓serve_kept,
        ↓checks_kept, ↓done_kept, ↓State.modCu_kept])
    | rfl

end Sys2Proof.Machine
end

