-- ==== Sys2Proof/Laws/KeptPupOps.lean ====
section
/-! SUPPORT. The queue and the one-time programmable memory under the operations of Machine/PupOps.lean. -/

set_option linter.all false

namespace Sys2Proof.Machine

theorem State.emitFor_kept (s : State) (m : Fin 4) (f : State → State) (h : ∀ s, (f s).kept = s.kept) :
    (s.emitFor m f).kept = s.kept := by
  unfold State.emitFor
  split
  · exact h s
  · exact h _

theorem State.endSession_kept (s : State) (i : Fin 8) (cause : ℕ) : (State.endSession s i cause).kept = s.kept := by
  unfold State.endSession
  try simp only [↓State.kept_rules, ite_self, dite_eq_ite, ↓State.emitNow_kept]
  repeat'
    first
    | with_reducible rfl
    | ((with_reducible refine (State.kept_foldl _ (fun s a => ?_) _ _).trans ?_) <;>
        try simp only [↓State.kept_rules, ite_self, dite_eq_ite, ↓State.emitNow_kept])
    | (split <;> try simp only [↓State.kept_rules, ite_self, dite_eq_ite, ↓State.emitNow_kept])
    | rfl

theorem State.endSessions_kept (s : State) (cause : ℕ) : (State.endSessions s cause).kept = s.kept := by
  unfold State.endSessions
  simp only [↓State.kept_rules, State.kept_foldl, State.kept_foldl_fst, State.kept_foldl_snd, implies_true, ite_self,
    dite_eq_ite, ↓State.endSession_kept]

theorem State.writeEntry_kept (s : State) (e : JEntry) : (State.writeEntry s e).kept = s.kept := by
  unfold State.writeEntry
  simp only [↓State.kept_rules, ite_self, dite_eq_ite, ↓State.flashWrite_kept]

theorem State.loadAbort_kept (s : State) (t : Fin 8) : (State.loadAbort s t).kept = s.kept := by
  unfold State.loadAbort
  try simp only [↓State.kept_rules, ite_self, dite_eq_ite, ↓State.modPdTile_kept, ↓State.emitNow_kept,
    ↓State.pdRefresh_kept]
  repeat'
    first
    | with_reducible rfl
    | ((with_reducible refine (State.kept_foldl _ (fun s a => ?_) _ _).trans ?_) <;>
        try simp only [↓State.kept_rules, ite_self, dite_eq_ite, ↓State.modPdTile_kept, ↓State.emitNow_kept,
        ↓State.pdRefresh_kept])
    | (split <;> try simp only [↓State.kept_rules, ite_self, dite_eq_ite, ↓State.modPdTile_kept, ↓State.emitNow_kept,
        ↓State.pdRefresh_kept])
    | rfl

theorem State.romBoot_kept (s : State) (cause : BootCause) (order : List Bool) (fallback : Bool) (fromWake : Bool)
    (start : ℕ) : (State.romBoot s cause order fallback fromWake start).kept = s.kept := by
  unfold State.romBoot
  try simp only [↓State.kept_rules, ite_self, dite_eq_ite]
  repeat'
    first
    | with_reducible rfl
    | ((with_reducible refine (State.kept_foldl _ (fun s a => ?_) _ _).trans ?_) <;>
        try simp only [↓State.kept_rules, ite_self, dite_eq_ite])
    | (split <;> try simp only [↓State.kept_rules, ite_self, dite_eq_ite])
    | rfl

theorem State.cutErase_kept (s : State) : (State.cutErase s).kept = s.kept := by
  unfold State.cutErase
  try simp only [↓State.kept_rules, ite_self, dite_eq_ite, ↓State.flashErase_kept]
  repeat'
    first
    | with_reducible rfl
    | ((with_reducible refine (State.kept_foldl _ (fun s a => ?_) _ _).trans ?_) <;>
        try simp only [↓State.kept_rules, ite_self, dite_eq_ite, ↓State.flashErase_kept])
    | (split <;> try simp only [↓State.kept_rules, ite_self, dite_eq_ite, ↓State.flashErase_kept])
    | rfl

theorem State.firmwareStop_kept (s : State) : (State.firmwareStop s).kept = s.kept := by
  unfold State.firmwareStop
  simp only [↓State.kept_rules, ↓State.emitNow_kept, ↓State.firmwareDma_kept, ite_self]

theorem State.restart_kept (s : State) (cause : BootCause) (order : List Bool) : (State.restart s cause order).kept =
    s.kept := by
  unfold State.restart
  simp only [↓State.kept_rules, State.kept_foldl, State.kept_foldl_fst, State.kept_foldl_snd, implies_true, ite_self,
    dite_eq_ite, ↓State.endSessions_kept, ↓State.loadAbort_kept, ↓State.romBoot_kept, ↓State.firmwareStop_kept]

theorem State.cutWork_kept (s : State) : (State.cutWork s).kept = s.kept := by
  unfold State.cutWork
  cases s.cal.bus <;> simp only [↓State.kept_rules, ↓State.clearMarks_kept]

theorem State.faultRestart_kept (s : State) (cause : BootCause) : (State.faultRestart s cause).kept = s.kept := by
  unfold State.faultRestart
  simp only
  split
  · rfl
  · split <;> simp only [↓State.kept_rules, State.cutWork_kept, ↓State.restart_kept]

theorem State.bufferEntry_kept (s : State) (e : JEntry) : (State.bufferEntry s e).kept = s.kept := by
  unfold State.bufferEntry
  simp only [↓State.kept_rules, ite_self, dite_eq_ite]

theorem State.keepFixed_kept (new old : State) : (new.keepFixed old).kept = old.kept := rfl

theorem State.cold_kept (s : State) : (State.cold s).kept = s.kept := by
  unfold State.cold
  simp only [↓State.kept_rules, implies_true, ite_self, dite_eq_ite, ↓State.cutErase_kept, State.keepFixed_kept]

end Sys2Proof.Machine
end

