-- ==== Sys2Proof/Laws/KeptTdspOps.lean ====
section
/-! SUPPORT. The queue and the one-time programmable memory under the operations of Machine/TdspOps.lean. -/

set_option linter.all false

namespace Sys2Proof.Machine

theorem State.modK_kept (s : State) (t : Fin 8) (f : Tdsp → Tdsp) : (State.modK s t f).kept = s.kept := by
  unfold State.modK
  simp only [↓State.kept_rules, ite_self, dite_eq_ite]

theorem State.kFault_kept (s : State) (t : Fin 8) (cause : ℕ) : (State.kFault s t cause).kept = s.kept := by
  unfold State.kFault
  simp only [↓State.kept_rules, ite_self, dite_eq_ite, ↓State.emitNow_kept, ↓State.modK_kept]

theorem State.move_kept (s : State) (t : Fin 8) (f : State → Tdsp → Move) (after : State → State)
    (h : ∀ s, (after s).kept = s.kept) : (s.move t f after).kept = s.kept := by
  unfold State.move
  simp only [↓State.kept_rules, ↓State.modK_kept, ↓State.kFault_kept, ↓h, ite_self]

theorem State.compute_kept (s : State) (t : Fin 8) (f : Tdsp → Option (List InFlight)) : (State.compute s t f).kept =
    s.kept := by
  unfold State.compute
  try simp only [↓State.kept_rules, ite_self, dite_eq_ite, ↓State.modK_kept, ↓State.kFault_kept]
  repeat'
    first
    | with_reducible rfl
    | ((with_reducible refine (State.kept_foldl _ (fun s a => ?_) _ _).trans ?_) <;>
        try simp only [↓State.kept_rules, ite_self, dite_eq_ite, ↓State.modK_kept, ↓State.kFault_kept])
    | (split <;> try simp only [↓State.kept_rules, ite_self, dite_eq_ite, ↓State.modK_kept, ↓State.kFault_kept])
    | rfl

theorem State.drainMsgs_kept (s : State) (t : Fin 8) : (State.drainMsgs s t).kept = s.kept := by
  unfold State.drainMsgs
  try simp only [↓State.kept_rules, State.kept_foldl, State.kept_foldl_fst, State.kept_foldl_snd, implies_true,
    ite_self, dite_eq_ite, ↓State.emitNow_kept, ↓State.modK_kept]
  repeat'
    first
    | with_reducible rfl
    | ((with_reducible refine (State.kept_foldl _ (fun s a => ?_) _ _).trans ?_) <;>
        try simp only [↓State.kept_rules, State.kept_foldl, State.kept_foldl_fst, State.kept_foldl_snd, implies_true,
        ite_self, dite_eq_ite, ↓State.emitNow_kept, ↓State.modK_kept])
    | (split <;> try simp only [↓State.kept_rules, State.kept_foldl, State.kept_foldl_fst, State.kept_foldl_snd, implies_true,
        ite_self, dite_eq_ite, ↓State.emitNow_kept, ↓State.modK_kept])
    | rfl

theorem State.kernelMsg_kept (s : State) (t : Fin 8) (code : BitVec 8) (pc : BitVec 15) (val : BitVec 32) :
    (State.kernelMsg s t code pc val).kept = s.kept := by
  unfold State.kernelMsg
  simp only [↓State.kept_rules, ite_self, dite_eq_ite, ↓State.modK_kept, ↓State.drainMsgs_kept]

end Sys2Proof.Machine
end

