-- ==== Sys2Proof/Laws/KeptThermal.lean ====
section
/-! SUPPORT. The queue and the one-time programmable memory under the operations of Machine/Thermal.lean. -/

set_option linter.all false

namespace Sys2Proof.Machine

theorem State.halveDir_kept (s : State) (tx : Bool) : (State.halveDir s tx).kept = s.kept := by
  unfold State.halveDir
  simp only [↓State.kept_rules, ite_self, dite_eq_ite, ↓State.modDir_kept, ↓State.cutChannels_kept]

theorem State.nextStep_kept (s : State) : (State.nextStep s).kept = s.kept := by
  unfold State.nextStep
  simp only [↓State.kept_rules, ite_self, dite_eq_ite]

theorem State.setPause_kept (s : State) (on : Bool) : (State.setPause s on).kept = s.kept := by
  unfold State.setPause
  simp only [↓State.kept_rules, State.kept_foldl, State.kept_foldl_fst, State.kept_foldl_snd, implies_true, ite_self,
    dite_eq_ite, ↓State.modPdTile_kept, ↓State.pdRefresh_kept]

theorem State.setHalve_kept (s : State) (on : Bool) : (State.setHalve s on).kept = s.kept := by
  unfold State.setHalve
  simp only [↓State.kept_rules, ite_self, dite_eq_ite, ↓State.halveDir_kept]

theorem State.stepEffect_kept (s : State) (code : BitVec 3) (on : Bool) : (State.stepEffect s code on).kept = s.kept
    := by
  unfold State.stepEffect
  simp only [↓State.kept_rules, ite_self, dite_eq_ite, ↓State.emitNow_kept, ↓State.throttleOverlap_kept,
    ↓State.setPause_kept, ↓State.setHalve_kept]

theorem State.revertStep_kept (s : State) : (State.revertStep s).kept = s.kept := by
  unfold State.revertStep
  try simp only [↓State.kept_rules, ite_self, dite_eq_ite, ↓State.stepEffect_kept]
  repeat'
    first
    | with_reducible rfl
    | ((with_reducible refine (State.kept_foldl _ (fun s a => ?_) _ _).trans ?_) <;>
        try simp only [↓State.kept_rules, ite_self, dite_eq_ite, ↓State.stepEffect_kept])
    | (split <;> try simp only [↓State.kept_rules, ite_self, dite_eq_ite, ↓State.stepEffect_kept])
    | rfl

theorem State.startRevert_kept (s : State) : (State.startRevert s).kept = s.kept := by
  unfold State.startRevert
  simp only [↓State.kept_rules, ite_self, dite_eq_ite, ↓State.nextStep_kept, ↓State.revertStep_kept]

theorem State.setLinkBand_kept (s : State) (n : ℕ) : (State.setLinkBand s n).kept = s.kept := by
  unfold State.setLinkBand
  simp only [↓State.kept_rules, ite_self, dite_eq_ite, ↓State.emitNow_kept]

theorem State.setTileBand_kept (s : State) (t : Fin 8) (n : ℕ) : (State.setTileBand s t n).kept = s.kept := by
  unfold State.setTileBand
  simp only [↓State.kept_rules, ite_self, dite_eq_ite, ↓State.emitNow_kept, ↓State.convSlew_kept]

theorem State.setDramBand_kept (s : State) (n : ℕ) : (State.setDramBand s n).kept = s.kept := by
  unfold State.setDramBand
  simp only [↓State.kept_rules, ite_self, dite_eq_ite, ↓State.emitNow_kept]

theorem State.followBands_kept (s : State) (r : Fin 12) (est : ℤ) : (State.followBands s r est).kept = s.kept := by
  unfold State.followBands
  try simp only [↓State.kept_rules, ite_self, dite_eq_ite, ↓State.setLinkBand_kept, ↓State.setTileBand_kept,
    ↓State.setDramBand_kept]
  repeat'
    first
    | with_reducible rfl
    | ((with_reducible refine (State.kept_foldl _ (fun s a => ?_) _ _).trans ?_) <;>
        try simp only [↓State.kept_rules, ite_self, dite_eq_ite, ↓State.setLinkBand_kept, ↓State.setTileBand_kept,
        ↓State.setDramBand_kept])
    | (split <;> try simp only [↓State.kept_rules, ite_self, dite_eq_ite, ↓State.setLinkBand_kept, ↓State.setTileBand_kept,
        ↓State.setDramBand_kept])
    | rfl

theorem State.railRound_kept (s : State) (k : Fin 10) (mv : BitVec 16) : (State.railRound s k mv).kept = s.kept := by
  unfold State.railRound
  simp only [↓State.kept_rules, ite_self, dite_eq_ite, ↓State.emitNow_kept]

theorem State.warnChange_kept (s : State) (r : Fin 12) (est : BitVec 16) : (State.warnChange s r est).kept = s.kept :=
    by
  unfold State.warnChange
  simp only [↓State.kept_rules, ite_self, dite_eq_ite, ↓State.emitNow_kept]

theorem State.applyStep_kept (s : State) : (State.applyStep s).kept = s.kept := by
  unfold State.applyStep
  try simp only [↓State.kept_rules, ite_self, dite_eq_ite, ↓State.stepEffect_kept]
  repeat'
    first
    | with_reducible rfl
    | ((with_reducible refine (State.kept_foldl _ (fun s a => ?_) _ _).trans ?_) <;>
        try simp only [↓State.kept_rules, ite_self, dite_eq_ite, ↓State.stepEffect_kept])
    | (split <;> try simp only [↓State.kept_rules, ite_self, dite_eq_ite, ↓State.stepEffect_kept])
    | rfl

theorem execThrottleStep_kept (s : State) : Keeps s (execThrottleStep s) := by
  unfold execThrottleStep
  simp only [↓State.kept_rules, ↓keeps_rules, ite_self, dite_eq_ite, ↓State.nextStep_kept, ↓State.applyStep_kept]

theorem State.throttleOn_kept (s : State) : (State.throttleOn s).kept = s.kept := by
  unfold State.throttleOn
  simp only [↓State.kept_rules, ite_self, dite_eq_ite, ↓State.nextStep_kept, ↓State.applyStep_kept]

theorem State.throttleOff_kept (s : State) : (State.throttleOff s).kept = s.kept := by
  unfold State.throttleOff
  simp only [↓State.kept_rules, ite_self, dite_eq_ite, ↓State.startRevert_kept]

theorem State.throttleChange_kept (s : State) : (State.throttleChange s).kept = s.kept := by
  unfold State.throttleChange
  simp only [↓State.kept_rules, ite_self, dite_eq_ite, ↓State.throttleOn_kept, ↓State.throttleOff_kept]

theorem State.shutdownOn_kept (s : State) (r : Fin 12) (est : BitVec 16) : (State.shutdownOn s r est).kept = s.kept :=
    by
  unfold State.shutdownOn
  try simp only [↓State.kept_rules, State.kept_foldl, State.kept_foldl_fst, State.kept_foldl_snd, implies_true,
    ite_self, dite_eq_ite, ↓State.emitNow_kept, ↓State.noteMutes_kept, ↓State.storeEnd_kept, ↓State.pwRefuse_kept,
    ↓State.claimCut_kept]
  repeat'
    first
    | with_reducible rfl
    | ((with_reducible refine (State.kept_foldl _ (fun s a => ?_) _ _).trans ?_) <;>
        try simp only [↓State.kept_rules, State.kept_foldl, State.kept_foldl_fst, State.kept_foldl_snd, implies_true,
        ite_self, dite_eq_ite, ↓State.emitNow_kept, ↓State.noteMutes_kept, ↓State.storeEnd_kept, ↓State.pwRefuse_kept,
        ↓State.claimCut_kept])
    | (split <;> try simp only [↓State.kept_rules, State.kept_foldl, State.kept_foldl_fst, State.kept_foldl_snd, implies_true,
        ite_self, dite_eq_ite, ↓State.emitNow_kept, ↓State.noteMutes_kept, ↓State.storeEnd_kept, ↓State.pwRefuse_kept,
        ↓State.claimCut_kept])
    | rfl

theorem execHkRead_kept (h : CmdHdr) (cls : BitVec 8) (s : State) : Keeps s (execHkRead h cls s) := by
  unfold execHkRead
  refine ⟨_, rfl, serve_kept _ _ _ _ (fun u => ?_)⟩
  try simp only [↓State.kept_rules, ↓keeps_rules, implies_true, ite_self, dite_eq_ite, ↓serve_kept, ↓checks_kept,
    ↓doneR_kept]
  repeat'
    first
    | with_reducible rfl
    | ((refine checks_kept _ _ _ ?_) <;> try simp only [↓State.kept_rules, ↓keeps_rules, implies_true, ite_self, dite_eq_ite, ↓serve_kept, ↓checks_kept,
        ↓doneR_kept])
    | ((with_reducible refine (State.kept_foldl _ (fun s a => ?_) _ _).trans ?_) <;>
        try simp only [↓State.kept_rules, ↓keeps_rules, implies_true, ite_self, dite_eq_ite, ↓serve_kept, ↓checks_kept,
        ↓doneR_kept])
    | (split <;> try simp only [↓State.kept_rules, ↓keeps_rules, implies_true, ite_self, dite_eq_ite, ↓serve_kept, ↓checks_kept,
        ↓doneR_kept])
    | rfl

theorem State.tileShut_kept (s : State) (t : Fin 8) : (State.tileShut s t).kept = s.kept := by
  unfold State.tileShut
  try simp only [↓State.kept_rules, ite_self, dite_eq_ite, ↓State.modPdTile_kept, ↓State.actionDone_kept,
    ↓State.modRadio_kept, ↓State.modPll_kept, ↓State.burstEnd_kept, ↓State.modRes_kept, ↓State.slotEnd_kept,
    ↓State.endBurst_kept]
  repeat'
    first
    | with_reducible rfl
    | ((with_reducible refine (State.kept_foldl _ (fun s a => ?_) _ _).trans ?_) <;>
        try simp only [↓State.kept_rules, ite_self, dite_eq_ite, ↓State.modPdTile_kept, ↓State.actionDone_kept,
        ↓State.modRadio_kept, ↓State.modPll_kept, ↓State.burstEnd_kept, ↓State.modRes_kept, ↓State.slotEnd_kept,
        ↓State.endBurst_kept])
    | (split <;> try simp only [↓State.kept_rules, ite_self, dite_eq_ite, ↓State.modPdTile_kept, ↓State.actionDone_kept,
        ↓State.modRadio_kept, ↓State.modPll_kept, ↓State.burstEnd_kept, ↓State.modRes_kept, ↓State.slotEnd_kept,
        ↓State.endBurst_kept])
    | rfl

theorem State.enterHalt_kept (s : State) : (State.enterHalt s).kept = s.kept := by
  unfold State.enterHalt
  simp only [↓State.kept_rules, State.kept_foldl, State.kept_foldl_fst, State.kept_foldl_snd, implies_true, ite_self,
    dite_eq_ite, ↓State.emit_kept, ↓State.emitNow_kept, ↓unbindRx_kept, ↓State.discard_kept, ↓State.checkStitch_kept,
    ↓State.sourcesLost_kept, ↓State.rehorizon_kept, ↓State.endPicks_kept, ↓unbindTx_kept, ↓State.swapEffect_kept,
    ↓State.relead_kept, ↓State.tileShut_kept]

theorem execHkThrottleCfg_kept (h : CmdHdr) (steps : List (BitVec 8)) (interval : BitVec 16) (duty : BitVec 8) (s :
    State) : Keeps s (execHkThrottleCfg h steps interval duty s) := by
  unfold execHkThrottleCfg
  refine ⟨_, rfl, serve_kept _ _ _ _ (fun u => ?_)⟩
  try simp only [↓State.kept_rules, ↓keeps_rules, implies_true, ite_self, dite_eq_ite, ↓serve_kept, ↓checks_kept,
    ↓done_kept]
  repeat'
    first
    | with_reducible rfl
    | ((refine checks_kept _ _ _ ?_) <;> try simp only [↓State.kept_rules, ↓keeps_rules, implies_true, ite_self, dite_eq_ite, ↓serve_kept, ↓checks_kept,
        ↓done_kept])
    | ((with_reducible refine (State.kept_foldl _ (fun s a => ?_) _ _).trans ?_) <;>
        try simp only [↓State.kept_rules, ↓keeps_rules, implies_true, ite_self, dite_eq_ite, ↓serve_kept, ↓checks_kept,
        ↓done_kept])
    | (split <;> try simp only [↓State.kept_rules, ↓keeps_rules, implies_true, ite_self, dite_eq_ite, ↓serve_kept, ↓checks_kept,
        ↓done_kept])
    | rfl

theorem execThrottleRevert_kept (s : State) : Keeps s (execThrottleRevert s) := by
  unfold execThrottleRevert
  simp only [↓State.kept_rules, ↓keeps_rules, ite_self, dite_eq_ite, ↓State.nextStep_kept, ↓State.revertStep_kept]

theorem execThermalHaltEntry_kept (s : State) : Keeps s (execThermalHaltEntry s) := by
  unfold execThermalHaltEntry
  simp only [↓State.kept_rules, ↓keeps_rules, ite_self, dite_eq_ite, ↓State.enterHalt_kept]

theorem execHkModelCfg_kept (h : CmdHdr) (rha : BitVec 16) (ch : BitVec 16) (ta : BitVec 16) (s : State) : Keeps s
    (execHkModelCfg h rha ch ta s) := by
  unfold execHkModelCfg
  refine ⟨_, rfl, serve_kept _ _ _ _ (fun u => ?_)⟩
  try simp only [↓State.kept_rules, ↓keeps_rules, implies_true, ite_self, dite_eq_ite, ↓serve_kept, ↓checks_kept,
    ↓done_kept]
  repeat'
    first
    | with_reducible rfl
    | ((refine checks_kept _ _ _ ?_) <;> try simp only [↓State.kept_rules, ↓keeps_rules, implies_true, ite_self, dite_eq_ite, ↓serve_kept, ↓checks_kept,
        ↓done_kept])
    | ((with_reducible refine (State.kept_foldl _ (fun s a => ?_) _ _).trans ?_) <;>
        try simp only [↓State.kept_rules, ↓keeps_rules, implies_true, ite_self, dite_eq_ite, ↓serve_kept, ↓checks_kept,
        ↓done_kept])
    | (split <;> try simp only [↓State.kept_rules, ↓keeps_rules, implies_true, ite_self, dite_eq_ite, ↓serve_kept, ↓checks_kept,
        ↓done_kept])
    | rfl

theorem State.modRegion_kept (s : State) (r : Fin 12) (f : Region → Region) : (State.modRegion s r f).kept = s.kept :=
    by
  unfold State.modRegion
  simp only [↓State.kept_rules, ite_self, dite_eq_ite]

theorem State.calTemp_kept (s : State) (r : Fin 12) (est : ℤ) : (State.calTemp s r est).kept = s.kept := by
  unfold State.calTemp
  try simp only [↓State.kept_rules, ite_self, dite_eq_ite, ↓State.modCal_kept]
  repeat'
    first
    | with_reducible rfl
    | ((with_reducible refine (State.kept_foldl _ (fun s a => ?_) _ _).trans ?_) <;>
        try simp only [↓State.kept_rules, ite_self, dite_eq_ite, ↓State.modCal_kept])
    | (split <;> try simp only [↓State.kept_rules, ite_self, dite_eq_ite, ↓State.modCal_kept])
    | rfl

theorem State.shutCut_kept (s : State) (trip : Bool) : (State.shutCut s trip).kept = s.kept := by
  unfold State.shutCut
  simp only [↓State.kept_rules, ite_self, dite_eq_ite, ↓State.storeEnd_kept]

theorem execThermalEvaluation_kept (r : Fin 12) (est : BitVec 16) (powers : List (BitVec 12)) (s : State) : Keeps s
    (execThermalEvaluation r est powers s) := by
  unfold execThermalEvaluation
  simp only [↓State.kept_rules, ↓keeps_rules, ite_self, dite_eq_ite, ↓State.followBands_kept, ↓State.warnChange_kept,
    ↓State.throttleChange_kept, ↓State.shutdownOn_kept, ↓State.modRegion_kept, ↓State.calTemp_kept,
    ↓State.shutCut_kept]

theorem State.hkSamples_kept (s : State) (diodes : List (List (BitVec 12))) (volts : List (List (BitVec 12))) :
    (State.hkSamples s diodes volts).kept = s.kept := by
  unfold State.hkSamples
  simp only [↓State.kept_rules, ite_self, dite_eq_ite]

theorem State.diodeRound_kept (s : State) (r : Fin 12) (d : BitVec 16) : (State.diodeRound s r d).kept = s.kept := by
  unfold State.diodeRound
  simp only [↓State.kept_rules, ite_self, dite_eq_ite, ↓State.emitNow_kept, ↓State.modRegion_kept]

theorem execSlowRound_kept (diodes : List (List (BitVec 12))) (volts : List (List (BitVec 12))) (counts : List (BitVec
    16)) (devs : List (BitVec 16)) (vhold : BitVec 16) (s : State) : Keeps s (execSlowRound diodes volts counts devs
    vhold s) := by
  unfold execSlowRound
  simp only [↓State.kept_rules, ↓keeps_rules, State.kept_foldl, State.kept_foldl_fst, State.kept_foldl_snd,
    implies_true, ite_self, dite_eq_ite, ↓State.railRound_kept, ↓State.hkSamples_kept, ↓State.diodeRound_kept]

theorem execHkBandCfg_kept (h : CmdHdr) (enable : BitVec 8) (s : State) : Keeps s (execHkBandCfg h enable s) := by
  unfold execHkBandCfg
  refine ⟨_, rfl, serve_kept _ _ _ _ (fun u => ?_)⟩
  try simp only [↓State.kept_rules, ↓keeps_rules, State.kept_foldl, State.kept_foldl_fst, State.kept_foldl_snd,
    implies_true, ite_self, dite_eq_ite, ↓serve_kept, ↓checks_kept, ↓done_kept, ↓State.setLinkBand_kept,
    ↓State.setTileBand_kept, ↓State.setDramBand_kept]
  repeat'
    first
    | with_reducible rfl
    | ((refine checks_kept _ _ _ ?_) <;> try simp only [↓State.kept_rules, ↓keeps_rules, State.kept_foldl, State.kept_foldl_fst, State.kept_foldl_snd,
        implies_true, ite_self, dite_eq_ite, ↓serve_kept, ↓checks_kept, ↓done_kept, ↓State.setLinkBand_kept,
        ↓State.setTileBand_kept, ↓State.setDramBand_kept])
    | ((with_reducible refine (State.kept_foldl _ (fun s a => ?_) _ _).trans ?_) <;>
        try simp only [↓State.kept_rules, ↓keeps_rules, State.kept_foldl, State.kept_foldl_fst, State.kept_foldl_snd,
        implies_true, ite_self, dite_eq_ite, ↓serve_kept, ↓checks_kept, ↓done_kept, ↓State.setLinkBand_kept,
        ↓State.setTileBand_kept, ↓State.setDramBand_kept])
    | (split <;> try simp only [↓State.kept_rules, ↓keeps_rules, State.kept_foldl, State.kept_foldl_fst, State.kept_foldl_snd,
        implies_true, ite_self, dite_eq_ite, ↓serve_kept, ↓checks_kept, ↓done_kept, ↓State.setLinkBand_kept,
        ↓State.setTileBand_kept, ↓State.setDramBand_kept])
    | rfl

theorem execHkResume_kept (h : CmdHdr) (s : State) : Keeps s (execHkResume h s) := by
  unfold execHkResume
  refine ⟨_, rfl, serve_kept _ _ _ _ (fun u => ?_)⟩
  try simp only [↓State.kept_rules, ↓keeps_rules, implies_true, ite_self, dite_eq_ite, ↓State.emitNow_kept,
    ↓refuse_kept, ↓serve_kept, ↓done_kept]
  repeat'
    first
    | with_reducible rfl
    | ((refine checks_kept _ _ _ ?_) <;> try simp only [↓State.kept_rules, ↓keeps_rules, implies_true, ite_self, dite_eq_ite, ↓State.emitNow_kept,
        ↓refuse_kept, ↓serve_kept, ↓done_kept])
    | ((with_reducible refine (State.kept_foldl _ (fun s a => ?_) _ _).trans ?_) <;>
        try simp only [↓State.kept_rules, ↓keeps_rules, implies_true, ite_self, dite_eq_ite, ↓State.emitNow_kept,
        ↓refuse_kept, ↓serve_kept, ↓done_kept])
    | (split <;> try simp only [↓State.kept_rules, ↓keeps_rules, implies_true, ite_self, dite_eq_ite, ↓State.emitNow_kept,
        ↓refuse_kept, ↓serve_kept, ↓done_kept])
    | rfl

theorem execHkStatus_kept (h : CmdHdr) (s : State) : Keeps s (execHkStatus h s) := by
  unfold execHkStatus
  refine ⟨_, rfl, serve_kept _ _ _ _ (fun u => ?_)⟩
  try simp only [↓State.kept_rules, ↓keeps_rules, implies_true, ite_self, dite_eq_ite, ↓serve_kept, ↓doneR_kept]
  repeat'
    first
    | with_reducible rfl
    | ((refine checks_kept _ _ _ ?_) <;> try simp only [↓State.kept_rules, ↓keeps_rules, implies_true, ite_self, dite_eq_ite, ↓serve_kept, ↓doneR_kept])
    | ((with_reducible refine (State.kept_foldl _ (fun s a => ?_) _ _).trans ?_) <;>
        try simp only [↓State.kept_rules, ↓keeps_rules, implies_true, ite_self, dite_eq_ite, ↓serve_kept, ↓doneR_kept])
    | (split <;> try simp only [↓State.kept_rules, ↓keeps_rules, implies_true, ite_self, dite_eq_ite, ↓serve_kept, ↓doneR_kept])
    | rfl

end Sys2Proof.Machine
end

