-- ==== Sys2Proof/Laws/KeptPuppeteer.lean ====
section
/-! SUPPORT. The queue and the one-time programmable memory under the operations of Machine/Puppeteer.lean. -/

set_option linter.all false

namespace Sys2Proof.Machine

theorem State.flashAnswer_kept (s : State) (w : WaitFor) (st : BitVec 8) : (State.flashAnswer s w st).kept = s.kept :=
    by
  unfold State.flashAnswer
  try simp only [↓State.kept_rules, ite_self, dite_eq_ite, ↓State.complete_kept]
  repeat'
    first
    | with_reducible rfl
    | ((with_reducible refine (State.kept_foldl _ (fun s a => ?_) _ _).trans ?_) <;>
        try simp only [↓State.kept_rules, ite_self, dite_eq_ite, ↓State.complete_kept])
    | (split <;> try simp only [↓State.kept_rules, ite_self, dite_eq_ite, ↓State.complete_kept])
    | rfl

theorem State.stageNext_kept (s : State) (x1 : StageRun) : (State.stageNext s x1).kept = s.kept := by
  unfold State.stageNext
  try simp only [↓State.kept_rules, implies_true, ite_self, dite_eq_ite, ↓State.emitNow_kept, ↓State.complete_kept,
    ↓State.flashAnswer_kept, ↓State.emitFor_kept, ↓State.flashWrite_kept]
  repeat'
    first
    | with_reducible rfl
    | ((with_reducible refine (State.kept_foldl _ (fun s a => ?_) _ _).trans ?_) <;>
        try simp only [↓State.kept_rules, implies_true, ite_self, dite_eq_ite, ↓State.emitNow_kept, ↓State.complete_kept,
        ↓State.flashAnswer_kept, ↓State.emitFor_kept, ↓State.flashWrite_kept])
    | (split <;> try simp only [↓State.kept_rules, implies_true, ite_self, dite_eq_ite, ↓State.emitNow_kept, ↓State.complete_kept,
        ↓State.flashAnswer_kept, ↓State.emitFor_kept, ↓State.flashWrite_kept])
    | rfl

theorem State.stagePage_kept (s : State) : (State.stagePage s).kept = s.kept := by
  unfold State.stagePage
  try simp only [↓State.kept_rules, ite_self, dite_eq_ite, ↓State.flashWrite_kept, ↓State.stageNext_kept]
  repeat'
    first
    | with_reducible rfl
    | ((with_reducible refine (State.kept_foldl _ (fun s a => ?_) _ _).trans ?_) <;>
        try simp only [↓State.kept_rules, ite_self, dite_eq_ite, ↓State.flashWrite_kept, ↓State.stageNext_kept])
    | (split <;> try simp only [↓State.kept_rules, ite_self, dite_eq_ite, ↓State.flashWrite_kept, ↓State.stageNext_kept])
    | rfl

theorem State.eraseDone_kept (s : State) : (State.eraseDone s).kept = s.kept := by
  unfold State.eraseDone
  try simp only [↓State.kept_rules, ite_self, dite_eq_ite, ↓State.answer_kept, ↓State.writeEntry_kept]
  repeat'
    first
    | with_reducible rfl
    | ((with_reducible refine (State.kept_foldl _ (fun s a => ?_) _ _).trans ?_) <;>
        try simp only [↓State.kept_rules, ite_self, dite_eq_ite, ↓State.answer_kept, ↓State.writeEntry_kept])
    | (split <;> try simp only [↓State.kept_rules, ite_self, dite_eq_ite, ↓State.answer_kept, ↓State.writeEntry_kept])
    | rfl

theorem execFlashEraseDone_kept (s : State) : Keeps s (execFlashEraseDone s) := by
  unfold execFlashEraseDone
  try simp only [↓State.kept_rules, ↓keeps_rules, ite_self, dite_eq_ite, ↓State.stageNext_kept, ↓State.flashErase_kept,
    ↓State.storeSector_kept, ↓State.eraseDone_kept]
  repeat'
    first
    | with_reducible rfl
    | ((with_reducible refine (State.kept_foldl _ (fun s a => ?_) _ _).trans ?_) <;>
        try simp only [↓State.kept_rules, ↓keeps_rules, ite_self, dite_eq_ite, ↓State.stageNext_kept, ↓State.flashErase_kept,
        ↓State.storeSector_kept, ↓State.eraseDone_kept])
    | (split <;> try simp only [↓State.kept_rules, ↓keeps_rules, ite_self, dite_eq_ite, ↓State.stageNext_kept, ↓State.flashErase_kept,
        ↓State.storeSector_kept, ↓State.eraseDone_kept])
    | rfl

theorem State.bootAdopt_kept (s : State) (b : BootRun) : (State.bootAdopt s b).kept = s.kept := by
  unfold State.bootAdopt
  try simp only [↓State.kept_rules, ite_self, dite_eq_ite, ↓State.calBoot_kept, ↓State.writeEntry_kept]
  repeat'
    first
    | with_reducible rfl
    | ((with_reducible refine (State.kept_foldl _ (fun s a => ?_) _ _).trans ?_) <;>
        try simp only [↓State.kept_rules, ite_self, dite_eq_ite, ↓State.calBoot_kept, ↓State.writeEntry_kept])
    | (split <;> try simp only [↓State.kept_rules, ite_self, dite_eq_ite, ↓State.calBoot_kept, ↓State.writeEntry_kept])
    | rfl

theorem State.bindMb_kept (s : State) (data : BitVec 32) : (State.bindMb s data).kept = s.kept := by
  unfold State.bindMb
  simp only [↓State.kept_rules, ite_self, dite_eq_ite]

theorem State.doorbell_kept (s : State) (m : Fin 4) (data : BitVec 32) : (State.doorbell s m data).kept = s.kept := by
  unfold State.doorbell
  simp only [↓State.kept_rules, ite_self, dite_eq_ite]

theorem State.wakeCtl_kept (s : State) (data : BitVec 32) : (State.wakeCtl s data).kept = s.kept := by
  unfold State.wakeCtl
  simp only [↓State.kept_rules, ite_self, dite_eq_ite, ↓State.wakeRequest_kept]

theorem State.portWrite_kept (s : State) (f : State → State) (h : ∀ s, (f s).kept = s.kept) :
    (s.portWrite f).kept = s.kept := by
  unfold State.portWrite
  split
  · exact h s
  · split <;> rfl

theorem execMbDoorbell_kept (mb : Fin 4) (data : BitVec 32) (s : State) : Keeps s (execMbDoorbell mb data s) := by
  unfold execMbDoorbell
  simp only [↓State.kept_rules, ↓keeps_rules, implies_true, ite_self, dite_eq_ite, ↓State.doorbell_kept,
    ↓State.portWrite_kept]

theorem State.keyDone_kept (s : State) (r : ℕ) (issuer : BitVec 8) : (State.keyDone s r issuer).kept = s.kept := by
  have hs : ∀ (r : Nat) (issuer : BitVec 8) (s : State) (i : Fin 8), (match s.pup.sessions.get i with
      | .opened x _ _ => if x.rank = r ∧ issuer.toNat ≠ i.val + 1 then s.endSession i 1 else s
      | _ => s).kept = s.kept := by
    intro r issuer s i
    split
    · split
      · exact State.endSession_kept _ _ _
      · rfl
    · rfl
  have hf : ∀ s : State, ((List.finRange 8).foldl (fun (s : State) i => match s.pup.sessions.get i with
      | .opened x _ _ => if x.rank = r ∧ issuer.toNat ≠ i.val + 1 then s.endSession i 1 else s
      | _ => s) s).kept = s.kept := fun s => State.kept_foldl _ (hs r issuer) _ s
  unfold State.keyDone
  simp only []
  split
  · exact (State.complete_kept _ _ _ _ _).trans (State.emitFor_kept _ _ _ hf)
  · exact hf _

theorem execFlashProgramDone_kept (s : State) : Keeps s (execFlashProgramDone s) := by
  unfold execFlashProgramDone
  try simp only [↓State.kept_rules, ↓keeps_rules, ite_self, dite_eq_ite, ↓State.flashWrite_kept, ↓State.stagePage_kept,
    ↓State.storePage_kept, ↓State.keyDone_kept]
  repeat'
    first
    | with_reducible rfl
    | ((with_reducible refine (State.kept_foldl _ (fun s a => ?_) _ _).trans ?_) <;>
        try simp only [↓State.kept_rules, ↓keeps_rules, ite_self, dite_eq_ite, ↓State.flashWrite_kept, ↓State.stagePage_kept,
        ↓State.storePage_kept, ↓State.keyDone_kept])
    | (split <;> try simp only [↓State.kept_rules, ↓keeps_rules, ite_self, dite_eq_ite, ↓State.flashWrite_kept, ↓State.stagePage_kept,
        ↓State.storePage_kept, ↓State.keyDone_kept])
    | rfl

theorem execFwStage_kept (h : CmdHdr) (offset : BitVec 32) (length : BitVec 32) (ptr : BitVec 32) (final : BitVec 8)
    (s : State) : Keeps s (execFwStage h offset length ptr final s) := by
  unfold execFwStage
  simp only [↓State.kept_rules, ↓keeps_rules, implies_true, ite_self, dite_eq_ite, ↓serve_kept, ↓checks_kept]

theorem execHpMbCfgWrite_kept (data : BitVec 32) (s : State) : Keeps s (execHpMbCfgWrite data s) := by
  unfold execHpMbCfgWrite
  simp only [↓State.kept_rules, ↓keeps_rules, implies_true, ite_self, dite_eq_ite, ↓State.bindMb_kept,
    ↓State.portWrite_kept]

theorem execHpPadReleaseWrite_kept (data : BitVec 32) (s : State) : Keeps s (execHpPadReleaseWrite data s) := by
  unfold execHpPadReleaseWrite
  simp only [↓State.kept_rules, ↓keeps_rules, ite_self, dite_eq_ite, ↓State.releasePads_kept]

theorem execLockstepFault_kept (s : State) : Keeps s (execLockstepFault s) := by
  unfold execLockstepFault
  simp only [↓State.kept_rules, ↓keeps_rules, ite_self, dite_eq_ite, ↓State.faultRestart_kept]

theorem execFwRestart_kept (h : CmdHdr) (slot : BitVec 8) (s : State) : Keeps s (execFwRestart h slot s) := by
  unfold execFwRestart
  simp only [↓State.kept_rules, ↓keeps_rules, implies_true, ite_self, dite_eq_ite, ↓serve_kept, ↓checks_kept,
    ↓accepted_kept, ↓State.restart_kept]

theorem execHpEvtRdWrite_kept (data : BitVec 32) (s : State) : Keeps s (execHpEvtRdWrite data s) := by
  unfold execHpEvtRdWrite
  simp only [↓State.kept_rules, ↓keeps_rules, implies_true, ite_self, dite_eq_ite, ↓State.releaseEvts_kept,
    ↓State.portWrite_kept]

theorem execPowerUpVddio_kept (s : State) : Keeps s (execPowerUpVddio s) := by
  unfold execPowerUpVddio
  simp only [↓State.kept_rules, ↓keeps_rules, ite_self, dite_eq_ite]

theorem execSupplyRemoved_kept (rail : Fin 10) (s : State) : Keeps s (execSupplyRemoved rail s) := by
  unfold execSupplyRemoved
  simp only [↓State.kept_rules, ↓keeps_rules, ite_self, dite_eq_ite, ↓State.cold_kept]

theorem execResetNRelease_kept (bootmode : BitVec 2) (refclk : Bool) (s : State) : Keeps s (execResetNRelease bootmode
    refclk s) := by
  unfold execResetNRelease
  simp only [↓State.kept_rules, ↓keeps_rules, State.kept_foldl, State.kept_foldl_fst, State.kept_foldl_snd,
    implies_true, ite_self, dite_eq_ite, ↓State.relock_kept, ↓State.romBoot_kept]

theorem execWatchdogExpiry_kept (s : State) : Keeps s (execWatchdogExpiry s) := by
  unfold execWatchdogExpiry
  simp only [↓State.kept_rules, ↓keeps_rules, ite_self, dite_eq_ite, ↓State.faultRestart_kept]

theorem execFwSlotInfo_kept (h : CmdHdr) (s : State) : Keeps s (execFwSlotInfo h s) := by
  unfold execFwSlotInfo
  simp only [↓State.kept_rules, ↓keeps_rules, implies_true, ite_self, dite_eq_ite, ↓serve_kept, ↓doneR_kept]

theorem execJournalBufferDrain_kept (s : State) : Keeps s (execJournalBufferDrain s) := by
  unfold execJournalBufferDrain
  try simp only [↓State.kept_rules, ↓keeps_rules, ite_self, dite_eq_ite, ↓State.writeEntry_kept]
  repeat'
    first
    | with_reducible rfl
    | ((with_reducible refine (State.kept_foldl _ (fun s a => ?_) _ _).trans ?_) <;>
        try simp only [↓State.kept_rules, ↓keeps_rules, ite_self, dite_eq_ite, ↓State.writeEntry_kept])
    | (split <;> try simp only [↓State.kept_rules, ↓keeps_rules, ite_self, dite_eq_ite, ↓State.writeEntry_kept])
    | rfl

theorem execResetNAssert_kept (s : State) : Keeps s (execResetNAssert s) := by
  unfold execResetNAssert
  simp only [↓State.kept_rules, ↓keeps_rules, ite_self, dite_eq_ite, ↓State.cold_kept]

theorem State.bootAnswers_kept (s : State) (b : BootRun) : (State.bootAnswers s b).kept = s.kept := by
  unfold State.bootAnswers
  try simp only [↓State.kept_rules, State.kept_foldl, State.kept_foldl_fst, State.kept_foldl_snd, implies_true,
    ite_self, dite_eq_ite, ↓State.complete_kept]
  repeat'
    first
    | with_reducible rfl
    | ((with_reducible refine (State.kept_foldl _ (fun s a => ?_) _ _).trans ?_) <;>
        try simp only [↓State.kept_rules, State.kept_foldl, State.kept_foldl_fst, State.kept_foldl_snd, implies_true,
        ite_self, dite_eq_ite, ↓State.complete_kept])
    | (split <;> try simp only [↓State.kept_rules, State.kept_foldl, State.kept_foldl_fst, State.kept_foldl_snd, implies_true,
        ite_self, dite_eq_ite, ↓State.complete_kept])
    | rfl

theorem execFirmwareReady_kept (s : State) : Keeps s (execFirmwareReady s) := by
  unfold execFirmwareReady
  try simp only [↓State.kept_rules, ↓keeps_rules, State.kept_foldl, State.kept_foldl_fst, State.kept_foldl_snd,
    implies_true, ite_self, dite_eq_ite, ↓State.emitNow_kept, ↓State.storeEnd_kept, ↓State.bootAdopt_kept,
    ↓State.drainMsgs_kept, ↓State.bootAnswers_kept]
  repeat'
    first
    | with_reducible rfl
    | ((with_reducible refine (State.kept_foldl _ (fun s a => ?_) _ _).trans ?_) <;>
        try simp only [↓State.kept_rules, ↓keeps_rules, State.kept_foldl, State.kept_foldl_fst, State.kept_foldl_snd,
        implies_true, ite_self, dite_eq_ite, ↓State.emitNow_kept, ↓State.storeEnd_kept, ↓State.bootAdopt_kept,
        ↓State.drainMsgs_kept, ↓State.bootAnswers_kept])
    | (split <;> try simp only [↓State.kept_rules, ↓keeps_rules, State.kept_foldl, State.kept_foldl_fst, State.kept_foldl_snd,
        implies_true, ite_self, dite_eq_ite, ↓State.emitNow_kept, ↓State.storeEnd_kept, ↓State.bootAdopt_kept,
        ↓State.drainMsgs_kept, ↓State.bootAnswers_kept])
    | rfl

theorem execTrialBootTimeout_kept (s : State) : Keeps s (execTrialBootTimeout s) := by
  unfold execTrialBootTimeout
  try simp only [↓State.kept_rules, ↓keeps_rules, ite_self, dite_eq_ite, ↓State.romBoot_kept]
  repeat'
    first
    | with_reducible rfl
    | ((with_reducible refine (State.kept_foldl _ (fun s a => ?_) _ _).trans ?_) <;>
        try simp only [↓State.kept_rules, ↓keeps_rules, ite_self, dite_eq_ite, ↓State.romBoot_kept])
    | (split <;> try simp only [↓State.kept_rules, ↓keeps_rules, ite_self, dite_eq_ite, ↓State.romBoot_kept])
    | rfl

theorem execHpWakeCtlWrite_kept (data : BitVec 32) (s : State) : Keeps s (execHpWakeCtlWrite data s) := by
  unfold execHpWakeCtlWrite
  simp only [↓State.kept_rules, ↓keeps_rules, ite_self, dite_eq_ite, ↓State.wakeCtl_kept]

theorem execSysInfo_kept (h : CmdHdr) (s : State) : Keeps s (execSysInfo h s) := by
  unfold execSysInfo
  simp only [↓State.kept_rules, ↓keeps_rules, implies_true, ite_self, dite_eq_ite, ↓serve_kept, ↓doneR_kept]

theorem execJournalEntryWrite_kept (mb : Fin 4) (s : State) : Keeps s (execJournalEntryWrite mb s) := by
  unfold execJournalEntryWrite
  try simp only [↓State.kept_rules, ↓keeps_rules, ite_self, dite_eq_ite, ↓State.answer_kept, ↓State.writeEntry_kept,
    ↓State.bufferEntry_kept]
  repeat'
    first
    | with_reducible rfl
    | ((with_reducible refine (State.kept_foldl _ (fun s a => ?_) _ _).trans ?_) <;>
        try simp only [↓State.kept_rules, ↓keeps_rules, ite_self, dite_eq_ite, ↓State.answer_kept, ↓State.writeEntry_kept,
        ↓State.bufferEntry_kept])
    | (split <;> try simp only [↓State.kept_rules, ↓keeps_rules, ite_self, dite_eq_ite, ↓State.answer_kept, ↓State.writeEntry_kept,
        ↓State.bufferEntry_kept])
    | rfl

end Sys2Proof.Machine
end

