-- ==== Sys2Proof/Laws/KeptJtag.lean ====
section
/-! SUPPORT. The queue and the one-time programmable memory under the operations of Machine/Jtag.lean. -/

set_option linter.all false

namespace Sys2Proof.Machine

theorem State.tapIr_kept (s : State) (ir : BitVec 8) (f : State → State) (h : ∀ s, (f s).kept = s.kept) :
    (s.tapIr ir f).kept = s.kept := by
  unfold State.tapIr
  split
  · exact h _
  · rfl

theorem State.scan_kept (s : State) (ir : BitVec 8) (cells : BitVec 344) : (State.scan s ir cells).kept = s.kept := by
  unfold State.scan
  simp only [↓State.kept_rules, implies_true, ite_self, dite_eq_ite, ↓State.tapIr_kept]

theorem execExtest_kept (cells : BitVec 344) (s : State) : Keeps s (execExtest cells s) := by
  unfold execExtest
  simp only [↓State.kept_rules, ↓keeps_rules, ite_self, dite_eq_ite, ↓State.scan_kept]

theorem execIdcode_kept (s : State) : Keeps s (execIdcode s) := by
  unfold execIdcode
  simp only [↓State.kept_rules, ↓keeps_rules, implies_true, ite_self, dite_eq_ite, ↓State.tapIr_kept]

theorem execSamplePreload_kept (cells : BitVec 344) (s : State) : Keeps s (execSamplePreload cells s) := by
  unfold execSamplePreload
  simp only [↓State.kept_rules, ↓keeps_rules, ite_self, dite_eq_ite, ↓State.scan_kept]

theorem execJtagTrst_kept (low : Bool) (s : State) : Keeps s (execJtagTrst low s) := by
  unfold execJtagTrst
  simp only [↓State.kept_rules, ↓keeps_rules, ite_self, dite_eq_ite]

theorem State.byp_kept (s : State) (ir : BitVec 8) : (State.byp s ir).kept = s.kept := by
  unfold State.byp
  simp only [↓State.kept_rules, implies_true, ite_self, dite_eq_ite, ↓State.tapIr_kept]

theorem execExtestTrain_kept (cells : BitVec 344) (s : State) : Keeps s (execExtestTrain cells s) := by
  unfold execExtestTrain
  simp only [↓State.kept_rules, ↓keeps_rules, ite_self, dite_eq_ite, ↓State.scan_kept]

theorem execExtestPulse_kept (cells : BitVec 344) (s : State) : Keeps s (execExtestPulse cells s) := by
  unfold execExtestPulse
  simp only [↓State.kept_rules, ↓keeps_rules, ite_self, dite_eq_ite, ↓State.scan_kept]

theorem execHighz_kept (s : State) : Keeps s (execHighz s) := by
  unfold execHighz
  simp only [↓State.kept_rules, ↓keeps_rules, ite_self, dite_eq_ite, ↓State.byp_kept]

theorem execClamp_kept (s : State) : Keeps s (execClamp s) := by
  unfold execClamp
  simp only [↓State.kept_rules, ↓keeps_rules, ite_self, dite_eq_ite, ↓State.byp_kept]

theorem execBypass_kept (code : BitVec 8) (s : State) : Keeps s (execBypass code s) := by
  unfold execBypass
  simp only [↓State.kept_rules, ↓keeps_rules, ite_self, dite_eq_ite, ↓State.byp_kept]

end Sys2Proof.Machine
end

