-- ==== Sys2Proof/Laws/KeptPaths.lean ====
section
/-! SUPPORT. The queue and the one-time programmable memory under the operations of Machine/Paths.lean. -/

set_option linter.all false

namespace Sys2Proof.Machine

theorem execPickSwitch_kept (g : Fin 8) (s : State) : Keeps s (execPickSwitch g s) := by
  unfold execPickSwitch
  try simp only [↓State.kept_rules, ↓keeps_rules, ite_self, dite_eq_ite, ↓State.groupPort_kept, ↓State.modPick_kept]
  repeat'
    first
    | with_reducible rfl
    | ((with_reducible refine (State.kept_foldl _ (fun s a => ?_) _ _).trans ?_) <;>
        try simp only [↓State.kept_rules, ↓keeps_rules, ite_self, dite_eq_ite, ↓State.groupPort_kept, ↓State.modPick_kept])
    | (split <;> try simp only [↓State.kept_rules, ↓keeps_rules, ite_self, dite_eq_ite, ↓State.groupPort_kept, ↓State.modPick_kept])
    | rfl

theorem execPickGroupCfg_kept (h : CmdHdr) (group : BitVec 8) (tiles : BitVec 8) (home : BitVec 8) (bias : BitVec 8)
    (hold : BitVec 32) (enable : BitVec 8) (s : State) : Keeps s (execPickGroupCfg h group tiles home bias hold enable
    s) := by
  unfold execPickGroupCfg
  refine ⟨_, rfl, serve_kept _ _ _ _ (fun u => ?_)⟩
  try simp only [↓State.kept_rules, ↓keeps_rules, implies_true, ite_self, dite_eq_ite, ↓refuse_kept, ↓serve_kept,
    ↓checks_kept, ↓done_kept, ↓State.groupPort_kept, ↓State.modPick_kept, ↓State.pickAbort_kept]
  repeat'
    first
    | with_reducible rfl
    | ((refine checks_kept _ _ _ ?_) <;> try simp only [↓State.kept_rules, ↓keeps_rules, implies_true, ite_self, dite_eq_ite, ↓refuse_kept, ↓serve_kept,
        ↓checks_kept, ↓done_kept, ↓State.groupPort_kept, ↓State.modPick_kept, ↓State.pickAbort_kept])
    | ((with_reducible refine (State.kept_foldl _ (fun s a => ?_) _ _).trans ?_) <;>
        try simp only [↓State.kept_rules, ↓keeps_rules, implies_true, ite_self, dite_eq_ite, ↓refuse_kept, ↓serve_kept,
        ↓checks_kept, ↓done_kept, ↓State.groupPort_kept, ↓State.modPick_kept, ↓State.pickAbort_kept])
    | (split <;> try simp only [↓State.kept_rules, ↓keeps_rules, implies_true, ite_self, dite_eq_ite, ↓refuse_kept, ↓serve_kept,
        ↓checks_kept, ↓done_kept, ↓State.groupPort_kept, ↓State.modPick_kept, ↓State.pickAbort_kept])
    | rfl

theorem State.rffeEnd_kept (s : State) (t : Fin 8) (r : RffeRun) (st : BitVec 8) (n : ℕ) : (State.rffeEnd s t r st
    n).kept = s.kept := by
  unfold State.rffeEnd
  simp only [↓State.kept_rules, ite_self, dite_eq_ite, ↓State.modRes_kept, ↓State.complete_kept]

theorem execRffeOperationDone_kept (t : Fin 8) (parity : Bool) (data : List (BitVec 8)) (s : State) : Keeps s
    (execRffeOperationDone t parity data s) := by
  unfold execRffeOperationDone
  try simp only [↓State.kept_rules, ↓keeps_rules, ite_self, dite_eq_ite, ↓State.modRes_kept, ↓State.rffeFault_kept,
    ↓State.rffeEnd_kept]
  repeat'
    first
    | with_reducible rfl
    | ((with_reducible refine (State.kept_foldl _ (fun s a => ?_) _ _).trans ?_) <;>
        try simp only [↓State.kept_rules, ↓keeps_rules, ite_self, dite_eq_ite, ↓State.modRes_kept, ↓State.rffeFault_kept,
        ↓State.rffeEnd_kept])
    | (split <;> try simp only [↓State.kept_rules, ↓keeps_rules, ite_self, dite_eq_ite, ↓State.modRes_kept, ↓State.rffeFault_kept,
        ↓State.rffeEnd_kept])
    | rfl

theorem execPickHoldEnd_kept (g : Fin 8) (s : State) : Keeps s (execPickHoldEnd g s) := by
  unfold execPickHoldEnd
  try simp only [↓State.kept_rules, ↓keeps_rules, ite_self, dite_eq_ite, ↓State.groupPort_kept, ↓State.modPick_kept]
  repeat'
    first
    | with_reducible rfl
    | ((with_reducible refine (State.kept_foldl _ (fun s a => ?_) _ _).trans ?_) <;>
        try simp only [↓State.kept_rules, ↓keeps_rules, ite_self, dite_eq_ite, ↓State.groupPort_kept, ↓State.modPick_kept])
    | (split <;> try simp only [↓State.kept_rules, ↓keeps_rules, ite_self, dite_eq_ite, ↓State.groupPort_kept, ↓State.modPick_kept])
    | rfl

theorem execOrxCouplingSet_kept (h : CmdHdr) (path : BitVec 8) (coupling : BitVec 8) (delay : BitVec 16) (atten :
    BitVec 8) (settle : BitVec 16) (s : State) : Keeps s (execOrxCouplingSet h path coupling delay atten settle s) :=
    by
  unfold execOrxCouplingSet
  refine ⟨_, rfl, serve_kept _ _ _ _ (fun u => ?_)⟩
  try simp only [↓State.kept_rules, ↓keeps_rules, implies_true, ite_self, dite_eq_ite, ↓State.modPd_kept,
    ↓State.modPath_kept, ↓refuse_kept, ↓serve_kept, ↓checks_kept, ↓done_kept, ↓State.modRes_kept,
    ↓State.pdRefresh_kept]
  repeat'
    first
    | with_reducible rfl
    | ((refine checks_kept _ _ _ ?_) <;> try simp only [↓State.kept_rules, ↓keeps_rules, implies_true, ite_self, dite_eq_ite, ↓State.modPd_kept,
        ↓State.modPath_kept, ↓refuse_kept, ↓serve_kept, ↓checks_kept, ↓done_kept, ↓State.modRes_kept,
        ↓State.pdRefresh_kept])
    | ((with_reducible refine (State.kept_foldl _ (fun s a => ?_) _ _).trans ?_) <;>
        try simp only [↓State.kept_rules, ↓keeps_rules, implies_true, ite_self, dite_eq_ite, ↓State.modPd_kept,
        ↓State.modPath_kept, ↓refuse_kept, ↓serve_kept, ↓checks_kept, ↓done_kept, ↓State.modRes_kept,
        ↓State.pdRefresh_kept])
    | (split <;> try simp only [↓State.kept_rules, ↓keeps_rules, implies_true, ite_self, dite_eq_ite, ↓State.modPd_kept,
        ↓State.modPath_kept, ↓refuse_kept, ↓serve_kept, ↓checks_kept, ↓done_kept, ↓State.modRes_kept,
        ↓State.pdRefresh_kept])
    | rfl

theorem State.endLed_kept (s : State) (t : Fin 8) (disabled : Bool) : (State.endLed s t disabled).kept = s.kept := by
  unfold State.endLed
  simp only [↓State.kept_rules, State.kept_foldl, State.kept_foldl_fst, State.kept_foldl_snd, implies_true, ite_self,
    dite_eq_ite, ↓State.pickAbort_kept]

theorem execRffeRetuneSeq_kept (h : CmdHdr) (tile : BitVec 8) (count : BitVec 8) (divWr : BitVec 8) (divRd : BitVec 8)
    (ops : List RffeOp) (s : State) : Keeps s (execRffeRetuneSeq h tile count divWr divRd ops s) := by
  unfold execRffeRetuneSeq
  refine ⟨_, rfl, serve_kept _ _ _ _ (fun u => ?_)⟩
  try simp only [↓State.kept_rules, ↓keeps_rules, implies_true, ite_self, dite_eq_ite, ↓refuse_kept, ↓serve_kept,
    ↓checks_kept, ↓done_kept, ↓State.modRes_kept]
  repeat'
    first
    | with_reducible rfl
    | ((refine checks_kept _ _ _ ?_) <;> try simp only [↓State.kept_rules, ↓keeps_rules, implies_true, ite_self, dite_eq_ite, ↓refuse_kept, ↓serve_kept,
        ↓checks_kept, ↓done_kept, ↓State.modRes_kept])
    | ((with_reducible refine (State.kept_foldl _ (fun s a => ?_) _ _).trans ?_) <;>
        try simp only [↓State.kept_rules, ↓keeps_rules, implies_true, ite_self, dite_eq_ite, ↓refuse_kept, ↓serve_kept,
        ↓checks_kept, ↓done_kept, ↓State.modRes_kept])
    | (split <;> try simp only [↓State.kept_rules, ↓keeps_rules, implies_true, ite_self, dite_eq_ite, ↓refuse_kept, ↓serve_kept,
        ↓checks_kept, ↓done_kept, ↓State.modRes_kept])
    | rfl

theorem execPickDecision_kept (g : Fin 8) (s : State) : Keeps s (execPickDecision g s) := by
  unfold execPickDecision
  try simp only [↓State.kept_rules, ↓keeps_rules, ite_self, dite_eq_ite, ↓State.groupPort_kept, ↓State.modPick_kept,
    ↓State.pickReport_kept, ↓State.pickCount_kept]
  repeat'
    first
    | with_reducible rfl
    | ((with_reducible refine (State.kept_foldl _ (fun s a => ?_) _ _).trans ?_) <;>
        try simp only [↓State.kept_rules, ↓keeps_rules, ite_self, dite_eq_ite, ↓State.groupPort_kept, ↓State.modPick_kept,
        ↓State.pickReport_kept, ↓State.pickCount_kept])
    | (split <;> try simp only [↓State.kept_rules, ↓keeps_rules, ite_self, dite_eq_ite, ↓State.groupPort_kept, ↓State.modPick_kept,
        ↓State.pickReport_kept, ↓State.pickCount_kept])
    | rfl

theorem execRffeSeqOverrun_kept (t : Fin 8) (s : State) : Keeps s (execRffeSeqOverrun t s) := by
  unfold execRffeSeqOverrun
  try simp only [↓State.kept_rules, ↓keeps_rules, ite_self, dite_eq_ite, ↓State.modRes_kept, ↓State.rffeFault_kept]
  repeat'
    first
    | with_reducible rfl
    | ((with_reducible refine (State.kept_foldl _ (fun s a => ?_) _ _).trans ?_) <;>
        try simp only [↓State.kept_rules, ↓keeps_rules, ite_self, dite_eq_ite, ↓State.modRes_kept, ↓State.rffeFault_kept])
    | (split <;> try simp only [↓State.kept_rules, ↓keeps_rules, ite_self, dite_eq_ite, ↓State.modRes_kept, ↓State.rffeFault_kept])
    | rfl

theorem execPathGet_kept (h : CmdHdr) (path : BitVec 8) (s : State) : Keeps s (execPathGet h path s) := by
  unfold execPathGet
  refine ⟨_, rfl, serve_kept _ _ _ _ (fun u => ?_)⟩
  try simp only [↓State.kept_rules, ↓keeps_rules, implies_true, ite_self, dite_eq_ite, ↓refuse_kept, ↓serve_kept,
    ↓doneR_kept]
  repeat'
    first
    | with_reducible rfl
    | ((refine checks_kept _ _ _ ?_) <;> try simp only [↓State.kept_rules, ↓keeps_rules, implies_true, ite_self, dite_eq_ite, ↓refuse_kept, ↓serve_kept,
        ↓doneR_kept])
    | ((with_reducible refine (State.kept_foldl _ (fun s a => ?_) _ _).trans ?_) <;>
        try simp only [↓State.kept_rules, ↓keeps_rules, implies_true, ite_self, dite_eq_ite, ↓refuse_kept, ↓serve_kept,
        ↓doneR_kept])
    | (split <;> try simp only [↓State.kept_rules, ↓keeps_rules, implies_true, ite_self, dite_eq_ite, ↓refuse_kept, ↓serve_kept,
        ↓doneR_kept])
    | rfl

theorem execFemPatternSet_kept (h : CmdHdr) (tiles : BitVec 8) (pats : List (BitVec 8)) (od : BitVec 8) (lead : BitVec
    16) (lag : BitVec 16) (sel0 : BitVec 8) (sel1 : BitVec 8) (sel2 : BitVec 8) (s : State) : Keeps s
    (execFemPatternSet h tiles pats od lead lag sel0 sel1 sel2 s) := by
  unfold execFemPatternSet
  refine ⟨_, rfl, serve_kept _ _ _ _ (fun u => ?_)⟩
  try simp only [↓State.kept_rules, ↓keeps_rules, State.kept_foldl, State.kept_foldl_fst, State.kept_foldl_snd,
    implies_true, ite_self, dite_eq_ite, ↓serve_kept, ↓checks_kept, ↓done_kept, ↓State.modRes_kept]
  repeat'
    first
    | with_reducible rfl
    | ((refine checks_kept _ _ _ ?_) <;> try simp only [↓State.kept_rules, ↓keeps_rules, State.kept_foldl, State.kept_foldl_fst, State.kept_foldl_snd,
        implies_true, ite_self, dite_eq_ite, ↓serve_kept, ↓checks_kept, ↓done_kept, ↓State.modRes_kept])
    | ((with_reducible refine (State.kept_foldl _ (fun s a => ?_) _ _).trans ?_) <;>
        try simp only [↓State.kept_rules, ↓keeps_rules, State.kept_foldl, State.kept_foldl_fst, State.kept_foldl_snd,
        implies_true, ite_self, dite_eq_ite, ↓serve_kept, ↓checks_kept, ↓done_kept, ↓State.modRes_kept])
    | (split <;> try simp only [↓State.kept_rules, ↓keeps_rules, State.kept_foldl, State.kept_foldl_fst, State.kept_foldl_snd,
        implies_true, ite_self, dite_eq_ite, ↓serve_kept, ↓checks_kept, ↓done_kept, ↓State.modRes_kept])
    | rfl

theorem execRffeXfer_kept (h : CmdHdr) (tile : BitVec 8) (count : BitVec 8) (ops : List RffeOp) (s : State) : Keeps s
    (execRffeXfer h tile count ops s) := by
  unfold execRffeXfer
  refine ⟨_, rfl, serve_kept _ _ _ _ (fun u => ?_)⟩
  try simp only [↓State.kept_rules, ↓keeps_rules, implies_true, ite_self, dite_eq_ite, ↓refuse_kept, ↓serve_kept,
    ↓checks_kept, ↓State.modRes_kept]
  repeat'
    first
    | with_reducible rfl
    | ((refine checks_kept _ _ _ ?_) <;> try simp only [↓State.kept_rules, ↓keeps_rules, implies_true, ite_self, dite_eq_ite, ↓refuse_kept, ↓serve_kept,
        ↓checks_kept, ↓State.modRes_kept])
    | ((with_reducible refine (State.kept_foldl _ (fun s a => ?_) _ _).trans ?_) <;>
        try simp only [↓State.kept_rules, ↓keeps_rules, implies_true, ite_self, dite_eq_ite, ↓refuse_kept, ↓serve_kept,
        ↓checks_kept, ↓State.modRes_kept])
    | (split <;> try simp only [↓State.kept_rules, ↓keeps_rules, implies_true, ite_self, dite_eq_ite, ↓refuse_kept, ↓serve_kept,
        ↓checks_kept, ↓State.modRes_kept])
    | rfl

theorem execPathSet_kept (h : CmdHdr) (paths : BitVec 64) (atten : BitVec 8) (gain : BitVec 8) (port : BitVec 8) (s :
    State) : Keeps s (execPathSet h paths atten gain port s) := by
  unfold execPathSet
  refine ⟨_, rfl, serve_kept _ _ _ _ (fun u => ?_)⟩
  try simp only [↓State.kept_rules, ↓keeps_rules, State.kept_foldl, State.kept_foldl_fst, State.kept_foldl_snd,
    implies_true, ite_self, dite_eq_ite, ↓serve_kept, ↓checks_kept, ↓done_kept, ↓State.writePaCtl_kept]
  repeat'
    first
    | with_reducible rfl
    | ((refine checks_kept _ _ _ ?_) <;> try simp only [↓State.kept_rules, ↓keeps_rules, State.kept_foldl, State.kept_foldl_fst, State.kept_foldl_snd,
        implies_true, ite_self, dite_eq_ite, ↓serve_kept, ↓checks_kept, ↓done_kept, ↓State.writePaCtl_kept])
    | ((with_reducible refine (State.kept_foldl _ (fun s a => ?_) _ _).trans ?_) <;>
        try simp only [↓State.kept_rules, ↓keeps_rules, State.kept_foldl, State.kept_foldl_fst, State.kept_foldl_snd,
        implies_true, ite_self, dite_eq_ite, ↓serve_kept, ↓checks_kept, ↓done_kept, ↓State.writePaCtl_kept])
    | (split <;> try simp only [↓State.kept_rules, ↓keeps_rules, State.kept_foldl, State.kept_foldl_fst, State.kept_foldl_snd,
        implies_true, ite_self, dite_eq_ite, ↓serve_kept, ↓checks_kept, ↓done_kept, ↓State.writePaCtl_kept])
    | rfl

theorem execPreambleCfg_kept (h : CmdHdr) (det : BitVec 8) (beam : BitVec 8) (ptr : BitVec 32) (half : BitVec 16) (thr
    : BitVec 16) (evt : BitVec 8) (s : State) : Keeps s (execPreambleCfg h det beam ptr half thr evt s) := by
  unfold execPreambleCfg
  refine ⟨_, rfl, serve_kept _ _ _ _ (fun u => ?_)⟩
  try simp only [↓State.kept_rules, ↓keeps_rules, implies_true, ite_self, dite_eq_ite, ↓refuse_kept, ↓serve_kept,
    ↓checks_kept, ↓done_kept, ↓State.modRes_kept, ↓State.rehorizon_kept, ↓State.judgePicks_kept, ↓State.endLed_kept]
  repeat'
    first
    | with_reducible rfl
    | ((refine checks_kept _ _ _ ?_) <;> try simp only [↓State.kept_rules, ↓keeps_rules, implies_true, ite_self, dite_eq_ite, ↓refuse_kept, ↓serve_kept,
        ↓checks_kept, ↓done_kept, ↓State.modRes_kept, ↓State.rehorizon_kept, ↓State.judgePicks_kept,
        ↓State.endLed_kept])
    | ((with_reducible refine (State.kept_foldl _ (fun s a => ?_) _ _).trans ?_) <;>
        try simp only [↓State.kept_rules, ↓keeps_rules, implies_true, ite_self, dite_eq_ite, ↓refuse_kept, ↓serve_kept,
        ↓checks_kept, ↓done_kept, ↓State.modRes_kept, ↓State.rehorizon_kept, ↓State.judgePicks_kept,
        ↓State.endLed_kept])
    | (split <;> try simp only [↓State.kept_rules, ↓keeps_rules, implies_true, ite_self, dite_eq_ite, ↓refuse_kept, ↓serve_kept,
        ↓checks_kept, ↓done_kept, ↓State.modRes_kept, ↓State.rehorizon_kept, ↓State.judgePicks_kept,
        ↓State.endLed_kept])
    | rfl

theorem execPreambleDetection_kept (t : Fin 8) (s : State) : Keeps s (execPreambleDetection t s) := by
  unfold execPreambleDetection
  try simp only [↓State.kept_rules, ↓keeps_rules, ite_self, dite_eq_ite, ↓State.modPick_kept, ↓State.modRes_kept,
    ↓State.emitPreamble_kept, ↓State.fire_kept]
  repeat'
    first
    | with_reducible rfl
    | ((with_reducible refine (State.kept_foldl _ (fun s a => ?_) _ _).trans ?_) <;>
        try simp only [↓State.kept_rules, ↓keeps_rules, ite_self, dite_eq_ite, ↓State.modPick_kept, ↓State.modRes_kept,
        ↓State.emitPreamble_kept, ↓State.fire_kept])
    | (split <;> try simp only [↓State.kept_rules, ↓keeps_rules, ite_self, dite_eq_ite, ↓State.modPick_kept, ↓State.modRes_kept,
        ↓State.emitPreamble_kept, ↓State.fire_kept])
    | rfl

theorem execPickReturnHome_kept (g : Fin 8) (s : State) : Keeps s (execPickReturnHome g s) := by
  unfold execPickReturnHome
  try simp only [↓State.kept_rules, ↓keeps_rules, ite_self, dite_eq_ite, ↓State.groupPort_kept, ↓State.modPick_kept]
  repeat'
    first
    | with_reducible rfl
    | ((with_reducible refine (State.kept_foldl _ (fun s a => ?_) _ _).trans ?_) <;>
        try simp only [↓State.kept_rules, ↓keeps_rules, ite_self, dite_eq_ite, ↓State.groupPort_kept, ↓State.modPick_kept])
    | (split <;> try simp only [↓State.kept_rules, ↓keeps_rules, ite_self, dite_eq_ite, ↓State.groupPort_kept, ↓State.modPick_kept])
    | rfl

end Sys2Proof.Machine
end

