-- ==== Sys2Proof/Laws/KeptPower.lean ====
section
/-! SUPPORT. The queue and the one-time programmable memory under the operations of Machine/Power.lean. -/

set_option linter.all false

namespace Sys2Proof.Machine

theorem execPwWakeCfg_kept (h : CmdHdr) (pinEn : BitVec 8) (timerEn : BitVec 8) (timer : BitVec 32) (s : State) :
    Keeps s (execPwWakeCfg h pinEn timerEn timer s) := by
  unfold execPwWakeCfg
  simp only [↓State.kept_rules, ↓keeps_rules, implies_true, ite_self, dite_eq_ite, ↓serve_kept, ↓checks_kept,
    ↓done_kept]

theorem State.wakeUp_kept (s : State) (w : WakeRun) : (State.wakeUp s w).kept = s.kept := by
  unfold State.wakeUp
  simp only [↓State.kept_rules, State.kept_foldl, State.kept_foldl_fst, State.kept_foldl_snd, implies_true, ite_self,
    dite_eq_ite, ↓State.pllDone_kept, ↓State.releasePads_kept, ↓State.relock_kept, ↓State.romBoot_kept]

theorem execWakeStepReady_kept (s : State) : Keeps s (execWakeStepReady s) := by
  unfold execWakeStepReady
  try simp only [↓State.kept_rules, ↓keeps_rules, ite_self, dite_eq_ite, ↓State.wakeUp_kept]
  repeat'
    first
    | with_reducible rfl
    | ((with_reducible refine (State.kept_foldl _ (fun s a => ?_) _ _).trans ?_) <;>
        try simp only [↓State.kept_rules, ↓keeps_rules, ite_self, dite_eq_ite, ↓State.wakeUp_kept])
    | (split <;> try simp only [↓State.kept_rules, ↓keeps_rules, ite_self, dite_eq_ite, ↓State.wakeUp_kept])
    | rfl

theorem State.entryAgree_kept (s : State) (e : Entry) : (State.entryAgree s e).kept = s.kept := by
  unfold State.entryAgree
  simp only [↓State.kept_rules, ite_self, dite_eq_ite, ↓State.emitNow_kept]

theorem execSleepTimerExpiry_kept (s : State) : Keeps s (execSleepTimerExpiry s) := by
  unfold execSleepTimerExpiry
  simp only [↓State.kept_rules, ↓keeps_rules, ite_self, dite_eq_ite, ↓State.wakeRequest_kept]

theorem execBlockAnswerTimeout_kept (s : State) : Keeps s (execBlockAnswerTimeout s) := by
  unfold execBlockAnswerTimeout
  try simp only [↓State.kept_rules, ↓keeps_rules, ite_self, dite_eq_ite, ↓State.pwRefuse_kept]
  repeat'
    first
    | with_reducible rfl
    | ((with_reducible refine (State.kept_foldl _ (fun s a => ?_) _ _).trans ?_) <;>
        try simp only [↓State.kept_rules, ↓keeps_rules, ite_self, dite_eq_ite, ↓State.pwRefuse_kept])
    | (split <;> try simp only [↓State.kept_rules, ↓keeps_rules, ite_self, dite_eq_ite, ↓State.pwRefuse_kept])
    | rfl

theorem execWakeStepTimeout_kept (s : State) : Keeps s (execWakeStepTimeout s) := by
  unfold execWakeStepTimeout
  try simp only [↓State.kept_rules, ↓keeps_rules, ite_self, dite_eq_ite]
  repeat'
    first
    | with_reducible rfl
    | ((with_reducible refine (State.kept_foldl _ (fun s a => ?_) _ _).trans ?_) <;>
        try simp only [↓State.kept_rules, ↓keeps_rules, ite_self, dite_eq_ite])
    | (split <;> try simp only [↓State.kept_rules, ↓keeps_rules, ite_self, dite_eq_ite])
    | rfl

theorem execPwStateSet_kept (h : CmdHdr) (target : BitVec 8) (lane : BitVec 8) (s : State) : Keeps s (execPwStateSet h
    target lane s) := by
  unfold execPwStateSet
  simp only [↓State.kept_rules, ↓keeps_rules, implies_true, ite_self, dite_eq_ite, ↓serve_kept, ↓checks_kept,
    ↓accepted_kept, ↓State.wakeRequest_kept]

theorem execBlockEntryAnswer_kept (block : Fin 15) (ok : Bool) (s : State) : Keeps s (execBlockEntryAnswer block ok s)
    := by
  unfold execBlockEntryAnswer
  try simp only [↓State.kept_rules, ↓keeps_rules, ite_self, dite_eq_ite, ↓State.pwRefuse_kept, ↓State.entryAgree_kept]
  repeat'
    first
    | with_reducible rfl
    | ((with_reducible refine (State.kept_foldl _ (fun s a => ?_) _ _).trans ?_) <;>
        try simp only [↓State.kept_rules, ↓keeps_rules, ite_self, dite_eq_ite, ↓State.pwRefuse_kept, ↓State.entryAgree_kept])
    | (split <;> try simp only [↓State.kept_rules, ↓keeps_rules, ite_self, dite_eq_ite, ↓State.pwRefuse_kept, ↓State.entryAgree_kept])
    | rfl

theorem execPwStatus_kept (h : CmdHdr) (s : State) : Keeps s (execPwStatus h s) := by
  unfold execPwStatus
  simp only [↓State.kept_rules, ↓keeps_rules, implies_true, ite_self, dite_eq_ite, ↓serve_kept, ↓doneR_kept]

theorem State.wakeLatched_kept (s : State) (latch : Option (BitVec 2)) : (State.wakeLatched s latch).kept = s.kept :=
    by
  unfold State.wakeLatched
  try simp only [↓State.kept_rules, ite_self, dite_eq_ite, ↓State.wakeRequest_kept]
  repeat'
    first
    | with_reducible rfl
    | ((with_reducible refine (State.kept_foldl _ (fun s a => ?_) _ _).trans ?_) <;>
        try simp only [↓State.kept_rules, ite_self, dite_eq_ite, ↓State.wakeRequest_kept])
    | (split <;> try simp only [↓State.kept_rules, ite_self, dite_eq_ite, ↓State.wakeRequest_kept])
    | rfl

theorem State.restoreBank7_kept (s old : State) : (s.restoreBank7 old).kept = s.kept := rfl

theorem State.enterRetain_kept (s : State) : (State.enterRetain s).kept = s.kept := by
  unfold State.enterRetain
  simp only [↓State.kept_rules, implies_true, ite_self, dite_eq_ite, ↓State.endSessions_kept, ↓State.latchPads_kept,
    ↓State.cold_kept, ↓State.restoreBank7_kept]

theorem State.enterDoze_kept (s : State) (e : Entry) : (State.enterDoze s e).kept = s.kept := by
  unfold State.enterDoze
  simp only [↓State.kept_rules, State.kept_foldl, State.kept_foldl_fst, State.kept_foldl_snd, implies_true, ite_self,
    dite_eq_ite, ↓State.linkDown_kept, ↓State.tileOff_kept]

theorem execEntryPhase2Proceed_kept (s : State) : Keeps s (execEntryPhase2Proceed s) := by
  unfold execEntryPhase2Proceed
  try simp only [↓State.kept_rules, ↓keeps_rules, ite_self, dite_eq_ite, ↓State.wakeLatched_kept,
    ↓State.enterRetain_kept, ↓State.enterDoze_kept]
  repeat'
    first
    | with_reducible rfl
    | ((with_reducible refine (State.kept_foldl _ (fun s a => ?_) _ _).trans ?_) <;>
        try simp only [↓State.kept_rules, ↓keeps_rules, ite_self, dite_eq_ite, ↓State.wakeLatched_kept,
        ↓State.enterRetain_kept, ↓State.enterDoze_kept])
    | (split <;> try simp only [↓State.kept_rules, ↓keeps_rules, ite_self, dite_eq_ite, ↓State.wakeLatched_kept,
        ↓State.enterRetain_kept, ↓State.enterDoze_kept])
    | rfl

theorem execPwPark_kept (h : CmdHdr) (tiles : BitVec 8) (s : State) : Keeps s (execPwPark h tiles s) := by
  unfold execPwPark
  refine ⟨_, rfl, serve_kept _ _ _ _ (fun u => ?_)⟩
  try simp only [↓State.kept_rules, ↓keeps_rules, State.kept_foldl, State.kept_foldl_fst, State.kept_foldl_snd,
    implies_true, ite_self, dite_eq_ite, ↓State.emitNow_kept, ↓serve_kept, ↓checks_kept, ↓done_kept,
    ↓State.tileOff_kept]
  repeat'
    first
    | with_reducible rfl
    | ((refine checks_kept _ _ _ ?_) <;> try simp only [↓State.kept_rules, ↓keeps_rules, State.kept_foldl, State.kept_foldl_fst, State.kept_foldl_snd,
        implies_true, ite_self, dite_eq_ite, ↓State.emitNow_kept, ↓serve_kept, ↓checks_kept, ↓done_kept,
        ↓State.tileOff_kept])
    | ((with_reducible refine (State.kept_foldl _ (fun s a => ?_) _ _).trans ?_) <;>
        try simp only [↓State.kept_rules, ↓keeps_rules, State.kept_foldl, State.kept_foldl_fst, State.kept_foldl_snd,
        implies_true, ite_self, dite_eq_ite, ↓State.emitNow_kept, ↓serve_kept, ↓checks_kept, ↓done_kept,
        ↓State.tileOff_kept])
    | (split <;> try simp only [↓State.kept_rules, ↓keeps_rules, State.kept_foldl, State.kept_foldl_fst, State.kept_foldl_snd,
        implies_true, ite_self, dite_eq_ite, ↓State.emitNow_kept, ↓serve_kept, ↓checks_kept, ↓done_kept,
        ↓State.tileOff_kept])
    | rfl

theorem execTileUnparkComplete_kept (t : Fin 8) (s : State) : Keeps s (execTileUnparkComplete t s) := by
  unfold execTileUnparkComplete
  simp only [↓State.kept_rules, ↓keeps_rules, ite_self, dite_eq_ite, ↓State.emitNow_kept, ↓State.releasePads_kept]

theorem execPwRetainCfg_kept (h : CmdHdr) (banks : BitVec 16) (s : State) : Keeps s (execPwRetainCfg h banks s) := by
  unfold execPwRetainCfg
  simp only [↓State.kept_rules, ↓keeps_rules, implies_true, ite_self, dite_eq_ite, ↓serve_kept, ↓checks_kept,
    ↓done_kept]

theorem execWakePinEdge_kept (heldTwo : Bool) (s : State) : Keeps s (execWakePinEdge heldTwo s) := by
  unfold execWakePinEdge
  simp only [↓State.kept_rules, ↓keeps_rules, ite_self, dite_eq_ite, ↓State.wakeRequest_kept]

theorem execDozeWakeComplete_kept (s : State) : Keeps s (execDozeWakeComplete s) := by
  unfold execDozeWakeComplete
  try simp only [↓State.kept_rules, ↓keeps_rules, ite_self, dite_eq_ite, ↓State.emitNow_kept, ↓State.releasePads_kept]
  repeat'
    first
    | with_reducible rfl
    | ((with_reducible refine (State.kept_foldl _ (fun s a => ?_) _ _).trans ?_) <;>
        try simp only [↓State.kept_rules, ↓keeps_rules, ite_self, dite_eq_ite, ↓State.emitNow_kept, ↓State.releasePads_kept])
    | (split <;> try simp only [↓State.kept_rules, ↓keeps_rules, ite_self, dite_eq_ite, ↓State.emitNow_kept, ↓State.releasePads_kept])
    | rfl

end Sys2Proof.Machine
end

