-- ==== Sys2Proof/Laws/KeptPredistortion.lean ====
section
/-! SUPPORT. The queue and the one-time programmable memory under the operations of Machine/Predistortion.lean. -/

set_option linter.all false

namespace Sys2Proof.Machine

theorem execPdNeighbourSet_kept (h : CmdHdr) (path : BitVec 8) (q1 : BitVec 8) (q2 : BitVec 8) (s : State) : Keeps s
    (execPdNeighbourSet h path q1 q2 s) := by
  unfold execPdNeighbourSet
  refine ⟨_, rfl, serve_kept _ _ _ _ (fun u => ?_)⟩
  try simp only [↓State.kept_rules, ↓keeps_rules, implies_true, ite_self, dite_eq_ite, ↓State.modPd_kept, ↓refuse_kept,
    ↓serve_kept, ↓checks_kept, ↓done_kept]
  repeat'
    first
    | with_reducible rfl
    | ((refine checks_kept _ _ _ ?_) <;> try simp only [↓State.kept_rules, ↓keeps_rules, implies_true, ite_self, dite_eq_ite, ↓State.modPd_kept, ↓refuse_kept,
        ↓serve_kept, ↓checks_kept, ↓done_kept])
    | ((with_reducible refine (State.kept_foldl _ (fun s a => ?_) _ _).trans ?_) <;>
        try simp only [↓State.kept_rules, ↓keeps_rules, implies_true, ite_self, dite_eq_ite, ↓State.modPd_kept, ↓refuse_kept,
        ↓serve_kept, ↓checks_kept, ↓done_kept])
    | (split <;> try simp only [↓State.kept_rules, ↓keeps_rules, implies_true, ite_self, dite_eq_ite, ↓State.modPd_kept, ↓refuse_kept,
        ↓serve_kept, ↓checks_kept, ↓done_kept])
    | rfl

theorem State.estStop_kept (s : State) (t : Fin 8) : (State.estStop s t).kept = s.kept := by
  unfold State.estStop
  simp only [↓State.kept_rules, ite_self, dite_eq_ite, ↓State.kernelStop_kept]

theorem execPdStatus_kept (h : CmdHdr) (path : BitVec 8) (s : State) : Keeps s (execPdStatus h path s) := by
  unfold execPdStatus
  refine ⟨_, rfl, serve_kept _ _ _ _ (fun u => ?_)⟩
  try simp only [↓State.kept_rules, ↓keeps_rules, implies_true, ite_self, dite_eq_ite, ↓refuse_kept, ↓serve_kept,
    ↓doneR_kept]
  repeat'
    first
    | with_reducible rfl
    | ((refine checks_kept _ _ _ ?_) <;> try simp only [↓State.kept_rules, ↓keeps_rules, implies_true, ite_self, dite_eq_ite, ↓refuse_kept, ↓serve_kept,
        ↓doneR_kept])
    | ((with_reducible refine (State.kept_foldl _ (fun s a => ?_) _ _).trans ?_) <;>
        try simp only [↓State.kept_rules, ↓keeps_rules, implies_true, ite_self, dite_eq_ite, ↓refuse_kept, ↓serve_kept,
        ↓doneR_kept])
    | (split <;> try simp only [↓State.kept_rules, ↓keeps_rules, implies_true, ite_self, dite_eq_ite, ↓refuse_kept, ↓serve_kept,
        ↓doneR_kept])
    | rfl

theorem State.pdCaptureEnd_kept (s : State) (p : Fin 64) (words : List (BitVec 32)) : (State.pdCaptureEnd s p
    words).kept = s.kept := by
  unfold State.pdCaptureEnd
  simp only [↓State.kept_rules, ite_self, dite_eq_ite, ↓State.modPdTile_kept, ↓State.modPd_kept, ↓State.setPd_kept]

theorem State.kernelCaptureEnd_kept (s : State) (t : Fin 8) (words : List (BitVec 32)) : (State.kernelCaptureEnd s t
    words).kept = s.kept := by
  unfold State.kernelCaptureEnd
  simp only [↓State.kept_rules, ite_self, dite_eq_ite]

theorem execOrxCaptureEnd_kept (t : Fin 8) (words : List (BitVec 32)) (s : State) : Keeps s (execOrxCaptureEnd t words
    s) := by
  unfold execOrxCaptureEnd
  try simp only [↓State.kept_rules, ↓keeps_rules, ite_self, dite_eq_ite, ↓State.modRes_kept, ↓State.orxServe_kept,
    ↓State.pdCaptureEnd_kept, ↓State.kernelCaptureEnd_kept]
  repeat'
    first
    | with_reducible rfl
    | ((with_reducible refine (State.kept_foldl _ (fun s a => ?_) _ _).trans ?_) <;>
        try simp only [↓State.kept_rules, ↓keeps_rules, ite_self, dite_eq_ite, ↓State.modRes_kept, ↓State.orxServe_kept,
        ↓State.pdCaptureEnd_kept, ↓State.kernelCaptureEnd_kept])
    | (split <;> try simp only [↓State.kept_rules, ↓keeps_rules, ite_self, dite_eq_ite, ↓State.modRes_kept, ↓State.orxServe_kept,
        ↓State.pdCaptureEnd_kept, ↓State.kernelCaptureEnd_kept])
    | rfl

theorem execEstimationDone_kept (t : Fin 8) (dGain : BitVec 16) (dPhase : BitVec 16) (nmse : BitVec 16) (peak : BitVec
    16) (words : List (BitVec 32)) (s : State) : Keeps s (execEstimationDone t dGain dPhase nmse peak words s) := by
  unfold execEstimationDone
  try simp only [↓State.kept_rules, ↓keeps_rules, ite_self, dite_eq_ite, ↓State.modPdTile_kept, ↓State.modPd_kept,
    ↓State.emitNow_kept, ↓State.orxServe_kept, ↓State.setPd_kept]
  repeat'
    first
    | with_reducible rfl
    | ((with_reducible refine (State.kept_foldl _ (fun s a => ?_) _ _).trans ?_) <;>
        try simp only [↓State.kept_rules, ↓keeps_rules, ite_self, dite_eq_ite, ↓State.modPdTile_kept, ↓State.modPd_kept,
        ↓State.emitNow_kept, ↓State.orxServe_kept, ↓State.setPd_kept])
    | (split <;> try simp only [↓State.kept_rules, ↓keeps_rules, ite_self, dite_eq_ite, ↓State.modPdTile_kept, ↓State.modPd_kept,
        ↓State.emitNow_kept, ↓State.orxServe_kept, ↓State.setPd_kept])
    | rfl

theorem execPdCfrSet_kept (h : CmdHdr) (tiles : BitVec 8) (thr : BitVec 8) (ptr : BitVec 32) (s : State) : Keeps s
    (execPdCfrSet h tiles thr ptr s) := by
  unfold execPdCfrSet
  refine ⟨_, rfl, serve_kept _ _ _ _ (fun u => ?_)⟩
  try simp only [↓State.kept_rules, ↓keeps_rules, State.kept_foldl, State.kept_foldl_fst, State.kept_foldl_snd,
    implies_true, ite_self, dite_eq_ite, ↓State.modPdTile_kept, ↓serve_kept, ↓checks_kept, ↓done_kept]
  repeat'
    first
    | with_reducible rfl
    | ((refine checks_kept _ _ _ ?_) <;> try simp only [↓State.kept_rules, ↓keeps_rules, State.kept_foldl, State.kept_foldl_fst, State.kept_foldl_snd,
        implies_true, ite_self, dite_eq_ite, ↓State.modPdTile_kept, ↓serve_kept, ↓checks_kept, ↓done_kept])
    | ((with_reducible refine (State.kept_foldl _ (fun s a => ?_) _ _).trans ?_) <;>
        try simp only [↓State.kept_rules, ↓keeps_rules, State.kept_foldl, State.kept_foldl_fst, State.kept_foldl_snd,
        implies_true, ite_self, dite_eq_ite, ↓State.modPdTile_kept, ↓serve_kept, ↓checks_kept, ↓done_kept])
    | (split <;> try simp only [↓State.kept_rules, ↓keeps_rules, State.kept_foldl, State.kept_foldl_fst, State.kept_foldl_snd,
        implies_true, ite_self, dite_eq_ite, ↓State.modPdTile_kept, ↓serve_kept, ↓checks_kept, ↓done_kept])
    | rfl

theorem execStatsClearExpiry_kept (p : Fin 64) (s : State) : Keeps s (execStatsClearExpiry p s) := by
  unfold execStatsClearExpiry
  simp only [↓State.kept_rules, ↓keeps_rules, ite_self, dite_eq_ite, ↓State.modPd_kept]

theorem execOrxCaptureStart_kept (t : Fin 8) (s : State) : Keeps s (execOrxCaptureStart t s) := by
  unfold execOrxCaptureStart
  simp only [↓State.kept_rules, ↓keeps_rules, ite_self, dite_eq_ite, ↓State.modPdTile_kept, ↓State.modRes_kept,
    ↓State.orxServe_kept]

theorem execPdChainSet_kept (h : CmdHdr) (inserted : BitVec 8) (s : State) : Keeps s (execPdChainSet h inserted s) :=
    by
  unfold execPdChainSet
  simp only [↓State.kept_rules, ↓keeps_rules, implies_true, ite_self, dite_eq_ite, ↓serve_kept, ↓checks_kept,
    ↓done_kept]

theorem State.pdPathSet_kept (s : State) (pdEn : BitVec 8) (cfrEn : BitVec 8) (adaptEn : BitVec 8) (evtSwap : BitVec
    8) (p : Fin 64) : (State.pdPathSet s pdEn cfrEn adaptEn evtSwap p).kept = s.kept := by
  unfold State.pdPathSet
  simp only [↓State.kept_rules, ite_self, dite_eq_ite, ↓State.modPd_kept, ↓State.setPd_kept]

theorem execPdPathSet_kept (h : CmdHdr) (paths : BitVec 64) (pdEn : BitVec 8) (cfrEn : BitVec 8) (adaptEn : BitVec 8)
    (evtSwap : BitVec 8) (s : State) : Keeps s (execPdPathSet h paths pdEn cfrEn adaptEn evtSwap s) := by
  unfold execPdPathSet
  refine ⟨_, rfl, serve_kept _ _ _ _ (fun u => ?_)⟩
  try simp only [↓State.kept_rules, ↓keeps_rules, State.kept_foldl, State.kept_foldl_fst, State.kept_foldl_snd,
    implies_true, ite_self, dite_eq_ite, ↓serve_kept, ↓checks_kept, ↓done_kept, ↓State.estStop_kept,
    ↓State.pdPathSet_kept]
  repeat'
    first
    | with_reducible rfl
    | ((refine checks_kept _ _ _ ?_) <;> try simp only [↓State.kept_rules, ↓keeps_rules, State.kept_foldl, State.kept_foldl_fst, State.kept_foldl_snd,
        implies_true, ite_self, dite_eq_ite, ↓serve_kept, ↓checks_kept, ↓done_kept, ↓State.estStop_kept,
        ↓State.pdPathSet_kept])
    | ((with_reducible refine (State.kept_foldl _ (fun s a => ?_) _ _).trans ?_) <;>
        try simp only [↓State.kept_rules, ↓keeps_rules, State.kept_foldl, State.kept_foldl_fst, State.kept_foldl_snd,
        implies_true, ite_self, dite_eq_ite, ↓serve_kept, ↓checks_kept, ↓done_kept, ↓State.estStop_kept,
        ↓State.pdPathSet_kept])
    | (split <;> try simp only [↓State.kept_rules, ↓keeps_rules, State.kept_foldl, State.kept_foldl_fst, State.kept_foldl_snd,
        implies_true, ite_self, dite_eq_ite, ↓serve_kept, ↓checks_kept, ↓done_kept, ↓State.estStop_kept,
        ↓State.pdPathSet_kept])
    | rfl

theorem execPdGateSet_kept (h : CmdHdr) (tiles : BitVec 8) (gate : BitVec 8) (cfMin : BitVec 8) (cfMax : BitVec 8)
    (margin : BitVec 8) (capSkip : BitVec 16) (freeze : BitVec 16) (clear : BitVec 16) (lambda : BitVec 8) (s : State)
    : Keeps s (execPdGateSet h tiles gate cfMin cfMax margin capSkip freeze clear lambda s) := by
  unfold execPdGateSet
  refine ⟨_, rfl, serve_kept _ _ _ _ (fun u => ?_)⟩
  try simp only [↓State.kept_rules, ↓keeps_rules, State.kept_foldl, State.kept_foldl_fst, State.kept_foldl_snd,
    implies_true, ite_self, dite_eq_ite, ↓State.modPdTile_kept, ↓serve_kept, ↓checks_kept, ↓done_kept]
  repeat'
    first
    | with_reducible rfl
    | ((refine checks_kept _ _ _ ?_) <;> try simp only [↓State.kept_rules, ↓keeps_rules, State.kept_foldl, State.kept_foldl_fst, State.kept_foldl_snd,
        implies_true, ite_self, dite_eq_ite, ↓State.modPdTile_kept, ↓serve_kept, ↓checks_kept, ↓done_kept])
    | ((with_reducible refine (State.kept_foldl _ (fun s a => ?_) _ _).trans ?_) <;>
        try simp only [↓State.kept_rules, ↓keeps_rules, State.kept_foldl, State.kept_foldl_fst, State.kept_foldl_snd,
        implies_true, ite_self, dite_eq_ite, ↓State.modPdTile_kept, ↓serve_kept, ↓checks_kept, ↓done_kept])
    | (split <;> try simp only [↓State.kept_rules, ↓keeps_rules, State.kept_foldl, State.kept_foldl_fst, State.kept_foldl_snd,
        implies_true, ite_self, dite_eq_ite, ↓State.modPdTile_kept, ↓serve_kept, ↓checks_kept, ↓done_kept])
    | rfl

theorem execPdLimitSet_kept (h : CmdHdr) (tiles : BitVec 8) (gain : BitVec 8) (phase : BitVec 8) (nmse : BitVec 8)
    (peak : BitVec 8) (rejectMax : BitVec 8) (s : State) : Keeps s (execPdLimitSet h tiles gain phase nmse peak
    rejectMax s) := by
  unfold execPdLimitSet
  refine ⟨_, rfl, serve_kept _ _ _ _ (fun u => ?_)⟩
  try simp only [↓State.kept_rules, ↓keeps_rules, State.kept_foldl, State.kept_foldl_fst, State.kept_foldl_snd,
    implies_true, ite_self, dite_eq_ite, ↓State.modPdTile_kept, ↓serve_kept, ↓checks_kept, ↓done_kept]
  repeat'
    first
    | with_reducible rfl
    | ((refine checks_kept _ _ _ ?_) <;> try simp only [↓State.kept_rules, ↓keeps_rules, State.kept_foldl, State.kept_foldl_fst, State.kept_foldl_snd,
        implies_true, ite_self, dite_eq_ite, ↓State.modPdTile_kept, ↓serve_kept, ↓checks_kept, ↓done_kept])
    | ((with_reducible refine (State.kept_foldl _ (fun s a => ?_) _ _).trans ?_) <;>
        try simp only [↓State.kept_rules, ↓keeps_rules, State.kept_foldl, State.kept_foldl_fst, State.kept_foldl_snd,
        implies_true, ite_self, dite_eq_ite, ↓State.modPdTile_kept, ↓serve_kept, ↓checks_kept, ↓done_kept])
    | (split <;> try simp only [↓State.kept_rules, ↓keeps_rules, State.kept_foldl, State.kept_foldl_fst, State.kept_foldl_snd,
        implies_true, ite_self, dite_eq_ite, ↓State.modPdTile_kept, ↓serve_kept, ↓checks_kept, ↓done_kept])
    | rfl

theorem execPdCoefLoad_kept (h : CmdHdr) (path : BitVec 8) (ptr : BitVec 32) (s : State) : Keeps s (execPdCoefLoad h
    path ptr s) := by
  unfold execPdCoefLoad
  refine ⟨_, rfl, serve_kept _ _ _ _ (fun u => ?_)⟩
  try simp only [↓State.kept_rules, ↓keeps_rules, implies_true, ite_self, dite_eq_ite, ↓State.pdStale_kept,
    ↓State.modPd_kept, ↓refuse_kept, ↓serve_kept, ↓done_kept]
  repeat'
    first
    | with_reducible rfl
    | ((refine checks_kept _ _ _ ?_) <;> try simp only [↓State.kept_rules, ↓keeps_rules, implies_true, ite_self, dite_eq_ite, ↓State.pdStale_kept,
        ↓State.modPd_kept, ↓refuse_kept, ↓serve_kept, ↓done_kept])
    | ((with_reducible refine (State.kept_foldl _ (fun s a => ?_) _ _).trans ?_) <;>
        try simp only [↓State.kept_rules, ↓keeps_rules, implies_true, ite_self, dite_eq_ite, ↓State.pdStale_kept,
        ↓State.modPd_kept, ↓refuse_kept, ↓serve_kept, ↓done_kept])
    | (split <;> try simp only [↓State.kept_rules, ↓keeps_rules, implies_true, ite_self, dite_eq_ite, ↓State.pdStale_kept,
        ↓State.modPd_kept, ↓refuse_kept, ↓serve_kept, ↓done_kept])
    | rfl

theorem execPdCoefRead_kept (h : CmdHdr) (path : BitVec 8) (set : BitVec 8) (ptr : BitVec 32) (s : State) : Keeps s
    (execPdCoefRead h path set ptr s) := by
  unfold execPdCoefRead
  refine ⟨_, rfl, serve_kept _ _ _ _ (fun u => ?_)⟩
  try simp only [↓State.kept_rules, ↓keeps_rules, implies_true, ite_self, dite_eq_ite, ↓refuse_kept, ↓serve_kept]
  repeat'
    first
    | with_reducible rfl
    | ((refine checks_kept _ _ _ ?_) <;> try simp only [↓State.kept_rules, ↓keeps_rules, implies_true, ite_self, dite_eq_ite, ↓refuse_kept, ↓serve_kept])
    | ((with_reducible refine (State.kept_foldl _ (fun s a => ?_) _ _).trans ?_) <;>
        try simp only [↓State.kept_rules, ↓keeps_rules, implies_true, ite_self, dite_eq_ite, ↓refuse_kept, ↓serve_kept])
    | (split <;> try simp only [↓State.kept_rules, ↓keeps_rules, implies_true, ite_self, dite_eq_ite, ↓refuse_kept, ↓serve_kept])
    | rfl

theorem execFreezeTimeExpiry_kept (p : Fin 64) (s : State) : Keeps s (execFreezeTimeExpiry p s) := by
  unfold execFreezeTimeExpiry
  simp only [↓State.kept_rules, ↓keeps_rules, ite_self, dite_eq_ite, ↓State.setPd_kept]

end Sys2Proof.Machine
end

