-- ==== Sys2Proof/Laws/KeptRadioStates.lean ====
section
/-! SUPPORT. The queue and the one-time programmable memory under the operations of Machine/RadioStates.lean. -/

set_option linter.all false

namespace Sys2Proof.Machine

theorem State.retuneDone_kept (s : State) (t : Fin 8) (start : ℕ) : (State.retuneDone s t start).kept = s.kept := by
  unfold State.retuneDone
  simp only [↓State.kept_rules, ite_self, dite_eq_ite, ↓State.modPdTile_kept, ↓State.modRadio_kept, ↓State.modPll_kept,
    ↓State.checkStitch_kept, ↓State.loConfirm_kept]

theorem execBurstLengthEnd_kept (t : Fin 8) (s : State) : Keeps s (execBurstLengthEnd t s) := by
  unfold execBurstLengthEnd
  try simp only [↓State.kept_rules, ↓keeps_rules, ite_self, dite_eq_ite, ↓State.goHome_kept, ↓State.slotEnd_kept,
    ↓State.endBurst_kept, ↓State.orxServe_kept]
  repeat'
    first
    | with_reducible rfl
    | ((with_reducible refine (State.kept_foldl _ (fun s a => ?_) _ _).trans ?_) <;>
        try simp only [↓State.kept_rules, ↓keeps_rules, ite_self, dite_eq_ite, ↓State.goHome_kept, ↓State.slotEnd_kept,
        ↓State.endBurst_kept, ↓State.orxServe_kept])
    | (split <;> try simp only [↓State.kept_rules, ↓keeps_rules, ite_self, dite_eq_ite, ↓State.goHome_kept, ↓State.slotEnd_kept,
        ↓State.endBurst_kept, ↓State.orxServe_kept])
    | rfl

theorem execTxLeadStart_kept (t : Fin 8) (s : State) : Keeps s (execTxLeadStart t s) := by
  unfold execTxLeadStart
  try simp only [↓State.kept_rules, ↓keeps_rules, ite_self, dite_eq_ite, ↓State.modRadio_kept]
  repeat'
    first
    | with_reducible rfl
    | ((with_reducible refine (State.kept_foldl _ (fun s a => ?_) _ _).trans ?_) <;>
        try simp only [↓State.kept_rules, ↓keeps_rules, ite_self, dite_eq_ite, ↓State.modRadio_kept])
    | (split <;> try simp only [↓State.kept_rules, ↓keeps_rules, ite_self, dite_eq_ite, ↓State.modRadio_kept])
    | rfl

theorem execTransitionComplete_kept (t : Fin 8) (s : State) : Keeps s (execTransitionComplete t s) := by
  unfold execTransitionComplete
  try simp only [↓State.kept_rules, ↓keeps_rules, ite_self, dite_eq_ite, ↓State.lockUp_kept, ↓State.checkStitch_kept,
    ↓State.reach_kept]
  repeat'
    first
    | with_reducible rfl
    | ((with_reducible refine (State.kept_foldl _ (fun s a => ?_) _ _).trans ?_) <;>
        try simp only [↓State.kept_rules, ↓keeps_rules, ite_self, dite_eq_ite, ↓State.lockUp_kept, ↓State.checkStitch_kept,
        ↓State.reach_kept])
    | (split <;> try simp only [↓State.kept_rules, ↓keeps_rules, ite_self, dite_eq_ite, ↓State.lockUp_kept, ↓State.checkStitch_kept,
        ↓State.reach_kept])
    | rfl

theorem execGlideStepTimeout_kept (t : Fin 8) (s : State) : Keeps s (execGlideStepTimeout t s) := by
  unfold execGlideStepTimeout
  try simp only [↓State.kept_rules, ↓keeps_rules, ite_self, dite_eq_ite, ↓State.glideFallback_kept]
  repeat'
    first
    | with_reducible rfl
    | ((with_reducible refine (State.kept_foldl _ (fun s a => ?_) _ _).trans ?_) <;>
        try simp only [↓State.kept_rules, ↓keeps_rules, ite_self, dite_eq_ite, ↓State.glideFallback_kept])
    | (split <;> try simp only [↓State.kept_rules, ↓keeps_rules, ite_self, dite_eq_ite, ↓State.glideFallback_kept])
    | rfl

theorem execGlideStepOverbudget_kept (t : Fin 8) (s : State) : Keeps s (execGlideStepOverbudget t s) := by
  unfold execGlideStepOverbudget
  try simp only [↓State.kept_rules, ↓keeps_rules, ite_self, dite_eq_ite, ↓State.modRadio_kept]
  repeat'
    first
    | with_reducible rfl
    | ((with_reducible refine (State.kept_foldl _ (fun s a => ?_) _ _).trans ?_) <;>
        try simp only [↓State.kept_rules, ↓keeps_rules, ite_self, dite_eq_ite, ↓State.modRadio_kept])
    | (split <;> try simp only [↓State.kept_rules, ↓keeps_rules, ite_self, dite_eq_ite, ↓State.modRadio_kept])
    | rfl

theorem execTileBandSet_kept (h : CmdHdr) (tiles : BitVec 8) (band : BitVec 32) (s : State) : Keeps s (execTileBandSet
    h tiles band s) := by
  unfold execTileBandSet
  refine ⟨_, rfl, serve_kept _ _ _ _ (fun u => ?_)⟩
  try simp only [↓State.kept_rules, ↓keeps_rules, State.kept_foldl, State.kept_foldl_fst, State.kept_foldl_snd,
    implies_true, ite_self, dite_eq_ite, ↓State.modPdTile_kept, ↓serve_kept, ↓checks_kept, ↓done_kept,
    ↓State.modRadio_kept]
  repeat'
    first
    | with_reducible rfl
    | ((refine checks_kept _ _ _ ?_) <;> try simp only [↓State.kept_rules, ↓keeps_rules, State.kept_foldl, State.kept_foldl_fst, State.kept_foldl_snd,
        implies_true, ite_self, dite_eq_ite, ↓State.modPdTile_kept, ↓serve_kept, ↓checks_kept, ↓done_kept,
        ↓State.modRadio_kept])
    | ((with_reducible refine (State.kept_foldl _ (fun s a => ?_) _ _).trans ?_) <;>
        try simp only [↓State.kept_rules, ↓keeps_rules, State.kept_foldl, State.kept_foldl_fst, State.kept_foldl_snd,
        implies_true, ite_self, dite_eq_ite, ↓State.modPdTile_kept, ↓serve_kept, ↓checks_kept, ↓done_kept,
        ↓State.modRadio_kept])
    | (split <;> try simp only [↓State.kept_rules, ↓keeps_rules, State.kept_foldl, State.kept_foldl_fst, State.kept_foldl_snd,
        implies_true, ite_self, dite_eq_ite, ↓State.modPdTile_kept, ↓serve_kept, ↓checks_kept, ↓done_kept,
        ↓State.modRadio_kept])
    | rfl

theorem execTxLagEnd_kept (t : Fin 8) (s : State) : Keeps s (execTxLagEnd t s) := by
  unfold execTxLagEnd
  try simp only [↓State.kept_rules, ↓keeps_rules, ite_self, dite_eq_ite, ↓State.modRadio_kept]
  repeat'
    first
    | with_reducible rfl
    | ((with_reducible refine (State.kept_foldl _ (fun s a => ?_) _ _).trans ?_) <;>
        try simp only [↓State.kept_rules, ↓keeps_rules, ite_self, dite_eq_ite, ↓State.modRadio_kept])
    | (split <;> try simp only [↓State.kept_rules, ↓keeps_rules, ite_self, dite_eq_ite, ↓State.modRadio_kept])
    | rfl

theorem execLargeRetuneComplete_kept (t : Fin 8) (s : State) : Keeps s (execLargeRetuneComplete t s) := by
  unfold execLargeRetuneComplete
  try simp only [↓State.kept_rules, ↓keeps_rules, ite_self, dite_eq_ite, ↓State.retuneDone_kept]
  repeat'
    first
    | with_reducible rfl
    | ((with_reducible refine (State.kept_foldl _ (fun s a => ?_) _ _).trans ?_) <;>
        try simp only [↓State.kept_rules, ↓keeps_rules, ite_self, dite_eq_ite, ↓State.retuneDone_kept])
    | (split <;> try simp only [↓State.kept_rules, ↓keeps_rules, ite_self, dite_eq_ite, ↓State.retuneDone_kept])
    | rfl

theorem execGlideStepConfirm_kept (t : Fin 8) (s : State) : Keeps s (execGlideStepConfirm t s) := by
  unfold execGlideStepConfirm
  try simp only [↓State.kept_rules, ↓keeps_rules, ite_self, dite_eq_ite, ↓State.modRadio_kept, ↓State.glideStep_kept,
    ↓State.checkStitch_kept, ↓State.loConfirm_kept]
  repeat'
    first
    | with_reducible rfl
    | ((with_reducible refine (State.kept_foldl _ (fun s a => ?_) _ _).trans ?_) <;>
        try simp only [↓State.kept_rules, ↓keeps_rules, ite_self, dite_eq_ite, ↓State.modRadio_kept, ↓State.glideStep_kept,
        ↓State.checkStitch_kept, ↓State.loConfirm_kept])
    | (split <;> try simp only [↓State.kept_rules, ↓keeps_rules, ite_self, dite_eq_ite, ↓State.modRadio_kept, ↓State.glideStep_kept,
        ↓State.checkStitch_kept, ↓State.loConfirm_kept])
    | rfl

theorem execTileHomeSet_kept (h : CmdHdr) (tiles : BitVec 8) (home : BitVec 8) (s : State) : Keeps s (execTileHomeSet
    h tiles home s) := by
  unfold execTileHomeSet
  simp only [↓State.kept_rules, ↓keeps_rules, implies_true, ite_self, dite_eq_ite, ↓serve_kept, ↓checks_kept,
    ↓done_kept]

theorem execTileStateGet_kept (h : CmdHdr) (tile : BitVec 8) (s : State) : Keeps s (execTileStateGet h tile s) := by
  unfold execTileStateGet
  refine ⟨_, rfl, serve_kept _ _ _ _ (fun u => ?_)⟩
  try simp only [↓State.kept_rules, ↓keeps_rules, implies_true, ite_self, dite_eq_ite, ↓refuse_kept, ↓serve_kept,
    ↓doneR_kept]
  repeat'
    first
    | with_reducible rfl
    | ((refine checks_kept _ _ _ ?_) <;> try simp only [↓State.kept_rules, ↓keeps_rules, implies_true, ite_self, dite_eq_ite, ↓refuse_kept, ↓serve_kept,
        ↓doneR_kept])
    | ((with_reducible refine (State.kept_foldl _ (fun s a => ?_) _ _).trans ?_) <;>
        try simp only [↓State.kept_rules, ↓keeps_rules, implies_true, ite_self, dite_eq_ite, ↓refuse_kept, ↓serve_kept,
        ↓doneR_kept])
    | (split <;> try simp only [↓State.kept_rules, ↓keeps_rules, implies_true, ite_self, dite_eq_ite, ↓refuse_kept, ↓serve_kept,
        ↓doneR_kept])
    | rfl

end Sys2Proof.Machine
end

