-- ==== Sys2Proof/Laws/KeptTdsp.lean ====
section
/-! SUPPORT. The queue and the one-time programmable memory under the operations of Machine/Tdsp.lean. -/

set_option linter.all false

namespace Sys2Proof.Machine

theorem State.iorEffect_kept (s : State) (t : Fin 8) (addr : ℕ) : (State.iorEffect s t addr).kept = s.kept := by
  unfold State.iorEffect
  try simp only [↓State.kept_rules, ite_self, dite_eq_ite, ↓State.modK_kept]
  repeat'
    first
    | with_reducible rfl
    | ((with_reducible refine (State.kept_foldl _ (fun s a => ?_) _ _).trans ?_) <;>
        try simp only [↓State.kept_rules, ite_self, dite_eq_ite, ↓State.modK_kept])
    | (split <;> try simp only [↓State.kept_rules, ite_self, dite_eq_ite, ↓State.modK_kept])
    | rfl

theorem State.ior_kept (s : State) (t : Fin 8) (d : Fin 16) (addr : ℕ) : Keeps s (State.ior s t d addr) := by
  unfold State.ior
  try simp only [↓State.kept_rules, ↓keeps_rules, implies_true, ite_self, dite_eq_ite, ↓State.move_kept,
    ↓State.iorEffect_kept]
  repeat'
    first
    | with_reducible rfl
    | exact State.move_kept _ _ _ _ (fun u => by simp only [↓State.kept_rules, ↓keeps_rules, implies_true, ite_self, dite_eq_ite, ↓State.move_kept, ↓State.iorEffect_kept])
    | ((with_reducible refine (State.kept_foldl _ (fun s a => ?_) _ _).trans ?_) <;>
        try simp only [↓State.kept_rules, ↓keeps_rules, implies_true, ite_self, dite_eq_ite, ↓State.move_kept,
        ↓State.iorEffect_kept])
    | (split <;> try simp only [↓State.kept_rules, ↓keeps_rules, implies_true, ite_self, dite_eq_ite, ↓State.move_kept,
        ↓State.iorEffect_kept])
    | rfl

theorem execTdspInterruptEntry_kept (t : Fin 8) (s : State) : Keeps s (execTdspInterruptEntry t s) := by
  unfold execTdspInterruptEntry
  try simp only [↓State.kept_rules, ↓keeps_rules, ite_self, dite_eq_ite, ↓State.modK_kept]
  repeat'
    first
    | with_reducible rfl
    | ((with_reducible refine (State.kept_foldl _ (fun s a => ?_) _ _).trans ?_) <;>
        try simp only [↓State.kept_rules, ↓keeps_rules, ite_self, dite_eq_ite, ↓State.modK_kept])
    | (split <;> try simp only [↓State.kept_rules, ↓keeps_rules, ite_self, dite_eq_ite, ↓State.modK_kept])
    | rfl

theorem State.mov_kept (s : State) (t : Fin 8) (f : State → Tdsp → Move) : Keeps s (s.mov t f) :=
  ⟨_, rfl, State.move_kept s t f id (fun _ => rfl)⟩

theorem execReti_kept (t : Fin 8) (s : State) : Keeps s (execReti t s) := by
  unfold execReti
  simp only [↓State.kept_rules, ↓keeps_rules, implies_true, ite_self, dite_eq_ite, ↓State.mov_kept]

theorem execIdle_kept (t : Fin 8) (s : State) : Keeps s (execIdle t s) := by
  unfold execIdle
  try simp only [↓State.kept_rules, ↓keeps_rules, implies_true, ite_self, dite_eq_ite, ↓State.modK_kept,
    ↓State.move_kept]
  repeat'
    first
    | with_reducible rfl
    | exact State.move_kept _ _ _ _ (fun u => by simp only [↓State.kept_rules, ↓keeps_rules, implies_true, ite_self, dite_eq_ite, ↓State.modK_kept, ↓State.move_kept])
    | ((with_reducible refine (State.kept_foldl _ (fun s a => ?_) _ _).trans ?_) <;>
        try simp only [↓State.kept_rules, ↓keeps_rules, implies_true, ite_self, dite_eq_ite, ↓State.modK_kept,
        ↓State.move_kept])
    | (split <;> try simp only [↓State.kept_rules, ↓keeps_rules, implies_true, ite_self, dite_eq_ite, ↓State.modK_kept,
        ↓State.move_kept])
    | rfl

theorem State.comp_kept (s : State) (t : Fin 8) (f : Tdsp → List InFlight) : Keeps s (State.comp s t f) := by
  unfold State.comp
  simp only [↓State.kept_rules, ↓keeps_rules, ite_self, dite_eq_ite, ↓State.compute_kept]

theorem execCpwr_kept (t : Fin 8) (a : Fin 8) (x2 : Fin 16) (z : Bool) (s : State) : Keeps s (execCpwr t a x2 z s) :=
    by
  unfold execCpwr
  simp only [↓State.kept_rules, ↓keeps_rules, ite_self, dite_eq_ite, ↓State.comp_kept]

theorem execEvt_kept (t : Fin 8) (r : Fin 16) (code : BitVec 8) (s : State) : Keeps s (execEvt t r code s) := by
  unfold execEvt
  try simp only [↓State.kept_rules, ↓keeps_rules, implies_true, ite_self, dite_eq_ite, ↓State.move_kept,
    ↓State.kernelMsg_kept]
  repeat'
    first
    | with_reducible rfl
    | exact State.move_kept _ _ _ _ (fun u => by simp only [↓State.kept_rules, ↓keeps_rules, implies_true, ite_self, dite_eq_ite, ↓State.move_kept, ↓State.kernelMsg_kept])
    | ((with_reducible refine (State.kept_foldl _ (fun s a => ?_) _ _).trans ?_) <;>
        try simp only [↓State.kept_rules, ↓keeps_rules, implies_true, ite_self, dite_eq_ite, ↓State.move_kept,
        ↓State.kernelMsg_kept])
    | (split <;> try simp only [↓State.kept_rules, ↓keeps_rules, implies_true, ite_self, dite_eq_ite, ↓State.move_kept,
        ↓State.kernelMsg_kept])
    | rfl

theorem execOr_kept (t : Fin 8) (d : Fin 16) (x2 : Fin 16) (y : Fin 16) (s : State) : Keeps s (execOr t d x2 y s) :=
    by
  unfold execOr
  simp only [↓State.kept_rules, ↓keeps_rules, ite_self, dite_eq_ite, ↓State.comp_kept]

theorem execLdy_kept (t : Fin 8) (d : Fin 16) (am : AddrMode) (s : State) : Keeps s (execLdy t d am s) := by
  unfold execLdy
  simp only [↓State.kept_rules, ↓keeps_rules, implies_true, ite_self, dite_eq_ite, ↓State.mov_kept]

theorem execIorTioDbell_kept (t : Fin 8) (d : Fin 16) (s : State) : Keeps s (execIorTioDbell t d s) := by
  unfold execIorTioDbell
  simp only [↓State.kept_rules, ↓keeps_rules, ite_self, dite_eq_ite, ↓State.ior_kept]

theorem execFtap_kept (t : Fin 8) (h : Fin 2) (q : Fin 4) (c : Fin 16) (n : Fin 16) (f : TFlags) (s : State) : Keeps s
    (execFtap t h q c n f s) := by
  unfold execFtap
  simp only [↓State.kept_rules, ↓keeps_rules, ite_self, dite_eq_ite, ↓State.comp_kept]

theorem execCmac4_kept (t : Fin 8) (h : Fin 2) (q : Fin 4) (c : Fin 16) (f : TFlags) (s : State) : Keeps s (execCmac4
    t h q c f s) := by
  unfold execCmac4
  simp only [↓State.kept_rules, ↓keeps_rules, ite_self, dite_eq_ite, ↓State.comp_kept]

theorem State.kernelCapture_kept (s : State) (t : Fin 8) (v : BitVec 32) : (State.kernelCapture s t v).kept = s.kept
    := by
  unfold State.kernelCapture
  simp only [↓State.kept_rules, ite_self, dite_eq_ite, ↓State.modK_kept, ↓State.modRes_kept, ↓State.orxServe_kept]

theorem State.iowEffect_kept (s : State) (t : Fin 8) (addr : ℕ) (v : BitVec 32) : (State.iowEffect s t addr v).kept =
    s.kept := by
  unfold State.iowEffect
  try simp only [↓State.kept_rules, ite_self, dite_eq_ite, ↓State.modK_kept, ↓State.levelChanged_kept,
    ↓State.kernelCapture_kept]
  repeat'
    first
    | with_reducible rfl
    | ((with_reducible refine (State.kept_foldl _ (fun s a => ?_) _ _).trans ?_) <;>
        try simp only [↓State.kept_rules, ite_self, dite_eq_ite, ↓State.modK_kept, ↓State.levelChanged_kept,
        ↓State.kernelCapture_kept])
    | (split <;> try simp only [↓State.kept_rules, ite_self, dite_eq_ite, ↓State.modK_kept, ↓State.levelChanged_kept,
        ↓State.kernelCapture_kept])
    | rfl

theorem State.iow_kept (s : State) (t : Fin 8) (r : Fin 16) (addr : ℕ) : Keeps s (State.iow s t r addr) := by
  unfold State.iow
  try simp only [↓State.kept_rules, ↓keeps_rules, implies_true, ite_self, dite_eq_ite, ↓State.move_kept,
    ↓State.iowEffect_kept]
  repeat'
    first
    | with_reducible rfl
    | exact State.move_kept _ _ _ _ (fun u => by simp only [↓State.kept_rules, ↓keeps_rules, implies_true, ite_self, dite_eq_ite, ↓State.move_kept, ↓State.iowEffect_kept])
    | ((with_reducible refine (State.kept_foldl _ (fun s a => ?_) _ _).trans ?_) <;>
        try simp only [↓State.kept_rules, ↓keeps_rules, implies_true, ite_self, dite_eq_ite, ↓State.move_kept,
        ↓State.iowEffect_kept])
    | (split <;> try simp only [↓State.kept_rules, ↓keeps_rules, implies_true, ite_self, dite_eq_ite, ↓State.move_kept,
        ↓State.iowEffect_kept])
    | rfl

theorem execIowTioFill_kept (t : Fin 8) (r : Fin 16) (k : Fin 2) (s : State) : Keeps s (execIowTioFill t r k s) := by
  unfold execIowTioFill
  simp only [↓State.kept_rules, ↓keeps_rules, ite_self, dite_eq_ite, ↓State.iow_kept]

theorem execBfpend_kept (t : Fin 8) (s : State) : Keeps s (execBfpend t s) := by
  unfold execBfpend
  simp only [↓State.kept_rules, ↓keeps_rules, ite_self, dite_eq_ite, ↓State.comp_kept]

theorem execIcmp_kept (t : Fin 8) (x1 : Fin 16) (y : Fin 16) (s : State) : Keeps s (execIcmp t x1 y s) := by
  unfold execIcmp
  simp only [↓State.kept_rules, ↓keeps_rules, ite_self, dite_eq_ite, ↓State.comp_kept]

theorem execAccadd_kept (t : Fin 8) (a : Fin 8) (b : Fin 8) (neg : Bool) (s : State) : Keeps s (execAccadd t a b neg
    s) := by
  unfold execAccadd
  simp only [↓State.kept_rules, ↓keeps_rules, ite_self, dite_eq_ite, ↓State.comp_kept]

theorem execLoopReturn_kept (t : Fin 8) (s : State) : Keeps s (execLoopReturn t s) := by
  unfold execLoopReturn
  simp only [↓State.kept_rules, ↓keeps_rules, ite_self, dite_eq_ite, ↓State.modK_kept]

theorem execLi_kept (t : Fin 8) (code : BitVec 6) (imm : BitVec 18) (s : State) : Keeps s (execLi t code imm s) := by
  unfold execLi
  simp only [↓State.kept_rules, ↓keeps_rules, implies_true, ite_self, dite_eq_ite, ↓State.mov_kept]

theorem execCmac_kept (t : Fin 8) (a : Fin 8) (x2 : Fin 16) (y : Fin 16) (f : TFlags) (s : State) : Keeps s (execCmac
    t a x2 y f s) := by
  unfold execCmac
  simp only [↓State.kept_rules, ↓keeps_rules, ite_self, dite_eq_ite, ↓State.comp_kept]

theorem execSyncBufferDrained_kept (t : Fin 8) (s : State) : Keeps s (execSyncBufferDrained t s) := by
  unfold execSyncBufferDrained
  simp only [↓State.kept_rules, ↓keeps_rules, State.kept_foldl, State.kept_foldl_fst, State.kept_foldl_snd,
    implies_true, ite_self, dite_eq_ite, ↓State.modK_kept]

theorem execIorTioFill_kept (t : Fin 8) (d : Fin 16) (k : Fin 2) (s : State) : Keeps s (execIorTioFill t d k s) := by
  unfold execIorTioFill
  simp only [↓State.kept_rules, ↓keeps_rules, ite_self, dite_eq_ite, ↓State.ior_kept]

theorem execMvlp_kept (t : Fin 8) (lv : Fin 2) (restore : Bool) (inY : Bool) (p : Fin 8) (s : State) : Keeps s
    (execMvlp t lv restore inY p s) := by
  unfold execMvlp
  simp only [↓State.kept_rules, ↓keeps_rules, implies_true, ite_self, dite_eq_ite, ↓State.mov_kept]

theorem execIowTioTimer_kept (t : Fin 8) (r : Fin 16) (addr : BitVec 8) (s : State) : Keeps s (execIowTioTimer t r
    addr s) := by
  unfold execIowTioTimer
  simp only [↓State.kept_rules, ↓keeps_rules, ite_self, dite_eq_ite, ↓State.iow_kept]

theorem execRmac2_kept (t : Fin 8) (a : Fin 8) (x2 : Fin 16) (y : Fin 16) (neg : Bool) (z : Bool) (s : State) : Keeps
    s (execRmac2 t a x2 y neg z s) := by
  unfold execRmac2
  simp only [↓State.kept_rules, ↓keeps_rules, ite_self, dite_eq_ite, ↓State.comp_kept]

theorem execIowTioCap_kept (t : Fin 8) (r : Fin 16) (s : State) : Keeps s (execIowTioCap t r s) := by
  unfold execIowTioCap
  simp only [↓State.kept_rules, ↓keeps_rules, ite_self, dite_eq_ite, ↓State.iow_kept]

theorem execIsub_kept (t : Fin 8) (d : Fin 16) (x2 : Fin 16) (y : Fin 16) (s : State) : Keeps s (execIsub t d x2 y s)
    := by
  unfold execIsub
  simp only [↓State.kept_rules, ↓keeps_rules, ite_self, dite_eq_ite, ↓State.comp_kept]

theorem execIadd_kept (t : Fin 8) (d : Fin 16) (x2 : Fin 16) (y : Fin 16) (s : State) : Keeps s (execIadd t d x2 y s)
    := by
  unfold execIadd
  simp only [↓State.kept_rules, ↓keeps_rules, ite_self, dite_eq_ite, ↓State.comp_kept]

theorem execLih_kept (t : Fin 8) (d : Fin 16) (imm : BitVec 16) (s : State) : Keeps s (execLih t d imm s) := by
  unfold execLih
  simp only [↓State.kept_rules, ↓keeps_rules, implies_true, ite_self, dite_eq_ite, ↓State.mov_kept]

theorem execShra_kept (t : Fin 8) (d : Fin 16) (x2 : Fin 16) (n : BitVec 4) (s : State) : Keeps s (execShra t d x2 n
    s) := by
  unfold execShra
  simp only [↓State.kept_rules, ↓keeps_rules, ite_self, dite_eq_ite, ↓State.comp_kept]

theorem execAccclr_kept (t : Fin 8) (mask : BitVec 8) (s : State) : Keeps s (execAccclr t mask s) := by
  unfold execAccclr
  simp only [↓State.kept_rules, ↓keeps_rules, ite_self, dite_eq_ite, ↓State.comp_kept]

theorem execCsub_kept (t : Fin 8) (d : Fin 16) (x2 : Fin 16) (y : Fin 16) (s : State) : Keeps s (execCsub t d x2 y s)
    := by
  unfold execCsub
  simp only [↓State.kept_rules, ↓keeps_rules, ite_self, dite_eq_ite, ↓State.comp_kept]

theorem execNop_kept (t : Fin 8) (moveSlot : Bool) (s : State) : Keeps s (execNop t moveSlot s) := by
  unfold execNop
  simp only [↓State.kept_rules, ↓keeps_rules, implies_true, ite_self, dite_eq_ite, ↓State.mov_kept, ↓State.comp_kept]

theorem execCmpy_kept (t : Fin 8) (d : Fin 16) (x2 : Fin 16) (y : Fin 16) (cj : Bool) (s : State) : Keeps s (execCmpy
    t d x2 y cj s) := by
  unfold execCmpy
  simp only [↓State.kept_rules, ↓keeps_rules, ite_self, dite_eq_ite, ↓State.comp_kept]

theorem execCadd_kept (t : Fin 8) (d : Fin 16) (x2 : Fin 16) (y : Fin 16) (s : State) : Keeps s (execCadd t d x2 y s)
    := by
  unfold execCadd
  simp only [↓State.kept_rules, ↓keeps_rules, ite_self, dite_eq_ite, ↓State.comp_kept]

theorem execConj_kept (t : Fin 8) (d : Fin 16) (x2 : Fin 16) (neg : Bool) (s : State) : Keeps s (execConj t d x2 neg
    s) := by
  unfold execConj
  simp only [↓State.kept_rules, ↓keeps_rules, ite_self, dite_eq_ite, ↓State.comp_kept]

theorem execAnd_kept (t : Fin 8) (d : Fin 16) (x2 : Fin 16) (y : Fin 16) (s : State) : Keeps s (execAnd t d x2 y s) :=
    by
  unfold execAnd
  simp only [↓State.kept_rules, ↓keeps_rules, ite_self, dite_eq_ite, ↓State.comp_kept]

theorem execXor_kept (t : Fin 8) (d : Fin 16) (x2 : Fin 16) (y : Fin 16) (s : State) : Keeps s (execXor t d x2 y s) :=
    by
  unfold execXor
  simp only [↓State.kept_rules, ↓keeps_rules, ite_self, dite_eq_ite, ↓State.comp_kept]

theorem execMvad_kept (t : Fin 8) (d : Fin 16) (a : Fin 8) (s : State) : Keeps s (execMvad t d a s) := by
  unfold execMvad
  simp only [↓State.kept_rules, ↓keeps_rules, ite_self, dite_eq_ite, ↓State.comp_kept]

theorem execMvda_kept (t : Fin 8) (a : Fin 8) (d : Fin 16) (sh : BitVec 4) (s : State) : Keeps s (execMvda t a d sh s)
    := by
  unfold execMvda
  simp only [↓State.kept_rules, ↓keeps_rules, ite_self, dite_eq_ite, ↓State.compute_kept]

theorem execLdx_kept (t : Fin 8) (d : Fin 16) (am : AddrMode) (s : State) : Keeps s (execLdx t d am s) := by
  unfold execLdx
  simp only [↓State.kept_rules, ↓keeps_rules, implies_true, ite_self, dite_eq_ite, ↓State.mov_kept]

theorem execLdxy_kept (t : Fin 8) (a : Fin 16) (b : Fin 16) (px : Fin 8) (mx : Fin 8) (ux : Bool) (py : Fin 8) (my :
    Fin 8) (uy : Bool) (s : State) : Keeps s (execLdxy t a b px mx ux py my uy s) := by
  unfold execLdxy
  simp only [↓State.kept_rules, ↓keeps_rules, implies_true, ite_self, dite_eq_ite, ↓State.mov_kept]

theorem execStx_kept (t : Fin 8) (r : Fin 16) (am : AddrMode) (s : State) : Keeps s (execStx t r am s) := by
  unfold execStx
  simp only [↓State.kept_rules, ↓keeps_rules, implies_true, ite_self, dite_eq_ite, ↓State.mov_kept]

theorem execSty_kept (t : Fin 8) (r : Fin 16) (am : AddrMode) (s : State) : Keeps s (execSty t r am s) := by
  unfold execSty
  simp only [↓State.kept_rules, ↓keeps_rules, implies_true, ite_self, dite_eq_ite, ↓State.mov_kept]

theorem execMv_kept (t : Fin 8) (dst : BitVec 6) (src : BitVec 6) (s : State) : Keeps s (execMv t dst src s) := by
  unfold execMv
  simp only [↓State.kept_rules, ↓keeps_rules, implies_true, ite_self, dite_eq_ite, ↓State.mov_kept]

theorem execPadd_kept (t : Fin 8) (p : Fin 8) (form : Bool) (m : Fin 8) (imm : BitVec 18) (s : State) : Keeps s
    (execPadd t p form m imm s) := by
  unfold execPadd
  simp only [↓State.kept_rules, ↓keeps_rules, implies_true, ite_self, dite_eq_ite, ↓State.mov_kept]

theorem execIorTioTime_kept (t : Fin 8) (d : Fin 16) (addr : BitVec 8) (s : State) : Keeps s (execIorTioTime t d addr
    s) := by
  unfold execIorTioTime
  simp only [↓State.kept_rules, ↓keeps_rules, ite_self, dite_eq_ite, ↓State.ior_kept]

theorem execIen_kept (t : Fin 8) (e : Bool) (s : State) : Keeps s (execIen t e s) := by
  unfold execIen
  simp only [↓State.kept_rules, ↓keeps_rules, implies_true, ite_self, dite_eq_ite, ↓State.mov_kept]

theorem execBr_kept (t : Fin 8) (cond : BitVec 3) (target : BitVec 15) (s : State) : Keeps s (execBr t cond target s)
    := by
  unfold execBr
  simp only [↓State.kept_rules, ↓keeps_rules, implies_true, ite_self, dite_eq_ite, ↓State.mov_kept]

theorem execCall_kept (t : Fin 8) (d : Fin 16) (target : BitVec 15) (s : State) : Keeps s (execCall t d target s) :=
    by
  unfold execCall
  simp only [↓State.kept_rules, ↓keeps_rules, implies_true, ite_self, dite_eq_ite, ↓State.mov_kept]

theorem execRet_kept (t : Fin 8) (r : Fin 16) (s : State) : Keeps s (execRet t r s) := by
  unfold execRet
  simp only [↓State.kept_rules, ↓keeps_rules, implies_true, ite_self, dite_eq_ite, ↓State.mov_kept]

theorem execLoop_kept (t : Fin 8) (lv : Fin 2) (form : Bool) (start : BitVec 4) (stop : BitVec 10) (count : BitVec 10)
    (s : State) : Keeps s (execLoop t lv form start stop count s) := by
  unfold execLoop
  simp only [↓State.kept_rules, ↓keeps_rules, implies_true, ite_self, dite_eq_ite, ↓State.mov_kept]

theorem execSync_kept (t : Fin 8) (s : State) : Keeps s (execSync t s) := by
  unfold execSync
  try simp only [↓State.kept_rules, ↓keeps_rules, implies_true, ite_self, dite_eq_ite, ↓State.modK_kept,
    ↓State.move_kept]
  repeat'
    first
    | with_reducible rfl
    | exact State.move_kept _ _ _ _ (fun u => by simp only [↓State.kept_rules, ↓keeps_rules, implies_true, ite_self, dite_eq_ite, ↓State.modK_kept, ↓State.move_kept])
    | ((with_reducible refine (State.kept_foldl _ (fun s a => ?_) _ _).trans ?_) <;>
        try simp only [↓State.kept_rules, ↓keeps_rules, implies_true, ite_self, dite_eq_ite, ↓State.modK_kept,
        ↓State.move_kept])
    | (split <;> try simp only [↓State.kept_rules, ↓keeps_rules, implies_true, ite_self, dite_eq_ite, ↓State.modK_kept,
        ↓State.move_kept])
    | rfl

theorem execTioTimerExpiry_kept (t : Fin 8) (s : State) : Keeps s (execTioTimerExpiry t s) := by
  unfold execTioTimerExpiry
  simp only [↓State.kept_rules, ↓keeps_rules, ite_self, dite_eq_ite, ↓State.modK_kept]

end Sys2Proof.Machine
end

