-- ==== Sys2Proof/Laws/KeptTdspCmd.lean ====
section
/-! SUPPORT. The queue and the one-time programmable memory under the operations of Machine/TdspCmd.lean. -/

set_option linter.all false

namespace Sys2Proof.Machine

theorem State.estPause_kept (s : State) (t : Fin 8) : (State.estPause s t).kept = s.kept := by
  unfold State.estPause
  try simp only [↓State.kept_rules, ite_self, dite_eq_ite, ↓State.modPdTile_kept, ↓State.modPd_kept,
    ↓State.pdRefresh_kept]
  repeat'
    first
    | with_reducible rfl
    | ((with_reducible refine (State.kept_foldl _ (fun s a => ?_) _ _).trans ?_) <;>
        try simp only [↓State.kept_rules, ite_self, dite_eq_ite, ↓State.modPdTile_kept, ↓State.modPd_kept,
        ↓State.pdRefresh_kept])
    | (split <;> try simp only [↓State.kept_rules, ite_self, dite_eq_ite, ↓State.modPdTile_kept, ↓State.modPd_kept,
        ↓State.pdRefresh_kept])
    | rfl

theorem State.loadBegin_kept (s : State) (t : Fin 8) (a : ℕ) (start : Bool) : (State.loadBegin s t a start).kept =
    s.kept := by
  unfold State.loadBegin
  simp only [↓State.kept_rules, ite_self, dite_eq_ite, ↓State.modK_kept, ↓State.estPause_kept, ↓State.kernelStop_kept]

theorem execTdspUnload_kept (h : CmdHdr) (tile : BitVec 8) (s : State) : Keeps s (execTdspUnload h tile s) := by
  unfold execTdspUnload
  refine ⟨_, rfl, serve_kept _ _ _ _ (fun u => ?_)⟩
  try simp only [↓State.kept_rules, ↓keeps_rules, implies_true, ite_self, dite_eq_ite, ↓refuse_kept, ↓serve_kept,
    ↓checks_kept, ↓done_kept, ↓State.modK_kept, ↓State.kernelStop_kept]
  repeat'
    first
    | with_reducible rfl
    | ((refine checks_kept _ _ _ ?_) <;> try simp only [↓State.kept_rules, ↓keeps_rules, implies_true, ite_self, dite_eq_ite, ↓refuse_kept, ↓serve_kept,
        ↓checks_kept, ↓done_kept, ↓State.modK_kept, ↓State.kernelStop_kept])
    | ((with_reducible refine (State.kept_foldl _ (fun s a => ?_) _ _).trans ?_) <;>
        try simp only [↓State.kept_rules, ↓keeps_rules, implies_true, ite_self, dite_eq_ite, ↓refuse_kept, ↓serve_kept,
        ↓checks_kept, ↓done_kept, ↓State.modK_kept, ↓State.kernelStop_kept])
    | (split <;> try simp only [↓State.kept_rules, ↓keeps_rules, implies_true, ite_self, dite_eq_ite, ↓refuse_kept, ↓serve_kept,
        ↓checks_kept, ↓done_kept, ↓State.modK_kept, ↓State.kernelStop_kept])
    | rfl

theorem execTdspStart_kept (h : CmdHdr) (tile : BitVec 8) (entry : BitVec 16) (s : State) : Keeps s (execTdspStart h
    tile entry s) := by
  unfold execTdspStart
  refine ⟨_, rfl, serve_kept _ _ _ _ (fun u => ?_)⟩
  try simp only [↓State.kept_rules, ↓keeps_rules, implies_true, ite_self, dite_eq_ite, ↓refuse_kept, ↓serve_kept,
    ↓checks_kept, ↓done_kept, ↓State.modK_kept]
  repeat'
    first
    | with_reducible rfl
    | ((refine checks_kept _ _ _ ?_) <;> try simp only [↓State.kept_rules, ↓keeps_rules, implies_true, ite_self, dite_eq_ite, ↓refuse_kept, ↓serve_kept,
        ↓checks_kept, ↓done_kept, ↓State.modK_kept])
    | ((with_reducible refine (State.kept_foldl _ (fun s a => ?_) _ _).trans ?_) <;>
        try simp only [↓State.kept_rules, ↓keeps_rules, implies_true, ite_self, dite_eq_ite, ↓refuse_kept, ↓serve_kept,
        ↓checks_kept, ↓done_kept, ↓State.modK_kept])
    | (split <;> try simp only [↓State.kept_rules, ↓keeps_rules, implies_true, ite_self, dite_eq_ite, ↓refuse_kept, ↓serve_kept,
        ↓checks_kept, ↓done_kept, ↓State.modK_kept])
    | rfl

theorem execTdspStop_kept (h : CmdHdr) (tile : BitVec 8) (s : State) : Keeps s (execTdspStop h tile s) := by
  unfold execTdspStop
  refine ⟨_, rfl, serve_kept _ _ _ _ (fun u => ?_)⟩
  try simp only [↓State.kept_rules, ↓keeps_rules, implies_true, ite_self, dite_eq_ite, ↓refuse_kept, ↓serve_kept,
    ↓done_kept, ↓State.kernelStop_kept]
  repeat'
    first
    | with_reducible rfl
    | ((refine checks_kept _ _ _ ?_) <;> try simp only [↓State.kept_rules, ↓keeps_rules, implies_true, ite_self, dite_eq_ite, ↓refuse_kept, ↓serve_kept,
        ↓done_kept, ↓State.kernelStop_kept])
    | ((with_reducible refine (State.kept_foldl _ (fun s a => ?_) _ _).trans ?_) <;>
        try simp only [↓State.kept_rules, ↓keeps_rules, implies_true, ite_self, dite_eq_ite, ↓refuse_kept, ↓serve_kept,
        ↓done_kept, ↓State.kernelStop_kept])
    | (split <;> try simp only [↓State.kept_rules, ↓keeps_rules, implies_true, ite_self, dite_eq_ite, ↓refuse_kept, ↓serve_kept,
        ↓done_kept, ↓State.kernelStop_kept])
    | rfl

theorem execTdspLoadComplete_kept (t : Fin 8) (s : State) : Keeps s (execTdspLoadComplete t s) := by
  unfold execTdspLoadComplete
  try simp only [↓State.kept_rules, ↓keeps_rules, ite_self, dite_eq_ite, ↓State.modPdTile_kept, ↓State.emitNow_kept,
    ↓State.modK_kept, ↓State.pdRefresh_kept]
  repeat'
    first
    | with_reducible rfl
    | ((with_reducible refine (State.kept_foldl _ (fun s a => ?_) _ _).trans ?_) <;>
        try simp only [↓State.kept_rules, ↓keeps_rules, ite_self, dite_eq_ite, ↓State.modPdTile_kept, ↓State.emitNow_kept,
        ↓State.modK_kept, ↓State.pdRefresh_kept])
    | (split <;> try simp only [↓State.kept_rules, ↓keeps_rules, ite_self, dite_eq_ite, ↓State.modPdTile_kept, ↓State.emitNow_kept,
        ↓State.modK_kept, ↓State.pdRefresh_kept])
    | rfl

theorem execTdspLoad_kept (h : CmdHdr) (tile : BitVec 8) (addr : BitVec 32) (start : BitVec 8) (s : State) : Keeps s
    (execTdspLoad h tile addr start s) := by
  unfold execTdspLoad
  refine ⟨_, rfl, serve_kept _ _ _ _ (fun u => ?_)⟩
  try simp only [↓State.kept_rules, ↓keeps_rules, implies_true, ite_self, dite_eq_ite, ↓refuse_kept, ↓serve_kept,
    ↓checks_kept, ↓State.loadBegin_kept, ↓accepted_kept]
  repeat'
    first
    | with_reducible rfl
    | ((refine checks_kept _ _ _ ?_) <;> try simp only [↓State.kept_rules, ↓keeps_rules, implies_true, ite_self, dite_eq_ite, ↓refuse_kept, ↓serve_kept,
        ↓checks_kept, ↓State.loadBegin_kept, ↓accepted_kept])
    | ((with_reducible refine (State.kept_foldl _ (fun s a => ?_) _ _).trans ?_) <;>
        try simp only [↓State.kept_rules, ↓keeps_rules, implies_true, ite_self, dite_eq_ite, ↓refuse_kept, ↓serve_kept,
        ↓checks_kept, ↓State.loadBegin_kept, ↓accepted_kept])
    | (split <;> try simp only [↓State.kept_rules, ↓keeps_rules, implies_true, ite_self, dite_eq_ite, ↓refuse_kept, ↓serve_kept,
        ↓checks_kept, ↓State.loadBegin_kept, ↓accepted_kept])
    | rfl

theorem execTdspDoorbell_kept (h : CmdHdr) (tile : BitVec 8) (value : BitVec 32) (s : State) : Keeps s
    (execTdspDoorbell h tile value s) := by
  unfold execTdspDoorbell
  refine ⟨_, rfl, serve_kept _ _ _ _ (fun u => ?_)⟩
  try simp only [↓State.kept_rules, ↓keeps_rules, implies_true, ite_self, dite_eq_ite, ↓refuse_kept, ↓serve_kept,
    ↓checks_kept, ↓done_kept, ↓State.modK_kept]
  repeat'
    first
    | with_reducible rfl
    | ((refine checks_kept _ _ _ ?_) <;> try simp only [↓State.kept_rules, ↓keeps_rules, implies_true, ite_self, dite_eq_ite, ↓refuse_kept, ↓serve_kept,
        ↓checks_kept, ↓done_kept, ↓State.modK_kept])
    | ((with_reducible refine (State.kept_foldl _ (fun s a => ?_) _ _).trans ?_) <;>
        try simp only [↓State.kept_rules, ↓keeps_rules, implies_true, ite_self, dite_eq_ite, ↓refuse_kept, ↓serve_kept,
        ↓checks_kept, ↓done_kept, ↓State.modK_kept])
    | (split <;> try simp only [↓State.kept_rules, ↓keeps_rules, implies_true, ite_self, dite_eq_ite, ↓refuse_kept, ↓serve_kept,
        ↓checks_kept, ↓done_kept, ↓State.modK_kept])
    | rfl

theorem execTdspStatus_kept (h : CmdHdr) (tile : BitVec 8) (s : State) : Keeps s (execTdspStatus h tile s) := by
  unfold execTdspStatus
  refine ⟨_, rfl, serve_kept _ _ _ _ (fun u => ?_)⟩
  try simp only [↓State.kept_rules, ↓keeps_rules, implies_true, ite_self, dite_eq_ite, ↓refuse_kept, ↓serve_kept,
    ↓doneR_kept]
  repeat'
    first
    | with_reducible rfl
    | ((refine checks_kept _ _ _ ?_) <;> try simp only [↓State.kept_rules, ↓keeps_rules, implies_true, ite_self, dite_eq_ite, ↓refuse_kept, ↓serve_kept,
        ↓doneR_kept])
    | ((with_reducible refine (State.kept_foldl _ (fun s a => ?_) _ _).trans ?_) <;>
        try simp only [↓State.kept_rules, ↓keeps_rules, implies_true, ite_self, dite_eq_ite, ↓refuse_kept, ↓serve_kept,
        ↓doneR_kept])
    | (split <;> try simp only [↓State.kept_rules, ↓keeps_rules, implies_true, ite_self, dite_eq_ite, ↓refuse_kept, ↓serve_kept,
        ↓doneR_kept])
    | rfl

end Sys2Proof.Machine
end

