-- ==== Sys2Proof/Laws/KeptRegisters.lean ====
section
/-! SUPPORT. The queue and the one-time programmable memory under the operations of Machine/Registers.lean. -/

set_option linter.all false

namespace Sys2Proof.Machine

theorem State.ro_kept (s : State) (v : ℕ) : (State.ro s v).2.kept = s.kept := by
  unfold State.ro
  simp only [↓State.kept_rules, ite_self, dite_eq_ite]

/-- A read, where there is one, keeps the queue and the one-time programmable memory. -/
def OptKeeps (s : State) : Option Rd → Prop
  | none => True
  | some r => r.2.kept = s.kept

/-- So does every one of a list. -/
def AllKeeps (s : State) : List (Option Rd) → Prop
  | [] => True
  | r :: rs => OptKeeps s r ∧ AllKeeps s rs

theorem OptKeeps.rules :
    (∀ s : State, OptKeeps s none = True) ∧ (∀ (s : State) (r : Rd), OptKeeps s (some r) = (r.2.kept = s.kept)) ∧
    (∀ (s : State) (c : Prop) [Decidable c] (a b : Option Rd),
      OptKeeps s (if c then a else b) = if c then OptKeeps s a else OptKeeps s b) :=
  ⟨fun _ => rfl, fun _ _ => rfl, fun s c _ => apply_ite (OptKeeps s) c⟩

theorem OptKeeps.of_eq {s : State} {o : Option Rd} {r : Rd} (h : OptKeeps s o) (e : o = some r) : r.2.kept = s.kept := by
  rw [e] at h
  exact h

theorem OptKeeps.map {α : Type} (s : State) (o : Option α) (f : α → Rd) (h : ∀ x, (f x).2.kept = s.kept) :
    OptKeeps s (o.map f) := by
  cases o with
  | none => exact True.intro
  | some x => exact h x

theorem OptKeeps.getD {s : State} {o : Option Rd} {r : Rd} (h : OptKeeps s o) (hr : r.2.kept = s.kept) :
    (o.getD r).2.kept = s.kept := by
  cases o with
  | none => exact hr
  | some x => exact h

theorem State.firstOf_kept (s : State) (l : List (Option Rd)) (h : AllKeeps s l) : (s.firstOf l).2.kept = s.kept := by
  unfold State.firstOf
  induction l with
  | nil => rfl
  | cons o l ih =>
    cases o with
    | none => exact ih h.2
    | some r => exact h.1

theorem State.rdChan_kept (s : State) (c : Fin 16) (o : ℕ) : (State.rdChan s c o).2.kept = s.kept := by
  unfold State.rdChan
  try simp only [↓State.kept_rules, ite_self, dite_eq_ite, ↓State.modCh_kept, ↓State.ro_kept]
  repeat'
    first
    | with_reducible rfl
    | ((with_reducible refine (State.kept_foldl _ (fun s a => ?_) _ _).trans ?_) <;>
        try simp only [↓State.kept_rules, ite_self, dite_eq_ite, ↓State.modCh_kept, ↓State.ro_kept])
    | (split <;> try simp only [↓State.kept_rules, ite_self, dite_eq_ite, ↓State.modCh_kept, ↓State.ro_kept])
    | rfl

theorem State.rdAq_kept (s : State) (o : ℕ) : (State.rdAq s o).2.kept = s.kept := by
  unfold State.rdAq
  try simp only [↓State.kept_rules, implies_true, ite_self, dite_eq_ite, ↓State.ro_kept, State.kept_foldl,
    ↓State.rdChan_kept]
  repeat'
    first
    | with_reducible rfl
    | ((refine State.firstOf_kept _ _ ?_) <;> simp only [AllKeeps, and_true])
    | refine And.intro ?_ ?_
    | ((refine OptKeeps.map _ _ _ (fun x => ?_)) <;> try simp only [↓State.kept_rules, implies_true, ite_self, dite_eq_ite, ↓State.ro_kept, State.kept_foldl, ↓State.rdChan_kept])
    | ((with_reducible refine (State.kept_foldl _ (fun s a => ?_) _ _).trans ?_) <;>
        try simp only [↓State.kept_rules, implies_true, ite_self, dite_eq_ite, ↓State.ro_kept, State.kept_foldl,
        ↓State.rdChan_kept])
    | (split <;> try simp only [↓State.kept_rules, implies_true, ite_self, dite_eq_ite, ↓State.ro_kept, State.kept_foldl,
        ↓State.rdChan_kept])
    | rfl

theorem State.wrTile_kept (s : State) (t : Fin 8) (o : ℕ) (v : BitVec 32) : (State.wrTile s t o v).kept = s.kept := by
  unfold State.wrTile
  try simp only [↓State.kept_rules, ite_self, dite_eq_ite, ↓State.modPath_kept, ↓State.modK_kept, ↓State.modRes_kept,
    ↓State.writePaCtl_kept]
  repeat'
    first
    | with_reducible rfl
    | ((with_reducible refine (State.kept_foldl _ (fun s a => ?_) _ _).trans ?_) <;>
        try simp only [↓State.kept_rules, ite_self, dite_eq_ite, ↓State.modPath_kept, ↓State.modK_kept, ↓State.modRes_kept,
        ↓State.writePaCtl_kept])
    | (split <;> try simp only [↓State.kept_rules, ite_self, dite_eq_ite, ↓State.modPath_kept, ↓State.modK_kept, ↓State.modRes_kept,
        ↓State.writePaCtl_kept])
    | rfl

theorem State.rdRxFlow_kept (s : State) (f : Fin 64) (o : ℕ) : (State.rdRxFlow s f o).2.kept = s.kept := by
  unfold State.rdRxFlow
  simp only [↓State.kept_rules, ite_self, dite_eq_ite, ↓State.ro_kept]

theorem State.rdAo_kept (s : State) (o : ℕ) : OptKeeps s (State.rdAo s o) := by
  unfold State.rdAo
  try simp only [↓State.kept_rules, ↓OptKeeps.rules, ite_self, dite_eq_ite, ↓State.ro_kept]
  repeat'
    first
    | with_reducible rfl
    | ((refine State.firstOf_kept _ _ ?_) <;> simp only [AllKeeps, and_true])
    | refine And.intro ?_ ?_
    | ((refine OptKeeps.map _ _ _ (fun x => ?_)) <;> try simp only [↓State.kept_rules, ↓OptKeeps.rules, ite_self, dite_eq_ite, ↓State.ro_kept])
    | ((with_reducible refine (State.kept_foldl _ (fun s a => ?_) _ _).trans ?_) <;>
        try simp only [↓State.kept_rules, ↓OptKeeps.rules, ite_self, dite_eq_ite, ↓State.ro_kept])
    | (split <;> try simp only [↓State.kept_rules, ↓OptKeeps.rules, ite_self, dite_eq_ite, ↓State.ro_kept])
    | rfl

theorem State.rdHp_kept (s : State) (o : ℕ) : (State.rdHp s o).2.kept = s.kept := by
  unfold State.rdHp
  try simp only [↓State.kept_rules, ite_self, dite_eq_ite, ↓State.ro_kept, ↓State.rdAo_kept]
  repeat'
    first
    | with_reducible rfl
    | ((refine State.firstOf_kept _ _ ?_) <;> simp only [AllKeeps, and_true])
    | refine And.intro ?_ ?_
    | ((refine OptKeeps.map _ _ _ (fun x => ?_)) <;> try simp only [↓State.kept_rules, ite_self, dite_eq_ite, ↓State.ro_kept, ↓State.rdAo_kept])
    | exact State.rdAo_kept _ _
    | exact OptKeeps.of_eq (State.rdAo_kept _ _) (by assumption)
    | ((with_reducible refine (State.kept_foldl _ (fun s a => ?_) _ _).trans ?_) <;>
        try simp only [↓State.kept_rules, ite_self, dite_eq_ite, ↓State.ro_kept, ↓State.rdAo_kept])
    | (split <;> try simp only [↓State.kept_rules, ite_self, dite_eq_ite, ↓State.ro_kept, ↓State.rdAo_kept])
    | rfl

theorem State.rdFront_kept (s : State) (t : Fin 8) (o : ℕ) : OptKeeps s (State.rdFront s t o) := by
  unfold State.rdFront
  try simp only [↓State.kept_rules, ↓OptKeeps.rules, ite_self, dite_eq_ite, ↓State.modRes_kept, ↓State.ro_kept]
  repeat'
    first
    | with_reducible rfl
    | ((refine State.firstOf_kept _ _ ?_) <;> simp only [AllKeeps, and_true])
    | refine And.intro ?_ ?_
    | ((refine OptKeeps.map _ _ _ (fun x => ?_)) <;> try simp only [↓State.kept_rules, ↓OptKeeps.rules, ite_self, dite_eq_ite, ↓State.modRes_kept, ↓State.ro_kept])
    | ((with_reducible refine (State.kept_foldl _ (fun s a => ?_) _ _).trans ?_) <;>
        try simp only [↓State.kept_rules, ↓OptKeeps.rules, ite_self, dite_eq_ite, ↓State.modRes_kept, ↓State.ro_kept])
    | (split <;> try simp only [↓State.kept_rules, ↓OptKeeps.rules, ite_self, dite_eq_ite, ↓State.modRes_kept, ↓State.ro_kept])
    | rfl

theorem State.rdRadio_kept (s : State) (t : Fin 8) (o : ℕ) : OptKeeps s (State.rdRadio s t o) := by
  unfold State.rdRadio
  try simp only [↓State.kept_rules, ↓OptKeeps.rules, ite_self, dite_eq_ite, ↓State.modQueue_kept, ↓State.modRadio_kept,
    ↓State.modCal_kept, ↓State.ro_kept]
  repeat'
    first
    | with_reducible rfl
    | ((refine State.firstOf_kept _ _ ?_) <;> simp only [AllKeeps, and_true])
    | refine And.intro ?_ ?_
    | ((refine OptKeeps.map _ _ _ (fun x => ?_)) <;> try simp only [↓State.kept_rules, ↓OptKeeps.rules, ite_self, dite_eq_ite, ↓State.modQueue_kept, ↓State.modRadio_kept, ↓State.modCal_kept, ↓State.ro_kept])
    | ((with_reducible refine (State.kept_foldl _ (fun s a => ?_) _ _).trans ?_) <;>
        try simp only [↓State.kept_rules, ↓OptKeeps.rules, ite_self, dite_eq_ite, ↓State.modQueue_kept, ↓State.modRadio_kept,
        ↓State.modCal_kept, ↓State.ro_kept])
    | (split <;> try simp only [↓State.kept_rules, ↓OptKeeps.rules, ite_self, dite_eq_ite, ↓State.modQueue_kept, ↓State.modRadio_kept,
        ↓State.modCal_kept, ↓State.ro_kept])
    | rfl

theorem State.rdPdTile_kept (s : State) (t : Fin 8) (o : ℕ) : OptKeeps s (State.rdPdTile s t o) := by
  unfold State.rdPdTile
  try simp only [↓State.kept_rules, ↓OptKeeps.rules, ite_self, dite_eq_ite, ↓State.modK_kept, ↓State.ro_kept]
  repeat'
    first
    | with_reducible rfl
    | ((refine State.firstOf_kept _ _ ?_) <;> simp only [AllKeeps, and_true])
    | refine And.intro ?_ ?_
    | ((refine OptKeeps.map _ _ _ (fun x => ?_)) <;> try simp only [↓State.kept_rules, ↓OptKeeps.rules, ite_self, dite_eq_ite, ↓State.modK_kept, ↓State.ro_kept])
    | ((with_reducible refine (State.kept_foldl _ (fun s a => ?_) _ _).trans ?_) <;>
        try simp only [↓State.kept_rules, ↓OptKeeps.rules, ite_self, dite_eq_ite, ↓State.modK_kept, ↓State.ro_kept])
    | (split <;> try simp only [↓State.kept_rules, ↓OptKeeps.rules, ite_self, dite_eq_ite, ↓State.modK_kept, ↓State.ro_kept])
    | rfl

theorem State.rdPdPath_kept (s : State) (p : Fin 64) (o : ℕ) : (State.rdPdPath s p o).2.kept = s.kept := by
  unfold State.rdPdPath
  try simp only [↓State.kept_rules, ite_self, dite_eq_ite, ↓State.modPd_kept, ↓State.ro_kept]
  repeat'
    first
    | with_reducible rfl
    | ((with_reducible refine (State.kept_foldl _ (fun s a => ?_) _ _).trans ?_) <;>
        try simp only [↓State.kept_rules, ite_self, dite_eq_ite, ↓State.modPd_kept, ↓State.ro_kept])
    | (split <;> try simp only [↓State.kept_rules, ite_self, dite_eq_ite, ↓State.modPd_kept, ↓State.ro_kept])
    | rfl

theorem State.rdPath_kept (s : State) (p : Fin 64) (o : ℕ) : (State.rdPath s p o).2.kept = s.kept := by
  unfold State.rdPath
  try simp only [↓State.kept_rules, ite_self, dite_eq_ite, ↓State.modPath_kept, ↓State.ro_kept]
  repeat'
    first
    | with_reducible rfl
    | ((with_reducible refine (State.kept_foldl _ (fun s a => ?_) _ _).trans ?_) <;>
        try simp only [↓State.kept_rules, ite_self, dite_eq_ite, ↓State.modPath_kept, ↓State.ro_kept])
    | (split <;> try simp only [↓State.kept_rules, ite_self, dite_eq_ite, ↓State.modPath_kept, ↓State.ro_kept])
    | rfl

theorem State.rdPdSet_kept (s : State) (p : Fin 64) (o : ℕ) : (State.rdPdSet s p o).2.kept = s.kept := by
  unfold State.rdPdSet
  try simp only [↓State.kept_rules, ite_self, dite_eq_ite, ↓State.ro_kept]
  repeat'
    first
    | with_reducible rfl
    | ((with_reducible refine (State.kept_foldl _ (fun s a => ?_) _ _).trans ?_) <;>
        try simp only [↓State.kept_rules, ite_self, dite_eq_ite, ↓State.ro_kept])
    | (split <;> try simp only [↓State.kept_rules, ite_self, dite_eq_ite, ↓State.ro_kept])
    | rfl

theorem State.rdTile_kept (s : State) (t : Fin 8) (o : ℕ) : (State.rdTile s t o).2.kept = s.kept := by
  unfold State.rdTile
  try simp only [↓State.kept_rules, implies_true, ite_self, dite_eq_ite, ↓State.ro_kept, State.kept_foldl,
    ↓State.rdFront_kept, ↓State.rdRadio_kept, ↓State.rdPdTile_kept, ↓State.rdPdPath_kept, ↓State.rdPath_kept,
    ↓State.rdPdSet_kept]
  repeat'
    first
    | with_reducible rfl
    | ((refine State.firstOf_kept _ _ ?_) <;> simp only [AllKeeps, and_true])
    | refine And.intro ?_ ?_
    | ((refine OptKeeps.map _ _ _ (fun x => ?_)) <;> try simp only [↓State.kept_rules, implies_true, ite_self, dite_eq_ite, ↓State.ro_kept, State.kept_foldl, ↓State.rdFront_kept, ↓State.rdRadio_kept, ↓State.rdPdTile_kept, ↓State.rdPdPath_kept, ↓State.rdPath_kept, ↓State.rdPdSet_kept])
    | exact State.rdFront_kept _ _ _
    | exact State.rdPdTile_kept _ _ _
    | exact State.rdRadio_kept _ _ _
    | exact OptKeeps.of_eq (State.rdFront_kept _ _ _) (by assumption)
    | exact OptKeeps.of_eq (State.rdPdTile_kept _ _ _) (by assumption)
    | exact OptKeeps.of_eq (State.rdRadio_kept _ _ _) (by assumption)
    | ((with_reducible refine (State.kept_foldl _ (fun s a => ?_) _ _).trans ?_) <;>
        try simp only [↓State.kept_rules, implies_true, ite_self, dite_eq_ite, ↓State.ro_kept, State.kept_foldl,
        ↓State.rdFront_kept, ↓State.rdRadio_kept, ↓State.rdPdTile_kept, ↓State.rdPdPath_kept, ↓State.rdPath_kept,
        ↓State.rdPdSet_kept])
    | (split <;> try simp only [↓State.kept_rules, implies_true, ite_self, dite_eq_ite, ↓State.ro_kept, State.kept_foldl,
        ↓State.rdFront_kept, ↓State.rdRadio_kept, ↓State.rdPdTile_kept, ↓State.rdPdPath_kept, ↓State.rdPath_kept,
        ↓State.rdPdSet_kept])
    | rfl

theorem State.rdBe_kept (s : State) (o : ℕ) : (State.rdBe s o).2.kept = s.kept := by
  unfold State.rdBe
  try simp only [↓State.kept_rules, implies_true, ite_self, dite_eq_ite, ↓State.ro_kept, State.kept_foldl]
  repeat'
    first
    | with_reducible rfl
    | ((refine State.firstOf_kept _ _ ?_) <;> simp only [AllKeeps, and_true])
    | refine And.intro ?_ ?_
    | ((refine OptKeeps.map _ _ _ (fun x => ?_)) <;> try simp only [↓State.kept_rules, implies_true, ite_self, dite_eq_ite, ↓State.ro_kept, State.kept_foldl])
    | ((with_reducible refine (State.kept_foldl _ (fun s a => ?_) _ _).trans ?_) <;>
        try simp only [↓State.kept_rules, implies_true, ite_self, dite_eq_ite, ↓State.ro_kept, State.kept_foldl])
    | (split <;> try simp only [↓State.kept_rules, implies_true, ite_self, dite_eq_ite, ↓State.ro_kept, State.kept_foldl])
    | rfl

theorem State.rdLane_kept (s : State) (l : Fin 8) (o : ℕ) : (State.rdLane s l o).2.kept = s.kept := by
  unfold State.rdLane
  try simp only [↓State.kept_rules, implies_true, ite_self, dite_eq_ite, ↓State.ro_kept, State.kept_foldl]
  repeat'
    first
    | with_reducible rfl
    | ((refine State.firstOf_kept _ _ ?_) <;> simp only [AllKeeps, and_true])
    | refine And.intro ?_ ?_
    | ((refine OptKeeps.map _ _ _ (fun x => ?_)) <;> try simp only [↓State.kept_rules, implies_true, ite_self, dite_eq_ite, ↓State.ro_kept, State.kept_foldl])
    | ((with_reducible refine (State.kept_foldl _ (fun s a => ?_) _ _).trans ?_) <;>
        try simp only [↓State.kept_rules, implies_true, ite_self, dite_eq_ite, ↓State.ro_kept, State.kept_foldl])
    | (split <;> try simp only [↓State.kept_rules, implies_true, ite_self, dite_eq_ite, ↓State.ro_kept, State.kept_foldl])
    | rfl

theorem State.rdAn_kept (s : State) (o : ℕ) : (State.rdAn s o).2.kept = s.kept := by
  unfold State.rdAn
  try simp only [↓State.kept_rules, implies_true, ite_self, dite_eq_ite, ↓State.ro_kept, State.kept_foldl,
    ↓State.rdLane_kept]
  repeat'
    first
    | with_reducible rfl
    | ((refine State.firstOf_kept _ _ ?_) <;> simp only [AllKeeps, and_true])
    | refine And.intro ?_ ?_
    | ((refine OptKeeps.map _ _ _ (fun x => ?_)) <;> try simp only [↓State.kept_rules, implies_true, ite_self, dite_eq_ite, ↓State.ro_kept, State.kept_foldl, ↓State.rdLane_kept])
    | ((with_reducible refine (State.kept_foldl _ (fun s a => ?_) _ _).trans ?_) <;>
        try simp only [↓State.kept_rules, implies_true, ite_self, dite_eq_ite, ↓State.ro_kept, State.kept_foldl,
        ↓State.rdLane_kept])
    | (split <;> try simp only [↓State.kept_rules, implies_true, ite_self, dite_eq_ite, ↓State.ro_kept, State.kept_foldl,
        ↓State.rdLane_kept])
    | rfl

theorem State.rdDmChan_kept (s : State) (c : Fin 64) (o : ℕ) : (State.rdDmChan s c o).2.kept = s.kept := by
  unfold State.rdDmChan
  try simp only [↓State.kept_rules, ite_self, dite_eq_ite, ↓State.modDm_kept, ↓State.ro_kept]
  repeat'
    first
    | with_reducible rfl
    | ((with_reducible refine (State.kept_foldl _ (fun s a => ?_) _ _).trans ?_) <;>
        try simp only [↓State.kept_rules, ite_self, dite_eq_ite, ↓State.modDm_kept, ↓State.ro_kept])
    | (split <;> try simp only [↓State.kept_rules, ite_self, dite_eq_ite, ↓State.modDm_kept, ↓State.ro_kept])
    | rfl

theorem State.rdDm_kept (s : State) (o : ℕ) : (State.rdDm s o).2.kept = s.kept := by
  unfold State.rdDm
  try simp only [↓State.kept_rules, implies_true, ite_self, dite_eq_ite, ↓State.ro_kept, State.kept_foldl,
    ↓State.rdDmChan_kept]
  repeat'
    first
    | with_reducible rfl
    | ((refine State.firstOf_kept _ _ ?_) <;> simp only [AllKeeps, and_true])
    | refine And.intro ?_ ?_
    | ((refine OptKeeps.map _ _ _ (fun x => ?_)) <;> try simp only [↓State.kept_rules, implies_true, ite_self, dite_eq_ite, ↓State.ro_kept, State.kept_foldl, ↓State.rdDmChan_kept])
    | ((with_reducible refine (State.kept_foldl _ (fun s a => ?_) _ _).trans ?_) <;>
        try simp only [↓State.kept_rules, implies_true, ite_self, dite_eq_ite, ↓State.ro_kept, State.kept_foldl,
        ↓State.rdDmChan_kept])
    | (split <;> try simp only [↓State.kept_rules, implies_true, ite_self, dite_eq_ite, ↓State.ro_kept, State.kept_foldl,
        ↓State.rdDmChan_kept])
    | rfl

theorem State.rdCu_kept (s : State) (o : ℕ) : (State.rdCu s o).2.kept = s.kept := by
  unfold State.rdCu
  try simp only [↓State.kept_rules, ite_self, dite_eq_ite, ↓State.ro_kept]
  repeat'
    first
    | with_reducible rfl
    | ((with_reducible refine (State.kept_foldl _ (fun s a => ?_) _ _).trans ?_) <;>
        try simp only [↓State.kept_rules, ite_self, dite_eq_ite, ↓State.ro_kept])
    | (split <;> try simp only [↓State.kept_rules, ite_self, dite_eq_ite, ↓State.ro_kept])
    | rfl

theorem State.rdLkLane_kept (s : State) (l : Fin 16) (o : ℕ) : (State.rdLkLane s l o).2.kept = s.kept := by
  unfold State.rdLkLane
  try simp only [↓State.kept_rules, ite_self, dite_eq_ite, ↓State.ro_kept, ↓State.modLane_kept]
  repeat'
    first
    | with_reducible rfl
    | ((with_reducible refine (State.kept_foldl _ (fun s a => ?_) _ _).trans ?_) <;>
        try simp only [↓State.kept_rules, ite_self, dite_eq_ite, ↓State.ro_kept, ↓State.modLane_kept])
    | (split <;> try simp only [↓State.kept_rules, ite_self, dite_eq_ite, ↓State.ro_kept, ↓State.modLane_kept])
    | rfl

theorem State.rdTxFlow_kept (s : State) (f : Fin 64) (o : ℕ) : (State.rdTxFlow s f o).2.kept = s.kept := by
  unfold State.rdTxFlow
  try simp only [↓State.kept_rules, ite_self, dite_eq_ite, ↓State.ro_kept]
  repeat'
    first
    | with_reducible rfl
    | ((with_reducible refine (State.kept_foldl _ (fun s a => ?_) _ _).trans ?_) <;>
        try simp only [↓State.kept_rules, ite_self, dite_eq_ite, ↓State.ro_kept])
    | (split <;> try simp only [↓State.kept_rules, ite_self, dite_eq_ite, ↓State.ro_kept])
    | rfl

theorem State.rdLk_kept (s : State) (o : ℕ) : (State.rdLk s o).2.kept = s.kept := by
  unfold State.rdLk
  try simp only [↓State.kept_rules, implies_true, ite_self, dite_eq_ite, ↓State.ro_kept, State.kept_foldl,
    ↓State.rdRxFlow_kept, ↓State.rdLkLane_kept, ↓State.rdTxFlow_kept]
  repeat'
    first
    | with_reducible rfl
    | ((refine State.firstOf_kept _ _ ?_) <;> simp only [AllKeeps, and_true])
    | refine And.intro ?_ ?_
    | ((refine OptKeeps.map _ _ _ (fun x => ?_)) <;> try simp only [↓State.kept_rules, implies_true, ite_self, dite_eq_ite, ↓State.ro_kept, State.kept_foldl, ↓State.rdRxFlow_kept, ↓State.rdLkLane_kept, ↓State.rdTxFlow_kept])
    | ((with_reducible refine (State.kept_foldl _ (fun s a => ?_) _ _).trans ?_) <;>
        try simp only [↓State.kept_rules, implies_true, ite_self, dite_eq_ite, ↓State.ro_kept, State.kept_foldl,
        ↓State.rdRxFlow_kept, ↓State.rdLkLane_kept, ↓State.rdTxFlow_kept])
    | (split <;> try simp only [↓State.kept_rules, implies_true, ite_self, dite_eq_ite, ↓State.ro_kept, State.kept_foldl,
        ↓State.rdRxFlow_kept, ↓State.rdLkLane_kept, ↓State.rdTxFlow_kept])
    | rfl

theorem State.rdCk_kept (s : State) (o : ℕ) : (State.rdCk s o).2.kept = s.kept := by
  unfold State.rdCk
  try simp only [↓State.kept_rules, implies_true, ite_self, dite_eq_ite, ↓State.modQueue_kept, ↓State.modPll_kept,
    ↓State.ro_kept, State.kept_foldl]
  repeat'
    first
    | with_reducible rfl
    | ((refine State.firstOf_kept _ _ ?_) <;> simp only [AllKeeps, and_true])
    | refine And.intro ?_ ?_
    | ((refine OptKeeps.map _ _ _ (fun x => ?_)) <;> try simp only [↓State.kept_rules, implies_true, ite_self, dite_eq_ite, ↓State.modQueue_kept, ↓State.modPll_kept, ↓State.ro_kept, State.kept_foldl])
    | ((with_reducible refine (State.kept_foldl _ (fun s a => ?_) _ _).trans ?_) <;>
        try simp only [↓State.kept_rules, implies_true, ite_self, dite_eq_ite, ↓State.modQueue_kept, ↓State.modPll_kept,
        ↓State.ro_kept, State.kept_foldl])
    | (split <;> try simp only [↓State.kept_rules, implies_true, ite_self, dite_eq_ite, ↓State.modQueue_kept, ↓State.modPll_kept,
        ↓State.ro_kept, State.kept_foldl])
    | rfl

theorem State.rdHk_kept (s : State) (o : ℕ) : (State.rdHk s o).2.kept = s.kept := by
  unfold State.rdHk
  try simp only [↓State.kept_rules, implies_true, ite_self, dite_eq_ite, ↓State.ro_kept, State.kept_foldl]
  repeat'
    first
    | with_reducible rfl
    | ((refine State.firstOf_kept _ _ ?_) <;> simp only [AllKeeps, and_true])
    | refine And.intro ?_ ?_
    | ((refine OptKeeps.map _ _ _ (fun x => ?_)) <;> try simp only [↓State.kept_rules, implies_true, ite_self, dite_eq_ite, ↓State.ro_kept, State.kept_foldl])
    | ((with_reducible refine (State.kept_foldl _ (fun s a => ?_) _ _).trans ?_) <;>
        try simp only [↓State.kept_rules, implies_true, ite_self, dite_eq_ite, ↓State.ro_kept, State.kept_foldl])
    | (split <;> try simp only [↓State.kept_rules, implies_true, ite_self, dite_eq_ite, ↓State.ro_kept, State.kept_foldl])
    | rfl

theorem State.regRead_kept (s : State) (a : ℕ) : (State.regRead s a).2.kept = s.kept := by
  unfold State.regRead
  try simp only [↓State.kept_rules, ite_self, dite_eq_ite, ↓State.ro_kept, ↓State.rdAq_kept, ↓State.rdHp_kept,
    ↓State.rdTile_kept, ↓State.rdBe_kept, ↓State.rdAn_kept, ↓State.rdDm_kept, ↓State.rdCu_kept, ↓State.rdLk_kept,
    ↓State.rdCk_kept, ↓State.rdHk_kept]
  repeat'
    first
    | with_reducible rfl
    | ((with_reducible refine (State.kept_foldl _ (fun s a => ?_) _ _).trans ?_) <;>
        try simp only [↓State.kept_rules, ite_self, dite_eq_ite, ↓State.ro_kept, ↓State.rdAq_kept, ↓State.rdHp_kept,
        ↓State.rdTile_kept, ↓State.rdBe_kept, ↓State.rdAn_kept, ↓State.rdDm_kept, ↓State.rdCu_kept, ↓State.rdLk_kept,
        ↓State.rdCk_kept, ↓State.rdHk_kept])
    | (split <;> try simp only [↓State.kept_rules, ite_self, dite_eq_ite, ↓State.ro_kept, ↓State.rdAq_kept, ↓State.rdHp_kept,
        ↓State.rdTile_kept, ↓State.rdBe_kept, ↓State.rdAn_kept, ↓State.rdDm_kept, ↓State.rdCu_kept, ↓State.rdLk_kept,
        ↓State.rdCk_kept, ↓State.rdHk_kept])
    | rfl

theorem State.regReads_kept (s : State) (a : ℕ) (x2 : ℕ) : (State.regReads s a x2).2.kept = s.kept := by
  induction x2 generalizing s a with
  | zero => unfold State.regReads; rfl
  | succ n ih =>
    unfold State.regReads
    try simp only [↓State.kept_rules, ite_self, dite_eq_ite, ↓State.regRead_kept, ↓ih]
    repeat' (first | rfl | (split <;> try simp only [↓State.kept_rules, ite_self, dite_eq_ite, ↓State.regRead_kept, ↓ih]))

theorem State.wrHpStat_kept (s : State) (v : BitVec 32) : (State.wrHpStat s v).kept = s.kept := by
  unfold State.wrHpStat
  simp only [↓State.kept_rules, ite_self, dite_eq_ite]

theorem State.wrAo_kept (s : State) (o : ℕ) (v : BitVec 32) : (State.wrAo s o v).kept = s.kept := by
  unfold State.wrAo
  try simp only [↓State.kept_rules, ite_self, dite_eq_ite, ↓State.releasePads_kept, ↓State.wakeCtl_kept]
  repeat'
    first
    | with_reducible rfl
    | ((with_reducible refine (State.kept_foldl _ (fun s a => ?_) _ _).trans ?_) <;>
        try simp only [↓State.kept_rules, ite_self, dite_eq_ite, ↓State.releasePads_kept, ↓State.wakeCtl_kept])
    | (split <;> try simp only [↓State.kept_rules, ite_self, dite_eq_ite, ↓State.releasePads_kept, ↓State.wakeCtl_kept])
    | rfl

theorem State.wrHp_kept (s : State) (o : ℕ) (v : BitVec 32) : (State.wrHp s o v).kept = s.kept := by
  unfold State.wrHp
  try simp only [↓State.kept_rules, ite_self, dite_eq_ite, ↓State.wrHpStat_kept, ↓State.releaseEvts_kept,
    ↓State.bindMb_kept, ↓State.doorbell_kept, ↓State.wrAo_kept]
  repeat'
    first
    | with_reducible rfl
    | ((with_reducible refine (State.kept_foldl _ (fun s a => ?_) _ _).trans ?_) <;>
        try simp only [↓State.kept_rules, ite_self, dite_eq_ite, ↓State.wrHpStat_kept, ↓State.releaseEvts_kept,
        ↓State.bindMb_kept, ↓State.doorbell_kept, ↓State.wrAo_kept])
    | (split <;> try simp only [↓State.kept_rules, ite_self, dite_eq_ite, ↓State.wrHpStat_kept, ↓State.releaseEvts_kept,
        ↓State.bindMb_kept, ↓State.doorbell_kept, ↓State.wrAo_kept])
    | rfl

theorem State.wrBe_kept (s : State) (o : ℕ) (v : BitVec 32) : (State.wrBe s o v).kept = s.kept := by
  unfold State.wrBe
  try simp only [↓State.kept_rules, ite_self, dite_eq_ite]
  repeat'
    first
    | with_reducible rfl
    | ((with_reducible refine (State.kept_foldl _ (fun s a => ?_) _ _).trans ?_) <;>
        try simp only [↓State.kept_rules, ite_self, dite_eq_ite])
    | (split <;> try simp only [↓State.kept_rules, ite_self, dite_eq_ite])
    | rfl

theorem State.wrAn_kept (s : State) (o : ℕ) (v : BitVec 32) : (State.wrAn s o v).kept = s.kept := by
  unfold State.wrAn
  try simp only [↓State.kept_rules, ite_self, dite_eq_ite]
  repeat'
    first
    | with_reducible rfl
    | ((with_reducible refine (State.kept_foldl _ (fun s a => ?_) _ _).trans ?_) <;>
        try simp only [↓State.kept_rules, ite_self, dite_eq_ite])
    | (split <;> try simp only [↓State.kept_rules, ite_self, dite_eq_ite])
    | rfl

theorem State.wrDm_kept (s : State) (o : ℕ) (v : BitVec 32) : (State.wrDm s o v).kept = s.kept := by
  unfold State.wrDm
  try simp only [↓State.kept_rules, ite_self, dite_eq_ite, ↓State.modDm_kept, ↓State.ringPtr_kept, ↓State.ringLen_kept]
  repeat'
    first
    | with_reducible rfl
    | ((with_reducible refine (State.kept_foldl _ (fun s a => ?_) _ _).trans ?_) <;>
        try simp only [↓State.kept_rules, ite_self, dite_eq_ite, ↓State.modDm_kept, ↓State.ringPtr_kept, ↓State.ringLen_kept])
    | (split <;> try simp only [↓State.kept_rules, ite_self, dite_eq_ite, ↓State.modDm_kept, ↓State.ringPtr_kept, ↓State.ringLen_kept])
    | rfl

theorem State.wrCk_kept (s : State) (o : ℕ) (v : BitVec 32) : (State.wrCk s o v).kept = s.kept := by
  unfold State.wrCk
  try simp only [↓State.kept_rules, ite_self, dite_eq_ite]
  repeat'
    first
    | with_reducible rfl
    | ((with_reducible refine (State.kept_foldl _ (fun s a => ?_) _ _).trans ?_) <;>
        try simp only [↓State.kept_rules, ite_self, dite_eq_ite])
    | (split <;> try simp only [↓State.kept_rules, ite_self, dite_eq_ite])
    | rfl

theorem State.wrHk_kept (s : State) (o : ℕ) (v : BitVec 32) : (State.wrHk s o v).kept = s.kept := by
  unfold State.wrHk
  try simp only [↓State.kept_rules, ite_self, dite_eq_ite]
  repeat'
    first
    | with_reducible rfl
    | ((with_reducible refine (State.kept_foldl _ (fun s a => ?_) _ _).trans ?_) <;>
        try simp only [↓State.kept_rules, ite_self, dite_eq_ite])
    | (split <;> try simp only [↓State.kept_rules, ite_self, dite_eq_ite])
    | rfl

theorem State.regWrite_kept (s : State) (a : ℕ) (v : BitVec 32) : (State.regWrite s a v).kept = s.kept := by
  unfold State.regWrite
  try simp only [↓State.kept_rules, ite_self, dite_eq_ite, ↓State.wrTile_kept, ↓State.wrHp_kept, ↓State.wrBe_kept,
    ↓State.wrAn_kept, ↓State.wrDm_kept, ↓State.wrCk_kept, ↓State.wrHk_kept]
  repeat'
    first
    | with_reducible rfl
    | ((with_reducible refine (State.kept_foldl _ (fun s a => ?_) _ _).trans ?_) <;>
        try simp only [↓State.kept_rules, ite_self, dite_eq_ite, ↓State.wrTile_kept, ↓State.wrHp_kept, ↓State.wrBe_kept,
        ↓State.wrAn_kept, ↓State.wrDm_kept, ↓State.wrCk_kept, ↓State.wrHk_kept])
    | (split <;> try simp only [↓State.kept_rules, ite_self, dite_eq_ite, ↓State.wrTile_kept, ↓State.wrHp_kept, ↓State.wrBe_kept,
        ↓State.wrAn_kept, ↓State.wrDm_kept, ↓State.wrCk_kept, ↓State.wrHk_kept])
    | rfl

theorem State.regWrites_kept (s : State) (a : ℕ) (x2 : List (BitVec 32)) : (State.regWrites s a x2).kept = s.kept :=
    by
  induction x2 generalizing s a with
  | nil => unfold State.regWrites; rfl
  | cons y ys ih =>
    unfold State.regWrites
    try simp only [↓State.kept_rules, ite_self, dite_eq_ite, ↓State.regWrite_kept, ↓ih]
    repeat' (first | rfl | (split <;> try simp only [↓State.kept_rules, ite_self, dite_eq_ite, ↓State.regWrite_kept, ↓ih]))

end Sys2Proof.Machine
end

