-- ==== Sys2Proof/Laws/KeptRegCmd.lean ====
section
/-! SUPPORT. The queue and the one-time programmable memory under the operations of Machine/RegCmd.lean. -/

set_option linter.all false

namespace Sys2Proof.Machine

theorem execRegRead_kept (h : CmdHdr) (addr : BitVec 32) (count : BitVec 8) (s : State) : Keeps s (execRegRead h addr
    count s) := by
  unfold execRegRead
  simp only [↓State.kept_rules, ↓keeps_rules, implies_true, ite_self, dite_eq_ite, ↓serve_kept, ↓checks_kept,
    ↓doneR_kept, ↓State.regReads_kept]

theorem State.windowWrite_kept (s : State) (h : CmdHdr) (a : ℕ) (ws : List (BitVec 32)) : (State.windowWrite s h a
    ws).2.kept = s.kept := by
  unfold State.windowWrite
  try simp only [↓State.kept_rules, implies_true, ite_self, dite_eq_ite, ↓refuse_kept, ↓checks_kept, ↓done_kept,
    ↓State.regWrites_kept]
  repeat'
    first
    | with_reducible rfl
    | exact OptKeeps.getD (State.rdAo_kept _ _) rfl
    | ((with_reducible refine (State.kept_foldl _ (fun s a => ?_) _ _).trans ?_) <;>
        try simp only [↓State.kept_rules, implies_true, ite_self, dite_eq_ite, ↓refuse_kept, ↓checks_kept, ↓done_kept,
        ↓State.regWrites_kept])
    | (split <;> try simp only [↓State.kept_rules, implies_true, ite_self, dite_eq_ite, ↓refuse_kept, ↓checks_kept, ↓done_kept,
        ↓State.regWrites_kept])
    | rfl

theorem execCalbusDiag_kept (h : CmdHdr) (path : BitVec 8) (mode : BitVec 8) (offset : BitVec 32) (level : BitVec 8)
    (sinks : BitVec 128) (orx : BitVec 8) (duration : BitVec 32) (s : State) : Keeps s (execCalbusDiag h path mode
    offset level sinks orx duration s) := by
  unfold execCalbusDiag
  refine ⟨_, rfl, serve_kept _ _ _ _ (fun u => ?_)⟩
  try simp only [↓State.kept_rules, ↓keeps_rules, implies_true, ite_self, dite_eq_ite, ↓State.modPath_kept,
    ↓refuse_kept, ↓serve_kept, ↓checks_kept, ↓State.markBus_kept]
  repeat'
    first
    | with_reducible rfl
    | ((refine checks_kept _ _ _ ?_) <;> try simp only [↓State.kept_rules, ↓keeps_rules, implies_true, ite_self, dite_eq_ite, ↓State.modPath_kept,
        ↓refuse_kept, ↓serve_kept, ↓checks_kept, ↓State.markBus_kept])
    | exact OptKeeps.getD (State.rdAo_kept _ _) rfl
    | ((with_reducible refine (State.kept_foldl _ (fun s a => ?_) _ _).trans ?_) <;>
        try simp only [↓State.kept_rules, ↓keeps_rules, implies_true, ite_self, dite_eq_ite, ↓State.modPath_kept,
        ↓refuse_kept, ↓serve_kept, ↓checks_kept, ↓State.markBus_kept])
    | (split <;> try simp only [↓State.kept_rules, ↓keeps_rules, implies_true, ite_self, dite_eq_ite, ↓State.modPath_kept,
        ↓refuse_kept, ↓serve_kept, ↓checks_kept, ↓State.markBus_kept])
    | rfl

theorem State.spiWrite_kept (s : State) (o : ℕ) (v : BitVec 32) : (State.spiWrite s o v).1.kept = s.kept := by
  unfold State.spiWrite
  simp only [↓State.kept_rules, ite_self, dite_eq_ite, ↓State.wrAo_kept, ↓State.regWrite_kept]

theorem execRegWriteBlock_kept (h : CmdHdr) (addr : BitVec 32) (bytes : BitVec 16) (ptr : BitVec 32) (s : State) :
    Keeps s (execRegWriteBlock h addr bytes ptr s) := by
  unfold execRegWriteBlock
  simp only [↓State.kept_rules, ↓keeps_rules, implies_true, ite_self, dite_eq_ite, ↓serve_kept, ↓checks_kept,
    ↓State.windowWrite_kept]

theorem State.spiRead_kept (s : State) (o : ℕ) : (State.spiRead s o).2.1.kept = s.kept := by
  unfold State.spiRead
  try simp only [↓State.kept_rules, ite_self, dite_eq_ite, ↓State.ro_kept, ↓State.rdAo_kept, ↓State.regRead_kept]
  repeat'
    first
    | with_reducible rfl
    | exact OptKeeps.getD (State.rdAo_kept _ _) rfl
    | ((with_reducible refine (State.kept_foldl _ (fun s a => ?_) _ _).trans ?_) <;>
        try simp only [↓State.kept_rules, ite_self, dite_eq_ite, ↓State.ro_kept, ↓State.rdAo_kept, ↓State.regRead_kept])
    | (split <;> try simp only [↓State.kept_rules, ite_self, dite_eq_ite, ↓State.ro_kept, ↓State.rdAo_kept, ↓State.regRead_kept])
    | rfl

theorem State.spiReads_kept (s : State) (o : ℕ) (x2 : ℕ) : (State.spiReads s o x2).2.1.kept = s.kept := by
  induction x2 generalizing s o with
  | zero => unfold State.spiReads; rfl
  | succ n ih =>
    unfold State.spiReads
    try simp only [↓State.kept_rules, ite_self, dite_eq_ite, ↓State.spiRead_kept, ↓ih]
    repeat' (first | rfl | (split <;> try simp only [↓State.kept_rules, ite_self, dite_eq_ite, ↓State.spiRead_kept, ↓ih]))

theorem State.spiWrites_kept (s : State) (o : ℕ) (x2 : List (BitVec 32)) : (State.spiWrites s o x2).1.kept = s.kept :=
    by
  induction x2 generalizing s o with
  | nil => unfold State.spiWrites; rfl
  | cons y ys ih =>
    unfold State.spiWrites
    try simp only [↓State.kept_rules, ite_self, dite_eq_ite, ↓State.spiWrite_kept, ↓ih]
    repeat' (first | rfl | (split <;> try simp only [↓State.kept_rules, ite_self, dite_eq_ite, ↓State.spiWrite_kept, ↓ih]))

theorem execSpiFrame_kept (khz : BitVec 16) (bytes : List (BitVec 8)) (bits : Fin 8) (s : State) : Keeps s
    (execSpiFrame khz bytes bits s) := by
  unfold execSpiFrame
  simp only [↓State.kept_rules, ↓keeps_rules, ite_self, dite_eq_ite, ↓State.spiReads_kept, ↓State.spiWrites_kept]

theorem State.portRead_kept (s : State) (a : ℕ) : (State.portRead s a).kept = s.kept := by
  unfold State.portRead
  try simp only [↓State.kept_rules, ite_self, dite_eq_ite, ↓State.ro_kept, ↓State.rdAo_kept, ↓State.regRead_kept]
  repeat'
    first
    | with_reducible rfl
    | exact OptKeeps.getD (State.rdAo_kept _ _) rfl
    | ((with_reducible refine (State.kept_foldl _ (fun s a => ?_) _ _).trans ?_) <;>
        try simp only [↓State.kept_rules, ite_self, dite_eq_ite, ↓State.ro_kept, ↓State.rdAo_kept, ↓State.regRead_kept])
    | (split <;> try simp only [↓State.kept_rules, ite_self, dite_eq_ite, ↓State.ro_kept, ↓State.rdAo_kept, ↓State.regRead_kept])
    | rfl

theorem execLatchingLoRead_kept (addr : BitVec 32) (s : State) : Keeps s (execLatchingLoRead addr s) := by
  unfold execLatchingLoRead
  simp only [↓State.kept_rules, ↓keeps_rules, ite_self, dite_eq_ite, ↓State.portRead_kept]

theorem execRcRegisterRead_kept (addr : BitVec 32) (s : State) : Keeps s (execRcRegisterRead addr s) := by
  unfold execRcRegisterRead
  simp only [↓State.kept_rules, ↓keeps_rules, ite_self, dite_eq_ite, ↓State.portRead_kept]

theorem execRegisterWrite_kept (addr : BitVec 32) (data : BitVec 32) (s : State) : Keeps s (execRegisterWrite addr
    data s) := by
  unfold execRegisterWrite
  simp only [↓State.kept_rules, ↓keeps_rules, ite_self, dite_eq_ite, ↓State.wrAo_kept, ↓State.regWrite_kept]

theorem execRegWrite_kept (h : CmdHdr) (addr : BitVec 32) (count : BitVec 8) (words : List (BitVec 32)) (s : State) :
    Keeps s (execRegWrite h addr count words s) := by
  unfold execRegWrite
  simp only [↓State.kept_rules, ↓keeps_rules, implies_true, ite_self, dite_eq_ite, ↓serve_kept, ↓checks_kept,
    ↓State.windowWrite_kept]

theorem execRegReadBlock_kept (h : CmdHdr) (addr : BitVec 32) (bytes : BitVec 16) (ptr : BitVec 32) (s : State) :
    Keeps s (execRegReadBlock h addr bytes ptr s) := by
  unfold execRegReadBlock
  simp only [↓State.kept_rules, ↓keeps_rules, implies_true, ite_self, dite_eq_ite, ↓serve_kept, ↓checks_kept,
    ↓State.regReads_kept]

theorem execCalbusDiagEnd_kept (s : State) : Keeps s (execCalbusDiagEnd s) := by
  unfold execCalbusDiagEnd
  try simp only [↓State.kept_rules, ↓keeps_rules, ite_self, dite_eq_ite, ↓State.clearMarks_kept, ↓State.complete_kept]
  repeat'
    first
    | with_reducible rfl
    | exact OptKeeps.getD (State.rdAo_kept _ _) rfl
    | ((with_reducible refine (State.kept_foldl _ (fun s a => ?_) _ _).trans ?_) <;>
        try simp only [↓State.kept_rules, ↓keeps_rules, ite_self, dite_eq_ite, ↓State.clearMarks_kept, ↓State.complete_kept])
    | (split <;> try simp only [↓State.kept_rules, ↓keeps_rules, ite_self, dite_eq_ite, ↓State.clearMarks_kept, ↓State.complete_kept])
    | rfl

end Sys2Proof.Machine
end

