-- ==== Sys2Proof/Laws/KeptRoles.lean ====
section
/-! SUPPORT. The queue and the one-time programmable memory under the operations of Machine/Roles.lean. -/

set_option linter.all false

namespace Sys2Proof.Machine

theorem execJournalRead_kept (h : CmdHdr) (first : BitVec 32) (count : BitVec 8) (ptr : BitVec 32) (s : State) : Keeps
    s (execJournalRead h first count ptr s) := by
  unfold execJournalRead
  simp only [↓State.kept_rules, ↓keeps_rules, implies_true, ite_self, dite_eq_ite, ↓serve_kept, ↓checks_kept]

theorem State.setSession_kept (s : State) (i : Fin 8) (x2 : Session) : (State.setSession s i x2).kept = s.kept := by
  unfold State.setSession
  simp only [↓State.kept_rules, ite_self, dite_eq_ite]

theorem execSessionAuthTimeout_kept (i : Fin 8) (s : State) : Keeps s (execSessionAuthTimeout i s) := by
  unfold execSessionAuthTimeout
  try simp only [↓State.kept_rules, ↓keeps_rules, ite_self, dite_eq_ite, ↓State.setSession_kept]
  repeat'
    first
    | with_reducible rfl
    | ((with_reducible refine (State.kept_foldl _ (fun s a => ?_) _ _).trans ?_) <;>
        try simp only [↓State.kept_rules, ↓keeps_rules, ite_self, dite_eq_ite, ↓State.setSession_kept])
    | (split <;> try simp only [↓State.kept_rules, ↓keeps_rules, ite_self, dite_eq_ite, ↓State.setSession_kept])
    | rfl

theorem execSessionOpen_kept (h : CmdHdr) (role : BitVec 8) (s : State) : Keeps s (execSessionOpen h role s) := by
  unfold execSessionOpen
  refine ⟨_, rfl, serve_kept _ _ _ _ (fun u => ?_)⟩
  try simp only [↓State.kept_rules, ↓keeps_rules, implies_true, ite_self, dite_eq_ite, ↓refuse_kept, ↓serve_kept,
    ↓doneR_kept, ↓State.setSession_kept]
  repeat'
    first
    | with_reducible rfl
    | ((refine checks_kept _ _ _ ?_) <;> try simp only [↓State.kept_rules, ↓keeps_rules, implies_true, ite_self, dite_eq_ite, ↓refuse_kept, ↓serve_kept,
        ↓doneR_kept, ↓State.setSession_kept])
    | ((with_reducible refine (State.kept_foldl _ (fun s a => ?_) _ _).trans ?_) <;>
        try simp only [↓State.kept_rules, ↓keeps_rules, implies_true, ite_self, dite_eq_ite, ↓refuse_kept, ↓serve_kept,
        ↓doneR_kept, ↓State.setSession_kept])
    | (split <;> try simp only [↓State.kept_rules, ↓keeps_rules, implies_true, ite_self, dite_eq_ite, ↓refuse_kept, ↓serve_kept,
        ↓doneR_kept, ↓State.setSession_kept])
    | rfl

theorem State.countWrong_kept (s : State) (r : Role) : (State.countWrong s r).kept = s.kept := by
  unfold State.countWrong
  simp only [↓State.kept_rules, ite_self, dite_eq_ite]

theorem execSessionAuth_kept (h : CmdHdr) (handle : BitVec 8) (mac : List (BitVec 8)) (s : State) : Keeps s
    (execSessionAuth h handle mac s) := by
  unfold execSessionAuth
  refine ⟨_, rfl, serve_kept _ _ _ _ (fun u => ?_)⟩
  try simp only [↓State.kept_rules, ↓keeps_rules, implies_true, ite_self, dite_eq_ite, ↓refuse_kept, ↓serve_kept,
    ↓doneR_kept, ↓State.setSession_kept, ↓State.countWrong_kept]
  repeat'
    first
    | with_reducible rfl
    | ((refine checks_kept _ _ _ ?_) <;> try simp only [↓State.kept_rules, ↓keeps_rules, implies_true, ite_self, dite_eq_ite, ↓refuse_kept, ↓serve_kept,
        ↓doneR_kept, ↓State.setSession_kept, ↓State.countWrong_kept])
    | ((with_reducible refine (State.kept_foldl _ (fun s a => ?_) _ _).trans ?_) <;>
        try simp only [↓State.kept_rules, ↓keeps_rules, implies_true, ite_self, dite_eq_ite, ↓refuse_kept, ↓serve_kept,
        ↓doneR_kept, ↓State.setSession_kept, ↓State.countWrong_kept])
    | (split <;> try simp only [↓State.kept_rules, ↓keeps_rules, implies_true, ite_self, dite_eq_ite, ↓refuse_kept, ↓serve_kept,
        ↓doneR_kept, ↓State.setSession_kept, ↓State.countWrong_kept])
    | rfl

theorem execSessionClose_kept (h : CmdHdr) (handle : BitVec 8) (s : State) : Keeps s (execSessionClose h handle s) :=
    by
  unfold execSessionClose
  refine ⟨_, rfl, serve_kept _ _ _ _ (fun u => ?_)⟩
  try simp only [↓State.kept_rules, ↓keeps_rules, implies_true, ite_self, dite_eq_ite, ↓refuse_kept, ↓serve_kept,
    ↓done_kept, ↓State.endSession_kept]
  repeat'
    first
    | with_reducible rfl
    | ((refine checks_kept _ _ _ ?_) <;> try simp only [↓State.kept_rules, ↓keeps_rules, implies_true, ite_self, dite_eq_ite, ↓refuse_kept, ↓serve_kept,
        ↓done_kept, ↓State.endSession_kept])
    | ((with_reducible refine (State.kept_foldl _ (fun s a => ?_) _ _).trans ?_) <;>
        try simp only [↓State.kept_rules, ↓keeps_rules, implies_true, ite_self, dite_eq_ite, ↓refuse_kept, ↓serve_kept,
        ↓done_kept, ↓State.endSession_kept])
    | (split <;> try simp only [↓State.kept_rules, ↓keeps_rules, implies_true, ite_self, dite_eq_ite, ↓refuse_kept, ↓serve_kept,
        ↓done_kept, ↓State.endSession_kept])
    | rfl

theorem execSessionLifetimeExpiry_kept (i : Fin 8) (s : State) : Keeps s (execSessionLifetimeExpiry i s) := by
  unfold execSessionLifetimeExpiry
  try simp only [↓State.kept_rules, ↓keeps_rules, ite_self, dite_eq_ite, ↓State.endSession_kept]
  repeat'
    first
    | with_reducible rfl
    | ((with_reducible refine (State.kept_foldl _ (fun s a => ?_) _ _).trans ?_) <;>
        try simp only [↓State.kept_rules, ↓keeps_rules, ite_self, dite_eq_ite, ↓State.endSession_kept])
    | (split <;> try simp only [↓State.kept_rules, ↓keeps_rules, ite_self, dite_eq_ite, ↓State.endSession_kept])
    | rfl

theorem execLockoutExpiry_kept (r : Fin 3) (s : State) : Keeps s (execLockoutExpiry r s) := by
  unfold execLockoutExpiry
  try simp only [↓State.kept_rules, ↓keeps_rules, ite_self, dite_eq_ite]
  repeat'
    first
    | with_reducible rfl
    | ((with_reducible refine (State.kept_foldl _ (fun s a => ?_) _ _).trans ?_) <;>
        try simp only [↓State.kept_rules, ↓keeps_rules, ite_self, dite_eq_ite])
    | (split <;> try simp only [↓State.kept_rules, ↓keeps_rules, ite_self, dite_eq_ite])
    | rfl

theorem execKeySet_kept (h : CmdHdr) (role : BitVec 8) (ptr : BitVec 32) (s : State) : Keeps s (execKeySet h role ptr
    s) := by
  unfold execKeySet
  refine ⟨_, rfl, serve_kept _ _ _ _ (fun u => ?_)⟩
  try simp only [↓State.kept_rules, ↓keeps_rules, implies_true, ite_self, dite_eq_ite, ↓serve_kept, ↓checks_kept]
  repeat'
    first
    | with_reducible rfl
    | ((refine checks_kept _ _ _ ?_) <;> try simp only [↓State.kept_rules, ↓keeps_rules, implies_true, ite_self, dite_eq_ite, ↓serve_kept, ↓checks_kept])
    | ((with_reducible refine (State.kept_foldl _ (fun s a => ?_) _ _).trans ?_) <;>
        try simp only [↓State.kept_rules, ↓keeps_rules, implies_true, ite_self, dite_eq_ite, ↓serve_kept, ↓checks_kept])
    | (split <;> try simp only [↓State.kept_rules, ↓keeps_rules, implies_true, ite_self, dite_eq_ite, ↓serve_kept, ↓checks_kept])
    | rfl

theorem execJournalErase_kept (h : CmdHdr) (confirm : BitVec 32) (s : State) : Keeps s (execJournalErase h confirm s)
    := by
  unfold execJournalErase
  simp only [↓State.kept_rules, ↓keeps_rules, implies_true, ite_self, dite_eq_ite, ↓serve_kept, ↓checks_kept]

end Sys2Proof.Machine
end

