-- ==== Sys2Proof/Laws/KeptRxOps.lean ====
section
/-! SUPPORT. The queue and the one-time programmable memory under the operations of Machine/RxOps.lean. -/

set_option linter.all false

namespace Sys2Proof.Machine

theorem State.satBeamBy_kept (s : State) (tx : Bool) (b : Fin 32) (n : ℕ) : (State.satBeamBy s tx b n).kept = s.kept
    := by
  unfold State.satBeamBy
  simp only [↓State.kept_rules, ite_self, dite_eq_ite, ↓State.modDir_kept]

theorem State.satTxBy_kept (s : State) (p : Fin 64) (n : ℕ) : (State.satTxBy s p n).kept = s.kept := by
  unfold State.satTxBy
  simp only [↓State.kept_rules, ite_self, dite_eq_ite]

theorem State.modRx_kept (s : State) (p : Fin 64) (f : RxChain → RxChain) : (State.modRx s p f).kept = s.kept := by
  unfold State.modRx
  simp only [↓State.kept_rules, ite_self, dite_eq_ite]

theorem State.satRxBy_kept (s : State) (p : Fin 64) (n : ℕ) : (State.satRxBy s p n).kept = s.kept := by
  unfold State.satRxBy
  simp only [↓State.kept_rules, ite_self, dite_eq_ite]

theorem State.toChannels_kept (s : State) (kind : ℕ) (index : ℕ) (v : TSample) : (State.toChannels s kind index
    v).kept = s.kept := by
  unfold State.toChannels
  simp only [↓State.kept_rules, State.kept_foldl, State.kept_foldl_fst, State.kept_foldl_snd, implies_true, ite_self,
    dite_eq_ite, ↓State.aqSample_kept]

theorem State.laneSample_kept (s : State) (l : Fin 8) (v : TSample) : (State.laneSample s l v).kept = s.kept := by
  unfold State.laneSample
  try simp only [↓State.kept_rules, ite_self, dite_eq_ite, ↓State.modAn_kept, ↓State.levelSample_kept,
    ↓State.pendPush_kept, ↓State.toChannels_kept]
  repeat'
    first
    | with_reducible rfl
    | ((with_reducible refine (State.kept_foldl _ (fun s a => ?_) _ _).trans ?_) <;>
        try simp only [↓State.kept_rules, ite_self, dite_eq_ite, ↓State.modAn_kept, ↓State.levelSample_kept,
        ↓State.pendPush_kept, ↓State.toChannels_kept])
    | (split <;> try simp only [↓State.kept_rules, ite_self, dite_eq_ite, ↓State.modAn_kept, ↓State.levelSample_kept,
        ↓State.pendPush_kept, ↓State.toChannels_kept])
    | rfl

theorem State.tapSample_kept (s : State) (p : Fin 64) (t : ℤ) (v : Smp) : (State.tapSample s p t v).kept = s.kept :=
    by
  unfold State.tapSample
  simp only [↓State.kept_rules, ite_self, dite_eq_ite, ↓State.levelSample_kept, ↓State.laneSample_kept]

theorem State.rxEnter_kept (s : State) (p : Fin 64) (x2 : Smp) : (State.rxEnter s p x2).kept = s.kept := by
  unfold State.rxEnter
  try simp only [↓State.kept_rules, ite_self, dite_eq_ite, ↓State.modRx_kept, ↓State.satRxBy_kept,
    ↓State.tapSample_kept]
  repeat'
    first
    | with_reducible rfl
    | ((with_reducible refine (State.kept_foldl _ (fun s a => ?_) _ _).trans ?_) <;>
        try simp only [↓State.kept_rules, ite_self, dite_eq_ite, ↓State.modRx_kept, ↓State.satRxBy_kept,
        ↓State.tapSample_kept])
    | (split <;> try simp only [↓State.kept_rules, ite_self, dite_eq_ite, ↓State.modRx_kept, ↓State.satRxBy_kept,
        ↓State.tapSample_kept])
    | rfl

theorem State.rxNext_kept (s : State) (p : Fin 64) (v : Cplx) (fl : BitVec 8) : (State.rxNext s p v fl).kept = s.kept
    := by
  unfold State.rxNext
  simp only [↓State.kept_rules, ite_self, dite_eq_ite, ↓State.modRx_kept, ↓State.rxEnter_kept]

theorem State.rxFill_kept (s : State) (p : Fin 64) : (State.rxFill s p).kept = s.kept := by
  unfold State.rxFill
  simp only [↓State.kept_rules, State.kept_foldl, State.kept_foldl_fst, State.kept_foldl_snd, implies_true, ite_self,
    dite_eq_ite, ↓State.modRx_kept, ↓State.rxNext_kept]

theorem State.markRestart_kept (s : State) (b : Bank) (src : FlowSrc) : (State.markRestart s b src).kept = s.kept :=
    by
  unfold State.markRestart
  try simp only [↓State.kept_rules, ite_self, dite_eq_ite]
  repeat'
    first
    | with_reducible rfl
    | ((with_reducible refine (State.kept_foldl _ (fun s a => ?_) _ _).trans ?_) <;>
        try simp only [↓State.kept_rules, ite_self, dite_eq_ite])
    | (split <;> try simp only [↓State.kept_rules, ite_self, dite_eq_ite])
    | rfl

theorem State.endPacket_kept (s : State) (b : Bank) (src : FlowSrc) : (State.endPacket s b src).kept = s.kept := by
  unfold State.endPacket
  try simp only [↓State.kept_rules, ite_self, dite_eq_ite, ↓State.closePend_kept]
  repeat'
    first
    | with_reducible rfl
    | ((with_reducible refine (State.kept_foldl _ (fun s a => ?_) _ _).trans ?_) <;>
        try simp only [↓State.kept_rules, ite_self, dite_eq_ite, ↓State.closePend_kept])
    | (split <;> try simp only [↓State.kept_rules, ite_self, dite_eq_ite, ↓State.closePend_kept])
    | rfl

theorem State.rxCross_kept (s : State) (new : Bank) (p : PastBank) : (State.rxCross s new p).kept = s.kept := by
  unfold State.rxCross
  simp only [↓State.kept_rules, State.kept_foldl, State.kept_foldl_fst, State.kept_foldl_snd, implies_true, ite_self,
    dite_eq_ite, ↓State.markRestart_kept, ↓State.endPacket_kept]

theorem State.rxRestart_kept (s : State) (t : ℤ) : (State.rxRestart s t).kept = s.kept := by
  unfold State.rxRestart
  simp only [↓State.kept_rules, State.kept_foldl, State.kept_foldl_fst, State.kept_foldl_snd, implies_true, ite_self,
    dite_eq_ite, ↓State.rxCross_kept]

theorem State.toFlow_kept (s : State) (src : FlowSrc) (t : ℕ) (period : ℕ) (item : List Cplx) (fl : BitVec 8) :
    (State.toFlow s src t period item fl).kept = s.kept := by
  unfold State.toFlow
  try simp only [↓State.kept_rules, State.kept_foldl, State.kept_foldl_fst, State.kept_foldl_snd, implies_true,
    ite_self, dite_eq_ite, ↓State.closePend_kept, ↓State.pendPush_kept, ↓State.endPacket_kept]
  repeat'
    first
    | with_reducible rfl
    | ((with_reducible refine (State.kept_foldl _ (fun s a => ?_) _ _).trans ?_) <;>
        try simp only [↓State.kept_rules, State.kept_foldl, State.kept_foldl_fst, State.kept_foldl_snd, implies_true,
        ite_self, dite_eq_ite, ↓State.closePend_kept, ↓State.pendPush_kept, ↓State.endPacket_kept])
    | (split <;> try simp only [↓State.kept_rules, State.kept_foldl, State.kept_foldl_fst, State.kept_foldl_snd, implies_true,
        ite_self, dite_eq_ite, ↓State.closePend_kept, ↓State.pendPush_kept, ↓State.endPacket_kept])
    | rfl

theorem State.rxElement_kept (s : State) (bank : Bank) (aper : BitVec 8) (l : Fin 8) (t : ℤ) : (State.rxElement s bank
    aper l t).kept = s.kept := by
  unfold State.rxElement
  try simp only [↓State.kept_rules, State.kept_foldl, State.kept_foldl_fst, State.kept_foldl_snd, implies_true,
    ite_self, dite_eq_ite, ↓State.modRx_kept, ↓State.toChannels_kept, ↓State.toFlow_kept]
  repeat'
    first
    | with_reducible rfl
    | ((with_reducible refine (State.kept_foldl _ (fun s a => ?_) _ _).trans ?_) <;>
        try simp only [↓State.kept_rules, State.kept_foldl, State.kept_foldl_fst, State.kept_foldl_snd, implies_true,
        ite_self, dite_eq_ite, ↓State.modRx_kept, ↓State.toChannels_kept, ↓State.toFlow_kept])
    | (split <;> try simp only [↓State.kept_rules, State.kept_foldl, State.kept_foldl_fst, State.kept_foldl_snd, implies_true,
        ite_self, dite_eq_ite, ↓State.modRx_kept, ↓State.toChannels_kept, ↓State.toFlow_kept])
    | rfl

theorem State.beamOut_kept (s : State) (b : Fin 32) (period : ℕ) (v : TSample) : (State.beamOut s b period v).kept =
    s.kept := by
  unfold State.beamOut
  simp only [↓State.kept_rules, ite_self, dite_eq_ite, ↓State.levelSample_kept, ↓State.toChannels_kept,
    ↓State.toFlow_kept, ↓State.detSample_kept]

theorem State.rxBeam1_kept (s : State) (bank : Bank) (aper : BitVec 8) (b : Fin 32) (t : ℤ) : (State.rxBeam1 s bank
    aper b t).kept = s.kept := by
  unfold State.rxBeam1
  try simp only [↓State.kept_rules, ite_self, dite_eq_ite, ↓State.satBeamBy_kept, ↓State.beamOut_kept]
  repeat'
    first
    | with_reducible rfl
    | ((with_reducible refine (State.kept_foldl _ (fun s a => ?_) _ _).trans ?_) <;>
        try simp only [↓State.kept_rules, ite_self, dite_eq_ite, ↓State.satBeamBy_kept, ↓State.beamOut_kept])
    | (split <;> try simp only [↓State.kept_rules, ite_self, dite_eq_ite, ↓State.satBeamBy_kept, ↓State.beamOut_kept])
    | rfl

theorem State.rxMatrix_kept (s : State) (bank : Bank) (aper : BitVec 8) (t : ℤ) : (State.rxMatrix s bank aper t).kept
    = s.kept := by
  unfold State.rxMatrix
  try simp only [↓State.kept_rules, State.kept_foldl, State.kept_foldl_fst, State.kept_foldl_snd, implies_true,
    ite_self, dite_eq_ite, ↓State.rxBeam1_kept]
  repeat'
    first
    | with_reducible rfl
    | ((with_reducible refine (State.kept_foldl _ (fun s a => ?_) _ _).trans ?_) <;>
        try simp only [↓State.kept_rules, State.kept_foldl, State.kept_foldl_fst, State.kept_foldl_snd, implies_true,
        ite_self, dite_eq_ite, ↓State.rxBeam1_kept])
    | (split <;> try simp only [↓State.kept_rules, State.kept_foldl, State.kept_foldl_fst, State.kept_foldl_snd, implies_true,
        ite_self, dite_eq_ite, ↓State.rxBeam1_kept])
    | rfl

theorem State.rxTick_kept (s : State) : (State.rxTick s).kept = s.kept := by
  unfold State.rxTick
  simp only [↓State.kept_rules, State.kept_foldl, State.kept_foldl_fst, State.kept_foldl_snd, implies_true, ite_self,
    dite_eq_ite, ↓State.rxFill_kept, ↓State.rxRestart_kept, ↓State.rxElement_kept, ↓State.rxMatrix_kept]

theorem State.overload_kept (s : State) (p : Fin 64) : (State.overload s p).kept = s.kept := by
  unfold State.overload
  simp only [↓State.kept_rules, ite_self, dite_eq_ite, ↓State.modPath_kept, ↓State.emitNow_kept]

end Sys2Proof.Machine
end

