-- ==== Sys2Proof/Laws/KeptTxOps.lean ====
section
/-! SUPPORT. The queue and the one-time programmable memory under the operations of Machine/TxOps.lean. -/

set_option linter.all false

namespace Sys2Proof.Machine

theorem State.txRestart_kept (s : State) (t : ℤ) : (State.txRestart s t).kept = s.kept := by
  unfold State.txRestart
  simp only [↓State.kept_rules, State.kept_foldl, State.kept_foldl_fst, State.kept_foldl_snd, implies_true, ite_self,
    dite_eq_ite]

theorem State.modTx_kept (s : State) (p : Fin 64) (f : TxChain → TxChain) : (State.modTx s p f).kept = s.kept := by
  unfold State.modTx
  simp only [↓State.kept_rules, ite_self, dite_eq_ite]

theorem State.txStage_kept (s : State) (i : Fin 32) (elem : Bool) (preset : BitVec 2) (rate : BitVec 3) (t : ℤ) (vals
    : List Cplx) : (State.txStage s i elem preset rate t vals).kept = s.kept := by
  unfold State.txStage
  try simp only [↓State.kept_rules, State.kept_foldl, State.kept_foldl_fst, State.kept_foldl_snd, implies_true,
    ite_self, dite_eq_ite, ↓State.modTx_kept, ↓State.satBeamBy_kept]
  repeat'
    first
    | with_reducible rfl
    | ((with_reducible refine (State.kept_foldl _ (fun s a => ?_) _ _).trans ?_) <;>
        try simp only [↓State.kept_rules, State.kept_foldl, State.kept_foldl_fst, State.kept_foldl_snd, implies_true,
        ite_self, dite_eq_ite, ↓State.modTx_kept, ↓State.satBeamBy_kept])
    | (split <;> try simp only [↓State.kept_rules, State.kept_foldl, State.kept_foldl_fst, State.kept_foldl_snd, implies_true,
        ite_self, dite_eq_ite, ↓State.modTx_kept, ↓State.satBeamBy_kept])
    | rfl

theorem State.txSource_kept (s : State) (bank : Bank) (i : Fin 32) (t : ℤ) : (State.txSource s bank i t).1.kept =
    s.kept := by
  unfold State.txSource
  simp only [↓State.kept_rules, ite_self, dite_eq_ite, ↓State.txStage_kept]

theorem State.txGather_kept (s : State) (bank : Bank) (t : ℤ) (x3 : List (Fin 32)) : (State.txGather s bank t
    x3).1.kept = s.kept := by
  induction x3 generalizing s with
  | nil => unfold State.txGather; rfl
  | cons y ys ih =>
    unfold State.txGather
    try simp only [↓State.kept_rules, ite_self, dite_eq_ite, ↓State.txSource_kept, ↓ih]
    repeat' (first | rfl | (split <;> try simp only [↓State.kept_rules, ite_self, dite_eq_ite, ↓State.txSource_kept, ↓ih]))

theorem State.cfrPath_kept (s : State) (p : Fin 64) (x2 : Cplx) : (State.cfrPath s p x2).kept = s.kept := by
  unfold State.cfrPath
  simp only [↓State.kept_rules, ite_self, dite_eq_ite, ↓State.modPd_kept, ↓State.modTx_kept]

theorem State.pdCapture_kept (s : State) (p : Fin 64) (v : CapSample) : (State.pdCapture s p v).kept = s.kept := by
  unfold State.pdCapture
  simp only [↓State.kept_rules, ite_self, dite_eq_ite, ↓State.modPdTile_kept]

theorem State.toDac_kept (s : State) (p : Fin 64) (n : ℤ) (u : Cplx) : (State.toDac s p n u).kept = s.kept := by
  unfold State.toDac
  simp only [↓State.kept_rules, ite_self, dite_eq_ite, ↓State.modTx_kept]

theorem State.txSample_kept (s : State) (act : List (Fin 64)) (n : ℤ) (xs : Fin 64 → Cplx) : (State.txSample s act n
    xs).kept = s.kept := by
  unfold State.txSample
  simp only [↓State.kept_rules, State.kept_foldl, State.kept_foldl_fst, State.kept_foldl_snd, implies_true, ite_self,
    dite_eq_ite, ↓State.modPd_kept, ↓State.cfrPath_kept, ↓State.pdCapture_kept, ↓State.toDac_kept]

theorem State.txPaths_kept (s : State) (t : ℤ) (xs : Fin 64 → Cplx) : (State.txPaths s t xs).kept = s.kept := by
  unfold State.txPaths
  try simp only [↓State.kept_rules, State.kept_foldl, State.kept_foldl_fst, State.kept_foldl_snd, implies_true,
    ite_self, dite_eq_ite, ↓State.modTx_kept, ↓State.satTxBy_kept, ↓State.txSample_kept]
  repeat'
    first
    | with_reducible rfl
    | ((with_reducible refine (State.kept_foldl _ (fun s a => ?_) _ _).trans ?_) <;>
        try simp only [↓State.kept_rules, State.kept_foldl, State.kept_foldl_fst, State.kept_foldl_snd, implies_true,
        ite_self, dite_eq_ite, ↓State.modTx_kept, ↓State.satTxBy_kept, ↓State.txSample_kept])
    | (split <;> try simp only [↓State.kept_rules, State.kept_foldl, State.kept_foldl_fst, State.kept_foldl_snd, implies_true,
        ite_self, dite_eq_ite, ↓State.modTx_kept, ↓State.satTxBy_kept, ↓State.txSample_kept])
    | rfl

theorem State.txInstant_kept (s : State) (t : ℤ) : (State.txInstant s t).kept = s.kept := by
  unfold State.txInstant
  try simp only [↓State.kept_rules, State.kept_foldl, State.kept_foldl_fst, State.kept_foldl_snd, implies_true,
    ite_self, dite_eq_ite, ↓State.txRestart_kept, ↓State.satBeamBy_kept, ↓State.txGather_kept, ↓State.txPaths_kept]
  repeat'
    first
    | with_reducible rfl
    | ((with_reducible refine (State.kept_foldl _ (fun s a => ?_) _ _).trans ?_) <;>
        try simp only [↓State.kept_rules, State.kept_foldl, State.kept_foldl_fst, State.kept_foldl_snd, implies_true,
        ite_self, dite_eq_ite, ↓State.txRestart_kept, ↓State.satBeamBy_kept, ↓State.txGather_kept,
        ↓State.txPaths_kept])
    | (split <;> try simp only [↓State.kept_rules, State.kept_foldl, State.kept_foldl_fst, State.kept_foldl_snd, implies_true,
        ite_self, dite_eq_ite, ↓State.txRestart_kept, ↓State.satBeamBy_kept, ↓State.txGather_kept,
        ↓State.txPaths_kept])
    | rfl

theorem State.txTick_kept (s : State) : (State.txTick s).kept = s.kept := by
  unfold State.txTick
  simp only [↓State.kept_rules, ite_self, dite_eq_ite, ↓State.txInstant_kept]

end Sys2Proof.Machine
end

