-- ==== Sys2Proof/Laws/KeptSamples.lean ====
section
/-! SUPPORT. The queue and the one-time programmable memory under the operations of Machine/Samples.lean. -/

set_option linter.all false

namespace Sys2Proof.Machine

theorem State.underflow_kept (s : State) (b : Fin 32) (t : ℕ) : (State.underflow s b t).kept = s.kept := by
  unfold State.underflow
  simp only [↓State.kept_rules, ite_self, dite_eq_ite, ↓State.emit_kept]

theorem execBeamTxGridSample_kept (i : Fin 32) (s : State) : Keeps s (execBeamTxGridSample i s) := by
  unfold execBeamTxGridSample
  try simp only [↓State.kept_rules, ↓keeps_rules, ite_self, dite_eq_ite, ↓State.txFree_kept, ↓State.underflow_kept]
  repeat'
    first
    | with_reducible rfl
    | ((with_reducible refine (State.kept_foldl _ (fun s a => ?_) _ _).trans ?_) <;>
        try simp only [↓State.kept_rules, ↓keeps_rules, ite_self, dite_eq_ite, ↓State.txFree_kept, ↓State.underflow_kept])
    | (split <;> try simp only [↓State.kept_rules, ↓keeps_rules, ite_self, dite_eq_ite, ↓State.txFree_kept, ↓State.underflow_kept])
    | rfl

theorem execRxSample_kept (p : Fin 64) (i : BitVec 14) (q : BitVec 14) (s : State) : Keeps s (execRxSample p i q s) :=
    by
  unfold execRxSample
  simp only [↓State.kept_rules, ↓keeps_rules, ite_self, dite_eq_ite, ↓State.rxNext_kept, ↓State.overload_kept]

end Sys2Proof.Machine
end

