-- ==== Sys2Proof/Laws/KeptTick.lean ====
section
/-! SUPPORT. An idle step keeps the queue and the one-time programmable memory. -/

namespace Sys2Proof.Machine

theorem State.advance_kept (s : State) : s.advance.kept = s.kept := by
  unfold State.advance
  simp only [↓State.kept_rules, State.rephase_kept]
  split
  · rfl
  · exact State.shiftTime_kept s _

theorem State.tick_kept (s : State) : s.tick.kept = s.kept :=
  (State.advance_kept _).trans ((State.txTick_kept _).trans (State.rxTick_kept s))

theorem State.run_kept (n : Nat) (s : State) : (State.run n s).kept = s.kept := by
  induction n generalizing s with
  | zero => rfl
  | succ n ih => exact (ih _).trans s.tick_kept

theorem idleTick_kept (s : State) : (idleTick s).kept = s.kept := by
  unfold idleTick
  split
  · rfl
  · split
    · rfl
    · split
      · exact State.run_kept _ _
      · rfl

end Sys2Proof.Machine
end

