-- ==== Sys2Proof/Laws/KeptTime.lean ====
section
/-! SUPPORT. The queue and the one-time programmable memory under the operations of Machine/Time.lean. -/

set_option linter.all false

namespace Sys2Proof.Machine

theorem execTimeArmSync_kept (h : CmdHdr) (value : BitVec 64) (timeout : BitVec 8) (s : State) : Keeps s
    (execTimeArmSync h value timeout s) := by
  unfold execTimeArmSync
  simp only [↓State.kept_rules, ↓keeps_rules, implies_true, ite_self, dite_eq_ite, ↓serve_kept, ↓checks_kept,
    ↓accepted_kept]

theorem execTimeGet_kept (h : CmdHdr) (s : State) : Keeps s (execTimeGet h s) := by
  unfold execTimeGet
  simp only [↓State.kept_rules, ↓keeps_rules, implies_true, ite_self, dite_eq_ite, ↓serve_kept, ↓doneR_kept]

theorem execSyncArmLapse_kept (s : State) : Keeps s (execSyncArmLapse s) := by
  unfold execSyncArmLapse
  try simp only [↓State.kept_rules, ↓keeps_rules, ite_self, dite_eq_ite]
  repeat'
    first
    | with_reducible rfl
    | ((with_reducible refine (State.kept_foldl _ (fun s a => ?_) _ _).trans ?_) <;>
        try simp only [↓State.kept_rules, ↓keeps_rules, ite_self, dite_eq_ite])
    | (split <;> try simp only [↓State.kept_rules, ↓keeps_rules, ite_self, dite_eq_ite])
    | rfl

theorem execTimeDiscipline_kept (h : CmdHdr) (mode : BitVec 8) (epoch : BitVec 72) (polarity : BitVec 8) (s : State) :
    Keeps s (execTimeDiscipline h mode epoch polarity s) := by
  unfold execTimeDiscipline
  simp only [↓State.kept_rules, ↓keeps_rules, implies_true, ite_self, dite_eq_ite, ↓serve_kept, ↓checks_kept,
    ↓done_kept]

theorem State.ppsMiss_kept (s : State) (t : Time) : (State.ppsMiss s t).kept = s.kept := by
  unfold State.ppsMiss
  try simp only [↓State.kept_rules, ite_self, dite_eq_ite, ↓State.emitNow_kept]
  repeat'
    first
    | with_reducible rfl
    | ((with_reducible refine (State.kept_foldl _ (fun s a => ?_) _ _).trans ?_) <;>
        try simp only [↓State.kept_rules, ite_self, dite_eq_ite, ↓State.emitNow_kept])
    | (split <;> try simp only [↓State.kept_rules, ite_self, dite_eq_ite, ↓State.emitNow_kept])
    | rfl

theorem State.ppsAccept_kept (s : State) (t : Time) : (State.ppsAccept s t).kept = s.kept := by
  unfold State.ppsAccept
  simp only [↓State.kept_rules, ite_self, dite_eq_ite, ↓State.emit_kept]

theorem execTimeInPulseEdge_kept (stamp : BitVec 72) (falling : Bool) (s : State) : Keeps s (execTimeInPulseEdge stamp
    falling s) := by
  unfold execTimeInPulseEdge
  try simp only [↓State.kept_rules, ↓keeps_rules, ite_self, dite_eq_ite, ↓State.ppsMiss_kept, ↓State.ppsAccept_kept]
  repeat'
    first
    | with_reducible rfl
    | ((with_reducible refine (State.kept_foldl _ (fun s a => ?_) _ _).trans ?_) <;>
        try simp only [↓State.kept_rules, ↓keeps_rules, ite_self, dite_eq_ite, ↓State.ppsMiss_kept, ↓State.ppsAccept_kept])
    | (split <;> try simp only [↓State.kept_rules, ↓keeps_rules, ite_self, dite_eq_ite, ↓State.ppsMiss_kept, ↓State.ppsAccept_kept])
    | rfl

theorem execPpsMissing_kept (s : State) : Keeps s (execPpsMissing s) := by
  unfold execPpsMissing
  simp only [↓State.kept_rules, ↓keeps_rules, ite_self, dite_eq_ite, ↓State.ppsMiss_kept]

end Sys2Proof.Machine
end

