-- ==== Sys2Proof/Laws/KeptWindows.lean ====
section
/-! SUPPORT. The queue and the one-time programmable memory under the operations of Machine/Windows.lean. -/

set_option linter.all false

namespace Sys2Proof.Machine

theorem execWinModify_kept (h : CmdHdr) (window : BitVec 8) (edge : BitVec 8) (time : BitVec 72) (s : State) : Keeps s
    (execWinModify h window edge time s) := by
  unfold execWinModify
  refine ⟨_, rfl, serve_kept _ _ _ _ (fun u => ?_)⟩
  try simp only [↓State.kept_rules, ↓keeps_rules, implies_true, ite_self, dite_eq_ite, ↓refuse_kept, ↓serve_kept,
    ↓checks_kept, ↓done_kept, ↓State.modWin_kept, ↓State.winEmpty_kept, ↓State.winSetOpen_kept,
    ↓State.calYieldWin_kept]
  repeat'
    first
    | with_reducible rfl
    | ((refine checks_kept _ _ _ ?_) <;> try simp only [↓State.kept_rules, ↓keeps_rules, implies_true, ite_self, dite_eq_ite, ↓refuse_kept, ↓serve_kept,
        ↓checks_kept, ↓done_kept, ↓State.modWin_kept, ↓State.winEmpty_kept, ↓State.winSetOpen_kept,
        ↓State.calYieldWin_kept])
    | ((with_reducible refine (State.kept_foldl _ (fun s a => ?_) _ _).trans ?_) <;>
        try simp only [↓State.kept_rules, ↓keeps_rules, implies_true, ite_self, dite_eq_ite, ↓refuse_kept, ↓serve_kept,
        ↓checks_kept, ↓done_kept, ↓State.modWin_kept, ↓State.winEmpty_kept, ↓State.winSetOpen_kept,
        ↓State.calYieldWin_kept])
    | (split <;> try simp only [↓State.kept_rules, ↓keeps_rules, implies_true, ite_self, dite_eq_ite, ↓refuse_kept, ↓serve_kept,
        ↓checks_kept, ↓done_kept, ↓State.modWin_kept, ↓State.winEmpty_kept, ↓State.winSetOpen_kept,
        ↓State.calYieldWin_kept])
    | rfl

theorem execWinClosingEnd_kept (w : Fin 64) (s : State) : Keeps s (execWinClosingEnd w s) := by
  unfold execWinClosingEnd
  simp only [↓State.kept_rules, ↓keeps_rules, ite_self, dite_eq_ite, ↓State.emitNow_kept, ↓State.modWin_kept]

theorem State.winEdgeAt_kept (s : State) (w : Fin 64) (i : Fin 4) (falling : Bool) (stamp : Time) : (State.winEdgeAt s
    w i falling stamp).kept = s.kept := by
  unfold State.winEdgeAt
  try simp only [↓State.kept_rules, ite_self, dite_eq_ite, ↓State.modWin_kept, ↓State.winEmpty_kept,
    ↓State.winSetOpen_kept]
  repeat'
    first
    | with_reducible rfl
    | ((with_reducible refine (State.kept_foldl _ (fun s a => ?_) _ _).trans ?_) <;>
        try simp only [↓State.kept_rules, ite_self, dite_eq_ite, ↓State.modWin_kept, ↓State.winEmpty_kept,
        ↓State.winSetOpen_kept])
    | (split <;> try simp only [↓State.kept_rules, ite_self, dite_eq_ite, ↓State.modWin_kept, ↓State.winEmpty_kept,
        ↓State.winSetOpen_kept])
    | rfl

theorem execTrigInEdge_kept (input : Fin 4) (stamp : BitVec 72) (falling : Bool) (s : State) : Keeps s (execTrigInEdge
    input stamp falling s) := by
  unfold execTrigInEdge
  simp only [↓State.kept_rules, ↓keeps_rules, State.kept_foldl, State.kept_foldl_fst, State.kept_foldl_snd,
    implies_true, ite_self, dite_eq_ite, ↓State.fire_kept, ↓State.winEdgeAt_kept]

theorem execWinQuery_kept (h : CmdHdr) (window : BitVec 8) (s : State) : Keeps s (execWinQuery h window s) := by
  unfold execWinQuery
  refine ⟨_, rfl, serve_kept _ _ _ _ (fun u => ?_)⟩
  try simp only [↓State.kept_rules, ↓keeps_rules, implies_true, ite_self, dite_eq_ite, ↓refuse_kept, ↓serve_kept,
    ↓doneR_kept]
  repeat'
    first
    | with_reducible rfl
    | ((refine checks_kept _ _ _ ?_) <;> try simp only [↓State.kept_rules, ↓keeps_rules, implies_true, ite_self, dite_eq_ite, ↓refuse_kept, ↓serve_kept,
        ↓doneR_kept])
    | ((with_reducible refine (State.kept_foldl _ (fun s a => ?_) _ _).trans ?_) <;>
        try simp only [↓State.kept_rules, ↓keeps_rules, implies_true, ite_self, dite_eq_ite, ↓refuse_kept, ↓serve_kept,
        ↓doneR_kept])
    | (split <;> try simp only [↓State.kept_rules, ↓keeps_rules, implies_true, ite_self, dite_eq_ite, ↓refuse_kept, ↓serve_kept,
        ↓doneR_kept])
    | rfl

theorem execWinOpenTime_kept (w : Fin 64) (s : State) : Keeps s (execWinOpenTime w s) := by
  unfold execWinOpenTime
  try simp only [↓State.kept_rules, ↓keeps_rules, ite_self, dite_eq_ite, ↓State.winOpen_kept]
  repeat'
    first
    | with_reducible rfl
    | ((with_reducible refine (State.kept_foldl _ (fun s a => ?_) _ _).trans ?_) <;>
        try simp only [↓State.kept_rules, ↓keeps_rules, ite_self, dite_eq_ite, ↓State.winOpen_kept])
    | (split <;> try simp only [↓State.kept_rules, ↓keeps_rules, ite_self, dite_eq_ite, ↓State.winOpen_kept])
    | rfl

theorem execWinDefine_kept (h : CmdHdr) (window : BitVec 8) (openMode : BitVec 8) (openVal : BitVec 72) (closeMode :
    BitVec 8) (closeVal : BitVec 72) (tag : BitVec 32) (maxLen : BitVec 64) (s : State) : Keeps s (execWinDefine h
    window openMode openVal closeMode closeVal tag maxLen s) := by
  unfold execWinDefine
  refine ⟨_, rfl, serve_kept _ _ _ _ (fun u => ?_)⟩
  try simp only [↓State.kept_rules, ↓keeps_rules, implies_true, ite_self, dite_eq_ite, ↓refuse_kept, ↓serve_kept,
    ↓checks_kept, ↓State.modWin_kept, ↓State.winEmpty_kept, ↓State.calYieldWin_kept, ↓doneR_kept, ↓State.winOpen_kept]
  repeat'
    first
    | with_reducible rfl
    | ((refine checks_kept _ _ _ ?_) <;> try simp only [↓State.kept_rules, ↓keeps_rules, implies_true, ite_self, dite_eq_ite, ↓refuse_kept, ↓serve_kept,
        ↓checks_kept, ↓State.modWin_kept, ↓State.winEmpty_kept, ↓State.calYieldWin_kept, ↓doneR_kept,
        ↓State.winOpen_kept])
    | ((with_reducible refine (State.kept_foldl _ (fun s a => ?_) _ _).trans ?_) <;>
        try simp only [↓State.kept_rules, ↓keeps_rules, implies_true, ite_self, dite_eq_ite, ↓refuse_kept, ↓serve_kept,
        ↓checks_kept, ↓State.modWin_kept, ↓State.winEmpty_kept, ↓State.calYieldWin_kept, ↓doneR_kept,
        ↓State.winOpen_kept])
    | (split <;> try simp only [↓State.kept_rules, ↓keeps_rules, implies_true, ite_self, dite_eq_ite, ↓refuse_kept, ↓serve_kept,
        ↓checks_kept, ↓State.modWin_kept, ↓State.winEmpty_kept, ↓State.calYieldWin_kept, ↓doneR_kept,
        ↓State.winOpen_kept])
    | rfl

theorem execWinDelete_kept (h : CmdHdr) (window : BitVec 8) (s : State) : Keeps s (execWinDelete h window s) := by
  unfold execWinDelete
  refine ⟨_, rfl, serve_kept _ _ _ _ (fun u => ?_)⟩
  try simp only [↓State.kept_rules, ↓keeps_rules, implies_true, ite_self, dite_eq_ite, ↓refuse_kept, ↓serve_kept,
    ↓done_kept, ↓State.modWin_kept, ↓State.winEmpty_kept, ↓State.winClose_kept]
  repeat'
    first
    | with_reducible rfl
    | ((refine checks_kept _ _ _ ?_) <;> try simp only [↓State.kept_rules, ↓keeps_rules, implies_true, ite_self, dite_eq_ite, ↓refuse_kept, ↓serve_kept,
        ↓done_kept, ↓State.modWin_kept, ↓State.winEmpty_kept, ↓State.winClose_kept])
    | ((with_reducible refine (State.kept_foldl _ (fun s a => ?_) _ _).trans ?_) <;>
        try simp only [↓State.kept_rules, ↓keeps_rules, implies_true, ite_self, dite_eq_ite, ↓refuse_kept, ↓serve_kept,
        ↓done_kept, ↓State.modWin_kept, ↓State.winEmpty_kept, ↓State.winClose_kept])
    | (split <;> try simp only [↓State.kept_rules, ↓keeps_rules, implies_true, ite_self, dite_eq_ite, ↓refuse_kept, ↓serve_kept,
        ↓done_kept, ↓State.modWin_kept, ↓State.winEmpty_kept, ↓State.winClose_kept])
    | rfl

theorem execWinCloseTime_kept (w : Fin 64) (s : State) : Keeps s (execWinCloseTime w s) := by
  unfold execWinCloseTime
  try simp only [↓State.kept_rules, ↓keeps_rules, ite_self, dite_eq_ite, ↓State.winEmpty_kept, ↓State.winClose_kept]
  repeat'
    first
    | with_reducible rfl
    | ((with_reducible refine (State.kept_foldl _ (fun s a => ?_) _ _).trans ?_) <;>
        try simp only [↓State.kept_rules, ↓keeps_rules, ite_self, dite_eq_ite, ↓State.winEmpty_kept, ↓State.winClose_kept])
    | (split <;> try simp only [↓State.kept_rules, ↓keeps_rules, ite_self, dite_eq_ite, ↓State.winEmpty_kept, ↓State.winClose_kept])
    | rfl

end Sys2Proof.Machine
end

