-- ==== Sys2Proof/Laws/Memory.lean ====
section
/-! SUPPORT. Memories as lists of address and value: reads after writes, and the canonical form, which every operation keeps. -/

namespace Sys2Proof.Machine

variable {α : Type} {d : α}

theorem keysAbove_of_le {a b : Nat} {m : List (Nat × α)} (h : keysAbove b m = true) (hab : a ≤ b) :
    keysAbove a m = true := by
  induction m with
  | nil => rfl
  | cons c m ih =>
    simp only [keysAbove, Bool.and_eq_true, decide_eq_true_eq] at *
    exact ⟨by omega, ih h.2⟩

theorem keysAbove_memSet [DecidableEq α] {k a : Nat} {m : List (Nat × α)} (v : α) (h : keysAbove k m = true) (ha : k < a) :
    keysAbove k (memSet d m a v) = true := by
  induction m with
  | nil => simp only [memSet]; split <;> simp [keysAbove, ha]
  | cons c m ih =>
    simp only [keysAbove, Bool.and_eq_true, decide_eq_true_eq] at h
    simp only [memSet]
    repeat' split
    all_goals simp_all [keysAbove]

/-- A write keeps the canonical form. -/
theorem memSet_wf [DecidableEq α] {m : List (Nat × α)} (h : Memory.wf d m = true) (a : Nat) (v : α) :
    Memory.wf d (memSet d m a v) = true := by
  induction m with
  | nil => simp only [memSet]; split <;> simp_all [Memory.wf, keysAbove]
  | cons c m ih =>
    simp only [Memory.wf, Bool.and_eq_true, decide_eq_true_eq] at h
    obtain ⟨⟨h1, h2⟩, h3⟩ := h
    simp only [memSet]
    repeat' split
    · simp [Memory.wf, h1, h2, h3]
    · rename_i hk hv
      simp [Memory.wf, keysAbove, h1, h2, h3, hk, hv, keysAbove_of_le h2 (Nat.le_of_lt hk)]
    · exact h3
    · rename_i hk ha hv
      subst ha
      simp [Memory.wf, hv, h2, h3]
    · simp only [Memory.wf, Bool.and_eq_true, decide_eq_true_eq]
      exact ⟨⟨h1, keysAbove_memSet v h2 (by omega)⟩, ih h3⟩

theorem memWrite_wf [DecidableEq α] {m : List (Nat × α)} (h : Memory.wf d m = true) (a : Nat) (vs : List α) :
    Memory.wf d (memWrite d m a vs) = true := by
  induction vs generalizing m a with
  | nil => exact h
  | cons v vs ih => exact ih (memSet_wf h a v) (a + 1)

theorem keysAbove_filter {k : Nat} {m : List (Nat × α)} (f : Nat × α → Bool) (h : keysAbove k m = true) :
    keysAbove k (m.filter f) = true := by
  induction m with
  | nil => rfl
  | cons c m ih =>
    simp only [keysAbove, Bool.and_eq_true, decide_eq_true_eq] at h
    simp only [List.filter]
    split
    · simp [keysAbove, h.1, ih h.2]
    · exact ih h.2

/-- Dropping cells keeps the canonical form. -/
theorem filter_wf [DecidableEq α] {m : List (Nat × α)} (h : Memory.wf d m = true) (f : Nat × α → Bool) :
    Memory.wf d (m.filter f) = true := by
  induction m with
  | nil => rfl
  | cons c m ih =>
    simp only [Memory.wf, Bool.and_eq_true, decide_eq_true_eq] at h
    simp only [List.filter]
    split
    · simp [Memory.wf, h.1.1, keysAbove_filter f h.1.2, ih h.2]
    · exact ih h.2

theorem memClear_wf [DecidableEq α] {m : List (Nat × α)} (h : Memory.wf d m = true) (a b : Nat) : Memory.wf d (memClear m a b) = true :=
  filter_wf h _

theorem memGet_above {k a : Nat} {m : List (Nat × α)} (h : keysAbove k m = true) (ha : a ≤ k) : memGet d m a = d := by
  cases m with
  | nil => rfl
  | cons c m =>
    simp only [keysAbove, Bool.and_eq_true, decide_eq_true_eq] at h
    simp only [memGet]
    rw [if_neg (by omega), if_pos (by omega)]

/-- A read after a write: the value at its address, every other address as before. -/
theorem memGet_memSet [DecidableEq α] {m : List (Nat × α)} (h : Memory.wf d m = true) (a b : Nat) (v : α) :
    memGet d (memSet d m a v) b = if b = a then v else memGet d m b := by
  induction m with
  | nil =>
    simp only [memSet]
    split
    · subst v; simp [memGet]
    · simp [memGet]
  | cons c m ih =>
    simp only [Memory.wf, Bool.and_eq_true, decide_eq_true_eq] at h
    obtain ⟨⟨h1, h2⟩, h3⟩ := h
    simp only [memSet]
    repeat' split
    · rename_i hk hv hb
      subst hb hv
      simp only [memGet]
      rw [if_neg (by omega), if_pos hk]
    · rfl
    · rename_i hk hv hb
      simp only [memGet]
      rw [if_pos hb]
    · rename_i hk hv hb
      simp only [memGet]
      rw [if_neg hb]
      split
      · rw [if_neg (by omega), if_pos (by omega)]
      · rfl
    · rename_i hk ha hv hb
      subst hv
      rw [memGet_above h2 (by omega)]
    · rename_i hk ha hv hb
      simp only [memGet]
      rw [if_neg (by omega)]
      split
      · rw [memGet_above h2 (by omega)]
      · rfl
    · rename_i hk ha hv hb
      simp only [memGet]
      rw [if_pos hb]
    · rename_i hk ha hv hb
      simp only [memGet]
      rw [if_neg hb]
      rw [if_neg (show ¬ b = c.1 by omega), ha]
    · rename_i hk ha hb
      simp only [memGet]
      rw [if_neg (by omega), if_neg (by omega), ih h3, if_pos hb]
    · rename_i hk ha hb
      simp only [memGet]
      rw [ih h3, if_neg hb]

/-- A read after writes: the values written in their range, every other address as before. -/
theorem memGet_memWrite [DecidableEq α] {m : List (Nat × α)} (h : Memory.wf d m = true) (a b : Nat) (vs : List α) :
    memGet d (memWrite d m a vs) b = if a ≤ b ∧ b < a + vs.length then vs.getD (b - a) d else memGet d m b := by
  induction vs generalizing m a with
  | nil => simp only [memWrite, List.length_nil]; rw [if_neg (by omega)]
  | cons v vs ih =>
    simp only [memWrite, List.length_cons]
    rw [ih (memSet_wf h a v), memGet_memSet h]
    by_cases h1 : a + 1 ≤ b ∧ b < a + 1 + vs.length
    · rw [if_pos h1, if_pos (by omega)]
      obtain ⟨k, rfl⟩ : ∃ k, b = a + 1 + k := ⟨b - (a + 1), by omega⟩
      rw [show a + 1 + k - (a + 1) = k by omega, show a + 1 + k - a = k + 1 by omega]
      rfl
    · rw [if_neg h1]
      by_cases h2 : b = a
      · subst h2; rw [if_pos rfl, if_pos (by omega), Nat.sub_self]; rfl
      · rw [if_neg h2, if_neg (by omega)]

@[simp] theorem memRead_length (m : List (Nat × α)) (a n : Nat) : (memRead d m a n).length = n := by
  induction n generalizing a with
  | zero => rfl
  | succ n ih => simp [memRead, ih]

/-- What was written is read back. -/
theorem memRead_memWrite [DecidableEq α] {m : List (Nat × α)} (h : Memory.wf d m = true) (a : Nat) (vs : List α) :
    memRead d (memWrite d m a vs) a vs.length = vs := by
  suffices H : ∀ (k : Nat) (ws : List α), ws = vs.drop k → memRead d (memWrite d m a vs) (a + k) ws.length = ws from
    H 0 vs (by simp)
  intro k ws
  induction ws generalizing k with
  | nil => intro _; rfl
  | cons w ws ih =>
    intro hw
    have hk : k < vs.length := by
      have e := congrArg List.length hw
      rw [List.length_cons, List.length_drop] at e
      omega
    have hd := (List.drop_eq_getElem_cons hk).symm.trans hw.symm
    simp only [List.cons.injEq] at hd
    simp only [List.length_cons, memRead]
    rw [memGet_memWrite h, if_pos (by omega), show a + k - a = k by omega, List.getD_eq_getElem _ _ hk, hd.1]
    exact congrArg _ (ih (k + 1) hd.2.symm)

end Sys2Proof.Machine
end

