-- ==== Sys2Proof/Laws/State.lean ====
section
/-! SUPPORT. The fields of a state under the updates that every served command begins and ends with. -/

namespace Sys2Proof.Machine

theorem vmod_get {α : Type} {n : Nat} (v : Vector α n) (i j : Fin n) (f : α → α) :
    (vmod v i f).get j = if j = i then f (v.get i) else v.get j := by
  obtain ⟨i, hi⟩ := i
  obtain ⟨j, hj⟩ := j
  simp only [vmod, Vector.get_eq_getElem, Vector.getElem_set, Fin.mk.injEq]
  by_cases e : i = j
  · simp [e]
  · simp [e, Ne.symm e]

@[simp] theorem vmod_get_same {α : Type} {n : Nat} (v : Vector α n) (i : Fin n) (f : α → α) :
    (vmod v i f).get i = f (v.get i) := by rw [vmod_get, if_pos rfl]

theorem vmod_get_ne {α : Type} {n : Nat} (v : Vector α n) (i j : Fin n) (f : α → α) (h : j ≠ i) :
    (vmod v i f).get j = v.get j := by rw [vmod_get, if_neg h]

@[simp] theorem vmap_get {α : Type} {n : Nat} (v : Vector α n) (i : Fin n) (f : Fin n → α → α) :
    (vmap v f).get i = f i (v.get i) := by simp [vmap, Vector.get_eq_getElem]

theorem fin?_lt {n k : Nat} (h : k < n) : fin? n k = some ⟨k, h⟩ := by simp [fin?, h]

@[simp] theorem fin?_val {n : Nat} (i : Fin n) : fin? n i.val = some i := by simp [fin?]

@[simp] theorem State.enter_pending (s : State) : s.enter.pending = s.pending := rfl
@[simp] theorem State.enter_free (s : State) : s.enter.free = s.free := rfl
@[simp] theorem State.enter_resetN (s : State) : s.enter.resetN = s.resetN := rfl
@[simp] theorem State.enter_time (s : State) : s.enter.time = s.time := rfl
@[simp] theorem State.enter_clk (s : State) : s.enter.clk = s.clk := rfl
@[simp] theorem State.enter_paths (s : State) : s.enter.paths = s.paths := rfl
@[simp] theorem State.enter_res (s : State) : s.enter.res = s.res := rfl
@[simp] theorem State.enter_pick (s : State) : s.enter.pick = s.pick := rfl
@[simp] theorem State.enter_radio (s : State) : s.enter.radio = s.radio := rfl
@[simp] theorem State.enter_chan (s : State) : s.enter.chan = s.chan := rfl
@[simp] theorem State.enter_beam (s : State) : s.enter.beam = s.beam := rfl
@[simp] theorem State.enter_pd (s : State) : s.enter.pd = s.pd := rfl
@[simp] theorem State.enter_an (s : State) : s.enter.an = s.an := rfl
@[simp] theorem State.enter_aq (s : State) : s.enter.aq = s.aq := rfl
@[simp] theorem State.enter_tdsp (s : State) : s.enter.tdsp = s.tdsp := rfl
@[simp] theorem State.enter_link (s : State) : s.enter.link = s.link := rfl
@[simp] theorem State.enter_dma (s : State) : s.enter.dma = s.dma := rfl
@[simp] theorem State.enter_cal (s : State) : s.enter.cal = s.cal := rfl
@[simp] theorem State.enter_hk (s : State) : s.enter.hk = s.hk := rfl
@[simp] theorem State.enter_pw (s : State) : s.enter.pw = s.pw := rfl
@[simp] theorem State.enter_jtag (s : State) : s.enter.jtag = s.jtag := rfl
@[simp] theorem State.enter_otp (s : State) : s.enter.otp = s.otp := rfl
@[simp] theorem State.leave_pending (s : State) : s.leave.pending = s.pending := rfl
@[simp] theorem State.leave_free (s : State) : s.leave.free = s.free := rfl
@[simp] theorem State.leave_resetN (s : State) : s.leave.resetN = s.resetN := rfl
@[simp] theorem State.leave_time (s : State) : s.leave.time = s.time := rfl
@[simp] theorem State.leave_clk (s : State) : s.leave.clk = s.clk := rfl
@[simp] theorem State.leave_paths (s : State) : s.leave.paths = s.paths := rfl
@[simp] theorem State.leave_res (s : State) : s.leave.res = s.res := rfl
@[simp] theorem State.leave_pick (s : State) : s.leave.pick = s.pick := rfl
@[simp] theorem State.leave_radio (s : State) : s.leave.radio = s.radio := rfl
@[simp] theorem State.leave_chan (s : State) : s.leave.chan = s.chan := rfl
@[simp] theorem State.leave_beam (s : State) : s.leave.beam = s.beam := rfl
@[simp] theorem State.leave_pd (s : State) : s.leave.pd = s.pd := rfl
@[simp] theorem State.leave_an (s : State) : s.leave.an = s.an := rfl
@[simp] theorem State.leave_aq (s : State) : s.leave.aq = s.aq := rfl
@[simp] theorem State.leave_tdsp (s : State) : s.leave.tdsp = s.tdsp := rfl
@[simp] theorem State.leave_link (s : State) : s.leave.link = s.link := rfl
@[simp] theorem State.leave_dma (s : State) : s.leave.dma = s.dma := rfl
@[simp] theorem State.leave_cal (s : State) : s.leave.cal = s.cal := rfl
@[simp] theorem State.leave_hk (s : State) : s.leave.hk = s.hk := rfl
@[simp] theorem State.leave_pw (s : State) : s.leave.pw = s.pw := rfl
@[simp] theorem State.leave_jtag (s : State) : s.leave.jtag = s.jtag := rfl
@[simp] theorem State.leave_otp (s : State) : s.leave.otp = s.otp := rfl
@[simp] theorem State.enter_pup_inCmd (s : State) : s.enter.pup.inCmd = true := rfl
@[simp] theorem State.enter_pup_heldEvts (s : State) : s.enter.pup.heldEvts = [] := rfl
@[simp] theorem State.enter_pup_ready (s : State) : s.enter.pup.ready = s.pup.ready := rfl
@[simp] theorem State.enter_pup_restarting (s : State) : s.enter.pup.restarting = s.pup.restarting := rfl
@[simp] theorem State.enter_pup_recovery (s : State) : s.enter.pup.recovery = s.pup.recovery := rfl
@[simp] theorem State.enter_pup_lockstep (s : State) : s.enter.pup.lockstep = s.pup.lockstep := rfl
@[simp] theorem State.enter_pup_halted (s : State) : s.enter.pup.halted = s.pup.halted := rfl
@[simp] theorem State.enter_pup_frameErr (s : State) : s.enter.pup.frameErr = s.pup.frameErr := rfl
@[simp] theorem State.enter_pup_ringErr (s : State) : s.enter.pup.ringErr = s.pup.ringErr := rfl
@[simp] theorem State.enter_pup_irq (s : State) : s.enter.pup.irq = s.pup.irq := rfl
@[simp] theorem State.enter_pup_irqEn (s : State) : s.enter.pup.irqEn = s.pup.irqEn := rfl
@[simp] theorem State.enter_pup_evtWr (s : State) : s.enter.pup.evtWr = s.pup.evtWr := rfl
@[simp] theorem State.enter_pup_evtRd (s : State) : s.enter.pup.evtRd = s.pup.evtRd := rfl
@[simp] theorem State.enter_pup_evtLost (s : State) : s.enter.pup.evtLost = s.pup.evtLost := rfl
@[simp] theorem State.enter_pup_evtUnrep (s : State) : s.enter.pup.evtUnrep = s.pup.evtUnrep := rfl
@[simp] theorem State.enter_pup_evtSent (s : State) : s.enter.pup.evtSent = s.pup.evtSent := rfl
@[simp] theorem State.enter_pup_evtAcked (s : State) : s.enter.pup.evtAcked = s.pup.evtAcked := rfl
@[simp] theorem State.enter_pup_mbCfg (s : State) : s.enter.pup.mbCfg = s.pup.mbCfg := rfl
@[simp] theorem State.enter_pup_ctail (s : State) : s.enter.pup.ctail = s.pup.ctail := rfl
@[simp] theorem State.enter_pup_chead (s : State) : s.enter.pup.chead = s.pup.chead := rfl
@[simp] theorem State.enter_pup_busy (s : State) : s.enter.pup.busy = s.pup.busy := rfl
@[simp] theorem State.enter_pup_restarts (s : State) : s.enter.pup.restarts = s.pup.restarts := rfl
@[simp] theorem State.enter_pup_rejected (s : State) : s.enter.pup.rejected = s.pup.rejected := rfl
@[simp] theorem State.enter_pup_mode (s : State) : s.enter.pup.mode = s.pup.mode := rfl
@[simp] theorem State.enter_pup_cause (s : State) : s.enter.pup.cause = s.pup.cause := rfl
@[simp] theorem State.enter_pup_slotB (s : State) : s.enter.pup.slotB = s.pup.slotB := rfl
@[simp] theorem State.enter_pup_fwVer (s : State) : s.enter.pup.fwVer = s.pup.fwVer := rfl
@[simp] theorem State.enter_pup_boot (s : State) : s.enter.pup.boot = s.pup.boot := rfl
@[simp] theorem State.enter_pup_faultTimes (s : State) : s.enter.pup.faultTimes = s.pup.faultTimes := rfl
@[simp] theorem State.enter_pup_stage (s : State) : s.enter.pup.stage = s.pup.stage := rfl
@[simp] theorem State.enter_pup_job (s : State) : s.enter.pup.job = s.pup.job := rfl
@[simp] theorem State.enter_pup_fresh (s : State) : s.enter.pup.fresh = s.pup.fresh := rfl
@[simp] theorem State.enter_pup_sessions (s : State) : s.enter.pup.sessions = s.pup.sessions := rfl
@[simp] theorem State.enter_pup_nonces (s : State) : s.enter.pup.nonces = s.pup.nonces := rfl
@[simp] theorem State.enter_pup_wrongMac (s : State) : s.enter.pup.wrongMac = s.pup.wrongMac := rfl
@[simp] theorem State.enter_pup_lockout (s : State) : s.enter.pup.lockout = s.pup.lockout := rfl
@[simp] theorem State.enter_pup_jNext (s : State) : s.enter.pup.jNext = s.pup.jNext := rfl
@[simp] theorem State.enter_pup_jSector (s : State) : s.enter.pup.jSector = s.pup.jSector := rfl
@[simp] theorem State.enter_pup_jTorn (s : State) : s.enter.pup.jTorn = s.pup.jTorn := rfl
@[simp] theorem State.enter_pup_jDropped (s : State) : s.enter.pup.jDropped = s.pup.jDropped := rfl
@[simp] theorem State.enter_pup_jBuf (s : State) : s.enter.pup.jBuf = s.pup.jBuf := rfl
@[simp] theorem State.enter_pup_jGap (s : State) : s.enter.pup.jGap = s.pup.jGap := rfl
@[simp] theorem State.enter_pup_jBoot (s : State) : s.enter.pup.jBoot = s.pup.jBoot := rfl
@[simp] theorem State.enter_pup_mbRam (s : State) : s.enter.pup.mbRam = s.pup.mbRam := rfl
@[simp] theorem State.enter_pup_pupMem (s : State) : s.enter.pup.pupMem = s.pup.pupMem := rfl
@[simp] theorem State.enter_pup_flash (s : State) : s.enter.pup.flash = s.pup.flash := rfl
@[simp] theorem State.enter_pup_miso (s : State) : s.enter.pup.miso = s.pup.miso := rfl
@[simp] theorem State.enter_pup_rdata (s : State) : s.enter.pup.rdata = s.pup.rdata := rfl
@[simp] theorem State.enter_nowT (s : State) : s.enter.nowT = s.nowT := rfl
@[simp] theorem State.leave_pup_inCmd (s : State) : s.leave.pup.inCmd = false := rfl
@[simp] theorem State.leave_pup_heldEvts (s : State) : s.leave.pup.heldEvts = [] := rfl
@[simp] theorem State.leave_pup_ready (s : State) : s.leave.pup.ready = s.pup.ready := rfl
@[simp] theorem State.leave_pup_restarting (s : State) : s.leave.pup.restarting = s.pup.restarting := rfl
@[simp] theorem State.leave_pup_recovery (s : State) : s.leave.pup.recovery = s.pup.recovery := rfl
@[simp] theorem State.leave_pup_lockstep (s : State) : s.leave.pup.lockstep = s.pup.lockstep := rfl
@[simp] theorem State.leave_pup_halted (s : State) : s.leave.pup.halted = s.pup.halted := rfl
@[simp] theorem State.leave_pup_frameErr (s : State) : s.leave.pup.frameErr = s.pup.frameErr := rfl
@[simp] theorem State.leave_pup_ringErr (s : State) : s.leave.pup.ringErr = s.pup.ringErr := rfl
@[simp] theorem State.leave_pup_irq (s : State) : s.leave.pup.irq = s.pup.irq := rfl
@[simp] theorem State.leave_pup_irqEn (s : State) : s.leave.pup.irqEn = s.pup.irqEn := rfl
@[simp] theorem State.leave_pup_evtWr (s : State) : s.leave.pup.evtWr = s.pup.evtWr := rfl
@[simp] theorem State.leave_pup_evtRd (s : State) : s.leave.pup.evtRd = s.pup.evtRd := rfl
@[simp] theorem State.leave_pup_evtLost (s : State) : s.leave.pup.evtLost = s.pup.evtLost := rfl
@[simp] theorem State.leave_pup_evtUnrep (s : State) : s.leave.pup.evtUnrep = s.pup.evtUnrep := rfl
@[simp] theorem State.leave_pup_evtSent (s : State) : s.leave.pup.evtSent = s.pup.evtSent := rfl
@[simp] theorem State.leave_pup_evtAcked (s : State) : s.leave.pup.evtAcked = s.pup.evtAcked := rfl
@[simp] theorem State.leave_pup_mbCfg (s : State) : s.leave.pup.mbCfg = s.pup.mbCfg := rfl
@[simp] theorem State.leave_pup_ctail (s : State) : s.leave.pup.ctail = s.pup.ctail := rfl
@[simp] theorem State.leave_pup_chead (s : State) : s.leave.pup.chead = s.pup.chead := rfl
@[simp] theorem State.leave_pup_busy (s : State) : s.leave.pup.busy = s.pup.busy := rfl
@[simp] theorem State.leave_pup_restarts (s : State) : s.leave.pup.restarts = s.pup.restarts := rfl
@[simp] theorem State.leave_pup_rejected (s : State) : s.leave.pup.rejected = s.pup.rejected := rfl
@[simp] theorem State.leave_pup_mode (s : State) : s.leave.pup.mode = s.pup.mode := rfl
@[simp] theorem State.leave_pup_cause (s : State) : s.leave.pup.cause = s.pup.cause := rfl
@[simp] theorem State.leave_pup_slotB (s : State) : s.leave.pup.slotB = s.pup.slotB := rfl
@[simp] theorem State.leave_pup_fwVer (s : State) : s.leave.pup.fwVer = s.pup.fwVer := rfl
@[simp] theorem State.leave_pup_boot (s : State) : s.leave.pup.boot = s.pup.boot := rfl
@[simp] theorem State.leave_pup_faultTimes (s : State) : s.leave.pup.faultTimes = s.pup.faultTimes := rfl
@[simp] theorem State.leave_pup_stage (s : State) : s.leave.pup.stage = s.pup.stage := rfl
@[simp] theorem State.leave_pup_job (s : State) : s.leave.pup.job = s.pup.job := rfl
@[simp] theorem State.leave_pup_fresh (s : State) : s.leave.pup.fresh = s.pup.fresh := rfl
@[simp] theorem State.leave_pup_sessions (s : State) : s.leave.pup.sessions = s.pup.sessions := rfl
@[simp] theorem State.leave_pup_nonces (s : State) : s.leave.pup.nonces = s.pup.nonces := rfl
@[simp] theorem State.leave_pup_wrongMac (s : State) : s.leave.pup.wrongMac = s.pup.wrongMac := rfl
@[simp] theorem State.leave_pup_lockout (s : State) : s.leave.pup.lockout = s.pup.lockout := rfl
@[simp] theorem State.leave_pup_jNext (s : State) : s.leave.pup.jNext = s.pup.jNext := rfl
@[simp] theorem State.leave_pup_jSector (s : State) : s.leave.pup.jSector = s.pup.jSector := rfl
@[simp] theorem State.leave_pup_jTorn (s : State) : s.leave.pup.jTorn = s.pup.jTorn := rfl
@[simp] theorem State.leave_pup_jDropped (s : State) : s.leave.pup.jDropped = s.pup.jDropped := rfl
@[simp] theorem State.leave_pup_jBuf (s : State) : s.leave.pup.jBuf = s.pup.jBuf := rfl
@[simp] theorem State.leave_pup_jGap (s : State) : s.leave.pup.jGap = s.pup.jGap := rfl
@[simp] theorem State.leave_pup_jBoot (s : State) : s.leave.pup.jBoot = s.pup.jBoot := rfl
@[simp] theorem State.leave_pup_mbRam (s : State) : s.leave.pup.mbRam = s.pup.mbRam := rfl
@[simp] theorem State.leave_pup_pupMem (s : State) : s.leave.pup.pupMem = s.pup.pupMem := rfl
@[simp] theorem State.leave_pup_flash (s : State) : s.leave.pup.flash = s.pup.flash := rfl
@[simp] theorem State.leave_pup_miso (s : State) : s.leave.pup.miso = s.pup.miso := rfl
@[simp] theorem State.leave_pup_rdata (s : State) : s.leave.pup.rdata = s.pup.rdata := rfl
@[simp] theorem State.leave_nowT (s : State) : s.leave.nowT = s.nowT := rfl

end Sys2Proof.Machine
end

