-- ==== Sys2Proof/Laws/Otp.lean ====
section
/-! SUPPORT. The one-time programmable memory under its own four commands, and their effect on the queue. -/

namespace Sys2Proof.Machine

theorem OtpKey.Grows.refl (a : OtpKey) : a.Grows a := ⟨fun h => ⟨h, rfl⟩, id, id⟩

theorem OtpBlock.Grows.refl (a : OtpBlock) : a.Grows a :=
  ⟨fun _ => OtpKey.Grows.refl _, List.prefix_refl _, List.prefix_refl _⟩

/-- A state whose kept part is that of another has its queue and its one-time programmable memory. -/
theorem State.kept_iff {s t : State} : t.kept = s.kept ↔ t.pending = s.pending ∧ t.otp = s.otp := by
  simp [State.kept]

/-- The queue is as before and the one-time programmable memory only holds more. -/
def Burns (s t : State) : Prop := t.pending = s.pending ∧ s.otp.Grows t.otp

theorem Burns.refl (s : State) : Burns s s := ⟨rfl, OtpBlock.Grows.refl _⟩

theorem checks_burns (cs : List (BitVec 8 × Bool)) (s : State) (body : Unit → Reply × State)
    (h : (∀ c ∈ cs, c.2 = false) → Burns s (body ()).2) : Burns s (checks cs s body).2 := by
  unfold checks
  split
  · exact Burns.refl s
  · rename_i hn
    exact h (fun c hc => by simpa using List.find?_eq_none.mp hn c hc)

theorem otpBurn_burns (s : State) (good bad : State → State) (hg : ∀ n, Burns s (good { s with free := n }))
    (hb : ∀ n, Burns s (bad { s with free := n })) : Burns s (s.otpBurn good bad).2 := by
  unfold State.otpBurn
  simp only []
  split
  · exact hb _
  · exact hg _

theorem serve_burns (h : CmdHdr) (c : CmdSpec) (body : State → Reply × State) (s : State)
    (hb : ∀ t, Burns t (body t).2) : Burns s (serve h c body s) := by
  unfold serve
  split
  · exact Burns.refl s
  · obtain ⟨hp, ho⟩ := State.kept_iff.mp (State.settle_kept
      (match s.refusal h c with
        | some st => refuse st s
        | none => body s.enter).2 h c (s.sessionRole h.session)
      (match s.refusal h c with
        | some st => refuse st s
        | none => body s.enter).1)
    refine ⟨hp.trans ?_, (congrArg (OtpBlock.Grows s.otp) ho).mpr ?_⟩
    · split
      · rfl
      · exact (hb _).1
    · split
      · exact OtpBlock.Grows.refl _
      · exact (hb s.enter).2

theorem modOtp_burns (s : State) (n : Nat) (i : Fin 4) (f : OtpKey → OtpKey) (h : (s.otp.keys.get i).Grows (f (s.otp.keys.get i))) :
    Burns s (State.modOtp { s with free := n } i f) := by
  refine ⟨rfl, fun j => ?_, List.prefix_refl _, List.prefix_refl _⟩
  show (s.otp.keys.get j).Grows ((vmod s.otp.keys i f).get j)
  rw [vmod_get]
  split
  · rename_i e
    rw [e]
    exact h
  · exact OtpKey.Grows.refl _

theorem execOtpKeyWrite_burns (h : CmdHdr) (index : BitVec 8) (ptr : BitVec 32) (s : State) :
    ∃ t, execOtpKeyWrite h index ptr s = .next t ∧ Burns s t := by
  refine ⟨_, rfl, serve_burns _ _ _ _ (fun u => ?_)⟩
  split
  · exact Burns.refl u
  · split
    · exact Burns.refl u
    · rename_i i _
      refine checks_burns _ _ _ (fun hc => otpBurn_burns _ _ _ (fun n => modOtp_burns _ _ _ _ ?_) (fun n => modOtp_burns _ _ _ _ ?_))
      · have hw := hc (stBadState, (u.otp.keys.get i).written || (u.otp.keys.get i).failed) (by simp)
        simp only [Bool.or_eq_false_iff] at hw
        exact ⟨fun e => by simp [hw.1] at e, id, id⟩
      · exact ⟨fun e => ⟨e, rfl⟩, fun _ => rfl, id⟩

theorem execOtpKeyRevoke_burns (h : CmdHdr) (index : BitVec 8) (s : State) :
    ∃ t, execOtpKeyRevoke h index s = .next t ∧ Burns s t := by
  refine ⟨_, rfl, serve_burns _ _ _ _ (fun u => ?_)⟩
  split
  · exact Burns.refl u
  · split
    · exact Burns.refl u
    · refine checks_burns _ _ _ (fun _ => otpBurn_burns _ _ _ (fun n => modOtp_burns _ _ _ _ ?_) (fun n => modOtp_burns _ _ _ _ ?_))
      · exact ⟨fun e => ⟨e, rfl⟩, id, fun _ => rfl⟩
      · exact ⟨fun e => ⟨e, rfl⟩, fun _ => rfl, id⟩

theorem execOtpFloorSet_burns (h : CmdHdr) (version : BitVec 32) (s : State) :
    ∃ t, execOtpFloorSet h version s = .next t ∧ Burns s t := by
  refine ⟨_, rfl, serve_burns _ _ _ _ (fun u => checks_burns _ _ _ (fun _ => otpBurn_burns _ _ _ (fun n => ?_) (fun n => ?_)))⟩
  · exact ⟨rfl, fun _ => OtpKey.Grows.refl _, List.prefix_append _ _, List.prefix_refl _⟩
  · exact ⟨rfl, fun _ => OtpKey.Grows.refl _, List.prefix_append _ _, List.prefix_refl _⟩

theorem execOtpTrimWrite_burns (h : CmdHdr) (group length : BitVec 16) (ptr : BitVec 32) (s : State) :
    ∃ t, execOtpTrimWrite h group length ptr s = .next t ∧ Burns s t := by
  refine ⟨_, rfl, serve_burns _ _ _ _ (fun u => checks_burns _ _ _ (fun _ => otpBurn_burns _ _ _ (fun n => ?_) (fun n => ?_)))⟩
  · exact ⟨rfl, fun _ => OtpKey.Grows.refl _, List.prefix_refl _, List.prefix_append _ _⟩
  · exact ⟨rfl, fun _ => OtpKey.Grows.refl _, List.prefix_refl _, List.prefix_append _ _⟩

end Sys2Proof.Machine
end

