-- ==== Sys2Proof/Laws/Serve.lean ====
section
/-! SUPPORT. What serving a command comes to: nothing, a refusal of R504's checks, or its body. -/

namespace Sys2Proof.Machine

theorem serve_accepted {s : State} {h : CmdHdr} {c : CmdSpec} {body : State → Reply × State}
    (ha : s.accepts h c = true) : serve h c body s = s.answered h c (body s.enter).1 (body s.enter).2 := by
  simp only [State.accepts, Bool.and_eq_true, Option.isNone_iff_eq_none] at ha
  simp only [serve, ha.1, ha.2, Bool.true_eq_false, if_false, State.answered]

theorem serve_body {s : State} {h : CmdHdr} {c : CmdSpec} {body : State → Reply × State} {r : Reply} {t : State}
    (ha : s.accepts h c = true) (hb : body s.enter = (r, t)) : serve h c body s = s.answered h c r t := by
  rw [serve_accepted ha, hb]

theorem serve_turned {s : State} {h : CmdHdr} {c : CmdSpec} {body : State → Reply × State} {st : BitVec 8}
    (ha : s.turnsAway h c st = true) : serve h c body s = s.answered h c { status := st } s := by
  simp only [State.turnsAway, Bool.and_eq_true, decide_eq_true_eq] at ha
  simp only [serve, ha.1, ha.2, Bool.true_eq_false, if_false, State.answered, refuse]

theorem serve_unserved {s : State} {h : CmdHdr} {c : CmdSpec} {body : State → Reply × State}
    (ha : s.canServe h.mb = false) : serve h c body s = s := by
  simp only [serve, ha, if_true]

theorem not_of_true {b : Bool} (h : b = true) : (!b) = false := by rw [h]; rfl

theorem checks_pass {cs : List (BitVec 8 × Bool)} {s : State} {body : Unit → Reply × State}
    (h : ∀ c ∈ cs, c.2 = false) : checks cs s body = body () := by
  have hn : cs.find? (fun c => c.2) = none := List.find?_eq_none.mpr (fun c hc => by simp [h c hc])
  simp only [checks, hn]

end Sys2Proof.Machine
end

