-- ==== Sys2Proof/Laws/Tdsp.lean ====
section
/-! SUPPORT. What a compute slot and a move slot of a running kernel come to. -/

namespace Sys2Proof.Machine

theorem vmod_vmod {α : Type} {n : Nat} (v : Vector α n) (i : Fin n) (f g : α → α) :
    vmod (vmod v i f) i g = vmod v i (fun x => g (f x)) := by
  simp only [vmod, Vector.get_eq_getElem, Vector.getElem_set_self, Vector.set_set]

theorem State.modK_modK (s : State) (t : Fin 8) (f g : Tdsp → Tdsp) :
    (s.modK t f).modK t g = s.modK t (fun k => g (f k)) := by
  simp only [State.modK, vmod_vmod]

theorem vmod_same {α : Type} {n : Nat} (v : Vector α n) (i : Fin n) (f : α → α) :
    vmod v i f = vmod v i (fun _ => f (v.get i)) := rfl

theorem State.modK_const (s : State) (t : Fin 8) (f : Tdsp → Tdsp) :
    s.modK t f = s.modK t (fun _ => f (s.tdsp.get t)) := rfl

@[simp] theorem State.modK_tdsp (s : State) (t : Fin 8) (f : Tdsp → Tdsp) : (s.modK t f).tdsp.get t = f (s.tdsp.get t) := by
  simp [State.modK]

theorem State.compute_runs {s : State} {t : Fin 8} {f : Tdsp → Option (List InFlight)} {rs : List InFlight}
    (h1 : s.kRuns t = true) (h2 : (s.tdsp.get t).atStart.inRange (s.tdsp.get t).atStart.pc.toNat = true)
    (h3 : f (s.tdsp.get t).atStart = some rs) :
    s.compute t f = s.modK t (fun k => { k.atStart with issuedC := true, curC := rs }) := by
  unfold State.compute
  simp only [h1, Bool.not_true, Bool.false_eq_true, if_false, State.modK_tdsp, h2, h3, State.modK_modK]

theorem State.compute_out {s : State} {t : Fin 8} {f : Tdsp → Option (List InFlight)}
    (h1 : s.kRuns t = true) (h2 : (s.tdsp.get t).atStart.inRange (s.tdsp.get t).atStart.pc.toNat = false) :
    s.compute t f = (s.modK t Tdsp.atStart).kFault t 3 := by
  unfold State.compute
  simp only [h1, Bool.not_true, Bool.false_eq_true, if_false, State.modK_tdsp, h2, Bool.not_false, if_true]

theorem State.move_runs {s : State} {t : Fin 8} {f : State → Tdsp → Move} {after : State → State} {k : Tdsp} {m : Move}
    (hk : k = if (s.tdsp.get t).issuedC then s.tdsp.get t else (s.tdsp.get t).loopReturn)
    (h1 : s.kRuns t = true) (h2 : k.inRange k.pc.toNat = true)
    (h3 : f (s.modK t (fun _ => k)) k = m) (h4 : m.fault = 0) :
    s.move t f after = after (s.modK t (fun _ => k.endBundle m)) := by
  subst hk
  unfold State.move
  simp only [h1, Bool.not_true, Bool.false_eq_true, if_false, State.modK_tdsp, h2, State.modK_modK]
  rw [State.modK_const s t (fun k => if k.issuedC then k else k.loopReturn), h3, h4, if_neg (by decide)]
  rfl

theorem State.compute_bad {s : State} {t : Fin 8} {f : Tdsp → Option (List InFlight)}
    (h1 : s.kRuns t = true) (h2 : (s.tdsp.get t).atStart.inRange (s.tdsp.get t).atStart.pc.toNat = true)
    (h3 : f (s.tdsp.get t).atStart = none) : s.compute t f = (s.modK t Tdsp.atStart).kFault t 1 := by
  unfold State.compute
  simp only [h1, Bool.not_true, Bool.false_eq_true, if_false, State.modK_tdsp, h2, h3]

theorem State.move_bad {s : State} {t : Fin 8} {f : State → Tdsp → Move} {after : State → State} {k : Tdsp} {m : Move}
    (hk : k = if (s.tdsp.get t).issuedC then s.tdsp.get t else (s.tdsp.get t).loopReturn)
    (h1 : s.kRuns t = true) (h2 : k.inRange k.pc.toNat = true)
    (h3 : f (s.modK t (fun _ => k)) k = m) (h4 : m.fault ≠ 0) :
    s.move t f after = (s.modK t (fun _ => k)).kFault t m.fault := by
  subst hk
  unfold State.move
  simp only [h1, Bool.not_true, Bool.false_eq_true, if_false, State.modK_tdsp, h2]
  rw [State.modK_const s t (fun k => if k.issuedC then k else k.loopReturn), h3, if_pos h4]

end Sys2Proof.Machine
end

