-- ==== Sys2Proof/Tests/Slice0.lean ====
section
/-! SUPPORT. Tests: the checks of well-formedness, small steps whose results the spec works out, and for every statement states and
operands that meet its hypotheses, clause by clause. -/

open Sys2Proof Sys2Proof.Machine

set_option Elab.async false
set_option linter.unusedVariables false

/-- Every path adapts. -/
def Sys2Proof.Machine.State.estOn (s : State) : State :=
  { s with pd.paths := vmap s.pd.paths (fun _ p => { p with adaptEn := true }) }

/-- Every kernel is in the delay slot of a branch that is not taken. -/
def Sys2Proof.Machine.State.inSlot (s : State) : State :=
  { s with tdsp := vmap s.tdsp (fun _ k =>
      { k with flight := [{ reg := .pc, val := 8192, valQ := 0, left := 2, mac := false }] }) }

/-- Every kernel stalls. -/
def Sys2Proof.Machine.State.stalled (s : State) (x : TStall) : State :=
  { s with tdsp := vmap s.tdsp (fun _ k => { k with stall := x }) }

/-- The doorbell of every kernel is pending and unmasked. -/
def Sys2Proof.Machine.State.rung (s : State) : State :=
  { s with tdsp := vmap s.tdsp (fun _ k => { k with pend := 1, imask := 1 }) }

namespace Sys2Proof.Tests

/-! ### States of the tests -/

/-- The header of a direct command of n parameter bytes in mailbox 0, from session 1. -/
def hd (n : Nat) : CmdHdr :=
  { mb := 0, seq := 1, plen := BitVec.ofNat 16 n, flags := 1, session := 1, indirect := 0, padZero := true }

/-- The header of an indirect command whose parameter block is at 0x5000. -/
def hdInd (n : Nat) : CmdHdr := { hd n with flags := 5, indirect := 0x5000 }

/-- A powered machine in OPERATIONAL with its firmware ready, a maker in session 1 and a command waiting in every mailbox. -/
def live : State :=
  { State.reset with
    resetN := true
    pup := { State.reset.pup with
      ready := true, sessions := Vector.replicate 8 (.opened .maker 0 1000000000000), ctail := Vector.replicate 4 1 }
    time := { State.reset.time with dspRuns := true } }

/-- A pending window that opens at 0. -/
def pend : Window :=
  { State.reset.time.windows.get 0 with
    state := .pending, openMode := .time 0, closeMode := .length 1000, openT := some 0, closeT := some 256000 }

/-- An action with handle 7 at 0 that never lapses. -/
def headAct (a : Act) : QAct := { handle := 7, act := a, time := 0, tol := 1000000, window := none }

/-- The state with one action in a queue. -/
def withHead (q : Fin 9) (a : Act) (s : State) : State :=
  { s with time.queues := vmod s.time.queues q (fun x => { x with acts := [headAct a] }) }

/-- Every tile in STANDBY in APERTURE use, its synthesiser locked, no fault. -/
def tuned (s : State) : State :=
  { s with
    radio := vmap s.radio (fun _ r => { r with state := .standby, use := .aperture, transit := none, burst := none, apHomeRx := false })
    clk := { s.clk with
      plls := vmap s.clk.plls (fun _ p => { p with fault := false, lock := true }), refOk := true } }

/-- A swap of the receive bank waits under handle 7. -/
def waiting (s : State) : State := { s with beam.swaps := [swapRun 7 0 1 false []] }

/-- A swap that gives T0 to the aperture waits under handle 7. -/
def waiting2 (s : State) : State := { s with beam.swaps := [swapRun 7 0 1 true [.aperture]] }

/-- One RFFE register read of one byte. -/
def rdOp : RffeOp := { kind := 1, usid := 1, addr := 0, count := 1, rsvd := 0, data := List.replicate 16 0 }

/-- Every PLL locked without a fault, REFCLK present. -/
def cleared (s : State) : State :=
  { s with clk := { s.clk with plls := vmap s.clk.plls (fun _ p => { p with fault := false, lock := true, busy := false }), refOk := true } }

/-- A TX_IQ packet of one sample for beam 0 in its reset format. -/
def txPkt : RxPkt :=
  { flow := 0, flags := 0, seq := 0, time := 64, aper := 0, fmt := 0, crcOk := true, payload := List.replicate 4 0 }

/-- The same of one credit unit, past a limit of none. -/
def txLong : RxPkt := { txPkt with payload := List.replicate 64 0 }

/-- The link is up and flow 0 feeds beam 0. -/
def txReady (limit : BitVec 32) : State :=
  { live with link := { live.link with
      up := true, txFlows := vmod live.link.txFlows 0 (fun x => { x with src := .beam 0, limit := limit }) } }

/-- A kernel image of ten bundles from 8192 on that claims DOORBELL. -/
def kImg : KImage := { kid := 1, resUse := false, pmOff := 8192, pmLen := 10, entry := 8192, claims := 1, isr := [8195, 0, 0, 0] }

/-- Every tile powered, its kernel running at its first bundle. -/
def kern : State :=
  { live with
    pw := { live.pw with tileOn := 0xFF, dev := .active, vddio := true }
    tdsp := vmap live.tdsp (fun _ k => { k with state := .running, image := some kImg, pc := 8192, status := 0x10 }) }

/-- The header of an image of one bundle of zeros, with its CRC-32C. -/
def imgHead : List Byte :=
  le 4 0x4B545350 ++ le 2 64 ++ le 2 0 ++ le 4 1 ++ le 4 8192 ++ le 4 8 ++ le 4 0 ++ le 4 0 ++ le 4 0 ++ le 4 0 ++ le 2 8192 ++
    le 2 0 ++ le 8 0 ++ le 12 0 ++ le 4 1193901513

/-- The image lies at the start of the store and no tile is in use. -/
def imaged : State :=
  { live with
    aq.store := memWrite 0 [] 0x40000000 imgHead
    radio := vmap live.radio (fun _ r => { r with use := .out }) }

/-- A kernel of every tile waits for a capture and its select lines have settled. -/
def orxKern : State :=
  { live with res := vmap live.res (fun _ r => { r with orx := { r.orx with
      busy := false, user := .kernel, sel := 0, startAt := some 0, reqKern := some 0, reqCal := none, fed := true } }) }

/-- A capture for a user runs without an end of its own. -/
def orxBusy (u : OrxUser) : State :=
  { live with res := vmap live.res (fun _ r => { r with orx := { r.orx with busy := true, user := u, endAt := none } }) }

/-- The estimator of every tile works on its path 0. -/
def estimating (stale : Bool) : State :=
  { live with pd.tiles := vmap live.pd.tiles (fun _ x => { x with estBusy := some 0, stale := stale }) }

theorem orxBusy_end (u : OrxUser) : ∀ e, ((orxBusy u).res.get 0).orx.endAt = some e → e ≤ (orxBusy u).time.ticks := by
  intro e h
  simp [orxBusy, vmap] at h

/-- Segment 0 is defined. -/
def seg0 : State :=
  { live with aq.segments := live.aq.segments.set 0 (some { base := 0x40000000, len := 0x100000, slots := 1, slot := 0 }) }

/-- A firing of source 1 at 0, and the state in which it has reached every unit of one operation. -/
def fir : Firing := { code := 1, index := 0, time := 0, windows := 0 }
def fired (op : BitVec 8) (ignore : Option Time) : State :=
  { live with aq.units := vmap live.aq.units (fun _ u =>
      { u with inbox := [fir], op := op, aCode := 1, aIdx := 0, ignore := ignore }) }

/-- A record at 0 of every channel. -/
def rec0 : Record :=
  { trig := 0, unit := 0, src := 1, windows := 0, sample := 0, endT := 0, inrec := 0, inrecT := 0, aperCut := false,
    trunc := false, aper := 0, dead := 0, missN := 0, missT := 0, period := 4, rate := 0, postS := 1 }
def recs (st : ChState) : State :=
  { live with aq.chans := vmap live.aq.chans (fun _ x => { x with state := st, record := some rec0 }) }

/-- A claim of path 0 at 0, on every tile. -/
def claim0 (running : Bool) : Claim := { kind := .rxIq, path := 0, start := 0, len := 0, running := running }
def claimed (running : Bool) : State :=
  { live with cal.tiles := vmap live.cal.tiles (fun _ x => { x with claim := some (claim0 running) }) }

/-- A calibration with no work left. -/
def pend0 : CalPend := { kind := .rxIq, deadline := 0, missed := 0, overdue := false, fcs := [], work := [] }

/-- The hold-up capacitor is full. -/
def charged : State :=
  { live with cal := { live.cal with
      capUf := 0xFFFFFFFF, capSet := true, vmin := 0, divider := 0xFFFF, vhold := 0xFFFF, ePage := 1, eErase := 1 } }

/-- Every tile in the stitch set, a frame of the shortest length just complete. -/
def framed : State :=
  { live with
    time.ticks := 256
    an.stitch.members := 0xFF
    an.src := vmap live.an.src (fun _ y => { y with cfg.lane.z := 0 })
    radio := vmap live.radio (fun _ r => { r with use := .stitch }) }

/-- An averaged output whose block of one frame is full. -/
def out0 : AnOutput :=
  { first := 0, count := 1, period := 1, k := 1, avgLog := false, inclBl := false, maskOvl := false, flow := none, segment := none }
def traced : State :=
  { live with an.src := vmap live.an.src (fun _ y => { y with
      cfg.outs := Vector.replicate 4 (some out0), traces := vmap y.traces (fun _ t => { t with seen := 1 }) }) }

/-- The link is up on sixteen lanes at the highest rate. -/
def linkFull : State :=
  { live with link := { live.link with up := true, active := 0xFFFF, rxActive := 0xFFFF, rate := 3 }, pup.mbCfg := 0xF }

/-- A CTRL_CMD of an empty slot, next in order. -/
def cmdPkt : RxPkt :=
  { flow := 0, flags := 0, seq := linkFull.link.relRx, time := 0, aper := 0, fmt := 7, crcOk := true, payload := List.replicate 64 0 }

/-- A reliable packet held since 0. -/
def held0 : Held :=
  { pkt := { type := 0x12, flow := 0, flags := 0, seq := 0, time := 0, aper := 0, fmt := 0x7F, payload := [] }, sent := 0, first := 0 }

/-- Every DMA channel with one change. -/
def dmAll (f : DmChan → DmChan) : State := { live with dma.chans := vmap live.dma.chans (fun _ x => f x) }

/-- A copy of 64 bytes of mailbox RAM, and its progress. -/
def desc0 : Desc := { src := 0x10011000, dst := 0x10012000, bytes := 64, cu := 0, flags := 0, next := 0, aux := 0 }
def descHost : Desc := { desc0 with flags := 0x20 }
def drun (d : Desc) (moved : Nat) (burst : Option Nat) : DescRun :=
  { desc := d, addr := 0, moved := moved, burst := burst, lo := 0, data := List.replicate (burst.getD 0) 0, fenceAt := none }

/-- A read of four bytes by channel 0 is outstanding under TAG 0. -/
def read0 : MemRead := { tag := 0, chan := 0, addr := 0, bytes := 4, got := [], sent := 0 }
def rdPkt : RxPkt :=
  { flow := 0, flags := 0, seq := linkFull.link.relRx, time := 0, aper := 0, fmt := 7, crcOk := true,
    payload := le 8 0 ++ le 2 4 ++ le 2 0 ++ le 4 0 ++ [1, 2, 3, 4] }
def reading : State := { linkFull with link.reads := [read0], time.ticks := 2 ^ 40 }

/-- An entry to DOZE whose next answer is that of the first block, and one in phase 2. -/
def entry1 (toRetain : Bool) : Entry :=
  { toRetain := toRetain, ragdoll := false, asked := 1, since := 0, phase2 := none, evtSlot := 0 }
def entering (e : Entry) : State := { live with pw.entry := some e, time.ticks := 2 ^ 40 }

/-- A wake at a step from a sleep state. -/
def wakeAt (step : Nat) (retry : Bool) : WakeRun := { step := step, retry := retry, source := 1 }
def waking (dev : DevState) (w : WakeRun) : State := { live with pw := { live.pw with dev := dev, wake := some w } }

/-- A firmware image of no payload in both slots, its OTP key, and a signature by it of the header (FIPS 186-4). -/
def sig0 : Nat := 0xc87d1a7c2375dc96df1bc957928adf1bec4efc444051674a4850b82c6d6b2173
def key0 : List Byte := be 32 0x4d8880b1d1ca526b93ed6ac1fdeb4a4a2ff1598f49957e80ed49a62de030da76 ++
  be 32 0x74d3de6a78360d604f04353308bd8d635d61e26df20e097c8fc70ea0f9724074
def hdr0 : List Byte := le 4 0x4B505054 ++ le 4 0 ++ le 4 2 ++ le 4 1 ++ List.replicate 16 0 ++
  be 32 0xe3b0c44298fc1c149afbf4c8996fb92427ae41e4649b934ca495991b7852b855 ++ List.replicate 128 0
def bootable : State :=
  { live with
    otp.keys := live.otp.keys.set 0 { written := true, failed := false, revoked := false, key := key0 }
    pup := { live.pup with slotB := false, flash := memWrite 0xFF [] 0 (hdr0 ++ be 32 sig0 ++ be 32 sig0) } }

/-- A command of a mailbox is in progress and waits. -/
def prog0 (w : WaitFor) (e : Option JEntry) : InProgress :=
  { opcode := 0, seq := 0, irq := true, rspData := false, waits := w, status := stDone, results := [], block := none, entry := e,
    events := [], session := 1, role := .maker }
def jent0 : JEntry :=
  { time := 0, flags := 0, role := 0, session := 1, source := 0, status := 0, opcode := 0, seq := 0, plen := 0, boot := 0, digest := [] }
def busyWith (p : InProgress) : State := { live with pup.busy := Vector.replicate 4 (some p) }

/-- A boot from a cause, without an image on trial. -/
def boot0 (cause : BootCause) (trial : Bool) : BootRun :=
  { cause := cause, slotB := false, trial := trial, fallback := false, start := 0, fromWake := false }
def booting (b : BootRun) : State :=
  { live with pup := { live.pup with boot := some b, ready := false, halted := false }, time.ticks := 2 ^ 40, clk.refOk := false }

/-- Flash work under way. -/
def flashJob (j : FlashJob) : State := { live with pup.job := j }

/-- A staged image of which four bytes are held, and a calibration store whose sectors are erased. -/
def stage0 : StageRun := { slotB := true, next := 4, held := [0, 0, 0, 0], todo := [], final := false, checked := false }
def staged : State := { live with pup.stage := some stage0 }
def store0 : StoreRun := { slotB := false, erased := 4, pages := 0, seq := 0, values := [], kinds := 0, time := 0, maxT := 0 }

/-- Handle 1 (index 0) awaits authentication for the operator role, nonce 0. -/
def awaiting0 : State :=
  { live with pup.sessions := (Vector.replicate 8 (.opened .maker 0 1000000000000)).set 1 (.awaiting .operator 0 0) }
def freeHandles : State := { live with pup.sessions := live.pup.sessions.set 7 .free }

/-- The key block that gives the operator role a key of zeros, issued in session 1. -/
def pad0 : List Byte :=
  hmac (live.roleKey Role.maker.rank) (tag4 0x4B 0x57 0x52 0x50 ++ le 1 1 ++ le 1 Role.maker.rank ++ pb (0 : BitVec 128))
def keyBlk : List Byte :=
  le 1 0 ++ (List.replicate 3 0 ++ (xorBytes (List.replicate 32 0) pad0 ++
    ((hmac (List.replicate 32 0) (tag4 0x4B 0x43 0x48 0x4B ++ pb (0 : BitVec 128))).take 16 ++ List.replicate 12 0)))
def keyed : State := { live with pup.mbRam := memWrite 0 live.pup.mbRam 0x5000 keyBlk }

/-- The base point of P-256 lies at 0x5000. -/
def pointAt : State := { live with pup.mbRam := memWrite 0 live.pup.mbRam 0x5000 (be 32 p256g.1 ++ be 32 p256g.2) }

theorem map_succ_ne {l : List Byte} (h : l.length = 32) : l.map (fun b => b + 1) ≠ l := by
  cases l with
  | nil => simp at h
  | cons b l =>
    simp only [List.map_cons, ne_eq, List.cons.injEq, not_and]
    intro e
    have H : ∀ b : Byte, b + 1 ≠ b := by decide
    exact absurd e (H b)

theorem keyBlk_length : keyBlk.length = 64 := by
  unfold keyBlk
  rw [List.length_append, List.length_append, List.length_append, List.length_append, List.length_take, hmac_length,
    xorBytes_length _ _ (show (List.replicate 32 (0 : Byte)).length = pad0.length from (hmac_length _ _).symm),
    show pad0.length = 32 from hmac_length _ _]
  rfl

theorem setRam_mbRam (s : State) (m : List (Nat × Byte)) : { s with pup.mbRam := m }.pup.mbRam = m := rfl

theorem setRam_roleKey (s : State) (m : List (Nat × Byte)) (r : Nat) : { s with pup.mbRam := m }.roleKey r = s.roleKey r := rfl

theorem keyed_newKey :
    keyed.newKey 0 .maker 0 (BitVec.toNat (0 : BitVec 8)) (memRead 0 keyed.pup.mbRam (BitVec.toNat (0x5000 : BitVec 32)) 64) =
      some (List.replicate 32 0) := by
  have hb := memRead_memWrite (d := (0 : Byte)) (m := live.pup.mbRam) (by decide) 0x5000 keyBlk
  rw [keyBlk_length] at hb
  have hm : keyed.pup.mbRam = memWrite 0 live.pup.mbRam 0x5000 keyBlk := by unfold keyed; exact setRam_mbRam _ _
  have hr : keyed.roleKey Role.maker.rank = live.roleKey Role.maker.rank := by unfold keyed; exact setRam_roleKey _ _ _
  rw [hm, show BitVec.toNat (0x5000 : BitVec 32) = 0x5000 from rfl, hb]
  unfold keyBlk
  have hp : pad0 = hmac (keyed.roleKey Role.maker.rank)
      (tag4 0x4B 0x57 0x52 0x50 ++ le 1 ((0 : Fin 8).val + 1) ++ le 1 Role.maker.rank ++ pb (0 : BitVec 128)) := by
    rw [hr]
    unfold pad0
    exact congrArg _ rfl
  have h := newKey_right keyed 0 .maker 0 0 (List.replicate 32 0) pad0 hp List.length_replicate
  exact h

/-- A pick at 0 led by T0. -/
def pickRun0 : PickRun := { lead := 0, stamp := 0, windows := 0, rho := 0, first := 0, num := 0, den := 1 }

/-- Every region has an estimate and is due; the throttle is on. -/
def hot : State :=
  { live with
    hk := { live.hk with
      regions := vmap live.hk.regions (fun _ x => { x with seen := true, evalAt := 0 }), throttle := true, stepAt := 0, roundAt := 0
      applied := [1], reverting := true }
    time.ticks := 2 ^ 40 }

/-- Tiles whose receive chains run, and beams of one source at the present grid sample. -/
def receiving : State := { live with radio := vmap live.radio (fun _ r => { r with state := .rx, log := [(0, some .rx)] }) }

def gridBase : State :=
  { live with
    beam.tx := { live.beam.tx with
      active := { live.beam.tx.active with
        element := false, beams := vmap live.beam.tx.active.beams (fun _ c => { c with enable := true, rate := 0 }) } }
    beam.txNext := Vector.replicate 32 0
    clk.loadedV := 0 }
/-- Transmit beams enabled, at a time when the chain needs a grid sample. -/
def grid0 : State := { gridBase with time.ticks := 4096 - gridBase.txG (gridBase.beam.tx.active.beams.get 0).preset 0 }

/-- The state that an outcome goes on in. -/
def after : Out → State
  | .next s => s
  | _ => State.reset

/-! ### Well-formedness: an ill-formed term for each check -/

/-- BYPASS with a code that R582 gives another instruction. -/
theorem test_wf_bypass : (Instr.bypass 3).wf = false ∧ (Instr.bypass 9).wf = true := by decide

/-- Lists of a length that no layout gives. -/
theorem test_wf_lists :
    (Instr.actEnqueue (hd 0) 0 0 0 0 0 (List.replicate 65 0)).wf = false ∧
    (Instr.femPatternSet (hd 0) 0 [0] 0 0 0 0 0 0).wf = false ∧
    (Instr.rffeXfer (hd 0) 0 1 [{ rdOp with data := [] }]).wf = false ∧
    (Instr.rffeOperationDone 0 false (List.replicate 17 0)).wf = false ∧
    (Instr.rffeRetuneSeq (hd 0) 0 1 0 0 [{ rdOp with data := [0] }]).wf = false ∧
    (Instr.beamDelays (hd 0) 0 0 1 0 (List.replicate 65 0) 0).wf = false ∧
    (Instr.elemCfg (hd 0) 0 0 0 0 0 [1] 0).wf = false ∧
    (Instr.estimationDone 0 0 0 0 0 (List.replicate 129 0)).wf = false ∧
    (Instr.calRun (hd 0) 0 0 0 0 (List.replicate 256 0)).wf = false ∧
    (Instr.slowRound [] [] [] [] 0).wf = false ∧
    (Instr.hkThrottleCfg (hd 0) [1] 0 0).wf = false ∧
    (Instr.regWrite (hd 0) 0 0 (List.replicate 13 0)).wf = false ∧
    (Instr.sessionAuth (hd 0) 1 [0]).wf = false := by decide +kernel

/-- Payloads, captures and frames longer than the hardware's. -/
theorem test_wf_long (p : RxPkt) (ws : List (BitVec 32))
    (hp : p.payload.length = 8193) (hw : ws.length = 65537) :
    (Instr.txIqPacket p).wf = false ∧ (Instr.ctrlCmdPacket p).wf = false ∧ (Instr.memRdDataPacket p).wf = false ∧
      (Instr.ackPacket p).wf = false ∧ (Instr.orxCaptureEnd 0 ws).wf = false := by
  simp [Instr.wf, pktOk, hp, hw]

/-! ### What the spec works out -/

/-- The example of R286: L0 = 0x0800 leaves P0, and the next updates bring it into range. -/
theorem test_circular_pointer :
    updPtr 0x20F80 0x800 0x20000 4 = 0x20784#18 ∧ updPtr 0x1FFF0 0x800 0x20000 (-4) = 0x207EC#18 := by decide

/-- R288: +2.5 rounds to +3 and −2.5 to −2. -/
theorem test_round_half_up : shrHalfUp 5 1 = 3 ∧ shrHalfUp (-5) 1 = -2 := by decide

/-- The example of R290: EXP = 0 and m = 5,000 give EXP = +2. -/
theorem test_bfpend : bfpScale 0 5000 = 0x200#32 := by decide

/-- The examples of R114: CAL to RX takes 1,672 ticks, TX to MONITOR 2,164. -/
theorem test_transitions : transTicks .cal .rx = 1672 ∧ transTicks .tx .monitor = 2164 := by decide

/-- SHA-256 of the bytes "abc" (FIPS 180-4). -/
theorem test_sha256 : be 32 (unbe (sha256 [0x61, 0x62, 0x63])) =
    be 32 0xba7816bf8f01cfea414140de5dae2223b00361a396177a9cb410ff61f20015ad := by decide +kernel

/-- CRC-32C of the bytes "123456789". -/
theorem test_crc32c : crc32c 0 (List.map (BitVec.ofNat 8) [0x31, 0x32, 0x33, 0x34, 0x35, 0x36, 0x37, 0x38, 0x39]) =
    0xE3069283#32 := by decide +kernel

/-- The base point of P-256 lies on the curve (FIPS 186-4). -/
theorem test_p256_base : p256On p256g.1 p256g.2 = true := by decide +kernel

/-- The slot of the example of 19_commands.md: TRIG_IN0 rising plus 64 ticks to 60 s later, tag 1,047, in mailbox 0. -/
def trainWindow : Instr :=
  .winDefine { hd 33 with seq := 0x42, session := 5 } 63 1 0x400000 1 58982400000 1047 0

/-- The example of 19_commands.md: the response slot reads 20 02 42 00 00 00 00 00 and nine bytes of 0. -/
theorem test_train_window :
    memRead 0 (after (exec trainWindow live)).pup.mbRam 0x2000 17 =
      List.map (BitVec.ofNat 8) [0x20, 0x02, 0x42, 0, 0, 0, 0, 0, 0, 0, 0, 0, 0, 0, 0, 0, 0] ∧
    (((after (exec trainWindow live)).time.windows.get 63).closeMode = .length 58982400000) ∧
    ((after (exec trainWindow live)).pup.irq = 1) := by decide +kernel

/-- The example of 18_puppeteer.md: the doorbell frame writes HP_MB_CTAIL of mailbox 0. -/
theorem test_spi_doorbell :
    (after (exec (.spiFrame 1000 [0x40, 0, 0, 0, 6, 0, 0, 0] 0) { live with pup.chead := Vector.replicate 4 5 })).pup.ctail.get 0 = 6 := by
  decide +kernel

/-- The example of 18_puppeteer.md: the response begins 02 02 31 01 00 and holds the time. -/
theorem test_time_get :
    memRead 0 (after (exec (.timeGet { hd 0 with seq := 0x131 })
      { live with time.ticks := 0x1234 })).pup.mbRam 0x2000 11 =
      List.map (BitVec.ofNat 8) [0x02, 0x02, 0x31, 0x01, 0, 0, 0, 0, 0, 0x34, 0x12] := by decide +kernel

set_option maxRecDepth 100000 in
/-- With no command waiting a step is one tick. -/
theorem test_idle : (match step live with
    | .next t => decide (t.time.ticks = live.time.ticks + (if live.clk.dspSafe then 8 else 1))
    | _ => false) = true := by decide +kernel

/-- A boot from State.reset whose image was accepted, its PLLs locked, up to READY. -/
def afterBoot : State :=
  let s := after (exec (.resetNRelease 0 true) State.reset)
  let s : State := { s with
    pup := { s.pup with recovery := false, boot := some (boot0 .boot false) }
    time.ticks := 983040 }
  let s := [0, 1, 2, 5].foldl (fun (s : State) (p : Fin 16) => after (exec (.pllLockAcquired p) s)) s
  after (exec .firmwareReady s)

/-- R599: what the registers read when READY first sets. -/
theorem test_boot_values :
    [0x10000000, 0x10000004, 0x10000008, 0x36000000, 0x36000004, 0x36001000, 0x20001200, 0x35000000, 0x37000800, 0x3700000C,
      0x32000000, 0x10000090, 0x37000100].map (fun a => (afterBoot.regRead a).1) =
    [0x4B596480, 0x4101, 1, 0x270000, 8, 0, 0xA00, 0x423, 0xFFF0, 0xFFFFF, 0x40000, 0x1000000, 0xA] ∧
    afterBoot.spiStatus = 0xA3 ∧ afterBoot.pup.evtWr = 1 := by decide +kernel

/-! ### The hypotheses of the statements can be met -/

theorem wit_step :
    ∃ s : State, s.resetN = true ∧ s.pw.vddio = true ∧ s.pw.dev ≠ .off ∧ s.pw.dev ≠ .retain ∧ s.time.dspRuns = true ∧
      s.pending = [] := ⟨live, by decide⟩
theorem wit_step_off : ∃ s : State, s.pending = [] ∧ (s.resetN = false ∨ s.pw.vddio = false ∨ s.pw.dev = .off) :=
  ⟨{ live with resetN := false }, by decide⟩
theorem wit_step_quiet : ∃ s : State,
    (∀ p : Fin 64, s.rxQuiet p = true ∧ (s.chan.rx.get p).portFor = 0 ∧ (s.chan.rx.get p).attFor = 0 ∧
      (s.chan.rx.get p).portWas = s.portB p ∧ (s.chan.rx.get p).attWas = (s.paths.get p).atten) ∧
    (∀ p : Fin 64, s.txGate p = none ∧ (s.chan.tx.get p).live = []) ∧ s.rxLabel % 4 ≠ 0 ∧
    (Int.ofNat s.time.ticks - Int.ofNat s.clk.loadedV - Int.ofNat txDelay) % 4 ≠ 0 ∧ s.time.ticks + 1 < 2 ^ 64 :=
  ⟨{ live with time.ticks := 1 }, by decide +kernel⟩
theorem wit_step_wrap : ∃ s : State, 2 ^ 64 ≤ s.time.ticks + 1 := ⟨{ live with time.ticks := 2 ^ 64 - 1 }, by decide⟩
theorem wit_step_front : ∃ (c : Instr) (rest : List Instr) (s : State), s.pending = c :: rest :=
  ⟨.idcode, [], { live with pending := [.idcode] }, rfl⟩

theorem wit_otpStand : ∃ (c : Instr) (s t : State), exec c s = .next t := ⟨.idcode, live, _, rfl⟩

theorem wit_otpInv : ∃ s t : State, s.otp.ok ∧ step s = .next t :=
  ⟨live, _, ⟨by decide, by decide, by decide, by decide⟩, rfl⟩
theorem wit_floor : ∃ (c : Instr) (s t : State), s.otp.ok ∧ exec c s = .next t :=
  ⟨.idcode, live, _, ⟨by decide, by decide, by decide, by decide⟩, rfl⟩

theorem wit_gate : ∃ (c : Instr) (s : State) (x : CmdHdr × CmdSpec), cmdOf c = some x ∧ s.canServe x.1.mb = false :=
  ⟨.sysInfo (hd 0), State.reset, _, rfl, by decide⟩
theorem wit_gate_turned : ∃ (c : Instr) (s : State) (x : CmdHdr × CmdSpec) (st : BitVec 8),
    cmdOf c = some x ∧ s.turnsAway x.1 x.2 st = true :=
  ⟨.sysInfo (hd 1), live, _, stBadParam, rfl, by decide⟩

theorem wit_role : ∃ (c : Instr) (s : State) (x : CmdHdr × CmdSpec) (need : Role), cmdOf c = some x ∧
    s.canServe x.1.mb = true ∧ s.pup.recovery = false ∧ slotOk x.1 x.2.params.length x.2.ptrs x.2.needInd = true ∧
    x.2.role = some need ∧ (∀ r, s.sessionRole x.1.session = some r → r.rank < need.rank) :=
  ⟨.sysInfo { hd 0 with session := 9 }, live, _, .operator, rfl, by decide, by decide, by decide, rfl, by decide⟩
theorem wit_role_zero : ∃ (c : Instr) (s : State) (x : CmdHdr × CmdSpec), cmdOf c = some x ∧ s.canServe x.1.mb = true ∧
    s.pup.recovery = false ∧ slotOk x.1 x.2.params.length x.2.ptrs x.2.needInd = true ∧ x.1.session = 0 ∧
    x.2.opcode ≠ 0x0A01 ∧ x.2.opcode ≠ 0x0A02 :=
  ⟨.sysInfo { hd 0 with session := 0 }, live, _, rfl, by decide, by decide, by decide, rfl, by decide, by decide⟩

theorem wit_refused : ∃ (c : Instr) (s : State) (x : CmdHdr × CmdSpec), cmdOf c = some x ∧ s.accepts x.1 x.2 = true ∧
    x.2.opcode ∉ [0x0A02, 0x0A04, 0x0805, 0x0A07, 0x0A08, 0x0A09, 0x0A0A] :=
  ⟨.sysInfo (hd 0), live, _, rfl, by decide, by decide⟩

theorem wit_answer : ∃ (t : State) (a : Nat), Memory.wf 0 t.pup.mbRam = true ∧
    ¬(0x2000 ≤ a ∧ a < 0x2000 + 32) ∧ ¬(0 ≤ a ∧ a < 64) ∧ ¬(0x3000 ≤ a ∧ a < 0x5000) ∧ (t.pup.chead.get 0).toNat % 32 = 0 :=
  ⟨live, 0x5000, by decide⟩

theorem wit_window : ∃ (w v : Window) (o c e : Time), w.state ≠ .free ∧ w.empty = false ∧ v.state ≠ .free ∧
    v.empty = false ∧ w.openT = some o ∧
    w.closeT = some c ∧ v.openT = some c ∧ v.closeT = some e ∧ c < e :=
  ⟨pend, { pend with openT := some 256000, closeT := some 512000 }, 0, 256000, 512000, by decide⟩

theorem wit_events_drop : ∃ (s : State) (e : EvtSlot), evtReserved e.code.toNat = false ∧ 256 - s.pup.evtUsed < 9 :=
  ⟨{ live with pup.evtWr := 248 }, live.mkEvt 0x0701 0 0 [], by decide⟩
theorem wit_events_put : ∃ (s : State) (e : EvtSlot), evtReserved e.code.toNat = false ∧ s.pup.evtUsed + 9 ≤ 256 ∧
    s.pup.evtUnrep = 0 := ⟨{ live with pup.evtWr := 247 }, live.mkEvt 0x0701 0 0 [], by decide⟩
theorem wit_events_lost : ∃ (s : State) (e : EvtSlot), evtReserved e.code.toNat = false ∧ s.pup.evtUsed + 9 ≤ 256 ∧
    s.pup.evtUnrep ≠ 0 := ⟨{ live with pup := { live.pup with evtWr := 247, evtUnrep := 1 } }, live.mkEvt 0x0701 0 0 [], by decide⟩
theorem wit_events_reserved : ∃ (s : State) (e : EvtSlot), evtReserved e.code.toNat = true ∧ s.pup.evtUsed < 256 :=
  ⟨{ live with pup.evtWr := 255 }, live.mkEvt 0x0904 0 0 [], by decide⟩
theorem wit_events_full : ∃ (s : State) (e : EvtSlot), evtReserved e.code.toNat = true ∧ 256 ≤ s.pup.evtUsed ∧
    Memory.wf 0 s.pup.mbRam = true := ⟨{ live with pup.evtWr := 256 }, live.mkEvt 0x0904 0 0 [], by decide⟩

theorem wit_held : ∃ s : State, s.link.held.length < 128 := ⟨live, by decide⟩
theorem wit_held_full : ∃ s : State, 128 ≤ s.link.held.length ∧ s.link.held.length ≤ 128 :=
  ⟨{ live with link.held := List.replicate 128 { pkt := { type := 0x11, flow := 0, flags := 0, seq := 0, time := 0, aper := 0, fmt := 0x7F, payload := [] }, sent := 0, first := 0 } }, by decide +kernel⟩

theorem wit_lockout_count : ∃ (s : State) (r : Role), s.pup.wrongMac.get (Fin.ofNat 3 r.rank) ≠ 7 := ⟨live, .maker, by decide⟩
theorem wit_lockout_eighth : ∃ (s : State) (r : Role), s.pup.wrongMac.get (Fin.ofNat 3 r.rank) = 7 :=
  ⟨{ live with pup.wrongMac := Vector.replicate 3 7 }, .maker, by decide⟩
theorem wit_lockout_open : ∃ (s : State) (h : CmdHdr) (role : BitVec 8) (r : Role),
    s.accepts h { opcode := 0x0A01, role := none, params := pb role } = true ∧ role? role.toNat = some r ∧
      s.lockedOut r = true :=
  ⟨{ live with pup.lockout := Vector.replicate 3 (some 1) }, hd 1, 0, .operator, by decide⟩
theorem wit_lockout_reset : ∃ s : State, s.resetN = true ∧ s.pw.vddio = true ∧ s.pw.dev ≠ .off := ⟨live, by decide⟩

theorem wit_restart : ∃ s : State, s.resetN = true ∧ s.pw.vddio = true ∧ s.pw.dev ≠ .off := ⟨live, by decide⟩

set_option maxRecDepth 100000 in
/-- The hypotheses of TimeCommandsRun. -/
theorem wit_TimeCommandsRun :
    (∃ (h : CmdHdr) (value : BitVec 64) (timeout : BitVec 8) (s : State),
       let c : CmdSpec := { opcode := 0x0201, role := some .operator, params := pb value ++ pb timeout }
       s.accepts h c = true ∧ (if timeout = 0 then 2 else timeout.toNat) ≤ 60 ∧ s.time.armed = none ∧ (∀ q,
         (s.time.queues.get q).acts = []) ∧ (∀ w, (s.time.windows.get w).state = .free) ∧ (∀ x, (s.aq.chans.get
         x).isArmed = false)) ∧
    (∃ (h : CmdHdr) (s : State),
       let c : CmdSpec := { opcode := 0x0202, role := some .operator, params := [] }
       s.accepts h c = true) ∧
    (∃ (h : CmdHdr) (mode : BitVec 8) (epoch : BitVec 72) (polarity : BitVec 8) (s : State),
       let c : CmdSpec :=
         { opcode := 0x0203, role := some .installer, journal := true, params := pb mode ++ pb epoch ++ pb polarity }
       s.accepts h c = true ∧ mode.toNat ≤ 1 ∧ polarity.toNat ≤ 3) :=
  ⟨⟨hd 9, 0, 0, live, by dsimp only; decide +kernel⟩,
    ⟨hd 0, live, by dsimp only; decide +kernel⟩,
    ⟨hd 11, 0, 0, 0, live, by dsimp only; decide +kernel⟩⟩

set_option maxRecDepth 100000 in
/-- The hypotheses of TimeRowsRun. -/
theorem wit_TimeRowsRun :
    (∃ (s : State) (a : ArmedLoad),
       s.time.armed = some a ∧ a.lapseAt ≤ s.time.ticks) ∧
    (∃ (stamp : BitVec 72) (falling : Bool) (s : State),
       falling = s.time.polFalling ∧ s.resetN = true ∧ s.time.dspRuns = true ∧ s.time.ppsLast = none) ∧
    (∃ (stamp : BitVec 72) (falling : Bool) (s : State),
       falling ≠ s.time.polFalling) ∧
    (∃ (stamp : BitVec 72) (falling : Bool) (s : State) (l : Time),
       falling = s.time.polFalling ∧ s.resetN = true ∧ s.time.dspRuns = true ∧ s.time.ppsLast = some l ∧
         s.time.ppsReported = true ∧ 98304 * 256 < (Int.ofNat stamp.toNat - Int.ofNat l - (max 1 (nearSecs (Int.ofNat
         stamp.toNat - Int.ofNat l))) * 251658240000).natAbs) ∧
    (∃ (s : State) (l : Time),
       s.time.ppsLast = some l ∧ s.time.ppsReported = false ∧ l + 2 * 251658240000 + 98304 * 256 ≤ s.nowT) :=
  ⟨⟨{ live with time.armed := some { value := 5, lapseAt := 0 } }, { value := 5, lapseAt := 0 }, by decide +kernel⟩,
    ⟨7, false, live, by decide +kernel⟩,
    ⟨7, true, live, by decide +kernel⟩,
    ⟨7, false, { live with time.ppsLast := some 0, time.ppsReported := true }, 0, by decide +kernel⟩,
    ⟨{ live with time.ppsLast := some 0, time.ticks := 2000000000 }, 0, by decide +kernel⟩⟩

set_option maxRecDepth 100000 in
/-- The hypotheses of WindowRowsRun. -/
theorem wit_WindowRowsRun_0 :
    (∃ (h : CmdHdr) (window : BitVec 8) (openMode : BitVec 8) (openVal : BitVec 72) (closeMode : BitVec 8) (closeVal :
       BitVec 72) (tag : BitVec 32) (maxLen : BitVec 64) (s : State) (w : Fin 64) (o : WinEdge) (x : WinEdge),
       let c : CmdSpec :=
         { opcode := 0x0220
           role := some .operator
           params := pb window ++ pb openMode ++ pb openVal ++ pb closeMode ++ pb closeVal ++ pb tag ++ pb maxLen }
       let ml := if maxLen = 0 then 9830400000 else maxLen.toNat
       s.accepts h c = true ∧ fin? 64 window.toNat = some w ∧ winOpenMode? openMode openVal = some o ∧ winCloseMode?
         closeMode closeVal = some x ∧ (s.time.windows.get w).state = .free ∧ (∀ t, givenClose o x ml = some t → s.nowT
         < t) ∧ (match o with
         | .time v => (givenClose o x ml).all (fun t => decide (v < t))
         | _ => true) = true) ∧
    (∃ (h : CmdHdr) (window : BitVec 8) (openMode : BitVec 8) (openVal : BitVec 72) (closeMode : BitVec 8) (closeVal :
       BitVec 72) (tag : BitVec 32) (maxLen : BitVec 64) (s : State) (w : Fin 64) (x : WinEdge) (e : Time),
       let c : CmdSpec :=
         { opcode := 0x0220
           role := some .operator
           params := pb window ++ pb openMode ++ pb openVal ++ pb closeMode ++ pb closeVal ++ pb tag ++ pb maxLen }
       let ml := if maxLen = 0 then 9830400000 else maxLen.toNat
       s.accepts h c = true ∧ fin? 64 window.toNat = some w ∧ openMode = 0 ∧ winCloseMode? closeMode closeVal = some x
         ∧ (s.time.windows.get w).state = .free ∧ givenClose (.time openVal.toNat) x ml = some e ∧ s.nowT < e ∧ e ≤
         openVal.toNat) ∧
    (∃ (h : CmdHdr) (window : BitVec 8) (edge : BitVec 8) (time : BitVec 72) (s : State) (w : Fin 64),
       let c : CmdSpec := { opcode := 0x0221, role := some .operator, params := pb window ++ pb edge ++ pb time }
       s.accepts h c = true ∧ fin? 64 window.toNat = some w ∧ edge = 0 ∧ (s.time.windows.get w).state = .pending ∧
         s.nowT ≤ time.toNat) ∧
    (∃ (h : CmdHdr) (window : BitVec 8) (edge : BitVec 8) (time : BitVec 72) (s : State) (w : Fin 64),
       let c : CmdSpec := { opcode := 0x0221, role := some .operator, params := pb window ++ pb edge ++ pb time }
       s.accepts h c = true ∧ fin? 64 window.toNat = some w ∧ edge = 1 ∧ ((s.time.windows.get w).state = .pending ∨
         (s.time.windows.get w).state = .open) ∧ s.nowT < time.toNat) ∧
    (∃ (h : CmdHdr) (window : BitVec 8) (s : State) (w : Fin 64),
       let c : CmdSpec := { opcode := 0x0222, role := some .operator, params := pb window }
       s.accepts h c = true ∧ fin? 64 window.toNat = some w ∧ (s.time.windows.get w).state = .open) ∧
    (∃ (h : CmdHdr) (window : BitVec 8) (s : State) (w : Fin 64),
       let c : CmdSpec := { opcode := 0x0222, role := some .operator, params := pb window }
       s.accepts h c = true ∧ fin? 64 window.toNat = some w ∧ (s.time.windows.get w).state = .pending) ∧
    (∃ (h : CmdHdr) (window : BitVec 8) (s : State) (w : Fin 64),
       let c : CmdSpec := { opcode := 0x0222, role := some .operator, params := pb window }
       s.accepts h c = true ∧ fin? 64 window.toNat = some w ∧ ((s.time.windows.get w).state = .free ∨
         (s.time.windows.get w).state = .closing)) ∧
    (∃ (h : CmdHdr) (window : BitVec 8) (s : State) (w : Fin 64),
       let c : CmdSpec := { opcode := 0x0223, role := some .operator, params := pb window }
       s.accepts h c = true ∧ fin? 64 window.toNat = some w) ∧
    (∃ (w : Fin 64) (s : State) (o : Time),
       (s.time.windows.get w).state = .pending ∧ (s.time.windows.get w).openT = some o ∧ o ≤ s.nowT) ∧
    (∃ (w : Fin 64) (s : State) (x : Time),
       (s.time.windows.get w).state = .open ∧ (s.time.windows.get w).closeT = some x ∧ x ≤ s.nowT) ∧
    (∃ (w : Fin 64) (s : State) (x : Time),
       (s.time.windows.get w).state = .pending ∧ (s.time.windows.get w).openT = none ∧ (s.time.windows.get w).closeT =
         some x ∧ x ≤ s.nowT) ∧
    (∃ (w : Fin 64) (s : State),
       (s.time.windows.get w).state = .closing ∧ (s.time.windows.get w).freeAt ≤ s.time.ticks) :=
  ⟨⟨hd 33, 0, 0, 1000, 0, 2000, 0, 0, live, 0, .time 1000, .time 2000, by dsimp only; decide +kernel⟩,
    ⟨hd 33, 0, 0, 3000, 0, 2000, 0, 0, live, 0, .time 2000, 2000, by dsimp only; decide +kernel⟩,
    ⟨hd 11, 0, 0, 1000, { live with time.windows := Vector.replicate 64 pend }, 0, by dsimp only; decide +kernel⟩,
    ⟨hd 11, 0, 1, 1000, { live with time.windows := Vector.replicate 64 pend }, 0, by dsimp only; decide +kernel⟩,
    ⟨hd 1, 0, { live with time.windows := Vector.replicate 64 { pend with state := .open } }, 0, by dsimp only; decide +kernel⟩,
    ⟨hd 1, 0, { live with time.windows := Vector.replicate 64 pend }, 0, by dsimp only; decide +kernel⟩,
    ⟨hd 1, 0, live, 0, by dsimp only; decide +kernel⟩,
    ⟨hd 1, 0, live, 0, by dsimp only; decide +kernel⟩,
    ⟨0, { live with time.windows := Vector.replicate 64 pend }, 0, by decide +kernel⟩,
    ⟨0, { live with time.windows := Vector.replicate 64 { pend with state := .open, closeT := some 0 } }, 0, by decide +kernel⟩,
    ⟨0, { live with time.windows := Vector.replicate 64 { pend with openT := none, closeT := some 0 } }, 0, by decide +kernel⟩,
    ⟨0, { live with time.windows := Vector.replicate 64 { pend with state := .closing } }, by decide +kernel⟩⟩

set_option maxRecDepth 100000 in
/-- The hypotheses of WindowRowsRun. -/
theorem wit_WindowRowsRun_1 :
    (∃ (input : Fin 4) (stamp : BitVec 72) (falling : Bool) (s : State) (l : Time),
       (s.aq.trigIn.get input).last = some l ∧ stamp.toNat < l + 16 * 256) ∧
    (∃ (input : Fin 4) (stamp : BitVec 72) (falling : Bool) (s : State),
       let x := s.aq.trigIn.get input
       (∀ l, x.last = some l → l + 16 * 256 ≤ stamp.toNat)) :=
  ⟨⟨0, 5, false, { live with aq.trigIn := vmap live.aq.trigIn (fun _ x => { x with last := some 0 }) }, 0, by decide +kernel⟩,
    ⟨0, 5, false, live, by dsimp only; decide +kernel⟩⟩

set_option maxRecDepth 100000 in
/-- The hypotheses of ActionCommandsRun. -/
theorem wit_ActionCommandsRun :
    (∃ (h : CmdHdr) (queue : BitVec 8) (kind : BitVec 8) (time : BitVec 72) (tol : BitVec 32) (window : BitVec 8)
       (params : List (BitVec 8)) (s : State) (q : Fin 9) (a : Act),
       let c : CmdSpec :=
         { opcode := 0x0210
           role := some .operator
           params := pb queue ++ pb kind ++ pb time ++ pb tol ++ pb window ++ params }
       s.accepts h c = true ∧ fin? 9 queue.toNat = some q ∧ act? kind params = some a ∧ (window.toNat ≤ 63 ∨ window =
         0xFF) ∧ a.onDevice = decide (q.val = 8) ∧ (s.hk.halt && a.haltRefused) = false ∧ (s.time.queues.get
         q).acts.length < 256 ∧ s.enter.enqRefusal q s.time.nextHandle time.toNat a = none) ∧
    (∃ (h : CmdHdr) (handle : BitVec 16) (s : State) (q : Fin 9) (a : QAct),
       let c : CmdSpec := { opcode := 0x0211, role := some .operator, params := pb handle }
       s.accepts h c = true ∧ s.findAct handle = some (q, a)) ∧
    (∃ (h : CmdHdr) (handle : BitVec 16) (queue : BitVec 8) (s : State),
       let c : CmdSpec := { opcode := 0x0212, role := some .operator, params := pb handle ++ pb queue }
       s.accepts h c = true ∧ handle = 0xFFFF ∧ queue.toNat ≤ 8) ∧
    (∃ (h : CmdHdr) (handle : BitVec 16) (queue : BitVec 8) (s : State),
       let c : CmdSpec := { opcode := 0x0212, role := some .operator, params := pb handle ++ pb queue }
       s.accepts h c = true ∧ handle ≠ 0xFFFF) ∧
    (∃ (q : Fin 9) (s : State) (a : QAct),
       s.headOf q = some a ∧ (decide (q.val < 8) && s.deviceDue) = false ∧ s.isLate q a = true ∧ s.swapWaits a = false) ∧
    (∃ (q : Fin 9) (s : State),
       (∀ a, s.headOf q = some a → s.isLate q a = false)) ∧
    (∃ (q : Fin 9) (s : State) (a : QAct),
       s.headOf q = some a ∧ a.held ≠ 0) ∧
    (∃ (q : Fin 9) (s : State),
       (∀ a, s.headOf q = some a → a.held = 0)) :=
  ⟨⟨hd 21, 0, 1, 1000, 0, 0xFF, [2, 0, 0, 0, 0], live, 0, .radioState .standby 0, by dsimp only; decide +kernel⟩,
    ⟨hd 2, 7, withHead 0 (.radioState .standby 0) live, 0, headAct (.radioState .standby 0), by dsimp only; decide +kernel⟩,
    ⟨hd 3, 0xFFFF, 0, live, by dsimp only; decide +kernel⟩,
    ⟨hd 3, 0, 0, live, by dsimp only; decide +kernel⟩,
    ⟨0, { withHead 0 (.radioState .standby 0) live with time := { (withHead 0 (.radioState .standby 0) live).time with ticks := 50, queues := vmap (withHead 0 (.radioState .standby 0) live).time.queues (fun _ x => { x with acts := x.acts.map (fun y => { y with tol := 0 }) }) } }, { headAct (.radioState .standby 0) with tol := 0 }, by decide +kernel⟩,
    ⟨0, live, by decide +kernel⟩,
    ⟨0, { live with time.queues := vmap live.time.queues (fun _ x => { x with acts := [{ headAct (.radioState .standby 0) with held := 4 }] }) }, { headAct (.radioState .standby 0) with held := 4 }, by decide +kernel⟩,
    ⟨0, live, by decide +kernel⟩⟩

set_option maxRecDepth 100000 in
/-- The hypotheses of TileActionsTaken. -/
theorem wit_TileActionsTaken :
    (∃ (t : Fin 8) (s : State) (a : QAct) (tgt : RState) (dwell : Nat),
       let r := s.radio.get t
       s.ripe (tileQ t) a = true ∧ a.act = .radioState tgt dwell ∧ (tgt = .off ∨ s.pw.parked.getLsbD t.val = false) ∧
         r.transit = none ∧ useAllows r.use tgt = true ∧ tgt ≠ .tx ∧ tgt ≠ .cal ∧ (r.state ≠ .off ∨ tgt = .off ∨
         (s.clk.conv.get t).en = true)) ∧
    (∃ (t : Fin 8) (s : State) (a : QAct) (fc : Nat) (mode : RetuneMode),
       let r := s.radio.get t
       s.ripe (tileQ t) a = true ∧ a.act = .retune fc mode ∧ r.transit = none ∧ (r.state = .off ∨ r.state = .sleep)) ∧
    (∃ (t : Fin 8) (s : State) (a : QAct) (fc : Nat) (mode : RetuneMode),
       let r := s.radio.get t
       s.ripe (tileQ t) a = true ∧ a.act = .retune fc mode ∧ r.transit = none ∧ r.state ≠ .tx ∧ r.state ≠ .off ∧
         r.state ≠ .sleep ∧ r.retune = .none) ∧
    (∃ (t : Fin 8) (s : State) (a : QAct) (len : Nat),
       let r := s.radio.get t
       let now := s.time.ticks
       let d := transTicks r.state .tx
       let m := max d (s.txLead t)
       s.ripe (tileQ t) a = true ∧ a.act = .txBurst len ∧ s.txHeld t = 0 ∧ useAllows r.use .tx = true ∧ s.txCapOk t len
         (now + m + len) = true) ∧
    (∃ (t : Fin 8) (s : State) (a : QAct) (g : Fin 8) (m : PickMode),
       s.ripe (tileQ t) a = true ∧ a.act = .pickCtl g m ∧ (s.radio.get t).inTransit s.time.ticks = false) ∧
    (∃ (t : Fin 8) (s : State) (a : QAct) (index : Nat) (level : BitVec 8),
       s.ripe (tileQ t) a = true ∧ a.act = .femLevels index level ∧ (s.radio.get t).inTransit s.time.ticks = false) ∧
    (∃ (t : Fin 8) (s : State) (a : QAct) (len : Nat),
       let r := s.radio.get t
       s.ripe (tileQ t) a = true ∧ a.act = .calSlot len ∧ r.transit = none ∧ useAllows r.use .cal = true ∧ r.state =
         r.home ∧ r.burst = none) :=
  ⟨⟨0, withHead 0 (.radioState .standby 5) (tuned live), headAct (.radioState .standby 5), .standby, 5, by dsimp only; decide +kernel⟩,
    ⟨0, withHead 0 (.retune 3000000000 .auto) live, headAct (.retune 3000000000 .auto), 3000000000, .auto, by dsimp only; decide +kernel⟩,
    ⟨0, withHead 0 (.retune 3000000000 .auto) (tuned live), headAct (.retune 3000000000 .auto), 3000000000, .auto, by dsimp only; decide +kernel⟩,
    ⟨0, withHead 0 (.txBurst 5) (tuned live), headAct (.txBurst 5), 5, by dsimp only; decide +kernel⟩,
    ⟨0, withHead 0 (.pickCtl 0 .auto) (tuned live), headAct (.pickCtl 0 .auto), 0, .auto, by decide +kernel⟩,
    ⟨0, withHead 0 (.femLevels 2 5) (tuned live), headAct (.femLevels 2 5), 2, 5, by decide +kernel⟩,
    ⟨0, withHead 0 (.calSlot 5) (tuned live), headAct (.calSlot 5), 5, by dsimp only; decide +kernel⟩⟩

set_option maxRecDepth 100000 in
/-- The hypotheses of DeviceActionsTaken. -/
theorem wit_DeviceActionsTaken :
    (∃ (s : State) (a : QAct) (dirs : BitVec 2) (ch : Bool) (us : List TileUse) (w : SwapRun),
       s.ripe 8 a = true ∧ a.act = .bankSwap dirs ch us ∧ s.swapOf a.handle = some w ∧ (w.begun = true ∨ (s.swapHeld w
         = 0 ∧ s.joins w = []))) ∧
    (∃ (s : State) (a : QAct) (dirs : BitVec 2) (ch : Bool) (us : List TileUse) (w : SwapRun),
       s.ripe 8 a = true ∧ a.act = .bankSwap dirs ch us ∧ s.swapOf a.handle = some w ∧ w.begun = false ∧ s.swapHeld w =
         0 ∧ s.joins w ≠ []) ∧
    (∃ (s : State) (a : QAct) (m : BitVec 16) (w : Option (Fin 64)),
       s.ripe 8 a = true ∧ a.act = .acqArm m w ∧ s.armOk m w = true) ∧
    (∃ (s : State) (a : QAct) (m : BitVec 16),
       s.ripe 8 a = true ∧ a.act = .softTrigger m) ∧
    (∃ (s : State) (a : QAct) (p : Fin 4) (level : Bool),
       s.ripe 8 a = true ∧ a.act = .trigOutEdge p level ∧ (s.aq.trigOut.get p).route = false) ∧
    (∃ (s : State) (a : QAct) (m : BitVec 16) (tgt : LaneTarget),
       s.ripe 8 a = true ∧ a.act = .laneState m tgt) ∧
    (∃ (s : State) (a : QAct) (m : BitVec 16) (op : AnOp),
       s.ripe 8 a = true ∧ a.act = .analyserCfg m op ∧ (op ≠ .densitySwap ∨ s.swapBusy (lanesOf m) = false)) ∧
    (∃ (s : State) (w : SwapRun) (e : Nat),
       s.beam.swaps.find? (fun w => match w.effAt with
         | some e => decide (e ≤ s.time.ticks)
         | none => false) = some w ∧ w.effAt = some e) :=
  ⟨⟨withHead 8 (.bankSwap 1 false []) (waiting live), headAct (.bankSwap 1 false []), 1, false, [], swapRun 7 0 1 false [], by decide +kernel⟩,
    ⟨withHead 8 (.bankSwap 1 true [.aperture]) (waiting2 (tuned live)), headAct (.bankSwap 1 true [.aperture]), 1, true, [.aperture], swapRun 7 0 1 true [.aperture], by decide +kernel⟩,
    ⟨withHead 8 (.acqArm 0 none) live, headAct (.acqArm 0 none), 0, none, by decide +kernel⟩,
    ⟨withHead 8 (.softTrigger 3) live, headAct (.softTrigger 3), 3, by decide +kernel⟩,
    ⟨withHead 8 (.trigOutEdge 0 true) live, headAct (.trigOutEdge 0 true), 0, true, by decide +kernel⟩,
    ⟨withHead 8 (.laneState 0 .on) live, headAct (.laneState 0 .on), 0, .on, by decide +kernel⟩,
    ⟨withHead 8 (.analyserCfg 1 .traceRestart) live, headAct (.analyserCfg 1 .traceRestart), 1, .traceRestart, by decide +kernel⟩,
    ⟨{ live with beam.swaps := [{ swapRun 7 0 1 false [] with effAt := some 0 }] }, { swapRun 7 0 1 false [] with effAt := some 0 }, 0, by decide +kernel⟩⟩

set_option maxRecDepth 100000 in
/-- The hypotheses of RadioStateRowsRun. -/
theorem wit_RadioStateRowsRun_0 :
    (∃ (t : Fin 8) (s : State) (x : Transit),
       (s.radio.get t).transit = some x ∧ x.till ≤ s.time.ticks) ∧
    (∃ (t : Fin 8) (s : State) (b : Burst),
       (s.radio.get t).transit = none ∧ (s.radio.get t).burst = some b ∧ b.endT ≤ s.time.ticks) ∧
    (∃ (t : Fin 8) (s : State) (x : Nat),
       (s.radio.get t).leadAt = some x ∧ x ≤ s.time.ticks) ∧
    (∃ (t : Fin 8) (s : State) (x : Nat),
       (s.radio.get t).lagEnd = some x ∧ x ≤ s.time.ticks ∧ (∀ b, (s.radio.get t).burst = some b → b.kind = .tx →
         s.time.ticks + s.txLead t < b.startT)) ∧
    (∃ (t : Fin 8) (s : State) (base : Nat) (tgt : Nat) (left : Nat) (at_ : Nat) (start : Nat) (late : Bool),
       (s.radio.get t).retune = .glide base tgt left at_ start late ∧ left ≤ 1) ∧
    (∃ (t : Fin 8) (s : State) (base : Nat) (tgt : Nat) (left : Nat) (at_ : Nat) (start : Nat) (late : Bool),
       (s.radio.get t).retune = .glide base tgt left at_ start late ∧ 2 ≤ left) ∧
    (∃ (t : Fin 8) (s : State) (base : Nat) (tgt : Nat) (left : Nat) (at_ : Nat) (start : Nat),
       (s.radio.get t).retune = .glide base tgt left at_ start false ∧ at_ + 5899 ≤ s.time.ticks) ∧
    (∃ (t : Fin 8) (s : State) (base : Nat) (tgt : Nat) (left : Nat) (at_ : Nat) (start : Nat) (late : Bool),
       (s.radio.get t).retune = .glide base tgt left at_ start late ∧ at_ + 44237 ≤ s.time.ticks) ∧
    (∃ (t : Fin 8) (s : State) (fc : Nat) (start : Nat) (till : Nat),
       (s.radio.get t).retune = .large fc start till ∧ till ≤ s.time.ticks) ∧
    (∃ (t : Fin 8) (s : State) (start : Nat) (till : Nat),
       (s.radio.get t).retune = .lock start till) ∧
    (∃ (h : CmdHdr) (tiles : BitVec 8) (home : BitVec 8) (s : State),
       let c : CmdSpec := { opcode := 0x0250, role := some .operator, params := pb tiles ++ pb home }
       s.accepts h c = true ∧ (home = 2 ∨ home = 3)) ∧
    (∃ (h : CmdHdr) (tile : BitVec 8) (s : State) (t : Fin 8),
       let c : CmdSpec := { opcode := 0x0251, role := some .operator, params := pb tile }
       s.accepts h c = true ∧ fin? 8 tile.toNat = some t) :=
  ⟨⟨0, { live with radio := vmap live.radio (fun _ r => { r with transit := some { left := .standby, startAt := 0, via := none, till := 0, done := none } }) }, { left := .standby, startAt := 0, via := none, till := 0, done := none }, by decide +kernel⟩,
    ⟨0, { live with radio := vmap live.radio (fun _ r => { r with transit := none, burst := some { kind := .dwell, handle := 0, startT := 0, endT := 0, muted := false } }) }, { kind := .dwell, handle := 0, startT := 0, endT := 0, muted := false }, by decide +kernel⟩,
    ⟨0, { live with radio := vmap live.radio (fun _ r => { r with leadAt := some 0 }) }, 0, by decide +kernel⟩,
    ⟨0, { live with radio := vmap live.radio (fun _ r => { r with lagEnd := some 0, burst := none }) }, 0, by decide +kernel⟩,
    ⟨0, { live with radio := vmap live.radio (fun _ r => { r with retune := .glide 0 0 1 0 0 false }) }, 0, 0, 1, 0, 0, false, by decide +kernel⟩,
    ⟨0, { live with radio := vmap live.radio (fun _ r => { r with retune := .glide 0 0 2 0 0 false }) }, 0, 0, 2, 0, 0, false, by decide +kernel⟩,
    ⟨0, { live with time.ticks := 5899, radio := vmap live.radio (fun _ r => { r with retune := .glide 0 0 2 0 0 false }) }, 0, 0, 2, 0, 0, by decide +kernel⟩,
    ⟨0, { live with time.ticks := 44237, radio := vmap live.radio (fun _ r => { r with retune := .glide 0 0 2 0 0 false }) }, 0, 0, 2, 0, 0, false, by decide +kernel⟩,
    ⟨0, { live with radio := vmap live.radio (fun _ r => { r with retune := .large 0 0 0 }) }, 0, 0, 0, by decide +kernel⟩,
    ⟨0, { live with radio := vmap live.radio (fun _ r => { r with retune := .lock 0 0 }) }, 0, 0, by decide +kernel⟩,
    ⟨hd 2, 0, 2, live, by dsimp only; decide +kernel⟩,
    ⟨hd 1, 0, live, 0, by dsimp only; decide +kernel⟩⟩

set_option maxRecDepth 100000 in
/-- The hypotheses of RadioStateRowsRun. -/
theorem wit_RadioStateRowsRun_1 :
    ∃ (h : CmdHdr) (tiles : BitVec 8) (band : BitVec 32) (s : State),
      let c : CmdSpec := { opcode := 0x0252, role := some .installer, journal := true, params := pb tiles ++ pb band }
      s.accepts h c = true ∧ 1000000 ≤ band.toNat ∧ band.toNat ≤ 800000000 ∧ ((maskBits 8 tiles.toNat).all (fun t =>
        s.bandOk t band.toNat)) = true :=
  ⟨hd 5, 0, 1000000, live, by dsimp only; decide +kernel⟩

set_option maxRecDepth 100000 in
/-- The hypotheses of PathCommandsRun. -/
theorem wit_PathCommandsRun :
    (∃ (h : CmdHdr) (paths : BitVec 64) (atten : BitVec 8) (gain : BitVec 8) (port : BitVec 8) (s : State),
       let c : CmdSpec :=
         { opcode := 0x0240, role := some .operator, params := pb paths ++ pb atten ++ pb gain ++ pb port }
       s.accepts h c = true ∧ (atten.toNat ≤ 30 ∨ atten = 0xFF) ∧ (gain.toNat ≤ 40 ∨ gain = 0xFF) ∧ (port.toNat ≤ 1 ∨
         port = 0xFF) ∧ (port = 0xFF ∨ (maskBits 64 paths.toNat).all (fun p => (s.groupOf (tileOf p)).isNone) = true)) ∧
    (∃ (h : CmdHdr) (path : BitVec 8) (s : State) (p : Fin 64),
       let c : CmdSpec := { opcode := 0x0241, role := some .operator, params := pb path }
       s.accepts h c = true ∧ fin? 64 path.toNat = some p) ∧
    (∃ (h : CmdHdr) (tiles : BitVec 8) (pats : List (BitVec 8)) (od : BitVec 8) (lead : BitVec 16) (lag : BitVec 16)
       (sel0 : BitVec 8) (sel1 : BitVec 8) (sel2 : BitVec 8) (s : State),
       let c : CmdSpec :=
         { opcode := 0x0242
           role := some .installer
           journal := true
           params := pb tiles ++ pats.flatMap pb ++ pb od ++ pb lead ++ pb lag ++ pb sel0 ++ pb sel1 ++ pb sel2 }
       s.accepts h c = true ∧ pats.length = 10 ∧ lead.toNat ≤ 2047 ∧ lag.toNat ≤ 2047 ∧ ([sel0, sel1, sel2].all (fun v
         => decide (v.toNat ≤ 7 ∨ v = 0xFF)) = true) ∧ (maskBits 8 tiles.toNat).all (fun t => decide ((s.radio.get
         t).shown s.time.ticks ≠ .tx)) = true) ∧
    (∃ (h : CmdHdr) (tile : BitVec 8) (count : BitVec 8) (ops : List RffeOp) (s : State) (t : Fin 8),
       let reads := ops.all rffeReads
       let c : CmdSpec :=
         { opcode := 0x0243
           role := some (if reads then .operator else .installer)
           journal := !reads
           params := pb tile ++ pb count ++ ops.flatMap rffeBytes
           needInd := true }
       s.accepts h c = true ∧ fin? 8 tile.toNat = some t ∧ count ≠ 0 ∧ count.toNat ≤ 32 ∧ ops.length = count.toNat ∧
         ops.all rffeOk = true) ∧
    (∃ (h : CmdHdr) (tile : BitVec 8) (count : BitVec 8) (divWr : BitVec 8) (divRd : BitVec 8) (ops : List RffeOp) (s :
       State) (t : Fin 8),
       let c : CmdSpec :=
         { opcode := 0x0244
           role := some .installer
           journal := true
           params := pb tile ++ pb count ++ pb divWr ++ pb divRd ++ ops.flatMap rffeBytes
           needInd := true }
       s.accepts h c = true ∧ fin? 8 tile.toNat = some t ∧ count.toNat ≤ 8 ∧ ops.length = count.toNat ∧ ops.all (fun o
         => rffeOk o && !rffeReads o) = true ∧ 10 * seqTicks divWr ops ≤ 393216) ∧
    (∃ (h : CmdHdr) (det : BitVec 8) (beam : BitVec 8) (ptr : BitVec 32) (half : BitVec 16) (thr : BitVec 16) (evt :
       BitVec 8) (s : State) (t : Fin 8) (b : Fin 32),
       let c : CmdSpec :=
         { opcode := 0x0245
           role := some .operator
           params := pb det ++ pb beam ++ pb ptr ++ pb half ++ pb thr ++ pb evt
           ptrs := if half = 0 then [] else [(ptr.toNat, 8 * half.toNat)] }
       let ws := (chunks 4 (2 * half.toNat) (memRead 0 s.pup.mbRam ptr.toNat (8 * half.toNat))).map (fun x =>
         BitVec.ofNat 32 (unle x))
       let set : State → State := fun s => State.rehorizon (s.modRes t (fun r =>
         { r with
           det.enabled := decide (half ≠ 0)
           det.beam := b
           det.half := half.setWidth 9
           det.thr := thr
           det.evt := decide (evt = 1)
           det.template := ws
           det.line := [] }))
       s.accepts h c = true ∧ fin? 8 det.toNat = some t ∧ fin? 32 beam.toNat = some b ∧ (half = 0 ∨ (16 ≤ half.toNat ∧
         half.toNat ≤ 256)) ∧ thr ≠ 0 ∧ evt.toNat ≤ 1 ∧ (set s.enter).ledFit t = true ∧ (set s.enter).chansFit = true) ∧
    (∃ (h : CmdHdr) (group : BitVec 8) (tiles : BitVec 8) (home : BitVec 8) (bias : BitVec 8) (hold : BitVec 32)
       (enable : BitVec 8) (s : State) (g : Fin 8),
       let c : CmdSpec :=
         { opcode := 0x0246
           role := some .installer
           journal := true
           params := pb group ++ pb tiles ++ pb home ++ pb bias ++ pb hold ++ pb enable }
       let set : PickGroup → PickGroup := fun x =>
         { x with
           tiles := tiles
           home := decide (home = 1)
           bias := bias.setWidth 5
           hold := hold.setWidth 24
           enabled := decide (enable = 1)
           latOk := true }
       s.accepts h c = true ∧ fin? 8 group.toNat = some g ∧ home.toNat ≤ 1 ∧ bias.toNat ≤ 24 ∧ hold ≠ 0 ∧ hold.toNat ≤
         16777215 ∧ enable.toNat ≤ 1 ∧ (List.finRange 8).all (fun k => decide (k = g) || decide ((s.pick.get k).tiles
         &&& tiles = 0)) = true ∧ (enable = 1 → (s.enter.modPick g set).groupFits g = true)) ∧
    (∃ (h : CmdHdr) (path : BitVec 8) (coupling : BitVec 8) (delay : BitVec 16) (atten : BitVec 8) (settle : BitVec 16)
       (s : State) (p : Fin 64),
       let c : CmdSpec :=
         { opcode := 0x0247
           role := some .installer
           journal := true
           params := pb path ++ pb coupling ++ pb delay ++ pb atten ++ pb settle }
       s.accepts h c = true ∧ fin? 64 path.toNat = some p ∧ delay.toNat ≤ 4095 ∧ atten.toNat ≤ 20 ∧ settle.toNat ≤ 4095) :=
  ⟨⟨hd 11, 0, 5, 0xFF, 0xFF, live, by dsimp only; decide +kernel⟩,
    ⟨hd 1, 0, live, 0, by dsimp only; decide +kernel⟩,
    ⟨hd 19, 0, [0, 0, 0, 0, 0, 0, 0, 0, 0, 0], 0, 0, 0, 0, 0, 0, live, by dsimp only; decide +kernel⟩,
    ⟨hdInd 26, 0, 1, [rdOp], live, 0, by dsimp only; decide +kernel⟩,
    ⟨hdInd 4, 0, 0, 0, 0, [], live, 0, by dsimp only; decide +kernel⟩,
    ⟨hd 11, 0, 0, 0, 0, 1, 0, live, 0, 0, by dsimp only; decide +kernel⟩,
    ⟨hd 9, 0, 0, 0, 0, 1, 0, live, 0, by dsimp only; decide +kernel⟩,
    ⟨hd 7, 0, 0, 0, 0, 0, live, 0, by dsimp only; decide +kernel⟩⟩

set_option maxRecDepth 100000 in
/-- The hypotheses of PathEventsRun. -/
theorem wit_PathEventsRun :
    (∃ (t : Fin 8) (parity : Bool) (data : List (BitVec 8)) (s : State),
       0 < (s.res.get t).rffe.seqLeft ∧ (s.res.get t).rffe.listOp = false) ∧
    (∃ (t : Fin 8) (parity : Bool) (data : List (BitVec 8)) (s : State) (r : RffeRun),
       let at_ := r.base + 2 + 24 * r.done
       let reads := decide (memGet 0 s.pup.mbRam at_ = 1 ∨ memGet 0 s.pup.mbRam at_ = 4 ∨ memGet 0 s.pup.mbRam at_ = 6)
       ((s.res.get t).rffe.seqLeft = 0 ∨ (s.res.get t).rffe.listOp = true) ∧ (s.res.get t).rffe.run = some r ∧ (reads
         && parity) = false) ∧
    (∃ (t : Fin 8) (parity : Bool) (data : List (BitVec 8)) (s : State) (r : RffeRun),
       ((s.res.get t).rffe.seqLeft = 0 ∨ (s.res.get t).rffe.listOp = true) ∧ (s.res.get t).rffe.run = some r ∧ (memGet
         0 s.pup.mbRam (r.base + 2 + 24 * r.done) = 1 ∨ memGet 0 s.pup.mbRam (r.base + 2 + 24 * r.done) = 4 ∨ memGet 0
         s.pup.mbRam (r.base + 2 + 24 * r.done) = 6) ∧ parity = true) ∧
    (∃ (t : Fin 8) (s : State) (st : Nat),
       let x := (s.res.get t).rffe
       x.seqStart = some st ∧ x.seqOver = false ∧ x.seqLeft ≠ 0 ∧ 393216 < 10 * (s.time.ticks - st)) ∧
    (∃ (t : Fin 8) (s : State) (first : Nat) (before : Corr) (after : Corr) (c : Corr),
       let d := (s.res.get t).det
       let period := periodOf (s.rxBeam d.beam).rate
       d.enabled = true ∧ s.beamRuns d.beam = true ∧ d.peak period = some (first, before, after, c)) ∧
    (∃ (g : Fin 8) (s : State) (r : PickRun) (sw : Nat),
       (s.pick.get g).phase = .first r sw ∧ sw ≤ s.time.ticks) ∧
    (∃ (g : Fin 8) (s : State) (r : PickRun) (sw : Nat),
       let x := s.pick.get g
       let xs := s.secondHalf r sw
       x.phase = .second r sw ∧ s.secondDone r = true ∧ 2 * xs.length < (s.res.get r.lead).det.half.toNat) ∧
    (∃ (g : Fin 8) (s : State) (r : PickRun) (sw : Nat),
       let x := s.pick.get g
       let xs := s.secondHalf r sw
       x.phase = .second r sw ∧ s.secondDone r = true ∧ (s.res.get r.lead).det.half.toNat ≤ 2 * xs.length) ∧
    (∃ (g : Fin 8) (s : State) (r : Nat),
       (s.pick.get g).phase = .returning r ∧ r ≤ s.time.ticks) ∧
    (∃ (g : Fin 8) (s : State) (till : Nat),
       (s.pick.get g).phase = .hold till ∧ (till ≤ s.time.ticks ∨ s.leadTile g = none ∨ (∃ t, s.leadTile g = some t ∧
         (s.radio.get t).shown s.time.ticks ≠ .rx))) :=
  ⟨⟨0, false, [], { live with res := vmap live.res (fun _ r => { r with rffe.seqLeft := 1 }) }, by decide +kernel⟩,
    ⟨0, false, [], { live with res := vmap live.res (fun _ r => { r with rffe.run := some { mb := 0, base := 0x5000, count := 1, done := 0 } }) }, { mb := 0, base := 0x5000, count := 1, done := 0 }, by dsimp only; decide +kernel⟩,
    ⟨0, true, [], { live with pup.mbRam := [(0x5002, 1)], res := vmap live.res (fun _ r => { r with rffe.run := some { mb := 0, base := 0x5000, count := 1, done := 0 } }) }, { mb := 0, base := 0x5000, count := 1, done := 0 }, by decide +kernel⟩,
    ⟨0, { live with time.ticks := 40000, res := vmap live.res (fun _ r => { r with rffe.seqLeft := 1, rffe.seqStart := some 0 }) }, 0, by dsimp only; decide +kernel⟩,
    ⟨0, { live with beam.rx.active := { live.beam.rx.active with element := false, beams := vmap live.beam.rx.active.beams (fun _ b => { b with enable := true, rate := 0 }) }, res := vmap live.res (fun _ r => { r with det.enabled := true, det.deadTill := 0, det.thr := 1, det.half := 1, det.template := [0x4000, 0x4000], det.line := [{ time := 8, val := (0, 0), fl := 0 }, { time := 4, val := (100, 0), fl := 0 }, { time := 0, val := (0, 0), fl := 0 }] }) }, 4, { num := 0, ex := 0, et := 16384 * 16384 }, { num := 0, ex := 0, et := 16384 * 16384 }, { num := 1638400 * 1638400, ex := 10000, et := 16384 * 16384 }, by dsimp only; decide +kernel⟩,
    ⟨0, { live with pick := vmap live.pick (fun _ y => { y with phase := .first pickRun0 0 }) }, pickRun0, 0, by decide +kernel⟩,
    ⟨0, { live with time.ticks := 2 ^ 20, res := vmap live.res (fun _ r => { r with det.half := 16 }), pick := vmap live.pick (fun _ y => { y with phase := .second pickRun0 0 }) }, pickRun0, 0, by dsimp only; decide +kernel⟩,
    ⟨0, { receiving with time.ticks := 2 ^ 20, beam.rx.active := { live.beam.rx.active with element := false, beams := vmap live.beam.rx.active.beams (fun _ b => { b with enable := true, rate := 0 }) }, res := vmap live.res (fun _ r => { r with det.half := 1, det.template := [0x4000, 0x4000], det.line := [{ time := 6, val := (100, 0), fl := 0 }] }), pick := vmap live.pick (fun _ y => { y with phase := .second pickRun0 0 }) }, pickRun0, 0, by dsimp only; decide +kernel⟩,
    ⟨0, { live with pick := vmap live.pick (fun _ y => { y with phase := .returning 0 }) }, 0, by decide +kernel⟩,
    ⟨0, { live with pick := vmap live.pick (fun _ y => { y with phase := .hold 0 }) }, 0, by decide +kernel⟩⟩

set_option maxRecDepth 100000 in
/-- The hypotheses of ClockCommandsRun. -/
theorem wit_ClockCommandsRun :
    (∃ (h : CmdHdr) (tiles : BitVec 8) (en : BitVec 8) (delay : BitVec 16) (trim1 : BitVec 8) (trim2 : BitVec 8) (trim3
       : BitVec 8) (trim4 : BitVec 8) (s : State),
       let c : CmdSpec :=
         { opcode := 0x0110
           role := some .installer
           journal := true
           params := pb tiles ++ pb en ++ pb delay ++ pb trim1 ++ pb trim2 ++ pb trim3 ++ pb trim4 }
       s.accepts h c = true ∧ (en.toNat ≤ 1 ∨ en = 0xFF) ∧ (delay = 0x8000 ∨ (-503 ≤ delay.toInt ∧ delay.toInt ≤ 503))
         ∧ (en ≠ 0 ∨ (maskBits 8 tiles.toNat).all (fun t => decide ((s.radio.get t).shown s.time.ticks = .off)) = true)) ∧
    (∃ (h : CmdHdr) (period : BitVec 64) (limit : BitVec 16) (s : State),
       let c : CmdSpec :=
         { opcode := 0x0111, role := some .installer, journal := true, params := pb period ++ pb limit }
       s.accepts h c = true ∧ period.toNat < 2 ^ 40 ∧ limit ≠ 0) ∧
    (∃ (h : CmdHdr) (sel : BitVec 8) (s : State),
       let c : CmdSpec := { opcode := 0x0112, role := some .operator, params := pb sel }
       s.accepts h c = true ∧ sel.toNat ≤ 15) ∧
    (∃ (h : CmdHdr) (plls : BitVec 16) (s : State),
       let c : CmdSpec := { opcode := 0x0113, role := some .operator, params := pb plls }
       s.accepts h c = true ∧ (maskBits 16 plls.toNat).all (fun p => !(s.clk.plls.get p).fault || ((s.clk.plls.get
         p).lock && (s.clk.plls.get p).relocked)) = true) ∧
    (∃ (h : CmdHdr) (pll : BitVec 8) (s : State) (p : Fin 16),
       let c : CmdSpec := { opcode := 0x0114, role := some .installer, journal := true, params := pb pll }
       s.accepts h c = true ∧ fin? 16 pll.toNat = some p ∧ pllUsed p = true ∧ s.relockRefused p = false) ∧
    (∃ (h : CmdHdr) (s : State),
       let c : CmdSpec := { opcode := 0x0115, role := some .operator, params := [] }
       s.accepts h c = true) ∧
    (∃ (h : CmdHdr) (source : BitVec 8) (s : State),
       let c : CmdSpec := { opcode := 0x0116, role := some .installer, journal := true, params := pb source }
       s.accepts h c = true ∧ source.toNat ≤ 1 ∧ s.groupOn 3 = false ∧ s.groupOn 4 = false) :=
  ⟨⟨hd 8, 0, 0xFF, 0x8000, 0, 0, 0, 0, live, by dsimp only; decide +kernel⟩,
    ⟨hd 10, 0, 1, live, by dsimp only; decide +kernel⟩,
    ⟨hd 1, 0, live, by dsimp only; decide +kernel⟩,
    ⟨hd 2, 0, live, by dsimp only; decide +kernel⟩,
    ⟨hd 1, 1, cleared live, 1, by dsimp only; decide +kernel⟩,
    ⟨hd 0, live, by dsimp only; decide +kernel⟩,
    ⟨hd 1, 0, cleared live, by dsimp only; decide +kernel⟩⟩

set_option maxRecDepth 100000 in
/-- The hypotheses of ClockEventsRun. -/
theorem wit_ClockEventsRun :
    (∃ (s : State),
       s.clk.refOk = true) ∧
    (∃ (s : State),
       s.clk.refOk = false) ∧
    (∃ (pll : Fin 16) (s : State),
       (pllUsed pll && s.pllLock pll) = true) ∧
    (∃ (pll : Fin 16) (s : State) (x : Nat),
       let p := s.clk.plls.get pll
       p.retryAt = some x ∧ p.busy = true ∧ x ≤ s.time.ticks ∧ s.clk.refOk = true) ∧
    (∃ (pll : Fin 16) (s : State),
       s.clk.refOk = true ∧ (s.clk.plls.get pll).busy = true) ∧
    (∃ (pll : Fin 16) (s : State),
       s.clk.refOk = true ∧ (s.clk.plls.get pll).busy = false ∧ (pll = 3 ∨ pll = 4) ∧ (s.clk.plls.get pll).lock = false
         ∧ s.groupOn pll = true) ∧
    (∃ (frac : BitVec 8) (lowBefore : Bool) (s : State),
       s.clk.refOk = true) ∧
    (∃ (highAfter : Bool) (comp : BitVec 7) (s : State) (e : SyncEdge),
       s.clk.edge = some e ∧ e.tick + 32 ≤ s.time.ticks ∧ (e.lowOk = false ∨ highAfter = false)) ∧
    (∃ (highAfter : Bool) (comp : BitVec 7) (s : State) (e : SyncEdge),
       s.clk.edge = some e ∧ e.tick + 32 ≤ s.time.ticks ∧ e.lowOk = true ∧ highAfter = true) :=
  ⟨⟨cleared live, by decide +kernel⟩,
    ⟨{ live with clk.refOk := false }, by decide +kernel⟩,
    ⟨1, cleared live, by decide +kernel⟩,
    ⟨1, { cleared live with clk := { (cleared live).clk with plls := vmap live.clk.plls (fun _ p => { p with retryAt := some 0, busy := true }) } }, 0, by dsimp only; decide +kernel⟩,
    ⟨1, { cleared live with clk := { (cleared live).clk with plls := vmap live.clk.plls (fun _ p => { p with busy := true }) } }, by decide +kernel⟩,
    ⟨3, { cleared live with clk := { (cleared live).clk with plls := vmap live.clk.plls (fun _ p => { p with busy := false, lock := false }) }, link.lanes := vmap live.link.lanes (fun _ l => { l with pstate := .standby }) }, by decide +kernel⟩,
    ⟨0, false, cleared live, by decide +kernel⟩,
    ⟨false, 0, { live with time.ticks := 40, clk.edge := some { stamp := 0, tick := 0, lowOk := false } }, { stamp := 0, tick := 0, lowOk := false }, by decide +kernel⟩,
    ⟨true, 0, { live with time.ticks := 40, clk.edge := some { stamp := 0, tick := 0, lowOk := true } }, { stamp := 0, tick := 0, lowOk := true }, by decide +kernel⟩⟩

set_option maxRecDepth 100000 in
/-- The hypotheses of BeamCommandsRun. -/
theorem wit_BeamCommandsRun :
    (∃ (h : CmdHdr) (dirs : BitVec 8) (rx : BitVec 8) (tx : BitVec 8) (s : State),
       let c : CmdSpec := { opcode := 0x0260, role := some .operator, params := pb dirs ++ pb rx ++ pb tx }
       s.accepts h c = true ∧ dirs.toNat ≤ 3 ∧ rx.toNat ≤ 3 ∧ tx.toNat ≤ 3 ∧ (dirs.getLsbD 0 = false ∨
         (s.beam.rx.active.element = false ∧ s.beam.rx.active.beams.toList.any (fun b => b.enable) = false)) ∧
         (dirs.getLsbD 1 = false ∨ (s.beam.tx.active.element = false ∧ s.beam.tx.active.beams.toList.any (fun b =>
         b.enable) = false))) ∧
    (∃ (h : CmdHdr) (dir : BitVec 8) (front : BitVec 8) (narrow : BitVec 8) (rate : BitVec 8) (s : State),
       let c : CmdSpec :=
         { opcode := 0x0261, role := some .operator, params := pb dir ++ pb front ++ pb narrow ++ pb rate }
       s.accepts h c = true ∧ dir.toNat ≤ 1 ∧ front.toNat ≤ 3 ∧ narrow.toNat ≤ 3 ∧ rate.toNat ≤ 7) ∧
    (∃ (h : CmdHdr) (cls : BitVec 8) (preset : BitVec 8) (s : State),
       let c : CmdSpec := { opcode := 0x0908, role := some .installer, journal := true, params := pb cls ++ pb preset }
       s.accepts h c = true ∧ cls.toNat ≤ 1 ∧ preset.toNat ≤ 3) ∧
    (∃ (h : CmdHdr) (dir : BitVec 8) (beam : BitVec 8) (enable : BitVec 8) (rate : BitVec 8) (preset : BitVec 8)
       (format : BitVec 8) (flow : BitVec 8) (freq : BitVec 32) (shift : BitVec 8) (s : State) (b : Fin 32),
       let c : CmdSpec :=
         { opcode := 0x0301
           role := some .operator
           params := pb dir ++ pb beam ++ pb enable ++ pb rate ++ pb preset ++ pb format ++ pb flow ++ pb freq ++ pb
             shift }
       s.accepts h c = true ∧ fin? 32 beam.toNat = some b ∧ dir.toNat ≤ 1 ∧ enable.toNat ≤ 1 ∧ rate.toNat ≤ 7 ∧
         preset.toNat ≤ 3 ∧ (format.toNat ≤ 2 ∧ flow.toNat ≤ 63 ∧ (dir = 0 → shift.toNat ≤ 7)) ∧ (s.beam.dir (decide
         (dir = 1))).lock = none) ∧
    (∃ (h : CmdHdr) (dir : BitVec 8) (beam : BitVec 8) (port : BitVec 8) (first : BitVec 8) (count : BitVec 8) (ptr :
       BitVec 32) (s : State),
       let c : CmdSpec :=
         { opcode := 0x0302
           role := some .operator
           params := pb dir ++ pb beam ++ pb port ++ pb first ++ pb count ++ pb ptr
           ptrs := [(ptr.toNat, 4 * count.toNat)] }
       s.accepts h c = true ∧ (dir.toNat ≤ 1 ∧ beam.toNat ≤ 31 ∧ (dir = 0 → port.toNat ≤ 1)) ∧ count ≠ 0 ∧ first.toNat
         + count.toNat ≤ 64 ∧ (s.beam.dir (decide (dir = 1))).lock = none) ∧
    (∃ (h : CmdHdr) (dir : BitVec 8) (first : BitVec 8) (count : BitVec 8) (form : BitVec 8) (delays : List (BitVec
       16)) (ptr : BitVec 32) (s : State),
       let c : CmdSpec :=
         { opcode := 0x0303
           role := some .operator
           params := pb dir ++ pb first ++ pb count ++ pb form ++ (if form = 1 then pb ptr else delays.flatMap pb)
           ptrs := if form = 1 then [(ptr.toNat, 2 * count.toNat)] else [] }
       let ds := if form = 1 then (chunks 2 count.toNat (memRead 0 s.pup.mbRam ptr.toNat (2 * count.toNat))).map (fun x
         => BitVec.ofNat 16 (unle x)) else delays
       s.accepts h c = true ∧ dir.toNat ≤ 1 ∧ form.toNat ≤ 1 ∧ count ≠ 0 ∧ first.toNat + count.toNat ≤ 64 ∧ (form = 0 →
         count.toNat ≤ 26 ∧ delays.length = count.toNat) ∧ ds.all (fun d => decide (-1024 ≤ d.toInt ∧ d.toInt ≤ 1023))
         = true ∧ (s.beam.dir (decide (dir = 1))).lock = none) ∧
    (∃ (h : CmdHdr) (dir : BitVec 8) (mode : BitVec 8) (rate : BitVec 8) (preset : BitVec 8) (format : BitVec 8) (flows
       : List (BitVec 8)) (txShift : BitVec 8) (s : State),
       let c : CmdSpec :=
         { opcode := 0x0304
           role := some .operator
           params := pb dir ++ pb mode ++ pb rate ++ pb preset ++ pb format ++ flows.flatMap pb ++ pb txShift }
       s.accepts h c = true ∧ dir.toNat ≤ 1 ∧ mode.toNat ≤ 1 ∧ rate.toNat ≤ 7 ∧ preset.toNat ≤ 3 ∧ format.toNat ≤ 2 ∧
         flows.length = 8 ∧ txShift.toNat ≤ 7 ∧ flows.all (fun f => decide (f.toNat ≤ 63)) = true ∧ (s.beam.dir (decide
         (dir = 1))).lock = none) ∧
    (∃ (h : CmdHdr) (dirs : BitVec 8) (s : State),
       let c : CmdSpec := { opcode := 0x0305, role := some .operator, params := pb dirs }
       s.accepts h c = true ∧ dirs.toNat ≤ 3 ∧ (dirs.getLsbD 0 = true → s.beam.rx.lock = none) ∧ (dirs.getLsbD 1 = true
         → s.beam.tx.lock = none)) ∧
    (∃ (h : CmdHdr) (dir : BitVec 8) (bank : BitVec 8) (beam : BitVec 8) (s : State),
       let c : CmdSpec := { opcode := 0x0306, role := some .operator, params := pb dir ++ pb bank ++ pb beam }
       s.accepts h c = true ∧ (dir.toNat ≤ 1 ∧ bank.toNat ≤ 1 ∧ (beam.toNat ≤ 31 ∨ beam = 0xFF))) :=
  ⟨⟨hd 3, 0, 0, 0, live, by dsimp only; decide +kernel⟩,
    ⟨hd 4, 0, 0, 0, 0, live, by dsimp only; decide +kernel⟩,
    ⟨hd 2, 0, 0, live, by dsimp only; decide +kernel⟩,
    ⟨hd 12, 0, 0, 0, 0, 0, 0, 0, 0, 0, live, 0, by dsimp only; decide +kernel⟩,
    ⟨hd 9, 0, 0, 0, 0, 1, 0x5000, live, by dsimp only; decide +kernel⟩,
    ⟨hd 6, 0, 0, 1, 0, [5], 0, live, by dsimp only; decide +kernel⟩,
    ⟨hd 14, 0, 0, 0, 0, 0, [0, 0, 0, 0, 0, 0, 0, 0], 0, live, by dsimp only; decide +kernel⟩,
    ⟨hd 1, 0, live, by dsimp only; decide +kernel⟩,
    ⟨hd 3, 0, 0, 0, live, by dsimp only; decide +kernel⟩⟩

set_option maxRecDepth 100000 in
/-- The hypotheses of TdspComputeRuns. -/
theorem wit_TdspComputeRuns_0 :
    (∃ (t : Fin 8) (moveSlot : Bool) (s : State),
       let u : Tdsp := (s.tdsp.get t).atStart
       s.kRuns t = true ∧ u.inRange u.pc.toNat = true ∧ moveSlot = false) ∧
    (∃ (t : Fin 8) (a : Fin 8) (x : Fin 16) (y : Fin 16) (f : TFlags) (s : State),
       let u : Tdsp := (s.tdsp.get t).atStart
       s.kRuns t = true ∧ u.inRange u.pc.toNat = true) ∧
    (∃ (t : Fin 8) (h : Fin 2) (q : Fin 4) (c : Fin 16) (f : TFlags) (s : State),
       let u : Tdsp := (s.tdsp.get t).atStart
       s.kRuns t = true ∧ u.inRange u.pc.toNat = true) ∧
    (∃ (t : Fin 8) (h : Fin 2) (q : Fin 4) (c : Fin 16) (n : Fin 16) (f : TFlags) (s : State),
       let u : Tdsp := (s.tdsp.get t).atStart
       s.kRuns t = true ∧ u.inRange u.pc.toNat = true) ∧
    (∃ (t : Fin 8) (a : Fin 8) (x : Fin 16) (y : Fin 16) (neg : Bool) (z : Bool) (s : State),
       let u : Tdsp := (s.tdsp.get t).atStart
       s.kRuns t = true ∧ u.inRange u.pc.toNat = true) ∧
    (∃ (t : Fin 8) (a : Fin 8) (x : Fin 16) (z : Bool) (s : State),
       let u : Tdsp := (s.tdsp.get t).atStart
       s.kRuns t = true ∧ u.inRange u.pc.toNat = true) ∧
    (∃ (t : Fin 8) (d : Fin 16) (x : Fin 16) (y : Fin 16) (cj : Bool) (s : State),
       let u : Tdsp := (s.tdsp.get t).atStart
       s.kRuns t = true ∧ u.inRange u.pc.toNat = true) ∧
    (∃ (t : Fin 8) (d : Fin 16) (x : Fin 16) (y : Fin 16) (s : State),
       let u : Tdsp := (s.tdsp.get t).atStart
       s.kRuns t = true ∧ u.inRange u.pc.toNat = true) ∧
    (∃ (t : Fin 8) (d : Fin 16) (x : Fin 16) (y : Fin 16) (s : State),
       let u : Tdsp := (s.tdsp.get t).atStart
       s.kRuns t = true ∧ u.inRange u.pc.toNat = true) ∧
    (∃ (t : Fin 8) (d : Fin 16) (x : Fin 16) (neg : Bool) (s : State),
       let u : Tdsp := (s.tdsp.get t).atStart
       s.kRuns t = true ∧ u.inRange u.pc.toNat = true) ∧
    (∃ (t : Fin 8) (d : Fin 16) (x : Fin 16) (k : BitVec 4) (s : State),
       let u : Tdsp := (s.tdsp.get t).atStart
       s.kRuns t = true ∧ u.inRange u.pc.toNat = true) ∧
    (∃ (t : Fin 8) (d : Fin 16) (x : Fin 16) (y : Fin 16) (s : State),
       let u : Tdsp := (s.tdsp.get t).atStart
       s.kRuns t = true ∧ u.inRange u.pc.toNat = true) :=
  ⟨⟨0, false, kern, by dsimp only; decide +kernel⟩,
    ⟨0, 0, 0, 0, { cj := false, neg := false, z := false }, kern, by dsimp only; decide +kernel⟩,
    ⟨0, 0, 0, 0, { cj := false, neg := false, z := false }, kern, by dsimp only; decide +kernel⟩,
    ⟨0, 0, 0, 0, 0, { cj := false, neg := false, z := false }, kern, by dsimp only; decide +kernel⟩,
    ⟨0, 0, 0, 0, false, false, kern, by dsimp only; decide +kernel⟩,
    ⟨0, 0, 0, false, kern, by dsimp only; decide +kernel⟩,
    ⟨0, 0, 0, 0, false, kern, by dsimp only; decide +kernel⟩,
    ⟨0, 0, 0, 0, kern, by dsimp only; decide +kernel⟩,
    ⟨0, 0, 0, 0, kern, by dsimp only; decide +kernel⟩,
    ⟨0, 0, 0, false, kern, by dsimp only; decide +kernel⟩,
    ⟨0, 0, 0, 0, kern, by dsimp only; decide +kernel⟩,
    ⟨0, 0, 0, 0, kern, by dsimp only; decide +kernel⟩⟩

set_option maxRecDepth 100000 in
/-- The hypotheses of TdspComputeRuns. -/
theorem wit_TdspComputeRuns_1 :
    (∃ (t : Fin 8) (d : Fin 16) (x : Fin 16) (y : Fin 16) (s : State),
       let u : Tdsp := (s.tdsp.get t).atStart
       s.kRuns t = true ∧ u.inRange u.pc.toNat = true) ∧
    (∃ (t : Fin 8) (d : Fin 16) (x : Fin 16) (y : Fin 16) (s : State),
       let u : Tdsp := (s.tdsp.get t).atStart
       s.kRuns t = true ∧ u.inRange u.pc.toNat = true) ∧
    (∃ (t : Fin 8) (d : Fin 16) (x : Fin 16) (y : Fin 16) (s : State),
       let u : Tdsp := (s.tdsp.get t).atStart
       s.kRuns t = true ∧ u.inRange u.pc.toNat = true) ∧
    (∃ (t : Fin 8) (d : Fin 16) (x : Fin 16) (y : Fin 16) (s : State),
       let u : Tdsp := (s.tdsp.get t).atStart
       s.kRuns t = true ∧ u.inRange u.pc.toNat = true) ∧
    (∃ (t : Fin 8) (x : Fin 16) (y : Fin 16) (s : State),
       let u : Tdsp := (s.tdsp.get t).atStart
       s.kRuns t = true ∧ u.inRange u.pc.toNat = true) ∧
    (∃ (t : Fin 8) (d : Fin 16) (a : Fin 8) (s : State),
       let u : Tdsp := (s.tdsp.get t).atStart
       s.kRuns t = true ∧ u.inRange u.pc.toNat = true) ∧
    (∃ (t : Fin 8) (a : Fin 8) (d : Fin 16) (sh : BitVec 4) (s : State),
       let u : Tdsp := (s.tdsp.get t).atStart
       s.kRuns t = true ∧ u.inRange u.pc.toNat = true ∧ sh.toNat ≤ 8) ∧
    (∃ (t : Fin 8) (a : Fin 8) (d : Fin 16) (sh : BitVec 4) (s : State),
       let u : Tdsp := (s.tdsp.get t).atStart
       s.kRuns t = true ∧ u.inRange u.pc.toNat = true ∧ 8 < sh.toNat) ∧
    (∃ (t : Fin 8) (a : Fin 8) (b : Fin 8) (neg : Bool) (s : State),
       let u : Tdsp := (s.tdsp.get t).atStart
       s.kRuns t = true ∧ u.inRange u.pc.toNat = true) ∧
    (∃ (t : Fin 8) (mask : BitVec 8) (s : State),
       let u : Tdsp := (s.tdsp.get t).atStart
       s.kRuns t = true ∧ u.inRange u.pc.toNat = true) ∧
    (∃ (t : Fin 8) (s : State),
       let u : Tdsp := (s.tdsp.get t).atStart
       s.kRuns t = true ∧ u.inRange u.pc.toNat = true) ∧
    (∃ (t : Fin 8) (moveSlot : Bool) (s : State),
       let u : Tdsp := if (s.tdsp.get t).issuedC then s.tdsp.get t else (s.tdsp.get t).loopReturn
       s.kRuns t = true ∧ u.inRange u.pc.toNat = true ∧ moveSlot = true) :=
  ⟨⟨0, 0, 0, 0, kern, by dsimp only; decide +kernel⟩,
    ⟨0, 0, 0, 0, kern, by dsimp only; decide +kernel⟩,
    ⟨0, 0, 0, 0, kern, by dsimp only; decide +kernel⟩,
    ⟨0, 0, 0, 0, kern, by dsimp only; decide +kernel⟩,
    ⟨0, 0, 0, kern, by dsimp only; decide +kernel⟩,
    ⟨0, 0, 0, kern, by dsimp only; decide +kernel⟩,
    ⟨0, 0, 0, 0, kern, by dsimp only; decide +kernel⟩,
    ⟨0, 0, 0, 9, kern, by dsimp only; decide +kernel⟩,
    ⟨0, 0, 0, false, kern, by dsimp only; decide +kernel⟩,
    ⟨0, 0, kern, by dsimp only; decide +kernel⟩,
    ⟨0, kern, by dsimp only; decide +kernel⟩,
    ⟨0, true, kern, by dsimp only; decide +kernel⟩⟩

set_option maxRecDepth 100000 in
/-- The hypotheses of TdspMoveRuns. -/
theorem wit_TdspMoveRuns_0 :
    (∃ (t : Fin 8) (d : Fin 16) (am : AddrMode) (s : State),
       let u : Tdsp := if (s.tdsp.get t).issuedC then s.tdsp.get t else (s.tdsp.get t).loopReturn
       let w := wordOf (u.address am).1
       s.kRuns t = true ∧ u.inRange u.pc.toNat = true ∧ wordReserved (s.estReg t) false w = false) ∧
    (∃ (t : Fin 8) (d : Fin 16) (am : AddrMode) (s : State),
       let u : Tdsp := if (s.tdsp.get t).issuedC then s.tdsp.get t else (s.tdsp.get t).loopReturn
       let w := wordOf (u.address am).1
       s.kRuns t = true ∧ u.inRange u.pc.toNat = true ∧ wordReserved (s.estReg t) false w = true) ∧
    (∃ (t : Fin 8) (d : Fin 16) (am : AddrMode) (s : State),
       let u : Tdsp := if (s.tdsp.get t).issuedC then s.tdsp.get t else (s.tdsp.get t).loopReturn
       let w := wordOf (u.address am).1
       s.kRuns t = true ∧ u.inRange u.pc.toNat = true ∧ wordReserved (s.estReg t) true w = false) ∧
    (∃ (t : Fin 8) (d : Fin 16) (am : AddrMode) (s : State),
       let u : Tdsp := if (s.tdsp.get t).issuedC then s.tdsp.get t else (s.tdsp.get t).loopReturn
       let w := wordOf (u.address am).1
       s.kRuns t = true ∧ u.inRange u.pc.toNat = true ∧ wordReserved (s.estReg t) true w = true) ∧
    (∃ (t : Fin 8) (a : Fin 16) (b : Fin 16) (px : Fin 8) (mx : Fin 8) (ux : Bool) (py : Fin 8) (my : Fin 8) (uy :
       Bool) (s : State),
       let u : Tdsp := if (s.tdsp.get t).issuedC then s.tdsp.get t else (s.tdsp.get t).loopReturn
       s.kRuns t = true ∧ u.inRange u.pc.toNat = true ∧ (wordReserved (s.estReg t) false (wordOf (u.p.get px)) ||
         wordReserved (s.estReg t) true (wordOf (u.p.get py))) = false) ∧
    (∃ (t : Fin 8) (a : Fin 16) (b : Fin 16) (px : Fin 8) (mx : Fin 8) (ux : Bool) (py : Fin 8) (my : Fin 8) (uy :
       Bool) (s : State),
       let u : Tdsp := if (s.tdsp.get t).issuedC then s.tdsp.get t else (s.tdsp.get t).loopReturn
       s.kRuns t = true ∧ u.inRange u.pc.toNat = true ∧ (wordReserved (s.estReg t) false (wordOf (u.p.get px)) ||
         wordReserved (s.estReg t) true (wordOf (u.p.get py))) = true) ∧
    (∃ (t : Fin 8) (src : Fin 16) (am : AddrMode) (s : State),
       let u : Tdsp := if (s.tdsp.get t).issuedC then s.tdsp.get t else (s.tdsp.get t).loopReturn
       let w := wordOf (u.address am).1
       s.kRuns t = true ∧ u.inRange u.pc.toNat = true ∧ wordReserved (s.estReg t) false w = false) ∧
    (∃ (t : Fin 8) (src : Fin 16) (am : AddrMode) (s : State),
       let u : Tdsp := if (s.tdsp.get t).issuedC then s.tdsp.get t else (s.tdsp.get t).loopReturn
       let w := wordOf (u.address am).1
       s.kRuns t = true ∧ u.inRange u.pc.toNat = true ∧ wordReserved (s.estReg t) false w = true) ∧
    (∃ (t : Fin 8) (src : Fin 16) (am : AddrMode) (s : State),
       let u : Tdsp := if (s.tdsp.get t).issuedC then s.tdsp.get t else (s.tdsp.get t).loopReturn
       let w := wordOf (u.address am).1
       s.kRuns t = true ∧ u.inRange u.pc.toNat = true ∧ wordReserved (s.estReg t) true w = false) ∧
    (∃ (t : Fin 8) (src : Fin 16) (am : AddrMode) (s : State),
       let u : Tdsp := if (s.tdsp.get t).issuedC then s.tdsp.get t else (s.tdsp.get t).loopReturn
       let w := wordOf (u.address am).1
       s.kRuns t = true ∧ u.inRange u.pc.toNat = true ∧ wordReserved (s.estReg t) true w = true) ∧
    (∃ (t : Fin 8) (code : BitVec 6) (imm : BitVec 18) (s : State) (r : TReg),
       let u : Tdsp := if (s.tdsp.get t).issuedC then s.tdsp.get t else (s.tdsp.get t).loopReturn
       s.kRuns t = true ∧ u.inRange u.pc.toNat = true ∧ regOf code = some r) ∧
    (∃ (t : Fin 8) (code : BitVec 6) (imm : BitVec 18) (s : State),
       let u : Tdsp := if (s.tdsp.get t).issuedC then s.tdsp.get t else (s.tdsp.get t).loopReturn
       s.kRuns t = true ∧ u.inRange u.pc.toNat = true ∧ regOf code = none) :=
  ⟨⟨0, 0, { p := 0, md := 0, km := 0 }, kern, by dsimp only; decide +kernel⟩,
    ⟨0, 0, { p := 0, md := 0, km := 0 }, kern.estOn, by dsimp only; decide +kernel⟩,
    ⟨0, 0, { p := 0, md := 0, km := 0 }, kern, by dsimp only; decide +kernel⟩,
    ⟨0, 0, { p := 0, md := 0, km := 0 }, kern.estOn, by dsimp only; decide +kernel⟩,
    ⟨0, 0, 0, 0, 0, false, 0, 0, false, kern, by dsimp only; decide +kernel⟩,
    ⟨0, 0, 0, 0, 0, false, 0, 0, false, kern.estOn, by dsimp only; decide +kernel⟩,
    ⟨0, 0, { p := 0, md := 0, km := 0 }, kern, by dsimp only; decide +kernel⟩,
    ⟨0, 0, { p := 0, md := 0, km := 0 }, kern.estOn, by dsimp only; decide +kernel⟩,
    ⟨0, 0, { p := 0, md := 0, km := 0 }, kern, by dsimp only; decide +kernel⟩,
    ⟨0, 0, { p := 0, md := 0, km := 0 }, kern.estOn, by dsimp only; decide +kernel⟩,
    ⟨0, 5, 0, kern, .d 5, by dsimp only; decide +kernel⟩,
    ⟨0, 0x3F, 0, kern, by dsimp only; decide +kernel⟩⟩

set_option maxRecDepth 100000 in
/-- The hypotheses of TdspMoveRuns. -/
theorem wit_TdspMoveRuns_1 :
    (∃ (t : Fin 8) (d : Fin 16) (imm : BitVec 16) (s : State),
       let u : Tdsp := if (s.tdsp.get t).issuedC then s.tdsp.get t else (s.tdsp.get t).loopReturn
       s.kRuns t = true ∧ u.inRange u.pc.toNat = true) ∧
    (∃ (t : Fin 8) (dst : BitVec 6) (src : BitVec 6) (s : State) (r : TReg) (v : BitVec 32),
       let u : Tdsp := if (s.tdsp.get t).issuedC then s.tdsp.get t else (s.tdsp.get t).loopReturn
       s.kRuns t = true ∧ u.inRange u.pc.toNat = true ∧ regOf dst = some r ∧ u.readCode (s.estReg t) src = some v) ∧
    (∃ (t : Fin 8) (dst : BitVec 6) (src : BitVec 6) (s : State),
       let u : Tdsp := if (s.tdsp.get t).issuedC then s.tdsp.get t else (s.tdsp.get t).loopReturn
       s.kRuns t = true ∧ u.inRange u.pc.toNat = true ∧ (regOf dst = none ∨ u.readCode (s.estReg t) src = none)) ∧
    (∃ (t : Fin 8) (p : Fin 8) (form : Bool) (m : Fin 8) (imm : BitVec 18) (s : State),
       let u : Tdsp := if (s.tdsp.get t).issuedC then s.tdsp.get t else (s.tdsp.get t).loopReturn
       s.kRuns t = true ∧ u.inRange u.pc.toNat = true) ∧
    (∃ (t : Fin 8) (lv : Fin 2) (restore : Bool) (inY : Bool) (p : Fin 8) (s : State),
       let u : Tdsp := if (s.tdsp.get t).issuedC then s.tdsp.get t else (s.tdsp.get t).loopReturn
       let a := u.p.get p
       let w := [wordOf a, wordOf (a + 4), wordOf (a + 8)]
       s.kRuns t = true ∧ u.inRange u.pc.toNat = true ∧ restore = true ∧ w.any (fun x => wordReserved (s.estReg t) inY
         x) = false) ∧
    (∃ (t : Fin 8) (lv : Fin 2) (restore : Bool) (inY : Bool) (p : Fin 8) (s : State),
       let u : Tdsp := if (s.tdsp.get t).issuedC then s.tdsp.get t else (s.tdsp.get t).loopReturn
       let a := u.p.get p
       let w := [wordOf a, wordOf (a + 4), wordOf (a + 8)]
       s.kRuns t = true ∧ u.inRange u.pc.toNat = true ∧ restore = false ∧ w.any (fun x => wordReserved (s.estReg t) inY
         x) = false) ∧
    (∃ (t : Fin 8) (lv : Fin 2) (restore : Bool) (inY : Bool) (p : Fin 8) (s : State),
       let u : Tdsp := if (s.tdsp.get t).issuedC then s.tdsp.get t else (s.tdsp.get t).loopReturn
       let a := u.p.get p
       let w := [wordOf a, wordOf (a + 4), wordOf (a + 8)]
       s.kRuns t = true ∧ u.inRange u.pc.toNat = true ∧ w.any (fun x => wordReserved (s.estReg t) inY x) = true) :=
  ⟨⟨0, 0, 0, kern, by dsimp only; decide +kernel⟩,
    ⟨0, 5, 5, kern, .d 5, 0, by dsimp only; decide +kernel⟩,
    ⟨0, 0x3F, 0, kern, by dsimp only; decide +kernel⟩,
    ⟨0, 0, false, 0, 0, kern, by dsimp only; decide +kernel⟩,
    ⟨0, 0, true, false, 0, kern, by dsimp only; decide +kernel⟩,
    ⟨0, 0, false, false, 0, kern, by dsimp only; decide +kernel⟩,
    ⟨0, 0, false, false, 0, kern.estOn, by dsimp only; decide +kernel⟩⟩

set_option maxRecDepth 100000 in
/-- The hypotheses of TdspIoRuns. -/
theorem wit_TdspIoRuns :
    (∃ (t : Fin 8) (d : Fin 16) (s : State),
       let u : Tdsp := if (s.tdsp.get t).issuedC then s.tdsp.get t else (s.tdsp.get t).loopReturn
       s.kRuns t = true ∧ u.inRange u.pc.toNat = true) ∧
    (∃ (t : Fin 8) (d : Fin 16) (addr : BitVec 8) (s : State),
       let u : Tdsp := if (s.tdsp.get t).issuedC then s.tdsp.get t else (s.tdsp.get t).loopReturn
       s.kRuns t = true ∧ u.inRange u.pc.toNat = true ∧ addr.toNat = 2) ∧
    (∃ (t : Fin 8) (d : Fin 16) (addr : BitVec 8) (s : State) (v : BitVec 32),
       let u : Tdsp := if (s.tdsp.get t).issuedC then s.tdsp.get t else (s.tdsp.get t).loopReturn
       s.kRuns t = true ∧ u.inRange u.pc.toNat = true ∧ (s.modK t (fun _ => u)).iorValue t addr.toNat = some v) ∧
    (∃ (t : Fin 8) (d : Fin 16) (addr : BitVec 8) (s : State),
       let u : Tdsp := if (s.tdsp.get t).issuedC then s.tdsp.get t else (s.tdsp.get t).loopReturn
       s.kRuns t = true ∧ u.inRange u.pc.toNat = true ∧ 9 ≤ addr.toNat) ∧
    (∃ (t : Fin 8) (d : Fin 16) (k : Fin 2) (s : State),
       let u : Tdsp := if (s.tdsp.get t).issuedC then s.tdsp.get t else (s.tdsp.get t).loopReturn
       s.kRuns t = true ∧ u.inRange u.pc.toNat = true) ∧
    (∃ (t : Fin 8) (src : Fin 16) (k : Fin 2) (s : State),
       let u : Tdsp := if (s.tdsp.get t).issuedC then s.tdsp.get t else (s.tdsp.get t).loopReturn
       s.kRuns t = true ∧ u.inRange u.pc.toNat = true) ∧
    (∃ (t : Fin 8) (src : Fin 16) (addr : BitVec 8) (s : State),
       let u : Tdsp := if (s.tdsp.get t).issuedC then s.tdsp.get t else (s.tdsp.get t).loopReturn
       s.kRuns t = true ∧ u.inRange u.pc.toNat = true ∧ addr.toNat = 1) ∧
    (∃ (t : Fin 8) (src : Fin 16) (addr : BitVec 8) (s : State),
       let u : Tdsp := if (s.tdsp.get t).issuedC then s.tdsp.get t else (s.tdsp.get t).loopReturn
       s.kRuns t = true ∧ u.inRange u.pc.toNat = true ∧ addr.toNat ≤ 8) ∧
    (∃ (t : Fin 8) (src : Fin 16) (addr : BitVec 8) (s : State),
       let u : Tdsp := if (s.tdsp.get t).issuedC then s.tdsp.get t else (s.tdsp.get t).loopReturn
       s.kRuns t = true ∧ u.inRange u.pc.toNat = true ∧ 9 ≤ addr.toNat) ∧
    (∃ (t : Fin 8) (src : Fin 16) (s : State),
       let u : Tdsp := if (s.tdsp.get t).issuedC then s.tdsp.get t else (s.tdsp.get t).loopReturn
       s.kRuns t = true ∧ u.inRange u.pc.toNat = true) :=
  ⟨⟨0, 0, kern, by dsimp only; decide +kernel⟩,
    ⟨0, 0, 2, kern, by dsimp only; decide +kernel⟩,
    ⟨0, 0, 8, kern, 0, by dsimp only; decide +kernel⟩,
    ⟨0, 0, 9, kern, by dsimp only; decide +kernel⟩,
    ⟨0, 0, 1, kern, by dsimp only; decide +kernel⟩,
    ⟨0, 0, 1, kern, by dsimp only; decide +kernel⟩,
    ⟨0, 0, 1, kern, by dsimp only; decide +kernel⟩,
    ⟨0, 0, 7, kern, by dsimp only; decide +kernel⟩,
    ⟨0, 0, 9, kern, by dsimp only; decide +kernel⟩,
    ⟨0, 0, kern, by dsimp only; decide +kernel⟩⟩

set_option maxRecDepth 100000 in
/-- The hypotheses of TdspFlowRuns. -/
theorem wit_TdspFlowRuns_0 :
    (∃ (t : Fin 8) (e : Bool) (s : State),
       let u : Tdsp := if (s.tdsp.get t).issuedC then s.tdsp.get t else (s.tdsp.get t).loopReturn
       s.kRuns t = true ∧ u.inRange u.pc.toNat = true) ∧
    (∃ (t : Fin 8) (cond : BitVec 3) (target : BitVec 15) (s : State) (b : Bool),
       let u : Tdsp := if (s.tdsp.get t).issuedC then s.tdsp.get t else (s.tdsp.get t).loopReturn
       s.kRuns t = true ∧ u.inRange u.pc.toNat = true ∧ u.cond cond = some b ∧ (u.inDelay || u.loopTail) = false) ∧
    (∃ (t : Fin 8) (cond : BitVec 3) (target : BitVec 15) (s : State),
       let u : Tdsp := if (s.tdsp.get t).issuedC then s.tdsp.get t else (s.tdsp.get t).loopReturn
       s.kRuns t = true ∧ u.inRange u.pc.toNat = true ∧ u.cond cond = none) ∧
    (∃ (t : Fin 8) (cond : BitVec 3) (target : BitVec 15) (s : State) (b : Bool),
       let u : Tdsp := if (s.tdsp.get t).issuedC then s.tdsp.get t else (s.tdsp.get t).loopReturn
       s.kRuns t = true ∧ u.inRange u.pc.toNat = true ∧ u.cond cond = some b ∧ (u.inDelay || u.loopTail) = true) ∧
    (∃ (t : Fin 8) (d : Fin 16) (target : BitVec 15) (s : State),
       let u : Tdsp := if (s.tdsp.get t).issuedC then s.tdsp.get t else (s.tdsp.get t).loopReturn
       s.kRuns t = true ∧ u.inRange u.pc.toNat = true ∧ (u.inDelay || u.loopTail) = false) ∧
    (∃ (t : Fin 8) (src : Fin 16) (s : State),
       let u : Tdsp := if (s.tdsp.get t).issuedC then s.tdsp.get t else (s.tdsp.get t).loopReturn
       s.kRuns t = true ∧ u.inRange u.pc.toNat = true ∧ (u.inDelay || u.loopTail) = false) ∧
    (∃ (t : Fin 8) (s : State),
       let u : Tdsp := if (s.tdsp.get t).issuedC then s.tdsp.get t else (s.tdsp.get t).loopReturn
       s.kRuns t = true ∧ u.inRange u.pc.toNat = true ∧ (u.inDelay || u.loopTail) = false) ∧
    (∃ (t : Fin 8) (d : Fin 16) (target : BitVec 15) (s : State),
       let u : Tdsp := if (s.tdsp.get t).issuedC then s.tdsp.get t else (s.tdsp.get t).loopReturn
       s.kRuns t = true ∧ u.inRange u.pc.toNat = true ∧ (u.inDelay || u.loopTail) = true) ∧
    (∃ (t : Fin 8) (src : Fin 16) (s : State),
       let u : Tdsp := if (s.tdsp.get t).issuedC then s.tdsp.get t else (s.tdsp.get t).loopReturn
       s.kRuns t = true ∧ u.inRange u.pc.toNat = true ∧ (u.inDelay || u.loopTail) = true) ∧
    (∃ (t : Fin 8) (s : State),
       let u : Tdsp := if (s.tdsp.get t).issuedC then s.tdsp.get t else (s.tdsp.get t).loopReturn
       s.kRuns t = true ∧ u.inRange u.pc.toNat = true ∧ (u.inDelay || u.loopTail) = true) ∧
    (∃ (t : Fin 8) (lv : Fin 2) (form : Bool) (start : BitVec 4) (stop : BitVec 10) (count : BitVec 10) (s : State),
       let u : Tdsp := if (s.tdsp.get t).issuedC then s.tdsp.get t else (s.tdsp.get t).loopReturn
       s.kRuns t = true ∧ u.inRange u.pc.toNat = true ∧ start ≠ 0 ∧ start.toNat ≤ stop.toNat ∧ (form = true →
         count.toNat < 16)) ∧
    (∃ (t : Fin 8) (lv : Fin 2) (form : Bool) (start : BitVec 4) (stop : BitVec 10) (count : BitVec 10) (s : State),
       let u : Tdsp := if (s.tdsp.get t).issuedC then s.tdsp.get t else (s.tdsp.get t).loopReturn
       s.kRuns t = true ∧ u.inRange u.pc.toNat = true ∧ (start = 0 ∨ stop.toNat < start.toNat ∨ (form = true ∧ 16 ≤
         count.toNat))) :=
  ⟨⟨0, false, kern, by dsimp only; decide +kernel⟩,
    ⟨0, 0, 0, kern, true, by dsimp only; decide +kernel⟩,
    ⟨0, 7, 0, kern, by dsimp only; decide +kernel⟩,
    ⟨0, 0, 0, kern.inSlot, true, by dsimp only; decide +kernel⟩,
    ⟨0, 0, 0, kern, by dsimp only; decide +kernel⟩,
    ⟨0, 0, kern, by dsimp only; decide +kernel⟩,
    ⟨0, kern, by dsimp only; decide +kernel⟩,
    ⟨0, 0, 0, kern.inSlot, by dsimp only; decide +kernel⟩,
    ⟨0, 0, kern.inSlot, by dsimp only; decide +kernel⟩,
    ⟨0, kern.inSlot, by dsimp only; decide +kernel⟩,
    ⟨0, 0, false, 1, 2, 0, kern, by dsimp only; decide +kernel⟩,
    ⟨0, 0, false, 0, 0, 0, kern, by dsimp only; decide +kernel⟩⟩

set_option maxRecDepth 100000 in
/-- The hypotheses of TdspFlowRuns. -/
theorem wit_TdspFlowRuns_1 :
    (∃ (t : Fin 8) (s : State),
       s.kRuns t = true) ∧
    (∃ (t : Fin 8) (s : State),
       let u : Tdsp := if (s.tdsp.get t).issuedC then s.tdsp.get t else (s.tdsp.get t).loopReturn
       s.kRuns t = true ∧ u.inRange u.pc.toNat = true) ∧
    (∃ (t : Fin 8) (s : State),
       (s.tdsp.get t).stall = .sync ∧ s.tilePowered t = true ∧ s.hk.halt = false) ∧
    (∃ (t : Fin 8) (s : State),
       let u : Tdsp := if (s.tdsp.get t).issuedC then s.tdsp.get t else (s.tdsp.get t).loopReturn
       s.kRuns t = true ∧ u.inRange u.pc.toNat = true) ∧
    (∃ (t : Fin 8) (src : Fin 16) (code : BitVec 8) (s : State),
       let u : Tdsp := if (s.tdsp.get t).issuedC then s.tdsp.get t else (s.tdsp.get t).loopReturn
       s.kRuns t = true ∧ u.inRange u.pc.toNat = true) ∧
    (∃ (t : Fin 8) (s : State) (x : Nat × Nat) (g : KImage),
       let u : Tdsp := (s.tdsp.get t).atStart
       (u.state = .running ∨ u.state = .idle) ∧ s.tilePowered t = true ∧ s.hk.halt = false ∧ u.stall ≠ .sync ∧
         u.inDelay = false ∧ u.loopTail = false ∧ u.status.getLsbD 4 = true ∧ u.source = some x ∧ u.image = some g) ∧
    (∃ (t : Fin 8) (s : State),
       let k := s.tdsp.get t
       s.tilePowered t = true ∧ k.timer ≠ 0 ∧ k.timerAt + k.timer.toNat ≤ s.time.ticks) :=
  ⟨⟨0, kern, by decide +kernel⟩,
    ⟨0, kern, by dsimp only; decide +kernel⟩,
    ⟨0, kern.stalled .sync, by decide +kernel⟩,
    ⟨0, kern, by dsimp only; decide +kernel⟩,
    ⟨0, 0, 0, kern, by dsimp only; decide +kernel⟩,
    ⟨0, kern.rung, (0, 0), kImg, by dsimp only; decide +kernel⟩,
    ⟨0, { kern with time.ticks := 100, tdsp := vmap kern.tdsp (fun _ k => { k with timer := 5 }) }, by dsimp only; decide +kernel⟩⟩

set_option maxRecDepth 100000 in
/-- The hypotheses of TdspCommandsRun. -/
theorem wit_TdspCommandsRun :
    (∃ (h : CmdHdr) (tile : BitVec 8) (addr : BitVec 32) (start : BitVec 8) (s : State) (t : Fin 8),
       let c : CmdSpec :=
         { opcode := 0x0B01, role := some .installer, journal := true, params := pb tile ++ pb addr ++ pb start }
       s.accepts h c = true ∧ fin? 8 tile.toNat = some t ∧ start.toNat ≤ 1 ∧ s.imgOk addr.toNat = true ∧ (s.radio.get
         t).use = .out ∧ ((s.imgRead addr.toNat).resUse && s.estReg t) = false ∧ s.tdsp.toList.any (fun k =>
         k.load.isSome) = false ∧ s.dramDown = false) ∧
    (∃ (t : Fin 8) (s : State) (l : KLoad),
       (s.tdsp.get t).load = some l ∧ s.dramDown = false ∧ s.pup.ready = true) ∧
    (∃ (h : CmdHdr) (tile : BitVec 8) (entry : BitVec 16) (s : State) (t : Fin 8) (g : KImage),
       let c : CmdSpec := { opcode := 0x0B02, role := some .installer, journal := true, params := pb tile ++ pb entry }
       let e := if entry = 0 then g.entry else entry.toNat
       s.accepts h c = true ∧ fin? 8 tile.toNat = some t ∧ (s.tdsp.get t).image = some g ∧ (s.tdsp.get t).inRange e =
         true ∧ s.kernelReady t = true) ∧
    (∃ (h : CmdHdr) (tile : BitVec 8) (s : State) (t : Fin 8),
       let c : CmdSpec := { opcode := 0x0B03, role := some .installer, journal := true, params := pb tile }
       s.accepts h c = true ∧ fin? 8 tile.toNat = some t) ∧
    (∃ (h : CmdHdr) (tile : BitVec 8) (value : BitVec 32) (s : State) (t : Fin 8),
       let c : CmdSpec := { opcode := 0x0B04, role := some .operator, params := pb tile ++ pb value }
       s.accepts h c = true ∧ fin? 8 tile.toNat = some t ∧ (s.tdsp.get t).dbPend = false) ∧
    (∃ (h : CmdHdr) (tile : BitVec 8) (s : State) (t : Fin 8),
       let c : CmdSpec := { opcode := 0x0B05, role := some .operator, params := pb tile }
       s.accepts h c = true ∧ fin? 8 tile.toNat = some t) ∧
    (∃ (h : CmdHdr) (tile : BitVec 8) (s : State) (t : Fin 8),
       let c : CmdSpec := { opcode := 0x0B06, role := some .installer, journal := true, params := pb tile }
       s.accepts h c = true ∧ fin? 8 tile.toNat = some t ∧ (s.tdsp.get t).state ≠ .loading) :=
  ⟨⟨hd 6, 0, 0x40000000, 0, imaged, 0, by dsimp only; decide +kernel⟩,
    ⟨0, { live with tdsp := vmap live.tdsp (fun _ k => { k with load := some { img := kImg, addr := 0x40000000, start := false } }) }, { img := kImg, addr := 0x40000000, start := false }, by decide +kernel⟩,
    ⟨hd 3, 0, 0, kern, 0, kImg, by dsimp only; decide +kernel⟩,
    ⟨hd 1, 0, live, 0, by dsimp only; decide +kernel⟩,
    ⟨hd 5, 0, 0, live, 0, by dsimp only; decide +kernel⟩,
    ⟨hd 1, 0, live, 0, by dsimp only; decide +kernel⟩,
    ⟨hd 1, 0, live, 0, by dsimp only; decide +kernel⟩⟩

set_option maxRecDepth 100000 in
/-- The hypotheses of PredistortionCommandsRun. -/
theorem wit_PredistortionCommandsRun :
    (∃ (h : CmdHdr) (inserted : BitVec 8) (s : State),
       let c : CmdSpec := { opcode := 0x0401, role := some .operator, params := pb inserted }
       s.accepts h c = true ∧ inserted.toNat ≤ 1 ∧ s.txActive = false) ∧
    (∃ (h : CmdHdr) (paths : BitVec 64) (pdEn : BitVec 8) (cfrEn : BitVec 8) (adaptEn : BitVec 8) (evtSwap : BitVec 8)
       (s : State),
       let c : CmdSpec :=
         { opcode := 0x0402
           role := some .operator
           params := pb paths ++ pb pdEn ++ pb cfrEn ++ pb adaptEn ++ pb evtSwap }
       s.accepts h c = true ∧ (badFlagU pdEn || badFlagU cfrEn || badFlagU adaptEn || badFlagU evtSwap) = false) ∧
    (∃ (h : CmdHdr) (path : BitVec 8) (q1 : BitVec 8) (q2 : BitVec 8) (s : State) (p : Fin 64),
       let c : CmdSpec :=
         { opcode := 0x0403, role := some .installer, journal := true, params := pb path ++ pb q1 ++ pb q2 }
       s.accepts h c = true ∧ fin? 64 path.toNat = some p ∧ nbOk p q1 = true ∧ nbOk p q2 = true ∧ (s.pd.paths.get
         p).adaptEn = false) ∧
    (∃ (h : CmdHdr) (tiles : BitVec 8) (gate : BitVec 8) (cfMin : BitVec 8) (cfMax : BitVec 8) (margin : BitVec 8)
       (capSkip : BitVec 16) (freeze : BitVec 16) (clear : BitVec 16) (lambda : BitVec 8) (s : State),
       let c : CmdSpec :=
         { opcode := 0x0404
           role := some .installer
           journal := true
           params := pb tiles ++ pb gate ++ pb cfMin ++ pb cfMax ++ pb margin ++ pb capSkip ++ pb freeze ++ pb clear ++
             pb lambda }
       s.accepts h c = true ∧ gate.toNat ≤ 160 ∧ margin.toNat ≤ 40 ∧ freeze ≠ 0 ∧ clear ≠ 0) ∧
    (∃ (h : CmdHdr) (tiles : BitVec 8) (gain : BitVec 8) (phase : BitVec 8) (nmse : BitVec 8) (peak : BitVec 8)
       (rejectMax : BitVec 8) (s : State),
       let c : CmdSpec :=
         { opcode := 0x0405
           role := some .installer
           journal := true
           params := pb tiles ++ pb gain ++ pb phase ++ pb nmse ++ pb peak ++ pb rejectMax }
       s.accepts h c = true ∧ gain ≠ 0 ∧ gain.toNat ≤ 60 ∧ phase ≠ 0 ∧ phase.toNat ≤ 45 ∧ 10 ≤ nmse.toNat ∧ nmse.toNat
         ≤ 60) ∧
    (∃ (h : CmdHdr) (tiles : BitVec 8) (thr : BitVec 8) (ptr : BitVec 32) (s : State),
       let keep := decide (ptr = 0xFFFFFFFF)
       let clear := decide (ptr = 0)
       let c : CmdSpec :=
         { opcode := 0x0406
           role := some .installer
           journal := true
           params := pb tiles ++ pb thr ++ pb ptr
           ptrs := if keep || clear then [] else [(ptr.toNat, 260)] }
       s.accepts h c = true ∧ thr.toNat ≤ 200) ∧
    (∃ (h : CmdHdr) (path : BitVec 8) (ptr : BitVec 32) (s : State) (p : Fin 64),
       let c : CmdSpec :=
         { opcode := 0x0407
           role := some .installer
           journal := true
           params := pb path ++ pb ptr
           ptrs := [(ptr.toNat, 512)] }
       s.accepts h c = true ∧ fin? 64 path.toNat = some p) ∧
    (∃ (h : CmdHdr) (path : BitVec 8) (set : BitVec 8) (ptr : BitVec 32) (s : State) (p : Fin 64) (ws : List (Nat ×
       BitVec 32)),
       let c : CmdSpec :=
         { opcode := 0x0408
           role := some .operator
           params := pb path ++ pb set ++ pb ptr
           ptrs := [(ptr.toNat, 512)] }
       s.accepts h c = true ∧ fin? 64 path.toNat = some p ∧ (set = 0 ∧ ws = (s.pd.paths.get p).active) ∨ (set = 1 ∧
         (s.pd.paths.get p).pending = some ws)) ∧
    (∃ (h : CmdHdr) (path : BitVec 8) (s : State) (p : Fin 64),
       let c : CmdSpec := { opcode := 0x0409, role := some .operator, params := pb path }
       s.accepts h c = true ∧ fin? 64 path.toNat = some p) :=
  ⟨⟨hd 1, 0, live, by dsimp only; decide +kernel⟩,
    ⟨hd 12, 0, 1, 0, 0, 0, live, by dsimp only; decide +kernel⟩,
    ⟨hd 3, 0, 3, 0xFF, live, 0, by dsimp only; decide +kernel⟩,
    ⟨hd 12, 0, 0, 0, 0, 0, 0, 1, 1, 0, live, by dsimp only; decide +kernel⟩,
    ⟨hd 6, 0, 1, 1, 10, 0, 0, live, by dsimp only; decide +kernel⟩,
    ⟨hd 6, 0, 0, 0x5000, live, by dsimp only; decide +kernel⟩,
    ⟨hd 5, 0, 0x5000, live, 0, by dsimp only; decide +kernel⟩,
    ⟨hd 6, 0, 0, 0x5000, live, 0, (live.pd.paths.get 0).active, by dsimp only; decide +kernel⟩,
    ⟨hd 1, 0, live, 0, by dsimp only; decide +kernel⟩⟩

set_option maxRecDepth 100000 in
/-- The hypotheses of PredistortionEventsRun. -/
theorem wit_PredistortionEventsRun :
    (∃ (t : Fin 8) (s : State),
       let u := s.orxServe t
       let o := (u.res.get t).orx
       o.busy = false ∧ u.orxReady t = true) ∧
    (∃ (t : Fin 8) (words : List (BitVec 32)) (s : State),
       let o := (s.res.get t).orx
       o.busy = true ∧ (∀ e, o.endAt = some e → e + (if o.user = .predistortion then 64 else 0) ≤ s.time.ticks) ∧
         o.user = .predistortion) ∧
    (∃ (t : Fin 8) (words : List (BitVec 32)) (s : State),
       let o := (s.res.get t).orx
       o.busy = true ∧ (∀ e, o.endAt = some e → e + (if o.user = .predistortion then 64 else 0) ≤ s.time.ticks) ∧
         o.user = .kernel) ∧
    (∃ (t : Fin 8) (words : List (BitVec 32)) (s : State),
       let o := (s.res.get t).orx
       o.busy = true ∧ (∀ e, o.endAt = some e → e + (if o.user = .predistortion then 64 else 0) ≤ s.time.ticks) ∧
         o.user = .calibration) ∧
    (∃ (t : Fin 8) (dGain : BitVec 16) (dPhase : BitVec 16) (nmse : BitVec 16) (peak : BitVec 16) (words : List (BitVec
       32)) (s : State) (j : BitVec 3),
       let x := s.pd.tiles.get t
       x.estBusy = some j ∧ x.stale = true) ∧
    (∃ (t : Fin 8) (dGain : BitVec 16) (dPhase : BitVec 16) (nmse : BitVec 16) (peak : BitVec 16) (words : List (BitVec
       32)) (s : State) (j : BitVec 3),
       let x := s.pd.tiles.get t
       x.estBusy = some j ∧ x.stale = false ∧ x.failing dGain dPhase nmse peak = 0) ∧
    (∃ (t : Fin 8) (dGain : BitVec 16) (dPhase : BitVec 16) (nmse : BitVec 16) (peak : BitVec 16) (words : List (BitVec
       32)) (s : State) (j : BitVec 3),
       let x := s.pd.tiles.get t
       let f := x.failing dGain dPhase nmse peak
       x.estBusy = some j ∧ x.stale = false ∧ f ≠ 0) ∧
    (∃ (p : Fin 64) (s : State),
       (s.pd.paths.get p).state = .adapting) ∧
    (∃ (p : Fin 64) (s : State),
       let x := s.pd.paths.get p
       x.state = .frozen ∧ x.frozenAt + (s.pd.tiles.get (tileOf p)).clearTicks ≤ s.time.ticks) :=
  ⟨⟨0, orxKern, by dsimp only; decide +kernel⟩,
    ⟨0, [], orxBusy .predistortion, by dsimp only; decide +kernel⟩,
    ⟨0, [], orxBusy .kernel, by dsimp only; decide +kernel⟩,
    ⟨0, [], orxBusy .calibration, by dsimp only; decide +kernel⟩,
    ⟨0, 0, 0, 0, 0, [], estimating true, 0, by dsimp only; decide +kernel⟩,
    ⟨0, 0, 0, 0x8000, 0xFF00, [], estimating false, 0, by dsimp only; decide +kernel⟩,
    ⟨0, 0x7FFF, 0, 0, 0, [], estimating false, 0, by dsimp only; decide +kernel⟩,
    ⟨0, { live with pd.paths := vmap live.pd.paths (fun _ x => { x with state := .adapting }) }, by decide +kernel⟩,
    ⟨0, { live with time.ticks := 2 ^ 40, pd.paths := vmap live.pd.paths (fun _ x => { x with state := .frozen }) }, by dsimp only; decide +kernel⟩⟩

set_option maxRecDepth 100000 in
/-- The hypotheses of AcquisitionCommandsRun. -/
theorem wit_AcquisitionCommandsRun_0 :
    (∃ (h : CmdHdr) (segment : BitVec 8) (base : BitVec 32) (length : BitVec 32) (slots : BitVec 16) (s : State) (g :
       Fin 64),
       let c : CmdSpec :=
         { opcode := 0x0601, role := some .operator, params := pb segment ++ pb base ++ pb length ++ pb slots }
       s.accepts h c = true ∧ fin? 64 segment.toNat = some g ∧ base.toNat % 65536 = 0 ∧ length.toNat % 65536 = 0 ∧
         length ≠ 0 ∧ 0x40000000 ≤ base.toNat ∧ base.toNat + length.toNat ≤ 0xC0000000 ∧ slots ≠ 0 ∧ 16384 ≤ slotSize
         length.toNat slots.toNat ∧ (List.finRange 64).any (fun k => k ≠ g && (match s.aq.segments.get k with
         | some q => rangesMeet base.toNat length.toNat q.base q.len
         | none => false)) = false ∧ s.segmentUsed g = false) ∧
    (∃ (h : CmdHdr) (segment : BitVec 8) (s : State) (g : Fin 64),
       let c : CmdSpec := { opcode := 0x0602, role := some .operator, params := pb segment }
       s.accepts h c = true ∧ fin? 64 segment.toNat = some g ∧ s.segmentUsed g = false) ∧
    (∃ (h : CmdHdr) (channel : BitVec 8) (op : BitVec 8) (kind : BitVec 8) (index : BitVec 8) (segment : BitVec 8)
       (unit : BitVec 8) (pre : BitVec 32) (post : BitVec 32) (format : BitVec 8) (mode : BitVec 8) (reductions :
       BitVec 8) (bt : BitVec 8) (flow : BitVec 8) (s : State) (k : Fin 16),
       let c : CmdSpec :=
         { opcode := 0x0603
           role := some .operator
           params := pb channel ++ pb op ++ pb kind ++ pb index ++ pb segment ++ pb unit ++ pb pre ++ pb post ++ pb
             format ++ pb mode ++ pb reductions ++ pb bt ++ pb flow }
       s.accepts h c = true ∧ fin? 16 channel.toNat = some k ∧ op = 1 ∧ (s.aq.chans.get k).isArmed = false) ∧
    (∃ (h : CmdHdr) (channel : BitVec 8) (op : BitVec 8) (kind : BitVec 8) (index : BitVec 8) (segment : BitVec 8)
       (unit : BitVec 8) (pre : BitVec 32) (post : BitVec 32) (format : BitVec 8) (mode : BitVec 8) (reductions :
       BitVec 8) (bt : BitVec 8) (flow : BitVec 8) (s : State) (k : Fin 16) (g : Fin 64) (u : Fin 16) (q : Segment),
       let c : CmdSpec :=
         { opcode := 0x0603
           role := some .operator
           params := pb channel ++ pb op ++ pb kind ++ pb index ++ pb segment ++ pb unit ++ pb pre ++ pb post ++ pb
             format ++ pb mode ++ pb reductions ++ pb bt ++ pb flow }
       let strm := decide (flow ≠ 0xFF)
       let f12b := decide (format = 1)
       let env := reductions.getLsbD 0
       let per := s.chPeriod kind index
       let capN := slotCap (slotSize q.len q.slots) f12b env
       let grd := guardOf (s.aq.units.get u).hzn per
       let w : State := (s.enter.unconfigure k).modCh k (fun x =>
         { x with
           cfgd := true
           state := .configured
           kind := kind
           index := index
           segment := g
           unit := u
           pre := pre.toNat
           post := post.toNat
           f12 := f12b
           ring := decide (mode = 1)
           envelope := env
           spectra := reductions.getLsbD 1
           meas := reductions.getLsbD 2
           bt := bt
           stream := if strm then fin? 64 flow.toNat else none
           cap := capN
           guard := grd
           postS := postSOf strm capN pre.toNat post.toNat grd
           slot := 0
           recNo := 0
           records := 0 })
       let v : State := if strm then bindRx w flow.toNat (.stream k) (streamCharge (983040000 / per) f12b (lenMaxOf
         s.enter false flow.toNat)) false else w
       s.accepts h c = true ∧ fin? 16 channel.toNat = some k ∧ op = 0 ∧ fin? 64 segment.toNat = some g ∧ fin? 16
         unit.toNat = some u ∧ srcIndexOk kind index = true ∧ s.aq.segments.get g = some q ∧ pre.toNat < 2 ^ 24 ∧ post
         ≠ 0 ∧ format.toNat ≤ 1 ∧ mode.toNat ≤ 1 ∧ reductions.toNat ≤ 7 ∧ bt ≠ 0 ∧ bt.toNat ≤ 40 ∧ (strm = false ∨
         (flow.toNat ≤ 63 ∧ rxFlowFree s flow.toNat (.stream k) = true)) ∧ fits253 strm capN pre.toNat post.toNat grd =
         true ∧ (s.aq.chans.get k).isArmed = false ∧ v.storeFits = true ∧ (strm = false ∨ admitted v false = true)) ∧
    (∃ (h : CmdHdr) (unit : BitVec 8) (aCode : BitVec 8) (aIdx : BitVec 8) (bCode : BitVec 8) (bIdx : BitVec 8) (op :
       BitVec 8) (limit : BitVec 32) (holdoff : BitVec 32) (evt : BitVec 8) (s : State) (u : Fin 16),
       let c : CmdSpec :=
         { opcode := 0x0604
           role := some .operator
           params := pb unit ++ pb aCode ++ pb aIdx ++ pb bCode ++ pb bIdx ++ pb op ++ pb limit ++ pb holdoff ++ pb evt }
       let v : State := State.rehorizon
         { s.enter with
           aq.units := vmod s.aq.units u (fun x =>
             { x with
               aCode := aCode
               aIdx := aIdx
               bCode := bCode
               bIdx := bIdx
               op := op
               limit := limit
               holdoff := holdoff
               evt := decide (evt = 1)
               inbox := []
               as := []
               bs := []
               ignore := none }) }
       s.accepts h c = true ∧ fin? 16 unit.toNat = some u ∧ trigCodeOk aCode aIdx = true ∧ (bCode = 0 ∨ trigCodeOk
         bCode bIdx = true) ∧ op.toNat ≤ 3 ∧ limit ≠ 0 ∧ evt.toNat ≤ 1 ∧ v.chansFit = true) ∧
    (∃ (h : CmdHdr) (det : BitVec 8) (kind : BitVec 8) (index : BitVec 8) (w : BitVec 8) (thr : BitVec 16) (hys :
       BitVec 16) (dir : BitVec 8) (dwell : BitVec 16) (s : State) (d : Fin 16),
       let c : CmdSpec :=
         { opcode := 0x0605
           role := some .operator
           params := pb det ++ pb kind ++ pb index ++ pb w ++ pb thr ++ pb hys ++ pb dir ++ pb dwell }
       let v : State := State.rehorizon
         { s.enter with
           aq.levels := vmod s.aq.levels d (fun x =>
             { x with
               enabled := true
               kind := kind
               index := index
               w := w
               thr := thr
               hys := hys
               falling := decide (dir = 1)
               dwell := dwell
               line := []
               armed := false
               run := 0
               prev := none
               due := [] }) }
       s.accepts h c = true ∧ fin? 16 det.toNat = some d ∧ srcIndexOk kind index = true ∧ w.toNat ≤ 6 ∧ dir.toNat ≤ 1 ∧
         dwell ≠ 0 ∧ thr.toInt ≤ 0 ∧ -10240 ≤ thr.toInt ∧ hys.toNat ≤ 1280 ∧ v.chansFit = true) ∧
    (∃ (h : CmdHdr) (input : BitVec 8) (edges : BitVec 8) (s : State) (j : Fin 4),
       let c : CmdSpec := { opcode := 0x0606, role := some .operator, params := pb input ++ pb edges }
       s.accepts h c = true ∧ fin? 4 input.toNat = some j ∧ edges.toNat ≤ 2) ∧
    (∃ (h : CmdHdr) (pin : BitVec 8) (owner : BitVec 8) (kind : BitVec 8) (index : BitVec 8) (polarity : BitVec 8)
       (width : BitVec 16) (s : State) (j : Fin 4),
       let c : CmdSpec :=
         { opcode := 0x0607
           role := some .operator
           params := pb pin ++ pb owner ++ pb kind ++ pb index ++ pb polarity ++ pb width }
       s.accepts h c = true ∧ fin? 4 pin.toNat = some j ∧ owner.toNat ≤ 1 ∧ kind.toNat ≤ 2 ∧ polarity.toNat ≤ 1 ∧ width
         ≠ 0 ∧ (if kind = 0 then index.toNat < 16 else index.toNat < 36)) ∧
    (∃ (h : CmdHdr) (chans : BitVec 16) (window : BitVec 8) (s : State),
       let c : CmdSpec := { opcode := 0x0608, role := some .operator, params := pb chans ++ pb window }
       s.accepts h c = true ∧ winBad window = false ∧ s.armOk chans (winParam window) = true) ∧
    (∃ (h : CmdHdr) (chans : BitVec 16) (s : State),
       let c : CmdSpec := { opcode := 0x0609, role := some .operator, params := pb chans }
       s.accepts h c = true) ∧
    (∃ (h : CmdHdr) (units : BitVec 16) (s : State),
       let c : CmdSpec := { opcode := 0x060A, role := some .operator, params := pb units }
       s.accepts h c = true) ∧
    (∃ (h : CmdHdr) (units : BitVec 8) (s : State),
       let c : CmdSpec := { opcode := 0x060B, role := some .operator, params := pb units }
       s.accepts h c = true) :=
  ⟨⟨hd 11, 0, 0x40000000, 0x10000, 1, live, 0, by dsimp only; decide +kernel⟩,
    ⟨hd 1, 0, live, 0, by dsimp only; decide +kernel⟩,
    ⟨hd 19, 0, 1, 0, 0, 0, 0, 0, 0, 0, 0, 0, 0, 0, live, 0, by dsimp only; decide +kernel⟩,
    ⟨hd 19, 0, 0, 0, 0, 0, 0, 0, 1000, 0, 0, 0, 1, 0xFF, seg0, 0, 0, 0, { base := 0x40000000, len := 0x100000, slots := 1, slot := 0 }, by dsimp only; decide +kernel⟩,
    ⟨hd 15, 0, 1, 0, 0, 0, 0, 1, 0, 0, live, 0, by dsimp only; decide +kernel⟩,
    ⟨hd 11, 0, 0, 0, 0, 0, 0, 0, 1, live, 0, by dsimp only; decide +kernel⟩,
    ⟨hd 2, 0, 0, live, 0, by dsimp only; decide +kernel⟩,
    ⟨hd 7, 0, 0, 0, 0, 0, 1, live, 0, by dsimp only; decide +kernel⟩,
    ⟨hd 3, 0, 0xFF, live, by dsimp only; decide +kernel⟩,
    ⟨hd 2, 0, live, by dsimp only; decide +kernel⟩,
    ⟨hd 2, 0, live, by dsimp only; decide +kernel⟩,
    ⟨hd 1, 0, live, by dsimp only; decide +kernel⟩⟩

set_option maxRecDepth 100000 in
/-- The hypotheses of AcquisitionCommandsRun. -/
theorem wit_AcquisitionCommandsRun_1 :
    (∃ (h : CmdHdr) (s : State),
       let c : CmdSpec := { opcode := 0x060C, role := some .operator, params := [] }
       s.accepts h c = true) ∧
    (∃ (h : CmdHdr) (channel : BitVec 8) (s : State) (k : Fin 16),
       let c : CmdSpec := { opcode := 0x060D, role := some .operator, params := pb channel }
       s.accepts h c = true ∧ fin? 16 channel.toNat = some k) :=
  ⟨⟨hd 0, live, by dsimp only; decide +kernel⟩,
    ⟨hd 1, 0, live, 0, by dsimp only; decide +kernel⟩⟩

set_option maxRecDepth 100000 in
/-- The hypotheses of TriggerEventsRun. -/
theorem wit_TriggerEventsRun :
    (∃ (lv : Fin 16) (s : State) (p : Nat × Nat) (q : Nat × Nat) (rest : List ((Nat × Nat) × (Nat × Nat))),
       let d := s.aq.levels.get lv
       d.due = (p, q) :: rest) ∧
    (∃ (u : Fin 16) (s : State) (f : Firing) (fs : List Firing) (y : Time),
       let x := s.aq.units.get u
       x.inbox = f :: fs ∧ x.ignore = some y ∧ f.time < y) ∧
    (∃ (u : Fin 16) (s : State) (f : Firing) (fs : List Firing),
       let x := s.aq.units.get u
       x.inbox = f :: fs ∧ (∀ t, x.ignore = some t → t ≤ f.time) ∧ x.op = 0 ∧ x.aCode = f.code ∧ x.aIdx = f.index) ∧
    (∃ (u : Fin 16) (s : State) (f : Firing) (fs : List Firing),
       let x := s.aq.units.get u
       x.inbox = f :: fs ∧ (∀ t, x.ignore = some t → t ≤ f.time) ∧ x.op = 1) ∧
    (∃ (u : Fin 16) (s : State) (f : Firing) (fs : List Firing),
       let x := s.aq.units.get u
       x.inbox = f :: fs ∧ (∀ t, x.ignore = some t → t ≤ f.time) ∧ x.op ≠ 0 ∧ x.op ≠ 1) ∧
    (∃ (u : Fin 16) (s : State),
       let x := s.aq.units.get u
       2 ≤ x.op.toNat) ∧
    (∃ (pin : Fin 4) (s : State) (e : Nat),
       (s.aq.trigOut.get pin).pulse = some e ∧ e ≤ s.time.ticks) ∧
    (∃ (c : Fin 16) (s : State) (r : Record),
       let x := s.aq.chans.get c
       x.state = .recording ∧ x.record = some r ∧ x.ended r = true) ∧
    (∃ (c : Fin 16) (s : State) (r : Record),
       let x := s.aq.chans.get c
       x.state = .rearm ∧ x.record = some r) :=
  ⟨⟨0, { live with aq.levels := vmap live.aq.levels (fun _ d => { d with due := [((0, 0), (1, 1))] }) }, (0, 0), (1, 1), [], by dsimp only; decide +kernel⟩,
    ⟨0, fired 1 (some 1), fir, [], 1, by dsimp only; decide +kernel⟩,
    ⟨0, fired 0 none, fir, [], by dsimp only; decide +kernel⟩,
    ⟨0, fired 1 none, fir, [], by dsimp only; decide +kernel⟩,
    ⟨0, fired 2 none, fir, [], by dsimp only; decide +kernel⟩,
    ⟨0, fired 2 none, by dsimp only; decide +kernel⟩,
    ⟨0, { live with aq.trigOut := vmap live.aq.trigOut (fun _ p => { p with pulse := some 0 }) }, 0, by decide +kernel⟩,
    ⟨0, recs .recording, rec0, by dsimp only; decide +kernel⟩,
    ⟨0, recs .rearm, rec0, by dsimp only; decide +kernel⟩⟩

set_option maxRecDepth 100000 in
/-- The hypotheses of CalibrationCommandsRun. -/
theorem wit_CalibrationCommandsRun :
    (∃ (h : CmdHdr) (kinds : BitVec 8) (tiles : BitVec 8) (deadline : BitVec 72) (count : BitVec 8) (fcs : List (BitVec
       64)) (s : State),
       let c : CmdSpec :=
         { opcode := 0x0801
           role := some .operator
           params := pb kinds ++ pb tiles ++ pb deadline ++ pb count ++ fcs.flatMap pb }
       s.accepts h c = true ∧ count.toNat ≤ 4 ∧ fcs.length = count.toNat ∧ kinds ≠ 0 ∧ tiles ≠ 0 ∧ fcs.all (fun f =>
         decide (1000000000 ≤ f.toNat ∧ f.toNat ≤ 6800000000)) = true ∧ (maskBits 8 tiles.toNat).any (fun t =>
         calKinds.any (fun k => kinds.getLsbD k.bit && (s.calPending t k).isSome)) = false) ∧
    (∃ (h : CmdHdr) (kinds : BitVec 8) (tiles : BitVec 8) (s : State),
       let c : CmdSpec := { opcode := 0x0802, role := some .operator, params := pb kinds ++ pb tiles }
       s.accepts h c = true) ∧
    (∃ (h : CmdHdr) (windows : BitVec 64) (limit : BitVec 16) (s : State),
       let c : CmdSpec :=
         { opcode := 0x0803, role := some .installer, journal := true, params := pb windows ++ pb limit }
       s.accepts h c = true ∧ (limit = 0 ∨ 9 ≤ limit.toNat)) ∧
    (∃ (h : CmdHdr) (path : BitVec 8) (level : BitVec 8) (s : State) (p : Fin 64),
       let c : CmdSpec := { opcode := 0x0804, role := some .installer, journal := true, params := pb path ++ pb level }
       s.accepts h c = true ∧ fin? 64 path.toNat = some p ∧ -60 ≤ level.toInt ∧ level.toInt ≤ -10) ∧
    (∃ (h : CmdHdr) (s : State),
       let c : CmdSpec := { opcode := 0x0805, role := some .installer, journal := true, params := [] }
       s.accepts h c = true ∧ s.cal.store = none ∧ s.flashBusy = false ∧ s.pup.restarting = false ∧ s.tempForbidden =
         false ∧ s.enter.holdUp.2 = true) ∧
    (∃ (h : CmdHdr) (s : State),
       let c : CmdSpec := { opcode := 0x0805, role := some .installer, journal := true, params := [] }
       s.accepts h c = true ∧ s.cal.store = none ∧ s.flashBusy = false ∧ s.pup.restarting = false ∧ s.tempForbidden =
         false ∧ s.enter.holdUp.2 = false) ∧
    (∃ (h : CmdHdr) (cap : BitVec 32) (vmin : BitVec 16) (divider : BitVec 16) (ePage : BitVec 16) (eErase : BitVec 16)
       (s : State),
       let c : CmdSpec :=
         { opcode := 0x0806
           role := some .installer
           journal := true
           params := pb cap ++ pb vmin ++ pb divider ++ pb ePage ++ pb eErase }
       s.accepts h c = true ∧ ePage ≠ 0 ∧ eErase ≠ 0) ∧
    (∃ (h : CmdHdr) (offA : BitVec 16) (offB : BitVec 16) (rmin : BitVec 8) (rmax : BitVec 8) (ren : BitVec 8) (s :
       State),
       let c : CmdSpec :=
         { opcode := 0x0807
           role := some .installer
           journal := true
           params := pb offA ++ pb offB ++ pb rmin ++ pb rmax ++ pb ren }
       let a := offA.toNat * 65536
       let b := offB.toNat * 65536
       let meets := fun (x n : Nat) => decide ((a < x + n ∧ x < a + 262144) ∨ (b < x + n ∧ x < b + 262144))
       s.accepts h c = true ∧ ¬ (a < b + 262144 ∧ b < a + 262144) ∧ meets 0x400000 0x40000 = false ∧ meets 0x480000
         4096 = false ∧ meets 0x490000 4096 = false ∧ rmin.toInt ≤ rmax.toInt ∧ ren.toNat ≤ 1 ∧ s.cal.store = none) ∧
    (∃ (h : CmdHdr) (tile : BitVec 8) (s : State) (t : Fin 8),
       let c : CmdSpec := { opcode := 0x0808, role := some .operator, params := pb tile }
       s.accepts h c = true ∧ fin? 8 tile.toNat = some t) ∧
    (∃ (h : CmdHdr) (kind : BitVec 8) (object : BitVec 8) (point : BitVec 8) (ptr : BitVec 32) (s : State) (ws : List
       Int),
       let c : CmdSpec :=
         { opcode := 0x0809
           role := some .operator
           params := pb kind ++ pb object ++ pb point ++ pb ptr
           ptrs := [(ptr.toNat, calSetLen kind)] }
       s.accepts h c = true ∧ point.toNat ≤ 4 ∧ s.calSetWords kind object point.toNat = some ws) :=
  ⟨⟨hd 12, 1, 1, 0, 0, [], live, by dsimp only; decide +kernel⟩,
    ⟨hd 2, 0, 0, live, by dsimp only; decide +kernel⟩,
    ⟨hd 10, 0, 0, live, by dsimp only; decide +kernel⟩,
    ⟨hd 2, 0, 0xE0, live, 0, by dsimp only; decide +kernel⟩,
    ⟨hd 0, charged, by dsimp only; decide +kernel⟩,
    ⟨hd 0, live, by dsimp only; decide +kernel⟩,
    ⟨hd 12, 0, 0, 0, 1, 1, live, by dsimp only; decide +kernel⟩,
    ⟨hd 7, 0x50, 0x54, 0, 0, 0, live, by dsimp only; decide +kernel⟩,
    ⟨hd 1, 0, live, 0, by dsimp only; decide +kernel⟩,
    ⟨hd 7, 0, 0, 0, 0x5000, live, List.replicate 25 0, by dsimp only; decide +kernel⟩⟩

set_option maxRecDepth 100000 in
/-- The hypotheses of CalibrationEventsRun. -/
theorem wit_CalibrationEventsRun :
    (∃ (t : Fin 8) (s : State),
       s.hk.halt = false ∧ s.pup.restarting = false ∧ s.pup.halted = false) ∧
    (∃ (t : Fin 8) (s : State) (c : Claim),
       (s.cal.tiles.get t).claim = some c ∧ c.running = false ∧ c.start ≤ s.time.ticks ∧ (s.cal.bus = .free ∨ s.cal.bus
         = .calibration t)) ∧
    (∃ (t : Fin 8) (s : State) (c : Claim),
       (s.cal.tiles.get t).claim = some c ∧ c.running = true ∧ c.start + c.len ≤ s.time.ticks) ∧
    (∃ (t : Fin 8) (kind : Fin 8) (failing : BitVec 16) (tm : BitVec 16) (results : List (BitVec 16 × BitVec 16)) (s :
       State) (c : CalPend),
       let k := calKinds.getD kind.val .hkTrim
       s.calPending t k = some c ∧ c.work.isEmpty = true ∧ failing ≠ 0) ∧
    (∃ (t : Fin 8) (kind : Fin 8) (failing : BitVec 16) (tm : BitVec 16) (results : List (BitVec 16 × BitVec 16)) (s :
       State) (c : CalPend),
       let k := calKinds.getD kind.val .hkTrim
       s.calPending t k = some c ∧ c.work.isEmpty = true ∧ failing = 0) :=
  ⟨⟨0, live, by decide +kernel⟩,
    ⟨0, claimed false, claim0 false, by decide +kernel⟩,
    ⟨0, claimed true, claim0 true, by decide +kernel⟩,
    ⟨0, 0, 1, 0, [], { live with cal.tiles := vmap live.cal.tiles (fun _ x => { x with pending := [pend0] }) }, pend0, by dsimp only; decide +kernel⟩,
    ⟨0, 0, 0, 0, [], { live with cal.tiles := vmap live.cal.tiles (fun _ x => { x with pending := [pend0] }) }, pend0, by dsimp only; decide +kernel⟩⟩

set_option maxRecDepth 100000 in
/-- The hypotheses of AnalyserCommandsRun. -/
theorem wit_AnalyserCommandsRun :
    (∃ (h : CmdHdr) (lanes : BitVec 16) (mode : BitVec 8) (path : BitVec 8) (port : BitVec 8) (z : BitVec 8) (window :
       BitVec 8) (overlap : BitVec 8) (units : BitVec 8) (s : State),
       let c : CmdSpec :=
         { opcode := 0x0501
           role := some .operator
           params := pb lanes ++ pb mode ++ pb path ++ pb port ++ pb z ++ pb window ++ pb overlap ++ pb units }
       let touches := decide (s.an.stitch.members ≠ 0 ∧ lanes.setWidth 8 &&& s.an.stitch.members ≠ 0)
       let k : LaneCfg :=
         { tap := decide (mode = 1)
           path := path.setWidth 3
           portB := decide (port = 1)
           z := z.setWidth 4
           window := window.setWidth 3
           overlap := overlap.setWidth 2
           dbm := decide (units = 1) }
       let u : State := (lanesOf lanes).foldl (fun s l => s.stage (laneSrc l) (fun x => { x with lane := k })) s.enter
       let v : State := if touches then u.stage 8 (fun x => { x with lane := k }) else u
       s.accepts h c = true ∧ lanes.toNat < 256 ∧ mode.toNat ≤ 1 ∧ path.toNat ≤ 7 ∧ port.toNat ≤ 1 ∧ z.toNat ≤ 8 ∧
         window.toNat ≤ 6 ∧ overlap.toNat ≤ 2 ∧ units.toNat ≤ 1 ∧ (touches = false ∨ (lanes.setWidth 8 &&&
         s.an.stitch.members = s.an.stitch.members ∧ z.toNat = s.an.stitch.z.toNat)) ∧ (mode = 0 ∨ (lanesOf lanes).all
         (fun l => decide ((s.radio.get l).use = .aperture)) = true) ∧ (admitted v false && v.storeFits) = true) ∧
    (∃ (h : CmdHdr) (tiles : BitVec 8) (f0 : BitVec 64) (z : BitVec 8) (s : State),
       let c : CmdSpec := { opcode := 0x0502, role := some .operator, params := pb tiles ++ pb f0 ++ pb z }
       s.accepts h c = true ∧ tiles = 0) ∧
    (∃ (h : CmdHdr) (tiles : BitVec 8) (f0 : BitVec 64) (z : BitVec 8) (s : State),
       let c : CmdSpec := { opcode := 0x0502, role := some .operator, params := pb tiles ++ pb f0 ++ pb z }
       let ms := maskBits 8 tiles.toNat
       let zz : BitVec 4 := z.setWidth 4
       let fcs := ms.mapIdx (fun m l => (l, stitchFreq f0.toNat zz (stitchCentre zz m)))
       let fcOf := fun (l : Fin 8) => ((fcs.find? (fun c => decide (c.1 = l))).map (fun c => c.2)).getD 0
       let j := stitchJ zz ms.length
       let k : LaneCfg := { (s.an.src.get (laneSrc (ms.headD 0))).staged.lane with z := zz }
       let u : State :=
         { s.enter.clearStitch with
           an.stitch :=
             { members := tiles
               f0 := f0
               z := zz
               j := BitVec.ofNat 32 j
               fc := Vector.ofFn (fun l => BitVec.ofNat 64 (fcOf l))
               announced := false } }
       let v : State := (ms.map laneSrc ++ [8]).foldl (fun (s : State) (a : Fin 9) => s.stitchTake k a) u
       s.accepts h c = true ∧ tiles ≠ 0 ∧ 2 ≤ ms.length ∧ z.toNat ≤ 8 ∧ fcs.all (fun c => decide (1000000000 ≤ c.2 ∧
         c.2 ≤ 6800000000)) = true ∧ (admitted v false && v.storeFits) = true) ∧
    (∃ (h : CmdHdr) (source : BitVec 8) (output : BitVec 8) (first : BitVec 32) (count : BitVec 32) (period : BitVec
       16) (k : BitVec 32) (avgMode : BitVec 8) (inclBlanked : BitVec 8) (maskOvl : BitVec 8) (flow : BitVec 8)
       (segment : BitVec 8) (s : State) (a : Fin 9) (o : Fin 4),
       let c : CmdSpec :=
         { opcode := 0x0503
           role := some .operator
           params := pb source ++ pb output ++ pb first ++ pb count ++ pb period ++ pb k ++ pb avgMode ++ pb
             inclBlanked ++ pb maskOvl ++ pb flow ++ pb segment }
       let q := s.an.src.get a
       let lo : Int := if a.val < 8 then -(Int.ofNat (q.staged.lane.size / 2)) else 0
       let hi : Int := if a.val < 8 then Int.ofNat (q.staged.lane.size / 2) else Int.ofNat s.an.stitch.j.toNat
       let x : AnOutput :=
         { first := first
           count := count
           period := period
           k := k
           avgLog := decide (avgMode = 1)
           inclBl := decide (inclBlanked = 1)
           maskOvl := decide (maskOvl = 1)
           flow := fin? 64 flow.toNat
           segment := if segment = 0xFF then none else fin? 64 segment.toNat }
       let v := s.enter.stage a (fun c => { c with outs := c.outs.set o.val (some x) o.isLt })
       s.accepts h c = true ∧ fin? 9 source.toNat = some a ∧ fin? 4 output.toNat = some o ∧ (a ≠ 8 ∨
         s.an.stitch.members ≠ 0) ∧ count ≠ 0 ∧ lo ≤ first.toInt ∧ first.toInt + Int.ofNat count.toNat ≤ hi ∧ period ≠
         0 ∧ k ≠ 0 ∧ k.toNat ≤ 16777215 ∧ avgMode.toNat ≤ 1 ∧ inclBlanked.toNat ≤ 1 ∧ maskOvl.toNat ≤ 1 ∧ (flow = 0xFF
         ∨ rxFlowFree s flow.toNat (.spectrum a o) = true) ∧ (segment = 0xFF ∨ (match (fin? 64 segment.toNat).bind (fun
         g => s.aq.segments.get g) with
         | none => false
         | some r => decide (20 + 2 * count.toNat ≤ slotSize r.len r.slots)) = true) ∧ (admitted v false &&
             v.storeFits) = true) ∧
    (∃ (h : CmdHdr) (source : BitVec 8) (mask : BitVec 8) (polarity : BitVec 8) (enterD : BitVec 16) (leaveD : BitVec
       16) (evt : BitVec 8) (count : BitVec 16) (ptr : BitVec 32) (s : State) (a : Fin 9) (m : Fin 4) (ps : List (Int ×
       Int)),
       let c : CmdSpec :=
         { opcode := 0x0504
           role := some .operator
           params := pb source ++ pb mask ++ pb polarity ++ pb enterD ++ pb leaveD ++ pb evt ++ pb count ++ pb ptr
           ptrs := if count = 0 then [] else [(ptr.toNat, 8 * count.toNat)] }
       let z := (s.an.src.get a).staged.lane.z
       let lo : Int := if a.val < 8 then -(validBand z) else 0
       let hi : Int := if a.val < 8 then validBand z else Int.ofNat s.an.stitch.j.toNat - 1
       let x : Option AnMask := if count = 0 then none else some
         { lower := decide (polarity = 1), enterD := enterD, leaveD := leaveD, evt := decide (evt = 1), points := ps }
       let put := fun (s : State) (b : Fin 9) (y : Option AnMask) => s.stage b (fun c =>
         { c with masks := c.masks.set m.val y m.isLt })
       let u : State := if a = 8 then s.an.stitch.list.foldl (fun s l => put s (laneSrc l) none) (put s.enter a x) else
         put s.enter a x
       let v : State := u.rehorizon
       s.accepts h c = true ∧ fin? 9 source.toNat = some a ∧ fin? 4 mask.toNat = some m ∧ (a ≠ 8 ∨ s.an.stitch.members
         ≠ 0) ∧ polarity.toNat ≤ 1 ∧ enterD ≠ 0 ∧ leaveD ≠ 0 ∧ evt.toNat ≤ 1 ∧ count.toNat ≤ 512 ∧ readPoints (memRead
         0 s.pup.mbRam ptr.toNat (8 * count.toNat)) count.toNat = some ps ∧ pointsRise ps = true ∧ s.maskTaken a m =
         false ∧ ps.all (fun p => decide (lo ≤ p.1 ∧ p.1 ≤ hi)) = true ∧ (a ≠ 8 ∨ s.an.stitch.list.all (fun l => decide
         (s.sliceLen ps l ≤ 512)) = true) ∧ v.chansFit = true) ∧
    (∃ (h : CmdHdr) (lane : BitVec 8) (b0 : BitVec 32) (c : BitVec 32) (top : BitVec 16) (step : BitVec 8) (flow :
       BitVec 8) (s : State) (l : Fin 8),
       let cs : CmdSpec :=
         { opcode := 0x0505
           role := some .operator
           params := pb lane ++ pb b0 ++ pb c ++ pb top ++ pb step ++ pb flow }
       let vb := validBand (s.an.src.get (laneSrc l)).staged.lane.z
       let v := s.enter.stage (laneSrc l) (fun x =>
         { x with dens := { b0 := b0, c := c, top := top, step := step, flow := flow } })
       s.accepts h cs = true ∧ fin? 8 lane.toNat = some l ∧ c ≠ 0 ∧ -vb ≤ b0.toInt ∧ b0.toInt + Int.ofNat c.toNat - 1 ≤
         vb ∧ step ≠ 0 ∧ (flow = 0xFF ∨ rxFlowFree s flow.toNat (.density l) = true) ∧ admitted v false = true) ∧
    (∃ (h : CmdHdr) (lanes : BitVec 16) (s : State),
       let c : CmdSpec := { opcode := 0x0506, role := some .operator, params := pb lanes }
       s.accepts h c = true ∧ lanes.toNat < 256 ∧ s.swapBusy (lanesOf lanes) = false) ∧
    (∃ (h : CmdHdr) (lanes : BitVec 16) (s : State),
       let c : CmdSpec := { opcode := 0x0507, role := some .operator, params := pb lanes }
       s.accepts h c = true ∧ lanes.toNat < 512) ∧
    (∃ (h : CmdHdr) (lanes : BitVec 16) (offset : BitVec 16) (s : State),
       let c : CmdSpec :=
         { opcode := 0x0508, role := some .installer, journal := true, params := pb lanes ++ pb offset }
       s.accepts h c = true ∧ lanes.toNat < 256 ∧ -8192 ≤ offset.toInt ∧ offset.toInt ≤ 8191) ∧
    (∃ (h : CmdHdr) (lane : BitVec 8) (s : State) (l : Fin 8),
       let c : CmdSpec := { opcode := 0x0509, role := some .operator, params := pb lane }
       s.accepts h c = true ∧ fin? 8 lane.toNat = some l) :=
  ⟨⟨hd 9, 0, 0, 0, 0, 0, 0, 0, 0, live, by dsimp only; decide +kernel⟩,
    ⟨hd 10, 0, 0, 0, live, by dsimp only; decide +kernel⟩,
    ⟨hd 10, 3, 2000000000, 0, live, by dsimp only; decide +kernel⟩,
    ⟨hd 21, 0, 0, 0, 1, 1, 1, 0, 0, 0, 0xFF, 0xFF, live, 0, 0, by dsimp only; decide +kernel⟩,
    ⟨hd 14, 0, 0, 0, 1, 1, 0, 0, 0, live, 0, 0, [], by dsimp only; decide +kernel⟩,
    ⟨hd 13, 0, 0, 1, 0, 1, 0xFF, live, 0, by dsimp only; decide +kernel⟩,
    ⟨hd 2, 0, live, by dsimp only; decide +kernel⟩,
    ⟨hd 2, 0, live, by dsimp only; decide +kernel⟩,
    ⟨hd 4, 0, 0, live, by dsimp only; decide +kernel⟩,
    ⟨hd 1, 0, live, 0, by dsimp only; decide +kernel⟩⟩

set_option maxRecDepth 100000 in
/-- The hypotheses of AnalyserEventsRun. -/
theorem wit_AnalyserEventsRun :
    (∃ (src : Fin 9) (s : State) (l : Fin 8),
       fin? 8 src.val = some l) ∧
    (∃ (src : Fin 9) (s : State),
       src = 8 ∧ s.an.stitch.members ≠ 0) ∧
    (∃ (src : Fin 9) (out : Fin 4) (s : State) (x : AnOutput),
       (s.an.src.get src).cfg.outs.get out = some x ∧ out ≠ 0 ∧ x.k.toNat ≤ ((s.an.src.get src).traces.get out).seen) ∧
    (∃ (src : Fin 8) (s : State) (b : Nat),
       let q := s.an.src.get (laneSrc src)
       q.swapReq = some b ∧ (b ≤ s.time.ticks ∧ (s.laneMode src = .off ∨ b ≤ q.nextFrame))) :=
  ⟨⟨0, framed, 0, by decide +kernel⟩,
    ⟨8, framed, by decide +kernel⟩,
    ⟨0, 1, traced, out0, by decide +kernel⟩,
    ⟨0, { live with an.src := vmap live.an.src (fun _ y => { y with swapReq := some 0 }) }, 0, by dsimp only; decide +kernel⟩⟩

set_option maxRecDepth 100000 in
/-- The hypotheses of LaneCommandsRun. -/
theorem wit_LaneCommandsRun :
    (∃ (h : CmdHdr) (rate : BitVec 8) (minLanes : BitVec 8) (auto : BitVec 8) (manual : BitVec 8) (timeout : BitVec 16)
       (swing : BitVec 8) (s : State),
       let c : CmdSpec :=
         { opcode := 0x0701
           role := some .installer
           journal := true
           params := pb rate ++ pb minLanes ++ pb auto ++ pb manual ++ pb timeout ++ pb swing }
       s.accepts h c = true ∧ (rate.toNat ≤ 3 ∨ rate = 0xFF) ∧ (minLanes = 0xFF ∨ (1 ≤ minLanes.toNat ∧ minLanes.toNat
         ≤ 16)) ∧ (auto.toNat ≤ 1 ∨ auto = 0xFF) ∧ (manual.toNat ≤ 1 ∨ manual = 0xFF) ∧ (timeout = 0xFFFF ∨ (10 ≤
         timeout.toNat ∧ timeout.toNat ≤ 10000)) ∧ (swing = 0xFF ∨ (4 ≤ swing.toNat ∧ swing.toNat ≤ 10)) ∧ (rate = 0xFF
         ∨ rate.toNat = s.link.rate.toNat ∨ s.link.lanes.toList.all (fun x => decide (x.pstate = .ragdoll)) = true)) ∧
    (∃ (h : CmdHdr) (lanes : BitVec 16) (s : State),
       let c : CmdSpec := { opcode := 0x0702, role := some .operator, params := pb lanes }
       s.accepts h c = true) ∧
    (∃ (h : CmdHdr) (lane : BitVec 8) (count : BitVec 8) (s : State) (l : Fin 16),
       let c : CmdSpec := { opcode := 0x0703, role := some .installer, journal := true, params := pb lane ++ pb count }
       s.accepts h c = true ∧ fin? 16 lane.toNat = some l ∧ count ≠ 0 ∧ count.toNat ≤ 66 ∧ s.link.manual = true) ∧
    (∃ (h : CmdHdr) (lanes : BitVec 16) (state : BitVec 8) (s : State) (t : LaneTarget),
       let c : CmdSpec := { opcode := 0x0704, role := some .operator, params := pb lanes ++ pb state }
       s.accepts h c = true ∧ laneTarget? state = some t ∧ laneStateOk s lanes t = true) ∧
    (∃ (h : CmdHdr) (lanes : BitVec 16) (loop : BitVec 8) (s : State),
       let c : CmdSpec := { opcode := 0x0705, role := some .installer, journal := true, params := pb lanes ++ pb loop }
       s.accepts h c = true ∧ loop.toNat ≤ 3 ∧ lanes &&& s.link.active = 0) ∧
    (∃ (h : CmdHdr) (lanes : BitVec 16) (gen : BitVec 8) (chk : BitVec 8) (s : State),
       let c : CmdSpec :=
         { opcode := 0x0706, role := some .installer, journal := true, params := pb lanes ++ pb gen ++ pb chk }
       s.accepts h c = true ∧ (gen.toNat ≤ 3 ∨ gen = 0xFF) ∧ (chk.toNat ≤ 3 ∨ chk = 0xFF) ∧ lanes &&& s.link.active = 0) ∧
    (∃ (h : CmdHdr) (lanes : BitVec 16) (burst : BitVec 8) (rep : BitVec 8) (s : State),
       let c : CmdSpec :=
         { opcode := 0x0707, role := some .installer, journal := true, params := pb lanes ++ pb burst ++ pb rep }
       s.accepts h c = true ∧ burst ≠ 0 ∧ (rep = 0 ∨ (20 ≤ rep.toNat ∧ rep.toNat ≤ 40)) ∧ (maskBits 16 lanes.toNat).all
         (fun l => (s.link.lanes.get l).prbs.genEn) = true) ∧
    (∃ (h : CmdHdr) (lane : BitVec 8) (s : State) (l : Fin 16),
       let c : CmdSpec := { opcode := 0x0708, role := some .operator, params := pb lane }
       s.accepts h c = true ∧ fin? 16 lane.toNat = some l) ∧
    (∃ (h : CmdHdr) (lane : BitVec 8) (s : State) (l : Fin 16),
       let c : CmdSpec := { opcode := 0x0709, role := some .operator, params := pb lane }
       s.accepts h c = true ∧ fin? 16 lane.toNat = some l) ∧
    (∃ (h : CmdHdr) (lanes : BitVec 16) (p1 : BitVec 8) (p2 : BitVec 8) (p3 : BitVec 8) (p4 : BitVec 8) (s : State),
       let c : CmdSpec :=
         { opcode := 0x070A
           role := some .installer
           journal := true
           params := pb lanes ++ pb p1 ++ pb p2 ++ pb p3 ++ pb p4 }
       s.accepts h c = true ∧ p1.toNat ≤ 7 ∧ p2.toNat ≤ 7 ∧ p3.toNat ≤ 7 ∧ p4.toNat ≤ 7) :=
  ⟨⟨hd 7, 0xFF, 1, 0, 0, 0xFFFF, 0xFF, live, by dsimp only; decide +kernel⟩,
    ⟨hd 2, 0, live, by dsimp only; decide +kernel⟩,
    ⟨hd 2, 0, 1, { live with link := { live.link with manual := true } }, 0, by dsimp only; decide +kernel⟩,
    ⟨hd 3, 0, 0, live, .on, by dsimp only; decide +kernel⟩,
    ⟨hd 3, 0, 0, live, by dsimp only; decide +kernel⟩,
    ⟨hd 4, 0, 0, 0, live, by dsimp only; decide +kernel⟩,
    ⟨hd 4, 0, 1, 0, live, by dsimp only; decide +kernel⟩,
    ⟨hd 1, 0, live, 0, by dsimp only; decide +kernel⟩,
    ⟨hd 1, 0, live, 0, by dsimp only; decide +kernel⟩,
    ⟨hd 6, 0, 0, 0, 0, 0, live, by dsimp only; decide +kernel⟩⟩

set_option maxRecDepth 100000 in
/-- The hypotheses of LaneEventsRun. -/
theorem wit_LaneEventsRun_0 :
    (∃ (s : State) (r : StartRun) (rs : List StartRun),
       s.link.start = r :: rs ∧ r.till ≤ s.time.ticks) ∧
    (∃ (l : Fin 16) (s : State) (e : Nat),
       (s.link.lanes.get l).exitAt = some e ∧ e ≤ s.time.ticks) ∧
    (∃ (l : Fin 16) (s : State),
       (s.link.lanes.get l).isOn = true) ∧
    (∃ (l : Fin 16) (s : State),
       let x := s.link.lanes.get l
       x.role = .bringup ∧ x.cdr = false ∧ x.bringAt + 1474560 ≤ s.time.ticks) ∧
    (∃ (l : Fin 16) (hdr : BitVec 2) (s : State),
       let x := s.link.lanes.get l
       x.isOn = true ∧ x.cdr = true) ∧
    (∃ (l : Fin 16) (s : State),
       let x := s.link.lanes.get l
       x.role = .bringup ∧ x.lock = false ∧ x.slipDue.isSome = true ∧ s.link.manual = false ∧ s.pup.ready = true) ∧
    (∃ (l : Fin 16) (s : State) (t : Nat),
       let x := s.link.lanes.get l
       x.lostAt = some t ∧ t + 1967 ≤ s.time.ticks ∧ x.lock = false ∧ x.role ≠ .test ∧ x.role ≠ .held ∧ x.role ≠
         .offline) ∧
    (∃ (l : Fin 16) (transitions : BitVec 12) (s : State),
       (s.link.lanes.get l).isOn = true) ∧
    (∃ (l : Fin 16) (payload : BitVec 64) (skew : BitVec 8) (complemented : Bool) (s : State),
       let x := s.link.lanes.get l
       let b := pb payload
       x.lock = true ∧ x.isOn = true ∧ b.getD 0 0 = 0x4B ∧ markerOk b = true) ∧
    (∃ (s : State),
       s.resetN = true) ∧
    (∃ (s : State),
       s.link.up = true) ∧
    (∃ (l : Fin 16) (bits : List Bool) (s : State),
       (s.link.lanes.get l).prbs.chkEn = true) :=
  ⟨⟨{ live with link.start := [{ mask := 1, till := 0 }] }, { mask := 1, till := 0 }, [], by decide +kernel⟩,
    ⟨0, { live with link.lanes := vmap live.link.lanes (fun _ x => { x with exitAt := some 0 }) }, 0, by decide +kernel⟩,
    ⟨0, { live with link.lanes := vmap live.link.lanes (fun _ x => { x with pstate := .on, exitAt := none }) }, by decide +kernel⟩,
    ⟨0, { live with time.ticks := 1474560, link.lanes := vmap live.link.lanes (fun _ x => { x with role := .bringup, cdr := false, bringAt := 0 }) }, by dsimp only; decide +kernel⟩,
    ⟨0, 1, { live with link.lanes := vmap live.link.lanes (fun _ x => { x with pstate := .on, exitAt := none, cdr := true }) }, by dsimp only; decide +kernel⟩,
    ⟨0, { live with link.lanes := vmap live.link.lanes (fun _ x => { x with role := .bringup, lock := false, slipDue := some 0 }) }, by dsimp only; decide +kernel⟩,
    ⟨0, { live with time.ticks := 1967, link.lanes := vmap live.link.lanes (fun _ x => { x with role := .idle, lock := false, lostAt := some 0 }) }, 0, by dsimp only; decide +kernel⟩,
    ⟨0, 0, { live with link.lanes := vmap live.link.lanes (fun _ x => { x with pstate := .on, exitAt := none }) }, by decide +kernel⟩,
    ⟨0, 0x4B0000000000004B, 0, false, { live with link.lanes := vmap live.link.lanes (fun _ x => { x with pstate := .on, exitAt := none, lock := true }) }, by dsimp only; decide +kernel⟩,
    ⟨live, by decide +kernel⟩,
    ⟨{ live with link.up := true }, by decide +kernel⟩,
    ⟨0, [], { live with link.lanes := vmap live.link.lanes (fun _ x => { x with prbs.chkEn := true }) }, by decide +kernel⟩⟩

set_option maxRecDepth 100000 in
/-- The hypotheses of LaneEventsRun. -/
theorem wit_LaneEventsRun_1 :
    ∃ (l : Fin 16) (s : State),
      (s.link.lanes.get l).prbs.genEn = true ∧ (s.link.lanes.get l).prbs.repeat_ ≠ 0 :=
  ⟨0, { live with link.lanes := vmap live.link.lanes (fun _ x => { x with prbs.genEn := true, prbs.repeat_ := 20 }) }, by decide +kernel⟩

set_option maxRecDepth 100000 in
/-- The hypotheses of LinkCommandsRun. -/
theorem wit_LinkCommandsRun :
    (∃ (h : CmdHdr) (dir : BitVec 8) (flow : BitVec 8) (prio : BitVec 8) (lenMax : BitVec 16) (s : State) (f : Fin 64),
       let c : CmdSpec :=
         { opcode := 0x0710, role := some .operator, params := pb dir ++ pb flow ++ pb prio ++ pb lenMax }
       s.accepts h c = true ∧ fin? 64 flow.toNat = some f ∧ dir.toNat ≤ 1 ∧ prio.toNat ≤ 7 ∧ 256 ≤ lenMax.toNat ∧
         lenMax.toNat ≤ 8192 ∧ lenMax.toNat % 4 = 0 ∧ (if dir = 0 then (s.link.rxFlows.get f).src.isBound else
         (s.link.txFlows.get f).src.isBound) = false) ∧
    (∃ (h : CmdHdr) (lane : BitVec 8) (flow : BitVec 8) (format : BitVec 8) (s : State) (j : Fin 9) (l : Fin 8),
       let c : CmdSpec := { opcode := 0x0711, role := some .operator, params := pb lane ++ pb flow ++ pb format }
       s.accepts h c = true ∧ fin? 9 lane.toNat = some j ∧ fin? 8 lane.toNat = some l ∧ format.toNat ≤ 2 ∧ flow = 0xFF) ∧
    (∃ (h : CmdHdr) (lane : BitVec 8) (flow : BitVec 8) (format : BitVec 8) (s : State) (j : Fin 9) (l : Fin 8),
       let c : CmdSpec := { opcode := 0x0711, role := some .operator, params := pb lane ++ pb flow ++ pb format }
       let u := unbindRxIf s.enter (fun x => decide (x = .laneIq l))
       let v := bindRx u flow.toNat (.laneIq l) (laneIqCharge format.toNat (lenMaxOf s.enter false flow.toNat)) false
       s.accepts h c = true ∧ fin? 9 lane.toNat = some j ∧ fin? 8 lane.toNat = some l ∧ format.toNat ≤ 2 ∧ flow.toNat ≤
         63 ∧ rxFlowFree s flow.toNat (.laneIq l) = true ∧ admitted v false = true) ∧
    (∃ (h : CmdHdr) (dir : BitVec 8) (flow : BitVec 8) (s : State) (f : Fin 64),
       let c : CmdSpec := { opcode := 0x0712, role := some .operator, params := pb dir ++ pb flow }
       s.accepts h c = true ∧ fin? 64 flow.toNat = some f ∧ dir = 0) ∧
    (∃ (h : CmdHdr) (dir : BitVec 8) (flow : BitVec 8) (s : State) (f : Fin 64),
       let c : CmdSpec := { opcode := 0x0712, role := some .operator, params := pb dir ++ pb flow }
       s.accepts h c = true ∧ fin? 64 flow.toNat = some f ∧ dir = 1) ∧
    (∃ (h : CmdHdr) (dir : BitVec 8) (s : State),
       let c : CmdSpec := { opcode := 0x0713, role := some .operator, params := pb dir }
       s.accepts h c = true ∧ dir.toNat ≤ 1) ∧
    (∃ (h : CmdHdr) (replayT : BitVec 32) (holdMs : BitVec 32) (memTo : BitVec 32) (route : BitVec 8) (s : State),
       let c : CmdSpec :=
         { opcode := 0x0714
           role := some .installer
           journal := true
           params := pb replayT ++ pb holdMs ++ pb memTo ++ pb route }
       s.accepts h c = true ∧ 4096 ≤ replayT.toNat ∧ replayT.toNat ≤ 983040 ∧ 100 ≤ holdMs.toNat ∧ holdMs.toNat ≤ 60000
         ∧ 98304 ≤ memTo.toNat ∧ memTo.toNat ≤ 98304000 ∧ route.toNat ≤ 1) :=
  ⟨⟨hd 5, 0, 0, 0, 256, live, 0, by dsimp only; decide +kernel⟩,
    ⟨hd 3, 0, 0xFF, 0, live, 0, 0, by dsimp only; decide +kernel⟩,
    ⟨hd 3, 0, 0, 0, linkFull, 0, 0, by dsimp only; decide +kernel⟩,
    ⟨hd 2, 0, 0, live, 0, by dsimp only; decide +kernel⟩,
    ⟨hd 2, 1, 0, live, 0, by dsimp only; decide +kernel⟩,
    ⟨hd 1, 0, live, by dsimp only; decide +kernel⟩,
    ⟨hd 13, 4096, 100, 98304, 0, live, by dsimp only; decide +kernel⟩⟩

set_option maxRecDepth 100000 in
/-- The hypotheses of LinkPacketsRun. -/
theorem wit_LinkPacketsRun :
    (∃ (pkt : RxPkt) (s : State) (m : Fin 4),
       let u : State :=
         { s with
           link :=
             { s.link with
               relRx := s.link.relRx + 1
               nakFor := none
               unacked := s.link.unacked + 1
               ackDue := some (s.link.ackDue.getD (s.time.ticks + 1967)) } }
       let t := u.pup.ctail.get m
       s.rxScreen pkt 255 (decide (pkt.fmt &&& 0x87#8 = 7)) = none ∧ pkt.seq = s.link.relRx ∧ fin? 4 pkt.flow.toNat =
         some m ∧ u.pup.mbCfg.getLsbD m.val = true ∧ pkt.flags.getLsbD 8 = false ∧ (t - u.pup.chead.get m).toNat < 32) ∧
    (∃ (pkt : RxPkt) (s : State) (m : Fin 4),
       s.rxScreen pkt 255 (decide (pkt.fmt &&& 0x87#8 = 7)) = none ∧ pkt.seq = s.link.relRx ∧ fin? 4 pkt.flow.toNat =
         some m) ∧
    (∃ (pkt : RxPkt) (s : State),
       s.rxScreen pkt 255 (decide (pkt.fmt &&& 0x87#8 = 7)) = none ∧ pkt.seq = s.link.relRx ∧ 4 ≤ pkt.flow.toNat) ∧
    (∃ (pkt : RxPkt) (s : State),
       s.rxScreen pkt 0 (decide (pkt.fmt &&& 0x87#8 = 7)) = none) ∧
    (∃ (s : State),
       s.link.unacked ≠ 0) ∧
    (∃ (s : State) (x : Held) (xs : List Held),
       s.link.held = x :: xs ∧ x.sent + s.link.replayT.toNat ≤ s.time.ticks) ∧
    (∃ (s : State) (x : Held) (xs : List Held),
       s.link.held = x :: xs ∧ x.first + s.link.holdMs.toNat * 983040 ≤ s.time.ticks) ∧
    (∃ (f : Fin 64) (s : State),
       let x := s.link.txFlows.get f
       x.src.isBound = true ∧ x.shed = false ∧ s.link.up = true ∧ (x.due = true ∨ bufferOf x.charge / 8 ≤ x.freed ∨
         x.creditAt + 9830 ≤ s.time.ticks)) ∧
    (∃ (f : Fin 64) (s : State) (p : Packet) (ps : List Packet),
       (s.link.rxFlows.get f).ready = p :: ps ∧ (s.link.up && s.flowRuns f) = true) ∧
    (∃ (s : State),
       let a := if (s.pup.evtSent - s.pup.evtRd).toNat ≤ s.pup.evtUsed then s.pup.evtSent else s.pup.evtRd
       let n := (s.pup.evtWr - a).toNat
       s.link.evtRoute = true ∧ s.link.up = true ∧ s.link.held.length < 128 ∧ 0 < n) :=
  ⟨⟨cmdPkt, linkFull, 0, by dsimp only; decide +kernel⟩,
    ⟨{ cmdPkt with flags := 256 }, linkFull, 0, by decide +kernel⟩,
    ⟨{ cmdPkt with flow := 4 }, linkFull, by decide +kernel⟩,
    ⟨{ cmdPkt with payload := List.replicate 8 0 }, linkFull, by decide +kernel⟩,
    ⟨{ linkFull with link.unacked := 1 }, by decide +kernel⟩,
    ⟨{ linkFull with link.held := [held0], time.ticks := 2 ^ 40 }, held0, [], by decide +kernel⟩,
    ⟨{ linkFull with link.held := [held0], time.ticks := 2 ^ 50 }, held0, [], by decide +kernel⟩,
    ⟨0, { txReady 0 with link.txFlows := vmap (txReady 0).link.txFlows (fun _ x => { x with due := true, shed := false }) }, by dsimp only; decide +kernel⟩,
    ⟨0, { linkFull with link.rxFlows := vmap linkFull.link.rxFlows (fun _ x => { x with src := .beam 0, shed := false, ready := [held0.pkt] }) }, held0.pkt, [], by decide +kernel⟩,
    ⟨{ linkFull with link.evtRoute := true, pup.evtWr := 1 }, by dsimp only; decide +kernel⟩⟩

set_option maxRecDepth 100000 in
/-- The hypotheses of DmaCommandsRun. -/
theorem wit_DmaCommandsRun :
    (∃ (h : CmdHdr) (channel : BitVec 8) (op : BitVec 8) (mode : BitVec 8) (base : BitVec 32) (len : BitVec 16) (burst
       : BitVec 8) (uses : BitVec 8) (rate : BitVec 16) (paceTile : BitVec 8) (paceQ : BitVec 8) (high : BitVec 16)
       (low : BitVec 16) (bound : BitVec 8) (evt : BitVec 8) (s : State) (k : Fin 64),
       let c : CmdSpec :=
         { opcode := 0x0C01
           role := some .operator
           params := pb channel ++ pb op ++ pb mode ++ pb base ++ pb len ++ pb burst ++ pb uses ++ pb rate ++ pb
             paceTile ++ pb paceQ ++ pb high ++ pb low ++ pb bound ++ pb evt }
       let x := s.dma.chans.get k
       s.accepts h c = true ∧ hostChan channel = some k ∧ op = 1 ∧ (!x.state.isStopped && decide (x.state ≠ .idle)) =
         false) ∧
    (∃ (h : CmdHdr) (channel : BitVec 8) (op : BitVec 8) (mode : BitVec 8) (base : BitVec 32) (len : BitVec 16) (burst
       : BitVec 8) (uses : BitVec 8) (rate : BitVec 16) (paceTile : BitVec 8) (paceQ : BitVec 8) (high : BitVec 16)
       (low : BitVec 16) (bound : BitVec 8) (evt : BitVec 8) (s : State) (k : Fin 64),
       let c : CmdSpec :=
         { opcode := 0x0C01
           role := some .operator
           params := pb channel ++ pb op ++ pb mode ++ pb base ++ pb len ++ pb burst ++ pb uses ++ pb rate ++ pb
             paceTile ++ pb paceQ ++ pb high ++ pb low ++ pb bound ++ pb evt }
       let x := s.dma.chans.get k
       let b := 64 * burst.toNat
       let paced := decide (paceTile ≠ 0xFF)
       let q := decide (paceQ = 1)
       let pt : Fin 8 := (paceTile.setWidth 3 : BitVec 3).toFin
       let u : State := s.enter.modDm k (fun x =>
         { x with
           state := .ready
           configured := true
           ring := decide (mode = 1)
           base := if mode = 1 then base else x.base
           len := if mode = 1 then len.setWidth 13 else x.len
           head := 0
           tail := 0
           killed := false
           run := none
           burst := burst.setWidth 7
           uses := uses.setWidth 4
           rate := rate
           paced := paced
           paceT := if paced then pt else 0
           paceQ := paced && q
           high := if paced then high else BitVec.ofNat 16 b
           low := if paced then low else BitVec.ofNat 16 (b - 1)
           boundT := if bound = 0xFF then none else some (bound.setWidth 3 : BitVec 3).toFin
           evtEn := decide (evt = 1)
           req := !paced })
       s.accepts h c = true ∧ hostChan channel = some k ∧ op = 0 ∧ (!x.state.isStopped && decide (x.state ≠ .idle)) =
         false ∧ mode.toNat ≤ 1 ∧ burst ≠ 0 ∧ burst.toNat ≤ 64 ∧ uses.toNat < 16 ∧ rate ≠ 0 ∧ rate.toNat ≤ 48000 ∧
         evt.toNat ≤ 1 ∧ (bound.toNat ≤ 7 ∨ bound = 0xFF) ∧ (paceTile.toNat ≤ 7 ∨ paceTile = 0xFF) ∧ (mode ≠ 1 ∨
         (base.toNat % 32 = 0 ∧ len ≠ 0 ∧ len.toNat ≤ 4096)) ∧ (paceTile = 0xFF ∨ (paceQ.toNat ≤ 1 ∧ b ≤ high.toNat ∧ b
         ≤ low.toNat + 1 ∧ low.toNat < high.toNat)) ∧ (paceTile = 0xFF ∨ s.pacedBy pt q = none ∨ s.pacedBy pt q = some
         k) ∧ u.dmFits k = true) ∧
    (∃ (h : CmdHdr) (chans : BitVec 64) (addr : BitVec 32) (s : State),
       let c : CmdSpec := { opcode := 0x0C02, role := some .operator, params := pb chans ++ pb addr }
       let cs := maskBits 64 chans.toNat
       s.accepts h c = true ∧ chans.getLsbD 63 = false ∧ (cs.filter (fun c => (s.dma.chans.get c).needsAddr)).length ≤
         1 ∧ cs.any (fun c => !(s.dma.chans.get c).state.isStopped || ((s.dma.chans.get c).ring && (s.dma.chans.get
         c).killed)) = false) ∧
    (∃ (h : CmdHdr) (channel : BitVec 8) (tail : BitVec 16) (s : State) (k : Fin 64),
       let c : CmdSpec := { opcode := 0x0C03, role := some .operator, params := pb channel ++ pb tail }
       s.accepts h c = true ∧ hostChan channel = some k ∧ tail.toNat < (s.dma.chans.get k).len.toNat) ∧
    (∃ (h : CmdHdr) (chans : BitVec 64) (s : State),
       let c : CmdSpec := { opcode := 0x0C04, role := some .operator, params := pb chans }
       s.accepts h c = true ∧ chans.getLsbD 63 = false) ∧
    (∃ (h : CmdHdr) (chans : BitVec 64) (s : State),
       let c : CmdSpec := { opcode := 0x0C05, role := some .operator, params := pb chans }
       s.accepts h c = true ∧ chans.getLsbD 63 = false) ∧
    (∃ (h : CmdHdr) (channel : BitVec 8) (s : State) (k : Fin 64),
       let c : CmdSpec := { opcode := 0x0C06, role := some .operator, params := pb channel }
       s.accepts h c = true ∧ hostChan channel = some k) ∧
    (∃ (h : CmdHdr) (unit : BitVec 8) (crc : BitVec 8) (s : State) (u : Fin 8),
       let c : CmdSpec := { opcode := 0x0C10, role := some .operator, params := pb unit ++ pb crc }
       s.accepts h c = true ∧ hostUnit unit = some u ∧ crc.toNat ≤ 2 ∧ (s.dma.units.get u).owner = none) ∧
    (∃ (h : CmdHdr) (unit : BitVec 8) (s : State) (u : Fin 8),
       let c : CmdSpec := { opcode := 0x0C11, role := some .operator, params := pb unit }
       s.accepts h c = true ∧ hostUnit unit = some u) ∧
    (∃ (ch : Fin 64) (data : BitVec 32) (s : State),
       let n := bitsOf data.toNat 12 0
       s.mgmtOn = true ∧ (s.dma.chans.get ch).state.isStopped = true ∧ 1 ≤ n ∧ n ≤ 4096) ∧
    (∃ (ch : Fin 64) (data : BitVec 32) (s : State),
       s.mgmtOn = true ∧ bitsOf data.toNat 11 0 < (s.dma.chans.get ch).len.toNat) :=
  ⟨⟨hd 21, 0, 1, 0, 0, 0, 0, 0, 0, 0, 0, 0, 0, 0, 0, live, 0, by dsimp only; decide +kernel⟩,
    ⟨hd 21, 0, 0, 0, 0, 0, 1, 0, 1, 0xFF, 0, 0, 0, 0xFF, 0, live, 0, by dsimp only; decide +kernel⟩,
    ⟨hd 12, 1, 0, dmAll (fun x => { x with state := .ready }), by dsimp only; decide +kernel⟩,
    ⟨hd 3, 0, 0, dmAll (fun x => { x with len := 1 }), 0, by dsimp only; decide +kernel⟩,
    ⟨hd 8, 1, live, by dsimp only; decide +kernel⟩,
    ⟨hd 8, 1, live, by dsimp only; decide +kernel⟩,
    ⟨hd 1, 0, live, 0, by dsimp only; decide +kernel⟩,
    ⟨hd 2, 0, 0, live, 0, by dsimp only; decide +kernel⟩,
    ⟨hd 1, 0, live, 0, by dsimp only; decide +kernel⟩,
    ⟨0, 1, dmAll (fun x => { x with state := .ready }), by dsimp only; decide +kernel⟩,
    ⟨0, 0, dmAll (fun x => { x with len := 1 }), by decide +kernel⟩⟩

set_option maxRecDepth 100000 in
/-- The hypotheses of DmaEventsRun. -/
theorem wit_DmaEventsRun :
    (∃ (c : Fin 64) (s : State),
       let x := s.dma.chans.get c
       s.dmOn = true ∧ x.state = .running ∧ x.run = none ∧ (x.ring = false ∨ x.head ≠ x.tail) ∧ s.localWaits
         x.descAt.toNat = false ∧ s.descCause c x.descAt.toNat = 0) ∧
    (∃ (c : Fin 64) (s : State) (r : DescRun),
       let v := s.sampleReq c
       (s.dma.chans.get c).run = some r ∧ r.burst = none ∧ s.dmOn = true ∧ v.burstReady c r = true ∧ r.desc.srcKind = 0) ∧
    (∃ (c : Fin 64) (s : State) (r : DescRun) (tag : Nat),
       let v := s.sampleReq c
       (s.dma.chans.get c).run = some r ∧ r.burst = none ∧ s.dmOn = true ∧ v.burstReady c r = true ∧ r.desc.srcKind ≠ 0
         ∧ v.freeTag = some tag) ∧
    (∃ (pkt : RxPkt) (s : State) (m : MemRead),
       let f := fun (o n : Nat) => unle ((pkt.payload.drop o).take n)
       s.rxScreen pkt 63 (decide (pkt.fmt &&& 0x87#8 = 7)) = none ∧ pkt.seq = s.link.relRx ∧ s.link.reads.find? (fun m
         => decide (m.tag.toNat = f 10 1 ∧ m.chan.val = pkt.flow.toNat ∧ f 12 4 = m.got.length ∧ f 0 8 = m.addr.toNat +
         m.got.length)) = some m ∧ f 11 1 = 0) ∧
    (∃ (tag : Fin 32) (s : State) (m : MemRead),
       s.link.reads.find? (fun m => decide (m.tag.toNat = tag.val)) = some m ∧ m.sent + s.link.memTo.toNat ≤
         s.time.ticks) ∧
    (∃ (c : Fin 64) (s : State) (r : DescRun) (n : Nat),
       (s.dma.chans.get c).run = some r ∧ r.burst = some n ∧ s.dmOn = true ∧ r.data.length = n) ∧
    (∃ (c : Fin 64) (s : State) (r : DescRun) (since : Nat),
       (s.dma.chans.get c).run = some r ∧ s.dmOn = true ∧ r.burst = none ∧ r.desc.outLen ≤ r.moved ∧ r.fenceAt = some
         since ∧ s.fenceHere c r.desc = true) ∧
    (∃ (c : Fin 64) (s : State) (r : DescRun),
       (s.dma.chans.get c).run = some r ∧ s.dmOn = true ∧ r.burst = none ∧ r.desc.outLen ≤ r.moved ∧ r.fenceAt = none ∧
         r.desc.append = false) :=
  ⟨⟨0, { dmAll (fun x => { x with state := .running, desc := 0x10011000 }) with pup.mbRam := memWrite 0 [] 0x1000 (le 8 0x10011000 ++ le 8 0x10012000 ++ le 3 64) }, by dsimp only; decide +kernel⟩,
    ⟨0, dmAll (fun x => { x with state := .running, burst := 1, rate := 1, run := some (drun desc0 0 none) }), drun desc0 0 none, by dsimp only; decide +kernel⟩,
    ⟨0, dmAll (fun x => { x with state := .running, burst := 1, rate := 1, run := some (drun descHost 0 none) }), drun descHost 0 none, 0, by dsimp only; decide +kernel⟩,
    ⟨rdPkt, reading, read0, by dsimp only; decide +kernel⟩,
    ⟨0, reading, read0, by decide +kernel⟩,
    ⟨0, dmAll (fun x => { x with run := some (drun desc0 0 (some 64)) }), drun desc0 0 (some 64), 64, by decide +kernel⟩,
    ⟨0, dmAll (fun x => { x with run := some { drun desc0 64 none with fenceAt := some 0 } }), { drun desc0 64 none with fenceAt := some 0 }, 0, by decide +kernel⟩,
    ⟨0, dmAll (fun x => { x with run := some (drun desc0 64 none) }), drun desc0 64 none, by decide +kernel⟩⟩

set_option maxRecDepth 100000 in
/-- The hypotheses of PowerCommandsRun. -/
theorem wit_PowerCommandsRun :
    (∃ (h : CmdHdr) (target : BitVec 8) (lane : BitVec 8) (s : State),
       let c : CmdSpec := { opcode := 0x0910, role := some .operator, params := pb target ++ pb lane }
       s.accepts h c = true ∧ target = 0 ∧ s.pw.dev = .doze) ∧
    (∃ (h : CmdHdr) (target : BitVec 8) (lane : BitVec 8) (s : State),
       let c : CmdSpec := { opcode := 0x0910, role := some .operator, params := pb target ++ pb lane }
       s.accepts h c = true ∧ (target = 1 ∨ target = 2) ∧ (target = 2 ∨ lane = 1 ∨ lane = 2) ∧ (s.pw.entry = none ∧
         s.pw.wake = none ∧ (s.pw.dev ≠ .doze ∨ target = 2))) ∧
    (∃ (h : CmdHdr) (tiles : BitVec 8) (s : State),
       let c : CmdSpec := { opcode := 0x0911, role := some .operator, params := pb tiles }
       let new := tiles &&& ~~~s.pw.parked
       s.accepts h c = true ∧ ((maskBits 8 new.toNat).any (fun t => decide ((s.radio.get t).use ≠ .out ∨ (s.radio.get
         t).state ≠ .off) || (s.radio.get t).transit.isSome || s.pw.unparking.getLsbD t.val) = false)) ∧
    (∃ (h : CmdHdr) (banks : BitVec 16) (s : State),
       let c : CmdSpec := { opcode := 0x0912, role := some .operator, params := pb banks }
       s.accepts h c = true ∧ banks.toNat < 512) ∧
    (∃ (h : CmdHdr) (pinEn : BitVec 8) (timerEn : BitVec 8) (timer : BitVec 32) (s : State),
       let c : CmdSpec :=
         { opcode := 0x0913, role := some .installer, journal := true, params := pb pinEn ++ pb timerEn ++ pb timer }
       s.accepts h c = true ∧ pinEn.toNat ≤ 1 ∧ timerEn.toNat ≤ 1) ∧
    (∃ (h : CmdHdr) (s : State),
       let c : CmdSpec := { opcode := 0x0914, role := some .operator, params := [] }
       s.accepts h c = true) :=
  ⟨⟨hd 2, 0, 0, { live with pw.dev := .doze }, by dsimp only; decide +kernel⟩,
    ⟨hd 2, 2, 0, live, by dsimp only; decide +kernel⟩,
    ⟨hd 1, 1, { live with radio := vmap live.radio (fun _ r => { r with use := .out, state := .off }) }, by dsimp only; decide +kernel⟩,
    ⟨hd 2, 0, live, by dsimp only; decide +kernel⟩,
    ⟨hd 6, 0, 0, 0, live, by dsimp only; decide +kernel⟩,
    ⟨hd 0, live, by dsimp only; decide +kernel⟩⟩

set_option maxRecDepth 100000 in
/-- The hypotheses of PowerEventsRun. -/
theorem wit_PowerEventsRun :
    (∃ (block : Fin 15) (ok : Bool) (s : State) (e : Entry),
       ok = true ∧ s.pw.entry = some e ∧ e.phase2 = none ∧ blockAt e.asked = block.val ∧ s.entryReason e block.val = 0) ∧
    (∃ (s : State) (e : Entry),
       s.pw.entry = some e ∧ e.phase2 = none ∧ e.since + msTicks ≤ s.time.ticks ∧ s.entryReason e (blockAt e.asked) ≠ 7) ∧
    (∃ (s : State) (e : Entry) (since : Nat),
       s.pw.entry = some e ∧ e.phase2 = some since ∧ ((s.pup.evtRd - (e.evtSlot + 1)).toNat ≤ 256 ∨ since + msTicks ≤
         s.time.ticks)) ∧
    (∃ (t : Fin 8) (s : State),
       s.mgmtOn = true ∧ s.pw.unparking.getLsbD t.val = true) ∧
    (∃ (heldTwo : Bool) (s : State),
       heldTwo = true ∧ s.pw.pinEn = true ∧ s.resetN = true ∧ s.pw.vddio = true) ∧
    (∃ (s : State),
       s.pw.dev = .retain ∧ s.pw.timerEn = true ∧ s.pw.timer.toNat ≤ s.pw.slept) ∧
    (∃ (s : State) (w : WakeRun),
       s.pw.wake = some w ∧ s.pw.dev = .doze) ∧
    (∃ (s : State) (w : WakeRun),
       s.pw.wake = some w ∧ s.pw.dev = .retain ∧ w.step < 4) ∧
    (∃ (s : State) (w : WakeRun),
       s.pw.wake = some w ∧ s.pw.dev = .retain ∧ 4 ≤ w.step) ∧
    (∃ (s : State) (w : WakeRun),
       s.pw.wake = some w ∧ s.pw.dev = .retain ∧ w.retry = false) ∧
    (∃ (s : State) (w : WakeRun),
       s.pw.wake = some w ∧ s.pw.dev = .retain ∧ w.retry = true) :=
  ⟨⟨9, true, entering (entry1 false), entry1 false, by decide +kernel⟩,
    ⟨entering (entry1 false), entry1 false, by decide +kernel⟩,
    ⟨entering { entry1 true with phase2 := some 0 }, { entry1 true with phase2 := some 0 }, 0, by decide +kernel⟩,
    ⟨0, { live with pw.unparking := 1 }, by decide +kernel⟩,
    ⟨true, { live with pw.pinEn := true }, by decide +kernel⟩,
    ⟨{ live with pw := { live.pw with dev := .retain, timerEn := true, timer := 0 } }, by decide +kernel⟩,
    ⟨waking .doze (wakeAt 0 false), wakeAt 0 false, by decide +kernel⟩,
    ⟨waking .retain (wakeAt 1 false), wakeAt 1 false, by decide +kernel⟩,
    ⟨waking .retain (wakeAt 4 false), wakeAt 4 false, by decide +kernel⟩,
    ⟨waking .retain (wakeAt 1 false), wakeAt 1 false, by decide +kernel⟩,
    ⟨waking .retain (wakeAt 1 true), wakeAt 1 true, by decide +kernel⟩⟩

set_option maxRecDepth 100000 in
/-- The hypotheses of SupplyAndBootEventsRun. -/
theorem wit_SupplyAndBootEventsRun :
    (∃ (s : State),
       s.pw.vddio = false) ∧
    (∃ (rail : Fin 10) (s : State),
       (s.pw.dev ≠ .retain ∨ s.railSpare rail = false)) ∧
    (∃ (s : State),
       s.resetN = true ∧ s.pw.vddio = true ∧ s.pw.dev ≠ .off) ∧
    (∃ (bootmode : BitVec 2) (refclk : Bool) (s : State),
       s.resetN = false ∧ s.pw.vddio = true) ∧
    (∃ (s : State) (b : BootRun),
       s.pup.boot = some b ∧ s.mgmtOn = true ∧ s.pup.halted = false ∧ s.bootDone b = true) ∧
    (∃ (s : State) (b : BootRun),
       s.pup.boot = some b ∧ s.mgmtOn = true ∧ b.trial = true ∧ b.start + 294912000 ≤ s.time.ticks) ∧
    (∃ (s : State),
       s.mgmtOn = true ∧ s.pup.halted = false) ∧
    (∃ (s : State),
       s.mgmtOn = true ∧ s.pup.halted = false) :=
  ⟨⟨{ live with pw.vddio := false }, by decide +kernel⟩,
    ⟨0, live, by decide +kernel⟩,
    ⟨live, by decide +kernel⟩,
    ⟨0, true, State.reset, by decide +kernel⟩,
    ⟨booting (boot0 .boot false), boot0 .boot false, by decide +kernel⟩,
    ⟨booting (boot0 .boot true), boot0 .boot true, by decide +kernel⟩,
    ⟨live, by decide +kernel⟩,
    ⟨live, by decide +kernel⟩⟩

set_option maxRecDepth 100000 in
/-- The hypotheses of PuppeteerCommandsRun. -/
theorem wit_PuppeteerCommandsRun :
    (∃ (h : CmdHdr) (s : State),
       let c : CmdSpec := { opcode := 0x0101, role := some .operator, params := [] }
       s.accepts h c = true) ∧
    (∃ (h : CmdHdr) (s : State),
       let c : CmdSpec := { opcode := 0x0104, role := some .operator, params := [] }
       s.accepts h c = true) ∧
    (∃ (h : CmdHdr) (offset : BitVec 32) (length : BitVec 32) (ptr : BitVec 32) (final : BitVec 8) (s : State),
       let n := length.toNat
       let c : CmdSpec :=
         { opcode := 0x0102
           role := some .installer
           journal := true
           params := pb offset ++ pb length ++ pb ptr ++ pb final
           ptrs := [(ptr.toNat, n)] }
       s.accepts h c = true ∧ s.hk.halt = false ∧ s.tempForbidden = false ∧ 4 ≤ n ∧ n ≤ 32768 ∧ n % 4 = 0 ∧ final.toNat
         ≤ 1 ∧ offset.toNat + n ≤ 459008 ∧ s.cal.store = none ∧ s.journalBusy = false ∧ s.pup.job = .none ∧ offset = 0) ∧
    (∃ (h : CmdHdr) (offset : BitVec 32) (length : BitVec 32) (ptr : BitVec 32) (final : BitVec 8) (s : State) (x :
       StageRun),
       let n := length.toNat
       let c : CmdSpec :=
         { opcode := 0x0102
           role := some .installer
           journal := true
           params := pb offset ++ pb length ++ pb ptr ++ pb final
           ptrs := [(ptr.toNat, n)] }
       s.accepts h c = true ∧ s.hk.halt = false ∧ s.tempForbidden = false ∧ 4 ≤ n ∧ n ≤ 32768 ∧ n % 4 = 0 ∧ final.toNat
         ≤ 1 ∧ offset.toNat + n ≤ 459008 ∧ s.cal.store = none ∧ s.journalBusy = false ∧ s.pup.job = .none ∧ offset ≠ 0
         ∧ s.pup.stage = some x ∧ offset.toNat = x.next) ∧
    (∃ (h : CmdHdr) (slot : BitVec 8) (s : State),
       let c : CmdSpec := { opcode := 0x0103, role := some .installer, journal := true, params := pb slot }
       let b := if slot = 0 then s.pup.slotB else decide (slot = 2)
       s.accepts h c = true ∧ slot.toNat ≤ 2 ∧ s.imageCause b = 0) ∧
    (∃ (mb : Fin 4) (data : BitVec 32) (s : State),
       let c : BitVec 6 := data.setWidth 6
       s.portOpen = true ∧ s.pup.mbCfg.getLsbD mb.val = false ∧ (c - s.pup.chead.get mb).toNat ≤ 32) ∧
    (∃ (data : BitVec 32) (s : State),
       s.portOpen = true ∧ (List.finRange 4).any (fun m => ((data.setWidth 4 : BitVec 4).getLsbD m.val !=
         s.pup.mbCfg.getLsbD m.val) && decide (s.pup.chead.get m ≠ s.pup.ctail.get m)) = false) ∧
    (∃ (data : BitVec 32) (s : State),
       s.portOpen = true ∧ ((data.setWidth 9 : BitVec 9) - s.pup.evtRd).toNat ≤ s.pup.evtUsed) ∧
    (∃ (data : BitVec 32) (s : State),
       s.aoOn = true) ∧
    (∃ (data : BitVec 32) (s : State),
       s.aoOn = true) :=
  ⟨⟨hd 0, live, by dsimp only; decide +kernel⟩,
    ⟨hd 0, live, by dsimp only; decide +kernel⟩,
    ⟨hd 13, 0, 4, 0x5000, 0, live, by dsimp only; decide +kernel⟩,
    ⟨hd 13, 4, 4, 0x5000, 0, staged, stage0, by dsimp only; decide +kernel⟩,
    ⟨hd 1, 0, bootable, by dsimp only; decide +kernel⟩,
    ⟨0, 0, live, by dsimp only; decide +kernel⟩,
    ⟨0xF, linkFull, by decide +kernel⟩,
    ⟨0, live, by decide +kernel⟩,
    ⟨0, live, by decide +kernel⟩,
    ⟨0, live, by decide +kernel⟩⟩

set_option maxRecDepth 100000 in
/-- The hypotheses of FlashAndJournalEventsRun. -/
theorem wit_FlashAndJournalEventsRun_0 :
    (∃ (s : State) (r : StoreRun),
       s.mgmtOn = true ∧ s.pup.job = .calStore ∧ s.cal.store = some r ∧ 4 ≤ r.erased) ∧
    (∃ (s : State) (b : Bool) (bytes : List Byte) (r : Nat) (code : BitVec 8),
       s.mgmtOn = true ∧ s.pup.job = .keyRecord b bytes r code 1) ∧
    (∃ (s : State) (b : Bool) (bytes : List Byte) (r : Nat) (code : BitVec 8),
       s.mgmtOn = true ∧ s.pup.job = .keyRecord b bytes r code 2) ∧
    (∃ (s : State),
       s.mgmtOn = true ∧ s.pup.job = .stageWrite) ∧
    (∃ (s : State) (r : StoreRun),
       s.mgmtOn = true ∧ s.pup.job = .calStore ∧ s.cal.store = some r ∧ r.erased < 4) ∧
    (∃ (s : State) (b : Bool) (bytes : List Byte) (r : Nat) (code : BitVec 8),
       s.mgmtOn = true ∧ s.pup.job = .keyRecord b bytes r code 0) ∧
    (∃ (s : State) (n : Nat),
       s.mgmtOn = true ∧ s.pup.job = .journalErase n) ∧
    (∃ (s : State) (n : Nat) (x : StageRun),
       s.mgmtOn = true ∧ s.pup.job = .stageErase n ∧ s.pup.stage = some x) ∧
    (∃ (s : State) (k : Nat),
       s.mgmtOn = true ∧ s.pup.job = .none ∧ s.pup.jSector = some k) ∧
    (∃ (mb : Fin 4) (s : State) (p : InProgress),
       s.pup.busy.get mb = some p ∧ p.waits = .journal ∧ s.writesJournal = true ∧ p.entry = none) ∧
    (∃ (mb : Fin 4) (s : State) (p : InProgress) (e : JEntry),
       s.pup.busy.get mb = some p ∧ p.waits = .journal ∧ s.writesJournal = true ∧ p.entry = some e ∧ s.tempForbidden =
         true) ∧
    (∃ (mb : Fin 4) (s : State) (p : InProgress) (e : JEntry),
       s.pup.busy.get mb = some p ∧ p.waits = .journal ∧ s.writesJournal = true ∧ p.entry = some e ∧ s.tempForbidden =
         false ∧ s.pup.jBuf = []) :=
  ⟨⟨{ flashJob .calStore with cal.store := some store0 }, store0, by decide +kernel⟩,
    ⟨flashJob (.keyRecord false [] 0 0 1), false, [], 0, 0, by decide +kernel⟩,
    ⟨flashJob (.keyRecord false [] 0 0 2), false, [], 0, 0, by decide +kernel⟩,
    ⟨flashJob .stageWrite, by decide +kernel⟩,
    ⟨{ flashJob .calStore with cal.store := some { store0 with erased := 0 } }, { store0 with erased := 0 }, by decide +kernel⟩,
    ⟨flashJob (.keyRecord false [] 0 0 0), false, [], 0, 0, by decide +kernel⟩,
    ⟨flashJob (.journalErase 0), 0, by decide +kernel⟩,
    ⟨{ staged with pup.job := .stageErase 0 }, 0, stage0, by decide +kernel⟩,
    ⟨{ flashJob .none with pup.jSector := some 0 }, 0, by decide +kernel⟩,
    ⟨0, busyWith (prog0 .journal none), prog0 .journal none, by decide +kernel⟩,
    ⟨0, { busyWith (prog0 .journal (some jent0)) with cal := { live.cal with rangeEn := true, rangeMin := 0x7FFF, rangeMax := 0x7FFF }, hk.regions := vmap live.hk.regions (fun _ r => { r with est := 0 }) }, prog0 .journal (some jent0), jent0, by decide +kernel⟩,
    ⟨0, busyWith (prog0 .journal (some jent0)), prog0 .journal (some jent0), jent0, by decide +kernel⟩⟩

set_option maxRecDepth 100000 in
/-- The hypotheses of FlashAndJournalEventsRun. -/
theorem wit_FlashAndJournalEventsRun_1 :
    ∃ (s : State) (e : JEntry) (es : List JEntry),
      s.writesJournal = true ∧ s.tempForbidden = false ∧ s.pup.jBuf = e :: es :=
  ⟨{ live with pup.jBuf := [jent0] }, jent0, [], by decide +kernel⟩

set_option maxRecDepth 100000 in
/-- The hypotheses of RegisterCommandsRun. -/
theorem wit_RegisterCommandsRun :
    (∃ (addr : BitVec 32) (data : BitVec 32) (s : State),
       s.portOpen = true ∧ s.wordRefuses (addr.toNat / 4 * 4) = none) ∧
    (∃ (addr : BitVec 32) (s : State),
       s.portOpen = true) ∧
    (∃ (addr : BitVec 32) (s : State),
       s.portOpen = true) ∧
    (∃ (khz : BitVec 16) (bytes : List (BitVec 8)) (bits : Fin 8) (s : State),
       let hd := unle (bytes.take 4)
       let o := bitsOf hd 16 0
       s.aoOn = true ∧ 4 ≤ bytes.length ∧ (s.slowSclk && decide (10000 < khz.toNat)) = false ∧ bitsOf hd 30 28 = 0 ∧
         bitsOf hd 23 17 = 0 ∧ o % 4 = 0 ∧ hd.testBit 31 = true ∧ 5 ≤ bytes.length) ∧
    (∃ (khz : BitVec 16) (bytes : List (BitVec 8)) (bits : Fin 8) (s : State),
       let hd := unle (bytes.take 4)
       let o := bitsOf hd 16 0
       s.aoOn = true ∧ 4 ≤ bytes.length ∧ (s.slowSclk && decide (10000 < khz.toNat)) = false ∧ bitsOf hd 30 28 = 0 ∧
         bitsOf hd 23 17 = 0 ∧ o % 4 = 0 ∧ hd.testBit 31 = false) ∧
    (∃ (h : CmdHdr) (addr : BitVec 32) (count : BitVec 8) (s : State),
       let n := count.toNat
       let c : CmdSpec := { opcode := 0x0D01, role := some .operator, params := pb addr ++ pb count }
       s.accepts h c = true ∧ 1 ≤ n ∧ n ≤ 6 ∧ windowOk addr.toNat n = true ∧ s.windowLacks h addr.toNat n = false ∧
         s.windowDown addr.toNat = false) ∧
    (∃ (h : CmdHdr) (addr : BitVec 32) (count : BitVec 8) (words : List (BitVec 32)) (s : State),
       let n := count.toNat
       let c : CmdSpec :=
         { opcode := 0x0D02
           role := some .installer
           journal := true
           params := pb addr ++ pb count ++ words.flatMap pb }
       s.accepts h c = true ∧ words.length = n ∧ 1 ≤ n ∧ n ≤ 12 ∧ windowOk addr.toNat words.length = true ∧
         s.windowLacks h addr.toNat words.length = false ∧ s.windowDown addr.toNat = false ∧ (wordsAt addr.toNat
         words.length).findSome? (fun x => s.wordRefuses x) = none) ∧
    (∃ (h : CmdHdr) (addr : BitVec 32) (bytes : BitVec 16) (ptr : BitVec 32) (s : State),
       let n := bytes.toNat
       let c : CmdSpec :=
         { opcode := 0x0D03
           role := some .operator
           params := pb addr ++ pb bytes ++ pb ptr
           ptrs := [(ptr.toNat, n)] }
       s.accepts h c = true ∧ 4 ≤ n ∧ n ≤ 8192 ∧ n % 4 = 0 ∧ windowOk addr.toNat (n / 4) = true ∧ s.windowLacks h
         addr.toNat (n / 4) = false ∧ s.windowDown addr.toNat = false) ∧
    (∃ (h : CmdHdr) (addr : BitVec 32) (bytes : BitVec 16) (ptr : BitVec 32) (s : State),
       let n := bytes.toNat
       let ws := (chunks 4 (n / 4) (memRead 0 s.pup.mbRam ptr.toNat n)).map (fun b => BitVec.ofNat 32 (unle b))
       let c : CmdSpec :=
         { opcode := 0x0D04
           role := some .installer
           journal := true
           params := pb addr ++ pb bytes ++ pb ptr
           ptrs := [(ptr.toNat, n)] }
       s.accepts h c = true ∧ 4 ≤ n ∧ n ≤ 8192 ∧ n % 4 = 0 ∧ windowOk addr.toNat ws.length = true ∧ s.windowLacks h
         addr.toNat ws.length = false ∧ s.windowDown addr.toNat = false ∧ (wordsAt addr.toNat ws.length).findSome? (fun
         x => s.wordRefuses x) = none) ∧
    (∃ (h : CmdHdr) (path : BitVec 8) (mode : BitVec 8) (offset : BitVec 32) (level : BitVec 8) (sinks : BitVec 128)
       (orx : BitVec 8) (duration : BitVec 32) (s : State) (p : Fin 64),
       let till := s.time.ticks + duration.toNat
       let a := fun (q : Fin 64) => sinks.getLsbD (2 * q.val)
       let b := fun (q : Fin 64) => sinks.getLsbD (2 * q.val + 1)
       let c : CmdSpec :=
         { opcode := 0x0D05
           role := some .installer
           journal := true
           params := pb path ++ pb mode ++ pb offset ++ pb level ++ pb sinks ++ pb orx ++ pb duration }
       s.accepts h c = true ∧ fin? 64 path.toNat = some p ∧ mode.toNat ≤ 2 ∧ -60 ≤ level.toInt ∧ level.toInt ≤ -10 ∧ 1
         ≤ duration.toNat ∧ duration.toNat ≤ 19661 ∧ s.cal.bus = .free ∧ s.busFree s.time.ticks till = true ∧
         ((List.finRange 64).filter (fun q => decide (q = p) || a q || b q)).any (fun q => !s.pathIdle q) = false) ∧
    (∃ (s : State) (m : Fin 4) (till : Nat),
       s.cal.bus = .diag m till ∧ till ≤ s.time.ticks) :=
  ⟨⟨0x10000000, 0, live, by decide +kernel⟩,
    ⟨0, live, by decide +kernel⟩,
    ⟨0, live, by decide +kernel⟩,
    ⟨0, le 4 0x80000000 ++ List.replicate 5 0, 0, live, by dsimp only; decide +kernel⟩,
    ⟨0, le 4 0 ++ List.replicate 4 0, 0, live, by dsimp only; decide +kernel⟩,
    ⟨hd 5, 0x10000000, 1, live, by dsimp only; decide +kernel⟩,
    ⟨hd 9, 0x10000000, 1, [0], live, by dsimp only; decide +kernel⟩,
    ⟨hd 10, 0x10000000, 4, 0x5000, live, by dsimp only; decide +kernel⟩,
    ⟨hd 10, 0x10000000, 4, 0x5000, live, by dsimp only; decide +kernel⟩,
    ⟨hd 28, 0, 0, 0, 0xE0, 0, 0, 1, live, 0, by dsimp only; decide +kernel⟩,
    ⟨{ live with cal.bus := .diag 0 0 }, 0, 0, by decide +kernel⟩⟩

set_option maxRecDepth 100000 in
/-- The hypotheses of SessionCommandsRun. -/
theorem wit_SessionCommandsRun :
    (∃ (h : CmdHdr) (role : BitVec 8) (s : State) (r : Role) (k : Fin 8),
       let c : CmdSpec := { opcode := 0x0A01, role := none, params := pb role }
       s.accepts h c = true ∧ role? role.toNat = some r ∧ s.lockedOut r = false ∧ s.freeHandle = some k) ∧
    (∃ (h : CmdHdr) (handle : BitVec 8) (mac : List (BitVec 8)) (s : State) (k : Fin 8) (r : Role) (n : BitVec 128)
       (since : Nat),
       let c : CmdSpec := { opcode := 0x0A02, role := none, params := pb handle ++ mac }
       s.accepts h c = true ∧ handle? handle = some k ∧ mac.length = 32 ∧ s.pup.sessions.get k = .awaiting r n since ∧
         s.time.ticks < since + 10 * secTicks ∧ mac = s.authMac k r n) ∧
    (∃ (h : CmdHdr) (handle : BitVec 8) (mac : List (BitVec 8)) (s : State) (k : Fin 8) (r : Role) (n : BitVec 128)
       (since : Nat),
       let c : CmdSpec := { opcode := 0x0A02, role := none, params := pb handle ++ mac }
       s.accepts h c = true ∧ handle? handle = some k ∧ mac.length = 32 ∧ s.pup.sessions.get k = .awaiting r n since ∧
         s.time.ticks < since + 10 * secTicks ∧ mac ≠ s.authMac k r n) ∧
    (∃ (h : CmdHdr) (handle : BitVec 8) (s : State) (k : Fin 8) (r : Role) (n : BitVec 128) (till : Nat),
       let c : CmdSpec := { opcode := 0x0A03, role := some .operator, params := pb handle }
       s.accepts h c = true ∧ handle? handle = some k ∧ s.pup.sessions.get k = .opened r n till ∧ (handle = h.session ∨
         r.rank ≤ (s.sessionRole h.session).elim 0 Role.rank)) ∧
    (∃ (src : Fin 8) (s : State) (r : Role) (n : BitVec 128) (since : Nat),
       s.pup.sessions.get src = .awaiting r n since ∧ since + 10 * secTicks ≤ s.time.ticks) ∧
    (∃ (src : Fin 8) (s : State) (r : Role) (n : BitVec 128) (till : Nat),
       s.pup.sessions.get src = .opened r n till ∧ till ≤ s.time.ticks) ∧
    (∃ (r : Fin 3) (s : State) (t : Nat),
       s.pup.lockout.get r = some t ∧ t ≤ s.time.ticks) :=
  ⟨⟨hd 1, 0, freeHandles, .operator, 7, by dsimp only; decide +kernel⟩,
    ⟨hd 33, 2, awaiting0.authMac 1 .operator 0, awaiting0, 1, .operator, 0, 0, by
        have hl : (awaiting0.authMac 1 .operator 0).length = 32 := hmac_length _ _
        have hk : (awaiting0.authMac 1 .operator 0).length = 32 := by exact hl
        refine ⟨?_, by decide +kernel, hk, by decide +kernel, by decide +kernel, rfl⟩
        unfold State.accepts State.refusal
        simp only [List.length_append, hk]
        decide⟩,
    ⟨hd 33, 2, (awaiting0.authMac 1 .operator 0).map (fun b => b + 1), awaiting0, 1, .operator, 0, 0, by
        have hl : (awaiting0.authMac 1 .operator 0).length = 32 := hmac_length _ _
        have hk : ((awaiting0.authMac 1 .operator 0).map (fun b => b + 1)).length = 32 := by rw [List.length_map, hl]
        refine ⟨?_, by decide +kernel, hk, by decide +kernel, by decide +kernel, map_succ_ne hl⟩
        unfold State.accepts State.refusal
        simp only [List.length_append, hk]
        decide⟩,
    ⟨hd 1, 1, live, 0, .maker, 0, 1000000000000, by dsimp only; decide +kernel⟩,
    ⟨1, { awaiting0 with time.ticks := 2 ^ 50 }, .operator, 0, 0, by decide +kernel⟩,
    ⟨0, { live with time.ticks := 2 ^ 50 }, .maker, 0, 1000000000000, by decide +kernel⟩,
    ⟨0, { live with pup.lockout := Vector.replicate 3 (some 0) }, 0, by decide +kernel⟩⟩

set_option maxRecDepth 100000 in
/-- The hypotheses of KeyJournalAndOtpCommandsRun. -/
theorem wit_KeyJournalAndOtpCommandsRun :
    (∃ (h : CmdHdr) (role : BitVec 8) (ptr : BitVec 32) (s : State) (k : Fin 8) (issuer : Role) (n : BitVec 128) (till
       : Nat) (key : List Byte),
       let c : CmdSpec :=
         { opcode := 0x0A04
           role := some .installer
           journal := true
           params := pb role ++ pb ptr
           ptrs := [(ptr.toNat, 64)] }
       s.accepts h c = true ∧ (role.toNat ≤ 2 ∧ (role ≠ 2 ∨ 2 ≤ (s.sessionRole h.session).elim 0 Role.rank)) ∧
         s.cal.store = none ∧ s.flashBusy = false ∧ s.tempForbidden = false ∧ handle? h.session = some k ∧
         s.pup.sessions.get k = .opened issuer n till ∧ s.newKey k issuer n role.toNat (memRead 0 s.pup.mbRam ptr.toNat
         64) = some key) ∧
    (∃ (h : CmdHdr) (first : BitVec 32) (count : BitVec 8) (ptr : BitVec 32) (s : State),
       let c : CmdSpec :=
         { opcode := 0x0A05
           role := some .operator
           journal := true
           params := pb first ++ pb count ++ pb ptr
           ptrs := [(ptr.toNat, 64 * count.toNat)] }
       s.accepts h c = true ∧ 1 ≤ count.toNat ∧ count.toNat ≤ 64) ∧
    (∃ (h : CmdHdr) (confirm : BitVec 32) (s : State),
       let c : CmdSpec := { opcode := 0x0A06, role := some .maker, journal := true, params := pb confirm }
       s.accepts h c = true ∧ s.overLink h = false ∧ confirm = 0x4A524E4C ∧ s.cal.store = none ∧ s.flashBusy = false ∧
         s.tempForbidden = false) ∧
    (∃ (h : CmdHdr) (index : BitVec 8) (ptr : BitVec 32) (s : State) (k : Fin 4),
       let c : CmdSpec :=
         { opcode := 0x0A07
           role := some .maker
           journal := true
           params := pb index ++ pb ptr
           ptrs := [(ptr.toNat, 64)] }
       let b := memRead 0 s.pup.mbRam ptr.toNat 64
       s.accepts h c = true ∧ s.overLink h = false ∧ fin? 4 index.toNat = some k ∧ p256On (unbe (b.take 32)) (unbe
         (b.drop 32)) = true ∧ (s.otp.keys.get k).written = false ∧ (s.otp.keys.get k).failed = false) ∧
    (∃ (h : CmdHdr) (index : BitVec 8) (s : State) (k : Fin 4),
       let c : CmdSpec := { opcode := 0x0A08, role := some .maker, journal := true, params := pb index }
       s.accepts h c = true ∧ s.overLink h = false ∧ fin? 4 index.toNat = some k ∧ (List.finRange 4).any (fun j =>
         decide (j ≠ k) && (s.otp.keys.get j).written && !(s.otp.keys.get j).failed && !(s.otp.keys.get j).revoked) =
         true) ∧
    (∃ (h : CmdHdr) (version : BitVec 32) (s : State),
       let c : CmdSpec := { opcode := 0x0A09, role := some .maker, journal := true, params := pb version }
       s.accepts h c = true ∧ s.overLink h = false ∧ s.otpFloorNow ≤ version.toNat ∧ version.toNat ≤ s.pup.fwVer.toNat
         ∧ s.otp.floor.length < 16) ∧
    (∃ (h : CmdHdr) (group : BitVec 16) (length : BitVec 16) (ptr : BitVec 32) (s : State),
       let c : CmdSpec :=
         { opcode := 0x0A0A
           role := some .maker
           journal := true
           params := pb group ++ pb length ++ pb ptr
           ptrs := [(ptr.toNat, length.toNat)] }
       s.accepts h c = true ∧ s.overLink h = false ∧ s.otp.trim.any (fun g => decide (g.1 = group)) = false) :=
  ⟨⟨hd 5, 0, 0x5000, keyed, 0, .maker, 0, 1000000000000, List.replicate 32 0, by
        exact ⟨by decide +kernel, by decide +kernel, by decide +kernel, by decide +kernel, by decide +kernel, by decide +kernel, by decide +kernel, keyed_newKey⟩⟩,
    ⟨hd 9, 0, 1, 0x5000, live, by dsimp only; decide +kernel⟩,
    ⟨hd 4, 0x4A524E4C, live, by dsimp only; decide +kernel⟩,
    ⟨hd 5, 0, 0x5000, pointAt, 0, by dsimp only; decide +kernel⟩,
    ⟨hd 1, 1, bootable, 1, by dsimp only; decide +kernel⟩,
    ⟨hd 4, 0, live, by dsimp only; decide +kernel⟩,
    ⟨hd 8, 0, 4, 0x5000, live, by dsimp only; decide +kernel⟩⟩

set_option maxRecDepth 100000 in
/-- The hypotheses of ThermalCommandsRun. -/
theorem wit_ThermalCommandsRun :
    (∃ (h : CmdHdr) (rha : BitVec 16) (ch : BitVec 16) (ta : BitVec 16) (s : State),
       let c : CmdSpec :=
         { opcode := 0x0901, role := some .installer, journal := true, params := pb rha ++ pb ch ++ pb ta }
       s.accepts h c = true ∧ 10 ≤ rha.toNat ∧ rha.toNat ≤ 5000 ∧ 1 ≤ ch.toNat ∧ ch.toNat ≤ 10000 ∧ -3200 ≤ ta.toInt ∧
         ta.toInt ≤ 5440) ∧
    (∃ (h : CmdHdr) (steps : List (BitVec 8)) (interval : BitVec 16) (duty : BitVec 8) (s : State) (l : List (BitVec
       3)),
       let c : CmdSpec :=
         { opcode := 0x0902
           role := some .installer
           journal := true
           params := padTo 5 steps ++ pb interval ++ pb duty }
       s.accepts h c = true ∧ 1 ≤ interval.toNat ∧ interval.toNat ≤ 10000 ∧ 10 ≤ duty.toNat ∧ duty.toNat ≤ 90 ∧
         stepList (padTo 5 steps) = some l ∧ stepsOk l = true ∧ s.hk.throttle = false) ∧
    (∃ (h : CmdHdr) (enable : BitVec 8) (s : State),
       let c : CmdSpec := { opcode := 0x0903, role := some .installer, journal := true, params := pb enable }
       s.accepts h c = true ∧ enable = 1) ∧
    (∃ (h : CmdHdr) (enable : BitVec 8) (s : State),
       let c : CmdSpec := { opcode := 0x0903, role := some .installer, journal := true, params := pb enable }
       s.accepts h c = true ∧ enable = 0) ∧
    (∃ (h : CmdHdr) (s : State),
       let c : CmdSpec := { opcode := 0x0904, role := some .operator, params := [] }
       s.accepts h c = true ∧ s.hk.halt = true ∧ s.hk.regions.toList.any (fun r => r.shut.tripped) = false) ∧
    (∃ (h : CmdHdr) (s : State),
       let c : CmdSpec := { opcode := 0x0905, role := some .operator, params := [] }
       s.accepts h c = true) ∧
    (∃ (h : CmdHdr) (cls : BitVec 8) (s : State),
       let c : CmdSpec := { opcode := 0x0906, role := some .operator, params := pb cls }
       s.accepts h c = true ∧ cls.toNat ≤ 3) :=
  ⟨⟨hd 6, 10, 1, 0, live, by dsimp only; decide +kernel⟩,
    ⟨hd 8, [1, 0xFF, 0xFF, 0xFF, 0xFF], 1, 10, live, [1], by dsimp only; decide +kernel⟩,
    ⟨hd 1, 1, live, by dsimp only; decide +kernel⟩,
    ⟨hd 1, 0, live, by dsimp only; decide +kernel⟩,
    ⟨hd 0, { live with hk.halt := true }, by dsimp only; decide +kernel⟩,
    ⟨hd 0, live, by dsimp only; decide +kernel⟩,
    ⟨hd 1, 0, live, by dsimp only; decide +kernel⟩⟩

set_option maxRecDepth 100000 in
/-- The hypotheses of ThermalEventsRun. -/
theorem wit_ThermalEventsRun :
    (∃ (r : Fin 12) (est : BitVec 16) (powers : List (BitVec 12)) (s : State),
       let x := s.hk.regions.get r
       s.mgmtOn = true ∧ x.seen = true ∧ x.evalAt ≤ s.time.ticks) ∧
    (∃ (s : State),
       s.mgmtOn = true ∧ s.hk.throttle = true ∧ s.hk.stepAt ≤ s.time.ticks) ∧
    (∃ (s : State),
       s.mgmtOn = true ∧ s.hk.throttle = false ∧ s.hk.reverting = true ∧ s.hk.applied ≠ [] ∧ s.hk.stepAt ≤ s.time.ticks) ∧
    (∃ (s : State),
       s.mgmtOn = true ∧ s.hk.shutdown = true ∧ s.hk.shutAt ≤ s.time.ticks ∧ s.pageRuns = false) ∧
    (∃ (diodes : List (List (BitVec 12))) (volts : List (List (BitVec 12))) (counts : List (BitVec 16)) (devs : List
       (BitVec 16)) (vhold : BitVec 16) (s : State),
       s.mgmtOn = true ∧ s.hk.roundAt ≤ s.time.ticks) :=
  ⟨⟨0, 0, [], hot, by dsimp only; decide +kernel⟩,
    ⟨hot, by decide +kernel⟩,
    ⟨{ hot with hk.throttle := false }, by decide +kernel⟩,
    ⟨{ live with hk.shutdown := true }, by decide +kernel⟩,
    ⟨[], [], [], [], 0, hot, by decide +kernel⟩⟩

set_option maxRecDepth 100000 in
/-- The hypotheses of JtagCommandsRun. -/
theorem wit_JtagCommandsRun :
    (∃ (low : Bool) (s : State),
       low = true) ∧
    (∃ (low : Bool) (s : State),
       low = false) ∧
    (∃ (cells : BitVec 344) (s : State),
       s.jtagOn = true ∧ s.jtag.trstLow = false) ∧
    (∃ (cells : BitVec 344) (s : State),
       s.jtagOn = true ∧ s.jtag.trstLow = false) ∧
    (∃ (cells : BitVec 344) (s : State),
       s.jtagOn = true ∧ s.jtag.trstLow = false) ∧
    (∃ (cells : BitVec 344) (s : State),
       s.jtagOn = true ∧ s.jtag.trstLow = false) ∧
    (∃ (s : State),
       s.jtagOn = true ∧ s.jtag.trstLow = false) ∧
    (∃ (s : State),
       s.jtagOn = true ∧ s.jtag.trstLow = false) ∧
    (∃ (s : State),
       s.jtagOn = true ∧ s.jtag.trstLow = false) ∧
    (∃ (code : BitVec 8) (s : State),
       s.jtagOn = true ∧ s.jtag.trstLow = false ∧ 7 ≤ code.toNat) :=
  ⟨⟨true, live, by decide +kernel⟩,
    ⟨false, live, by decide +kernel⟩,
    ⟨0, { live with jtag.trstLow := false }, by decide +kernel⟩,
    ⟨0, { live with jtag.trstLow := false }, by decide +kernel⟩,
    ⟨0, { live with jtag.trstLow := false }, by decide +kernel⟩,
    ⟨0, { live with jtag.trstLow := false }, by decide +kernel⟩,
    ⟨{ live with jtag.trstLow := false }, by decide +kernel⟩,
    ⟨{ live with jtag.trstLow := false }, by decide +kernel⟩,
    ⟨{ live with jtag.trstLow := false }, by decide +kernel⟩,
    ⟨0xFF, { live with jtag.trstLow := false }, by decide +kernel⟩⟩

set_option maxRecDepth 100000 in
/-- The hypotheses of SamplesRun. -/
theorem wit_SamplesRun :
    (∃ (pkt : RxPkt) (s : State) (f : Fin 64) (elem : Bool) (b : Nat) (rate : BitVec 3) (preset : BitVec 2) (fmt :
       BitVec 2),
       let fmtOk := decide (pkt.fmt.getLsbD 7 = false ∧ (pkt.fmt &&& 7#8).toNat < 3 ∧ (pkt.fmt >>> 3).toNat < 8)
       let x := s.link.txFlows.get f
       let n := x.count + BitVec.ofNat 32 (cdiv pkt.payload.length 64)
       s.rxScreen pkt 63 fmtOk = none ∧ fin? 64 pkt.flow.toNat = some f ∧ s.txSrc x.src = some (elem, b, rate, preset,
         fmt) ∧ (pkt.fmt &&& 7#8).toNat = fmt.toNat ∧ (pkt.fmt >>> 3).toNat = rate.toNat ∧ (x.limit - n).toNat < 2 ^ 31) ∧
    (∃ (pkt : RxPkt) (s : State) (f : Fin 64) (elem : Bool) (b : Nat) (rate : BitVec 3) (preset : BitVec 2) (fmt :
       BitVec 2),
       let fmtOk := decide (pkt.fmt.getLsbD 7 = false ∧ (pkt.fmt &&& 7#8).toNat < 3 ∧ (pkt.fmt >>> 3).toNat < 8)
       let x := s.link.txFlows.get f
       let n := x.count + BitVec.ofNat 32 (cdiv pkt.payload.length 64)
       s.rxScreen pkt 63 fmtOk = none ∧ fin? 64 pkt.flow.toNat = some f ∧ s.txSrc x.src = some (elem, b, rate, preset,
         fmt) ∧ (pkt.fmt &&& 7#8).toNat = fmt.toNat ∧ (pkt.fmt >>> 3).toNat = rate.toNat ∧ 2 ^ 31 ≤ (x.limit - n).toNat) ∧
    (∃ (p : Fin 64) (code : BitVec 14) (q : BitVec 14) (s : State),
       s.rxLive p = true ∧ (s.chan.rx.get p).count < s.rxIndex + 2) ∧
    (∃ (b : Fin 32) (s : State),
       let front := (txFrontHalf s.chan.txPreset + 1) / 2
       let bank := (s.txBankAt (Int.ofNat (s.time.ticks + front) - Int.ofNat s.clk.loadedV)).1
       let aper := (s.txBankAt (Int.ofNat (s.time.ticks + front) - Int.ofNat s.clk.loadedV)).2
       let rate := (bank.nbOf b).1
       let preset := (bank.nbOf b).2
       let g := nbDelay preset rate
       let t := s.txWanted b rate preset
       s.time.dspRuns = true ∧ (bank.txSources aper).contains b = true ∧ t ≤ s.time.ticks + front + g) :=
  ⟨⟨txPkt, txReady 5, 0, false, 0, 0, 1, 0, by dsimp only; decide +kernel⟩,
    ⟨txLong, txReady 0, 0, false, 0, 0, 1, 0, by dsimp only; decide +kernel⟩,
    ⟨0, 0, 0, receiving, by decide +kernel⟩,
    ⟨0, grid0, by dsimp only; decide +kernel⟩⟩

end Sys2Proof.Tests
end

section
/-! SUPPORT. Pass windows whose instants are known (R56). -/

namespace Sys2Proof.Machine

/-- A window in force with known instants is the half-open interval between them (R56). -/
theorem Window.holds_iff_of_known {w : Window} {o c : Time} (hs : w.state ≠ .free) (he : w.empty = false)
    (ho : w.openT = some o) (hc : w.closeT = some c) (t : Time) : w.holds t = true ↔ o ≤ t ∧ t < c := by
  unfold Window.holds
  cases hw : w.state with
  | free => exact absurd hw hs
  | _ => simp [he, ho, hc]

/-- A close lies outside its own window (R56). -/
theorem Window.holds_close {w : Window} {o c : Time} (hs : w.state ≠ .free) (he : w.empty = false)
    (ho : w.openT = some o) (hc : w.closeT = some c) : w.holds c = false := by
  rw [Bool.eq_false_iff, Ne, Window.holds_iff_of_known hs he ho hc]
  exact fun ⟨_, hlt⟩ => lt_irrefl c hlt

/-- An open lies inside its own window when the close comes later (R56). -/
theorem Window.holds_open {w : Window} {o c : Time} (hs : w.state ≠ .free) (he : w.empty = false)
    (ho : w.openT = some o) (hc : w.closeT = some c) (hoc : o < c) : w.holds o = true :=
  (Window.holds_iff_of_known hs he ho hc o).mpr ⟨le_rfl, hoc⟩

/-- Settles O12, by reading the two bounds of a window in force. -/
theorem windowContains : Obligations.WindowContains := by
  unfold Obligations.WindowContains
  refine ⟨fun w o c t hs he ho hc => Window.holds_iff_of_known hs he ho hc t, ?_⟩
  intro w v o c e hws hwe hvs hve hwo hwc hvo hvc hce
  exact ⟨Window.holds_close hws hwe hwo hwc, Window.holds_open hvs hve hvo hvc hce⟩

end Sys2Proof.Machine
end

section
/-! SUPPORT. What RESET_N leaves of device time and predistortion, and what its release starts (R41, R497). -/

namespace Sys2Proof.Machine

@[simp] theorem State.cold_resetN (s : State) : s.cold.resetN = false := rfl
@[simp] theorem State.cold_time (s : State) : s.cold.time = Reset.time := rfl
@[simp] theorem State.cold_pd (s : State) : s.cold.pd = Reset.pd := rfl
@[simp] theorem State.cold_pw (s : State) : s.cold.pw = Reset.pw := rfl

/-- RESET_N going low on a powered device takes it to the cold state. -/
theorem execResetNAssert_powered {s : State} (hr : s.resetN = true) (hv : s.pw.vddio = true) (hd : s.pw.dev ≠ .off) :
    execResetNAssert s = .next s.cold := by
  simp only [execResetNAssert, hr, hv, hd, Bool.not_true, Bool.false_eq_true, if_false]

/-- At reset a path applies the identity set, and none is pending. -/
theorem Reset.pd_path_identity (p : Fin 64) :
    (Reset.pd.paths.get p).active = pdIdentity ∧ (Reset.pd.paths.get p).pending = none := by
  simp [Reset.pd, pdIdentity, Vector.get_eq_getElem]

/-- PLLs that start to relock touch the PLLs only. -/
theorem State.foldl_relock_frame (planned : Bool) (l : List (Fin 16)) (s : State) :
    ∃ plls, l.foldl (fun s p => s.relock p planned) s = { s with clk.plls := plls } := by
  induction l generalizing s with
  | nil => exact ⟨s.clk.plls, rfl⟩
  | cons p l ih =>
    obtain ⟨plls, h⟩ := ih (s.relock p planned)
    exact ⟨plls, h⟩

/-- A boot by the ROM, accepted image or recovery, touches the Puppeteer only, and keeps the boot mode it runs in. -/
theorem State.romBoot_frame (s : State) (cause : BootCause) (order : List Bool) (fallback fromWake : Bool) (start : Nat) :
    ∃ pup : PupBlock,
      s.romBoot cause order fallback fromWake start = { s with pup := pup } ∧ pup.mode = s.pup.mode := by
  refine ⟨(s.romBoot cause order fallback fromWake start).pup, ?_⟩
  unfold State.romBoot
  simp only
  split <;> split <;> exact ⟨rfl, rfl⟩

/-- The state in which the release of RESET_N starts the PLLs and the ROM. -/
def State.released (s : State) (bootmode : BitVec 2) (refclk : Bool) : State :=
  { s with
    resetN := true
    pw := { s.pw with dev := .active, padsReset := false }
    pup.mode := bootmode
    time.dspRuns := true
    clk := { s.clk with refOk := refclk, fbosc := !refclk, mgmtSafe := true, dspSafe := true } }

/-- The release of RESET_N under VDDIO relocks the PLLs of boot and boots the ROM. -/
theorem execResetNRelease_low {s : State} (hr : s.resetN = false) (hv : s.pw.vddio = true) (bootmode : BitVec 2)
    (refclk : Bool) :
    execResetNRelease bootmode refclk s =
      let v : State := [0, 1, 2, 5].foldl (fun (s : State) (p : Fin 16) => s.relock p true) (s.released bootmode refclk)
      .next (v.romBoot .boot v.bootOrder false false v.time.ticks) :=
  congrArg Host.Outcome.next (if_neg (by simp [hr, hv]))

/-- The release of RESET_N under VDDIO raises it, samples BOOTMODE and starts the DSP domain, and device time goes on from
where it stands. -/
theorem execResetNRelease_starts {s : State} (hr : s.resetN = false) (hv : s.pw.vddio = true) (bootmode : BitVec 2)
    (refclk : Bool) :
    ∃ u, execResetNRelease bootmode refclk s = .next u ∧ u.resetN = true ∧
      u.time = { s.time with dspRuns := true } ∧ u.pup.mode = bootmode := by
  refine ⟨_, execResetNRelease_low hr hv bootmode refclk, ?_⟩
  obtain ⟨plls, hplls⟩ := State.foldl_relock_frame true [0, 1, 2, 5] (s.released bootmode refclk)
  rw [hplls]
  obtain ⟨pup, hboot, hmode⟩ := State.romBoot_frame { s.released bootmode refclk with clk.plls := plls } .boot
    (State.bootOrder { s.released bootmode refclk with clk.plls := plls }) false false
    (s.released bootmode refclk).time.ticks
  rw [hboot]
  exact ⟨rfl, rfl, hmode⟩

/-- Settles O17: RESET_N leaves the cold state, whose device time its release sets going. -/
theorem resetRestartsTime : Obligations.ResetRestartsTime := by
  unfold Obligations.ResetRestartsTime
  intro s hr hv hd
  refine ⟨s.cold, execResetNAssert_powered hr hv hd, s.cold_resetN, ?_⟩
  rw [s.cold_time, s.cold_pd]
  refine ⟨rfl, rfl, rfl, Reset.pd_path_identity, fun bootmode refclk => ?_⟩
  have hvddio : s.cold.pw.vddio = true := by rw [s.cold_pw]; rfl
  obtain ⟨u, hexec, hresetN, htime, hmode⟩ := execResetNRelease_starts s.cold_resetN hvddio bootmode refclk
  refine ⟨u, hexec, hresetN, ?_⟩
  rw [htime, s.cold_time]
  exact ⟨rfl, rfl, rfl, hmode⟩

end Sys2Proof.Machine
end

section
/-! SUPPORT. HOST_IRQ_N and FAULT_N bit by bit (R512). -/

namespace Sys2Proof.Machine

/-- A bit vector is not 0 exactly when it has a bit set. -/
theorem bitVec_ne_zero_iff_exists_bit {w : Nat} (x : BitVec w) : x ≠ 0 ↔ ∃ b, x.getLsbD b = true := by
  simpa using x.zero_iff_eq_false.not

/-- A bit set lies below the width, so a search over every index may stop there. -/
theorem exists_fin_bit_iff {w : Nat} (x : BitVec w) :
    (∃ b : Fin w, x.getLsbD b.val = true) ↔ ∃ b, x.getLsbD b = true :=
  ⟨fun ⟨b, hb⟩ => ⟨b.val, hb⟩, fun ⟨b, hb⟩ => ⟨⟨b, BitVec.lt_of_getLsbD hb⟩, hb⟩⟩

/-- The interrupts asserted whatever HP_IRQ_EN holds are THERMAL (6) and WAKE_FAIL (7). -/
theorem alwaysEnabled_bit (b : Fin 8) : (0xC0#8).getLsbD b.val = true ↔ b.val = 6 ∨ b.val = 7 := by
  revert b
  decide

theorem State.hostIrq_iff (s : State) : s.hostIrq = true ↔
    ∃ b : Fin 8, s.pup.irq.getLsbD b.val = true ∧ (s.pup.irqEn.getLsbD b.val = true ∨ b.val = 6 ∨ b.val = 7) := by
  rw [State.hostIrq, decide_eq_true_iff, bitVec_ne_zero_iff_exists_bit, ← exists_fin_bit_iff]
  simp only [BitVec.getLsbD_and, BitVec.getLsbD_or, Bool.and_eq_true, Bool.or_eq_true, alwaysEnabled_bit]

theorem State.faultN_iff (s : State) : s.faultN = true ↔
    s.pup.lockstep = true ∨ s.pup.recovery = true ∨ s.pup.halted = true ∨ s.hk.shutdown = true ∨ s.hk.halt = true ∨
      (∃ b, s.hk.vstat.getLsbD b = true) ∨ s.pw.failed = true := by
  simp only [State.faultN, Bool.or_eq_true, decide_eq_true_eq, bitVec_ne_zero_iff_exists_bit, or_assoc]

/-- Settles O14, reading each line bit by bit. -/
theorem irqAndFaultLines : Obligations.IrqAndFaultLines :=
  ⟨State.hostIrq_iff, State.faultN_iff⟩

end Sys2Proof.Machine
end

section
/-! SUPPORT. The event ring: the slot a write leaves, and what becomes of an event in each state of the ring (R510, R511). -/

namespace Sys2Proof.Machine

@[simp] theorem padTo_length (n : Nat) (bs : List Byte) : (padTo n bs).length = n := by
  simp only [padTo, List.length_take, List.length_append, List.length_replicate]
  omega

@[simp] theorem EvtSlot.bytes_length (e : EvtSlot) : e.bytes.length = 32 := by
  simp [EvtSlot.bytes]

/-- The slot at HP_EVT_WR reads as the event just written (R502, R510). -/
theorem PupBlock.memRead_putEvt (p : PupBlock) (e : EvtSlot) (h : Memory.wf 0 p.mbRam = true) :
    memRead 0 (p.putEvt e).mbRam (0x3000 + (p.evtWr.toNat % 256) * 32) 32 = e.bytes := by
  have hread := memRead_memWrite h (0x3000 + (p.evtWr.toNat % 256) * 32) e.bytes
  rwa [e.bytes_length] at hread

/-- An event written takes one slot, while the 9-bit difference of the counters does not wrap. -/
theorem PupBlock.evtUsed_putEvt (p : PupBlock) (e : EvtSlot) (h : p.evtUsed + 1 < 512) :
    (p.putEvt e).evtUsed = p.evtUsed + 1 := by
  simp only [PupBlock.evtUsed, PupBlock.putEvt] at h ⊢
  bv_omega

/-- The EVT_LOST that reports the events lost so far, in the ring, with none left to report (R511). -/
def State.lossReported (s : State) : PupBlock :=
  { s.pup.putEvt (s.mkEvt 0x0101 0x01FF s.nowT (le 4 (sat32 s.pup.evtUnrep))) with evtUnrep := 0 }

theorem State.lossReported_evtUsed (s : State) (h : s.pup.evtUsed + 1 < 512) :
    s.lossReported.evtUsed = s.pup.evtUsed + 1 :=
  PupBlock.evtUsed_putEvt s.pup (s.mkEvt 0x0101 0x01FF s.nowT (le 4 (sat32 s.pup.evtUnrep))) h

section PlaceEvt

variable {s : State} {e : EvtSlot}

theorem State.placeEvt_reserved_room (hr : evtReserved e.code.toNat = true) (hroom : s.pup.evtUsed < 256) :
    s.placeEvt e = { s with pup := s.pup.putEvt e } := by
  rw [State.placeEvt, if_pos hr, if_neg (Nat.not_le.mpr hroom)]

theorem State.placeEvt_reserved_full (hr : evtReserved e.code.toNat = true) (hfull : 256 ≤ s.pup.evtUsed) :
    s.placeEvt e = { s with pup := (PupBlock.loseEvt { s.pup with evtRd := s.pup.evtRd + 1 }).putEvt e } := by
  rw [State.placeEvt, if_pos hr, if_pos hfull]

theorem State.placeEvt_ordinary_drop (hr : evtReserved e.code.toNat = false) (hfew : 256 - s.pup.evtUsed < 9) :
    s.placeEvt e = { s with pup := s.pup.loseEvt } := by
  have hused : s.pup.evtUsed > 247 := by omega
  rw [State.placeEvt, if_neg (by simp [hr]), if_pos hused]

theorem State.placeEvt_ordinary_put (hr : evtReserved e.code.toNat = false) (hroom : s.pup.evtUsed + 9 ≤ 256)
    (hnone : s.pup.evtUnrep = 0) : s.placeEvt e = { s with pup := s.pup.putEvt e } := by
  have hused : ¬ s.pup.evtUsed > 247 := by omega
  rw [State.placeEvt, if_neg (by simp [hr]), if_neg hused, if_pos hnone]

/-- After a loss EVT_LOST goes first, and leaves room for the event itself when 10 slots were free (R511). -/
theorem State.placeEvt_ordinary_after_loss (hr : evtReserved e.code.toNat = false) (hroom : s.pup.evtUsed + 9 ≤ 256)
    (hlost : s.pup.evtUnrep ≠ 0) :
    s.placeEvt e = { s.tagWindows (s.windowSet s.nowT) with
      pup := if s.pup.evtUsed + 10 ≤ 256 then s.lossReported.putEvt e else s.lossReported.loseEvt } := by
  have hused : ¬ s.pup.evtUsed > 247 := by omega
  have hplace : s.placeEvt e =
      if s.lossReported.evtUsed > 247 then { s.tagWindows (s.windowSet s.nowT) with pup := s.lossReported.loseEvt }
      else { s.tagWindows (s.windowSet s.nowT) with pup := s.lossReported.putEvt e } := by
    rw [State.placeEvt, if_neg (by simp [hr]), if_neg hused, if_neg hlost]
    rfl
  rw [hplace, s.lossReported_evtUsed (by omega)]
  by_cases hten : s.pup.evtUsed + 10 ≤ 256
  · rw [if_pos hten, if_neg (by omega)]
  · rw [if_neg hten, if_pos (by omega)]

end PlaceEvt

/-- Settles O13, one branch of the placement at a time. -/
theorem eventRingRules : Obligations.EventRingRules := by
  unfold Obligations.EventRingRules
  exact ⟨fun code => List.contains_iff_mem,
    fun s e hr hfew => State.placeEvt_ordinary_drop hr hfew,
    fun s e hr hroom hnone => State.placeEvt_ordinary_put hr hroom hnone,
    fun s e hr hroom hlost => State.placeEvt_ordinary_after_loss hr hroom hlost,
    fun s e hr hroom => State.placeEvt_reserved_room hr hroom,
    fun s e hr hfull => State.placeEvt_reserved_full hr hfull,
    fun p => rfl,
    fun p e hwf => ⟨p.memRead_putEvt e hwf, rfl⟩⟩

end Sys2Proof.Machine
end

section
/-! SUPPORT. The role that a served host command asks of its session (R504, R530). -/

namespace Sys2Proof.Machine

/-- Every host command of the command table goes through the one pipeline, with the header and the checks that the table
gives it (R504). -/
theorem exec_eq_serve_of_cmdOf {c : Instr} {x : CmdHdr × CmdSpec} (hc : cmdOf c = some x) (s : State) :
    ∃ body, exec c s = .next (serve x.1 x.2 body s) := by
  -- A row of the table fixes x; what is no host command has no row.
  cases c <;> cases hc <;> exact ⟨_, rfl⟩

/-- A command that the checks of R504 turn away is answered with their status and has no effect. -/
theorem exec_turned {c : Instr} {s : State} {x : CmdHdr × CmdSpec} {st : BitVec 8} (hc : cmdOf c = some x)
    (ht : s.turnsAway x.1 x.2 st = true) : exec c s = .next (s.answered x.1 x.2 { status := st } s) := by
  obtain ⟨body, hserve⟩ := exec_eq_serve_of_cmdOf hc s
  rw [hserve, serve_turned ht]

/-- Only SESSION_OPEN and SESSION_AUTH ask for no role (R530). -/
theorem opcode_of_cmdOf_of_role_none {c : Instr} {x : CmdHdr × CmdSpec} (hc : cmdOf c = some x)
    (hrole : x.2.role = none) : x.2.opcode = 0x0A01 ∨ x.2.opcode = 0x0A02 := by
  cases c <;> cases hc <;> cases hrole
  case sessionOpen => exact .inl rfl
  case sessionAuth => exact .inr rfl

/-- SESSION 0 names no session. -/
theorem State.sessionRole_zero (s : State) : s.sessionRole 0 = none := rfl

/-- Outside recovery a session lacks a role unless it is authenticated with that role or a higher one (R530). -/
theorem State.lacksRole_iff {s : State} {h : CmdHdr} {c : CmdSpec} {need : Role} (hrec : s.pup.recovery = false)
    (hrole : c.role = some need) :
    s.lacksRole h c = true ↔ ∀ r, s.sessionRole h.session = some r → r.rank < need.rank := by
  cases hsess : s.sessionRole h.session <;> simp [State.lacksRole, hrole, hrec, hsess]

/-- The role is checked right after the layout of the slot, so a session that lacks it is answered DENIED_ROLE (R504). -/
theorem State.turnsAway_denied {s : State} {h : CmdHdr} {c : CmdSpec} (hserv : s.canServe h.mb = true)
    (hslot : slotOk h c.params.length c.ptrs c.needInd = true) (hlacks : s.lacksRole h c = true) :
    s.turnsAway h c stDenied = true := by
  simp [State.turnsAway, State.refusal, hserv, hslot, hlacks]

/-- A host command whose session lacks the role of its row is answered DENIED_ROLE and does nothing else (R530, R552). -/
theorem exec_denied {c : Instr} {s : State} {x : CmdHdr × CmdSpec} {need : Role} (hc : cmdOf c = some x)
    (hserv : s.canServe x.1.mb = true) (hrec : s.pup.recovery = false)
    (hslot : slotOk x.1 x.2.params.length x.2.ptrs x.2.needInd = true) (hrole : x.2.role = some need)
    (hlow : ∀ r, s.sessionRole x.1.session = some r → r.rank < need.rank) :
    exec c s = .next (s.answered x.1 x.2 { status := stDenied } s) :=
  exec_turned hc (State.turnsAway_denied hserv hslot ((State.lacksRole_iff hrec hrole).mpr hlow))

/-- Settles O9: the first clause is the check of the role; under SESSION 0 every row but two asks for a role, which no
session is there to meet. -/
theorem sessionRoleAsked : Obligations.SessionRoleAsked := by
  unfold Obligations.SessionRoleAsked
  refine ⟨fun c s x need hc hserv hrec hslot hrole hlow => exec_denied hc hserv hrec hslot hrole hlow, ?_, by decide⟩
  intro c s x hc hserv hrec hslot hzero hopen hauth
  cases hrole : x.2.role with
  | none => exact ((opcode_of_cmdOf_of_role_none hc hrole).elim hopen hauth).elim
  | some need => exact exec_denied hc hserv hrec hslot hrole (by rw [hzero, State.sessionRole_zero]; nofun)

end Sys2Proof.Machine
end

section
/-! SUPPORT. What a command does to the queue and to the one-time programmable memory: all but four leave both alone, and those
four only add to the memory, keeping it well formed (R566 to R568). -/

namespace Sys2Proof.Machine

/-- The four commands that write one-time programmable memory (R568). -/
def writesOtp : Instr → Bool
  | .otpKeyWrite .. | .otpKeyRevoke .. | .otpFloorSet .. | .otpTrimWrite .. => true
  | _ => false

/-- Every command but those four keeps the queue and the one-time programmable memory. -/
theorem exec_keeps_of_not_writesOtp {c : Instr} (hw : writesOtp c = false) (s : State) : Keeps s (exec c s) := by
  cases c with
  | powerUpVddio => exact execPowerUpVddio_kept s
  | supplyRemoved rail => exact execSupplyRemoved_kept rail s
  | resetNAssert => exact execResetNAssert_kept s
  | resetNRelease bootmode refclk => exact execResetNRelease_kept bootmode refclk s
  | firmwareReady => exact execFirmwareReady_kept s
  | trialBootTimeout => exact execTrialBootTimeout_kept s
  | watchdogExpiry => exact execWatchdogExpiry_kept s
  | lockstepFault => exact execLockstepFault_kept s
  | spiFrame khz bytes bits => exact execSpiFrame_kept khz bytes bits s
  | registerWrite addr data => exact execRegisterWrite_kept addr data s
  | rcRegisterRead addr => exact execRcRegisterRead_kept addr s
  | latchingLoRead addr => exact execLatchingLoRead_kept addr s
  | mbDoorbell mb data => exact execMbDoorbell_kept mb data s
  | hpMbCfgWrite data => exact execHpMbCfgWrite_kept data s
  | hpEvtRdWrite data => exact execHpEvtRdWrite_kept data s
  | hpWakeCtlWrite data => exact execHpWakeCtlWrite_kept data s
  | hpPadReleaseWrite data => exact execHpPadReleaseWrite_kept data s
  | dmRingLenWrite ch data => exact execDmRingLenWrite_kept ch data s
  | dmRingPtrWrite ch data => exact execDmRingPtrWrite_kept ch data s
  | sysInfo h => exact execSysInfo_kept h s
  | fwStage h offset length ptr final => exact execFwStage_kept h offset length ptr final s
  | fwRestart h slot => exact execFwRestart_kept h slot s
  | fwSlotInfo h => exact execFwSlotInfo_kept h s
  | ckConvSet h tiles en delay trim1 trim2 trim3 trim4 =>
    exact execCkConvSet_kept h tiles en delay trim1 trim2 trim3 trim4 s
  | ckSyncCfg h period limit => exact execCkSyncCfg_kept h period limit s
  | ckLockmonSel h sel => exact execCkLockmonSel_kept h sel s
  | ckFaultAck h plls => exact execCkFaultAck_kept h plls s
  | ckPllRelock h pll => exact execCkPllRelock_kept h pll s
  | ckStatus h => exact execCkStatus_kept h s
  | ckRefCfg h source => exact execCkRefCfg_kept h source s
  | refclkMissingDetect => exact execRefclkMissingDetect_kept s
  | refclkReturn => exact execRefclkReturn_kept s
  | pllLockLoss pll => exact execPllLockLoss_kept pll s
  | pllRelockRetry pll => exact execPllRelockRetry_kept pll s
  | pllLockAcquired pll => exact execPllLockAcquired_kept pll s
  | convDelaySlewStep t => exact execConvDelaySlewStep_kept t s
  | syncEdge frac lowBefore => exact execSyncEdge_kept frac lowBefore s
  | syncQualified highAfter comp => exact execSyncQualified_kept highAfter comp s
  | timeArmSync h value timeout => exact execTimeArmSync_kept h value timeout s
  | syncArmLapse => exact execSyncArmLapse_kept s
  | timeGet h => exact execTimeGet_kept h s
  | timeDiscipline h mode epoch polarity => exact execTimeDiscipline_kept h mode epoch polarity s
  | timeInPulseEdge stamp falling => exact execTimeInPulseEdge_kept stamp falling s
  | ppsMissing => exact execPpsMissing_kept s
  | actEnqueue h queue kind time tol window params => exact execActEnqueue_kept h queue kind time tol window params s
  | actCancel h handle => exact execActCancel_kept h handle s
  | actQuery h handle queue => exact execActQuery_kept h handle queue s
  | actionToleranceExpiry q => exact execActionToleranceExpiry_kept q s
  | actionHoldRelease q => exact execActionHoldRelease_kept q s
  | radioState t => exact execRadioState_kept t s
  | retune t => exact execRetune_kept t s
  | txBurst t => exact execTxBurst_kept t s
  | pickCtl t => exact execPickCtl_kept t s
  | femLevels t => exact execFemLevels_kept t s
  | calSlot t => exact execCalSlot_kept t s
  | bankSwap => exact execBankSwap_kept s
  | swapEffectiveSample => exact execSwapEffectiveSample_kept s
  | acqArm => exact execAcqArm_kept s
  | softTrigger => exact execSoftTrigger_kept s
  | trigOutEdge => exact execTrigOutEdge_kept s
  | laneState => exact execLaneState_kept s
  | analyserCfg => exact execAnalyserCfg_kept s
  | winDefine h window openMode openVal closeMode closeVal tag maxLen =>
    exact execWinDefine_kept h window openMode openVal closeMode closeVal tag maxLen s
  | winModify h window edge time => exact execWinModify_kept h window edge time s
  | winDelete h window => exact execWinDelete_kept h window s
  | winQuery h window => exact execWinQuery_kept h window s
  | winOpenTime w => exact execWinOpenTime_kept w s
  | winCloseTime w => exact execWinCloseTime_kept w s
  | winClosingEnd w => exact execWinClosingEnd_kept w s
  | trigInEdge input stamp falling => exact execTrigInEdge_kept input stamp falling s
  | pathSet h paths atten gain port => exact execPathSet_kept h paths atten gain port s
  | pathGet h path => exact execPathGet_kept h path s
  | femPatternSet h tiles pats od lead lag sel0 sel1 sel2 =>
    exact execFemPatternSet_kept h tiles pats od lead lag sel0 sel1 sel2 s
  | rffeXfer h tile count ops => exact execRffeXfer_kept h tile count ops s
  | rffeOperationDone t parity data => exact execRffeOperationDone_kept t parity data s
  | rffeRetuneSeq h tile count divWr divRd ops => exact execRffeRetuneSeq_kept h tile count divWr divRd ops s
  | rffeSeqOverrun t => exact execRffeSeqOverrun_kept t s
  | preambleCfg h det beam ptr half thr evt => exact execPreambleCfg_kept h det beam ptr half thr evt s
  | pickGroupCfg h group tiles home bias hold enable =>
    exact execPickGroupCfg_kept h group tiles home bias hold enable s
  | orxCouplingSet h path coupling delay atten settle =>
    exact execOrxCouplingSet_kept h path coupling delay atten settle s
  | rxSample p code q => exact execRxSample_kept p code q s
  | preambleDetection t => exact execPreambleDetection_kept t s
  | pickSwitch g => exact execPickSwitch_kept g s
  | pickDecision g => exact execPickDecision_kept g s
  | pickReturnHome g => exact execPickReturnHome_kept g s
  | pickHoldEnd g => exact execPickHoldEnd_kept g s
  | orxCaptureStart t => exact execOrxCaptureStart_kept t s
  | orxCaptureEnd t words => exact execOrxCaptureEnd_kept t words s
  | transitionComplete t => exact execTransitionComplete_kept t s
  | burstLengthEnd t => exact execBurstLengthEnd_kept t s
  | txLeadStart t => exact execTxLeadStart_kept t s
  | txLagEnd t => exact execTxLagEnd_kept t s
  | glideStepConfirm t => exact execGlideStepConfirm_kept t s
  | glideStepOverbudget t => exact execGlideStepOverbudget_kept t s
  | glideStepTimeout t => exact execGlideStepTimeout_kept t s
  | largeRetuneComplete t => exact execLargeRetuneComplete_kept t s
  | tileHomeSet h tiles home => exact execTileHomeSet_kept h tiles home s
  | tileStateGet h tile => exact execTileStateGet_kept h tile s
  | tileBandSet h tiles band => exact execTileBandSet_kept h tiles band s
  | chanFrontSet h dirs rx tx => exact execChanFrontSet_kept h dirs rx tx s
  | chanInfo h dir front narrow rate => exact execChanInfo_kept h dir front narrow rate s
  | hkFilterSet h cls preset => exact execHkFilterSet_kept h cls preset s
  | beamCfg h dir beam enable rate preset format flow freq shift =>
    exact execBeamCfg_kept h dir beam enable rate preset format flow freq shift s
  | beamWeights h dir beam port first count ptr => exact execBeamWeights_kept h dir beam port first count ptr s
  | beamDelays h dir first count form delays ptr => exact execBeamDelays_kept h dir first count form delays ptr s
  | elemCfg h dir mode rate preset format flows txShift =>
    exact execElemCfg_kept h dir mode rate preset format flows txShift s
  | beamBankCopy h dirs => exact execBeamBankCopy_kept h dirs s
  | beamQuery h dir bank beam => exact execBeamQuery_kept h dir bank beam s
  | beamTxGridSample b => exact execBeamTxGridSample_kept b s
  | pdChainSet h inserted => exact execPdChainSet_kept h inserted s
  | pdPathSet h paths pdEn cfrEn adaptEn evtSwap => exact execPdPathSet_kept h paths pdEn cfrEn adaptEn evtSwap s
  | pdNeighbourSet h path q1 q2 => exact execPdNeighbourSet_kept h path q1 q2 s
  | pdGateSet h tiles gate cfMin cfMax margin capSkip freeze clear lambda =>
    exact execPdGateSet_kept h tiles gate cfMin cfMax margin capSkip freeze clear lambda s
  | pdLimitSet h tiles gain phase nmse peak rejectMax =>
    exact execPdLimitSet_kept h tiles gain phase nmse peak rejectMax s
  | pdCfrSet h tiles thr ptr => exact execPdCfrSet_kept h tiles thr ptr s
  | pdCoefLoad h path ptr => exact execPdCoefLoad_kept h path ptr s
  | pdCoefRead h path set ptr => exact execPdCoefRead_kept h path set ptr s
  | pdStatus h path => exact execPdStatus_kept h path s
  | estimationDone t dGain dPhase nmse peak words => exact execEstimationDone_kept t dGain dPhase nmse peak words s
  | freezeTimeExpiry p => exact execFreezeTimeExpiry_kept p s
  | statsClearExpiry p => exact execStatsClearExpiry_kept p s
  | anLaneCfg h lanes mode path port z window overlap units =>
    exact execAnLaneCfg_kept h lanes mode path port z window overlap units s
  | anStitchCfg h tiles f0 z => exact execAnStitchCfg_kept h tiles f0 z s
  | anOutputCfg h source output first count period k avgMode inclBlanked maskOvl flow segment =>
    exact execAnOutputCfg_kept h source output first count period k avgMode inclBlanked maskOvl flow segment s
  | anMaskLoad h source mask polarity enterD leaveD evt count ptr =>
    exact execAnMaskLoad_kept h source mask polarity enterD leaveD evt count ptr s
  | anDensityCfg h lane b0 c top step flow => exact execAnDensityCfg_kept h lane b0 c top step flow s
  | anDensitySwap h lanes => exact execAnDensitySwap_kept h lanes s
  | anApply h lanes => exact execAnApply_kept h lanes s
  | anRefSet h lanes offset => exact execAnRefSet_kept h lanes offset s
  | anStatus h lane => exact execAnStatus_kept h lane s
  | spectralFrameEnd src => exact execSpectralFrameEnd_kept src s
  | traceBlockEnd src out => exact execTraceBlockEnd_kept src out s
  | densitySwapEffect src => exact execDensitySwapEffect_kept src s
  | densityReadoutDone src => exact execDensityReadoutDone_kept src s
  | levelCrossing lv => exact execLevelCrossing_kept lv s
  | triggerFiringArrival u => exact execTriggerFiringArrival_kept u s
  | tuPairDecision u => exact execTuPairDecision_kept u s
  | trigOutPulseEnd pin => exact execTrigOutPulseEnd_kept pin s
  | recordEnd c => exact execRecordEnd_kept c s
  | recordRearm c => exact execRecordRearm_kept c s
  | aqSegmentDefine h segment base length slots => exact execAqSegmentDefine_kept h segment base length slots s
  | aqSegmentFree h segment => exact execAqSegmentFree_kept h segment s
  | aqChanCfg h channel op kind index segment unit pre post format mode reductions bt flow =>
    exact execAqChanCfg_kept h channel op kind index segment unit pre post format mode reductions bt flow s
  | aqTrigCfg h unit aCode aIdx bCode bIdx op limit holdoff evt =>
    exact execAqTrigCfg_kept h unit aCode aIdx bCode bIdx op limit holdoff evt s
  | aqLevelCfg h det kind index w thr hys dir dwell => exact execAqLevelCfg_kept h det kind index w thr hys dir dwell s
  | aqTriginCfg h input edges => exact execAqTriginCfg_kept h input edges s
  | aqTrigoutCfg h pin owner kind index polarity width =>
    exact execAqTrigoutCfg_kept h pin owner kind index polarity width s
  | aqArm h chans window => exact execAqArm_kept h chans window s
  | aqDisarm h chans => exact execAqDisarm_kept h chans s
  | aqSoftTrig h units => exact execAqSoftTrig_kept h units s
  | aqRetainSet h units => exact execAqRetainSet_kept h units s
  | aqBudgetGet h => exact execAqBudgetGet_kept h s
  | aqStatus h channel => exact execAqStatus_kept h channel s
  | nop t moveSlot => exact execNop_kept t moveSlot s
  | cmac t a x y f => exact execCmac_kept t a x y f s
  | cmac4 t h q c f => exact execCmac4_kept t h q c f s
  | ftap t h q c n f => exact execFtap_kept t h q c n f s
  | rmac2 t a x y neg z => exact execRmac2_kept t a x y neg z s
  | cpwr t a x z => exact execCpwr_kept t a x z s
  | cmpy t d x y cj => exact execCmpy_kept t d x y cj s
  | cadd t d x y => exact execCadd_kept t d x y s
  | csub t d x y => exact execCsub_kept t d x y s
  | conj t d x neg => exact execConj_kept t d x neg s
  | shra t d x k => exact execShra_kept t d x k s
  | and t d x y => exact execAnd_kept t d x y s
  | or t d x y => exact execOr_kept t d x y s
  | xor t d x y => exact execXor_kept t d x y s
  | iadd t d x y => exact execIadd_kept t d x y s
  | isub t d x y => exact execIsub_kept t d x y s
  | icmp t x y => exact execIcmp_kept t x y s
  | mvad t d a => exact execMvad_kept t d a s
  | mvda t a d sh => exact execMvda_kept t a d sh s
  | accadd t a b neg => exact execAccadd_kept t a b neg s
  | accclr t mask => exact execAccclr_kept t mask s
  | bfpend t => exact execBfpend_kept t s
  | ldx t d am => exact execLdx_kept t d am s
  | ldy t d am => exact execLdy_kept t d am s
  | ldxy t a b px mx ux py my uy => exact execLdxy_kept t a b px mx ux py my uy s
  | stx t src am => exact execStx_kept t src am s
  | sty t src am => exact execSty_kept t src am s
  | li t code imm => exact execLi_kept t code imm s
  | lih t d imm => exact execLih_kept t d imm s
  | mv t dst src => exact execMv_kept t dst src s
  | padd t p form m imm => exact execPadd_kept t p form m imm s
  | iorTioDbell t d => exact execIorTioDbell_kept t d s
  | iorTioTime t d addr => exact execIorTioTime_kept t d addr s
  | iorTioFill t d k => exact execIorTioFill_kept t d k s
  | iowTioFill t src k => exact execIowTioFill_kept t src k s
  | iowTioTimer t src addr => exact execIowTioTimer_kept t src addr s
  | iowTioCap t src => exact execIowTioCap_kept t src s
  | ien t e => exact execIen_kept t e s
  | br t cond target => exact execBr_kept t cond target s
  | call t d target => exact execCall_kept t d target s
  | ret t src => exact execRet_kept t src s
  | reti t => exact execReti_kept t s
  | loop t lv form start stop count => exact execLoop_kept t lv form start stop count s
  | loopReturn t => exact execLoopReturn_kept t s
  | mvlp t lv restore inY p => exact execMvlp_kept t lv restore inY p s
  | sync t => exact execSync_kept t s
  | syncBufferDrained t => exact execSyncBufferDrained_kept t s
  | idle t => exact execIdle_kept t s
  | evt t src code => exact execEvt_kept t src code s
  | tdspInterruptEntry t => exact execTdspInterruptEntry_kept t s
  | tioTimerExpiry t => exact execTioTimerExpiry_kept t s
  | tdspLoad h tile addr start => exact execTdspLoad_kept h tile addr start s
  | tdspLoadComplete t => exact execTdspLoadComplete_kept t s
  | tdspStart h tile entry => exact execTdspStart_kept h tile entry s
  | tdspStop h tile => exact execTdspStop_kept h tile s
  | tdspDoorbell h tile value => exact execTdspDoorbell_kept h tile value s
  | tdspStatus h tile => exact execTdspStatus_kept h tile s
  | tdspUnload h tile => exact execTdspUnload_kept h tile s
  | lkCfg h rate minLanes auto manual timeout swing => exact execLkCfg_kept h rate minLanes auto manual timeout swing s
  | lkStart h lanes => exact execLkStart_kept h lanes s
  | lkStartTimeout => exact execLkStartTimeout_kept s
  | lkBitslip h lane count => exact execLkBitslip_kept h lane count s
  | lkStateSet h lanes state => exact execLkStateSet_kept h lanes state s
  | lkLoop h lanes loop => exact execLkLoop_kept h lanes loop s
  | lkPrbs h lanes gen chk => exact execLkPrbs_kept h lanes gen chk s
  | lkInject h lanes burst rep => exact execLkInject_kept h lanes burst rep s
  | lkBerGet h lane => exact execLkBerGet_kept h lane s
  | lkStatus h lane => exact execLkStatus_kept h lane s
  | lkPresetSet h lanes p1 p2 p3 p4 => exact execLkPresetSet_kept h lanes p1 p2 p3 p4 s
  | laneExitComplete l => exact execLaneExitComplete_kept l s
  | cdrLockAcquired l => exact execCdrLockAcquired_kept l s
  | cdrLockTimeout l => exact execCdrLockTimeout_kept l s
  | laneBlockReceived l hdr => exact execLaneBlockReceived_kept l hdr s
  | autoSlip l => exact execAutoSlip_kept l s
  | laneLockLossTimeout l => exact execLaneLockLossTimeout_kept l s
  | eqDensityWindowEnd l transitions => exact execEqDensityWindowEnd_kept l transitions s
  | markerReceived l payload skew complemented => exact execMarkerReceived_kept l payload skew complemented s
  | markerSent => exact execMarkerSent_kept s
  | idleRowSend => exact execIdleRowSend_kept s
  | txIqPacket pkt => exact execTxIqPacket_kept pkt s
  | ctrlCmdPacket pkt => exact execCtrlCmdPacket_kept pkt s
  | memRdDataPacket pkt => exact execMemRdDataPacket_kept pkt s
  | ackPacket pkt => exact execAckPacket_kept pkt s
  | ackSend => exact execAckSend_kept s
  | replayTimeout => exact execReplayTimeout_kept s
  | reliableHoldExpiry => exact execReliableHoldExpiry_kept s
  | creditReport f => exact execCreditReport_kept f s
  | memReadTimeout tag => exact execMemReadTimeout_kept tag s
  | streamPacketSend f => exact execStreamPacketSend_kept f s
  | eventPacketSend => exact execEventPacketSend_kept s
  | lkFlowCfg h dir flow prio lenMax => exact execLkFlowCfg_kept h dir flow prio lenMax s
  | lkAniqCfg h lane flow format => exact execLkAniqCfg_kept h lane flow format s
  | lkFlowQuery h dir flow => exact execLkFlowQuery_kept h dir flow s
  | lkBudgetGet h dir => exact execLkBudgetGet_kept h dir s
  | lkRelCfg h replayT holdMs memTo route => exact execLkRelCfg_kept h replayT holdMs memTo route s
  | dmChanCfg h channel op mode base len burst uses rate paceTile paceQ high low bound evt =>
    exact execDmChanCfg_kept h channel op mode base len burst uses rate paceTile paceQ high low bound evt s
  | dmStart h chans addr => exact execDmStart_kept h chans addr s
  | dmTail h channel tail => exact execDmTail_kept h channel tail s
  | chStop h chans => exact execChStop_kept h chans s
  | chKill h chans => exact execChKill_kept h chans s
  | dmStatus h channel => exact execDmStatus_kept h channel s
  | cuCfg h unit crc => exact execCuCfg_kept h unit crc s
  | cuStatus h unit => exact execCuStatus_kept h unit s
  | descriptorFetch c => exact execDescriptorFetch_kept c s
  | dmaBurstStart c => exact execDmaBurstStart_kept c s
  | dmaBurstEnd c => exact execDmaBurstEnd_kept c s
  | descriptorComplete c => exact execDescriptorComplete_kept c s
  | calRun h kinds tiles deadline count fcs => exact execCalRun_kept h kinds tiles deadline count fcs s
  | calAbort h kinds tiles => exact execCalAbort_kept h kinds tiles s
  | calGapCfg h windows limit => exact execCalGapCfg_kept h windows limit s
  | calRefCfg h path level => exact execCalRefCfg_kept h path level s
  | calStore h => exact execCalStore_kept h s
  | calHoldupCfg h cap vmin divider ePage eErase => exact execCalHoldupCfg_kept h cap vmin divider ePage eErase s
  | calFlashCfg h offA offB rmin rmax ren => exact execCalFlashCfg_kept h offA offB rmin rmax ren s
  | calStatus h tile => exact execCalStatus_kept h tile s
  | calSetRead h kind object point ptr => exact execCalSetRead_kept h kind object point ptr s
  | calPlacementCheck t => exact execCalPlacementCheck_kept t s
  | calClaimStart t => exact execCalClaimStart_kept t s
  | calClaimEnd t => exact execCalClaimEnd_kept t s
  | calibrationComplete t kind failing tm results => exact execCalibrationComplete_kept t kind failing tm results s
  | flashProgramDone => exact execFlashProgramDone_kept s
  | flashEraseDone => exact execFlashEraseDone_kept s
  | thermalEvaluation r est powers => exact execThermalEvaluation_kept r est powers s
  | thermalHaltEntry => exact execThermalHaltEntry_kept s
  | slowRound diodes volts counts devs vhold => exact execSlowRound_kept diodes volts counts devs vhold s
  | throttleStep => exact execThrottleStep_kept s
  | throttleRevert => exact execThrottleRevert_kept s
  | hkModelCfg h rha ch ta => exact execHkModelCfg_kept h rha ch ta s
  | hkThrottleCfg h steps interval duty => exact execHkThrottleCfg_kept h steps interval duty s
  | hkBandCfg h enable => exact execHkBandCfg_kept h enable s
  | hkResume h => exact execHkResume_kept h s
  | hkStatus h => exact execHkStatus_kept h s
  | hkRead h cls => exact execHkRead_kept h cls s
  | pwStateSet h target lane => exact execPwStateSet_kept h target lane s
  | blockEntryAnswer block ok => exact execBlockEntryAnswer_kept block ok s
  | blockAnswerTimeout => exact execBlockAnswerTimeout_kept s
  | entryPhase2Proceed => exact execEntryPhase2Proceed_kept s
  | pwPark h tiles => exact execPwPark_kept h tiles s
  | tileUnparkComplete t => exact execTileUnparkComplete_kept t s
  | pwRetainCfg h banks => exact execPwRetainCfg_kept h banks s
  | pwWakeCfg h pinEn timerEn timer => exact execPwWakeCfg_kept h pinEn timerEn timer s
  | pwStatus h => exact execPwStatus_kept h s
  | wakePinEdge heldTwo => exact execWakePinEdge_kept heldTwo s
  | sleepTimerExpiry => exact execSleepTimerExpiry_kept s
  | wakeStepReady => exact execWakeStepReady_kept s
  | wakeStepTimeout => exact execWakeStepTimeout_kept s
  | regRead h addr count => exact execRegRead_kept h addr count s
  | regWrite h addr count words => exact execRegWrite_kept h addr count words s
  | regReadBlock h addr bytes ptr => exact execRegReadBlock_kept h addr bytes ptr s
  | regWriteBlock h addr bytes ptr => exact execRegWriteBlock_kept h addr bytes ptr s
  | calbusDiag h path mode offset level sinks orx duration =>
    exact execCalbusDiag_kept h path mode offset level sinks orx duration s
  | calbusDiagEnd => exact execCalbusDiagEnd_kept s
  | sessionOpen h role => exact execSessionOpen_kept h role s
  | sessionAuth h handle mac => exact execSessionAuth_kept h handle mac s
  | sessionClose h handle => exact execSessionClose_kept h handle s
  | sessionAuthTimeout src => exact execSessionAuthTimeout_kept src s
  | sessionLifetimeExpiry src => exact execSessionLifetimeExpiry_kept src s
  | lockoutExpiry r => exact execLockoutExpiry_kept r s
  | keySet h role ptr => exact execKeySet_kept h role ptr s
  | journalRead h first count ptr => exact execJournalRead_kept h first count ptr s
  | journalErase h confirm => exact execJournalErase_kept h confirm s
  | otpKeyWrite => cases hw
  | otpKeyRevoke => cases hw
  | otpFloorSet => cases hw
  | otpTrimWrite => cases hw
  | journalEntryWrite mb => exact execJournalEntryWrite_kept mb s
  | journalBufferDrain => exact execJournalBufferDrain_kept s
  | jtagTrst low => exact execJtagTrst_kept low s
  | extest cells => exact execExtest_kept cells s
  | samplePreload cells => exact execSamplePreload_kept cells s
  | idcode => exact execIdcode_kept s
  | extestPulse cells => exact execExtestPulse_kept cells s
  | extestTrain cells => exact execExtestTrain_kept cells s
  | highz => exact execHighz_kept s
  | clamp => exact execClamp_kept s
  | bypass code => exact execBypass_kept code s
  | prbsCheckerBits l bits => exact execPrbsCheckerBits_kept l bits s
  | injectRepeat l => exact execInjectRepeat_kept l s
  | dozeWakeComplete => exact execDozeWakeComplete_kept s

/-- What keeps the queue and the one-time programmable memory burns nothing. -/
theorem Keeps.burns {s : State} {o : Out} (h : Keeps s o) : ∃ t, o = .next t ∧ Burns s t := by
  obtain ⟨t, rfl, hk⟩ := h
  obtain ⟨hp, ho⟩ := State.kept_iff.mp hk
  exact ⟨t, rfl, hp, ho ▸ OtpBlock.Grows.refl _⟩

/-- Every command answers a next state, with the queue as it found it and a one-time programmable memory that holds no less. -/
theorem exec_burns (c : Instr) (s : State) : ∃ t, exec c s = .next t ∧ Burns s t := by
  cases hw : writesOtp c with
  | false => exact (exec_keeps_of_not_writesOtp hw s).burns
  | true =>
    cases c with
    | otpKeyWrite h index ptr => exact execOtpKeyWrite_burns h index ptr s
    | otpKeyRevoke h index => exact execOtpKeyRevoke_burns h index s
    | otpFloorSet h version => exact execOtpFloorSet_burns h version s
    | otpTrimWrite h group length ptr => exact execOtpTrimWrite_burns h group length ptr s
    | _ => cases hw

/-- Settles O5: every command burns or leaves alone. -/
theorem otpWritesStand : Obligations.OtpWritesStand := by
  unfold Obligations.OtpWritesStand
  intro c s t ht
  obtain ⟨u, hu, -, hgrows⟩ := exec_burns c s
  cases ht.symm.trans hu
  exact hgrows

/-- Settles O4: the queue is cut before its first command runs, and no command reaches what is left of it. -/
theorem everyStepServesFront : Obligations.EveryStepServesFront := by
  unfold Obligations.EveryStepServesFront
  intro s
  cases hq : s.pending with
  | nil =>
    refine ⟨idleTick s, by simp only [step, hq], ?_⟩
    rw [(State.kept_iff.mp (idleTick_kept s)).1, hq, List.tail_nil]
  | cons c rest =>
    obtain ⟨t, ht, hpending, -⟩ := exec_burns c { s with pending := rest }
    exact ⟨t, by simp only [step, hq, ht], hpending⟩

/-! ### The OTP memory stays well formed -/

/-- A served command leaves the one-time programmable memory it found, or that of its body. -/
theorem serve_otp (h : CmdHdr) (c : CmdSpec) (body : State → Reply × State) (s : State) :
    (serve h c body s).otp = s.otp ∨ (serve h c body s).otp = (body s.enter).2.otp := by
  unfold serve
  split
  · exact .inl rfl
  · simp only [(State.kept_iff.mp (State.settle_kept _ _ _ _ _)).2]
    split
    · exact .inl rfl
    · exact .inr rfl

/-- A body that keeps the one-time programmable memory well formed keeps it so when it is served. -/
theorem serve_otp_ok {h : CmdHdr} {c : CmdSpec} {body : State → Reply × State} {s : State} (hs : s.otp.ok)
    (hb : ∀ u : State, u.otp.ok → (body u).2.otp.ok) : (serve h c body s).otp.ok := by
  obtain heq | heq := serve_otp h c body s
  · rwa [heq]
  · rw [heq]
    exact hb s.enter hs

/-- The body behind a list of checks need only be well behaved where every check passes. -/
theorem checks_otp_ok {cs : List (BitVec 8 × Bool)} {s : State} {body : Unit → Reply × State} (hs : s.otp.ok)
    (hb : (∀ c ∈ cs, c.2 = false) → (body ()).2.otp.ok) : (checks cs s body).2.otp.ok := by
  by_cases hpass : ∀ c ∈ cs, c.2 = false
  · rw [checks_pass hpass]
    exact hb hpass
  · unfold checks
    split
    · exact hs
    · rename_i hnone
      exact absurd (fun c hc => by simpa using List.find?_eq_none.mp hnone c hc) hpass

/-- A burn leaves what it leaves verified or failed (R568). -/
theorem State.otpBurn_ok {s : State} {good bad : State → State} (hg : ∀ n, (good { s with free := n }).otp.ok)
    (hb : ∀ n, (bad { s with free := n }).otp.ok) : (s.otpBurn good bad).2.otp.ok := by
  unfold State.otpBurn
  simp only
  split
  · exact hb _
  · exact hg _

/-- Changing a key slot keeps the memory well formed where a slot that comes out written holds a point of P-256 (R566). -/
theorem State.modOtp_ok {s : State} {i : Fin 4} {f : OtpKey → OtpKey} (hs : s.otp.ok) (n : Nat)
    (hf : (f (s.otp.keys.get i)).written = true →
      p256On (unbe ((f (s.otp.keys.get i)).key.take 32)) (unbe ((f (s.otp.keys.get i)).key.drop 32)) = true) :
    (State.modOtp { s with free := n } i f).otp.ok := by
  obtain ⟨hkeys, hfloor⟩ := hs
  refine ⟨fun j hj => ?_, hfloor⟩
  have hget : (State.modOtp { s with free := n } i f).otp.keys.get j =
      if j = i then f (s.otp.keys.get i) else s.otp.keys.get j := vmod_get s.otp.keys i j f
  rw [hget] at hj ⊢
  split at hj
  · rw [if_pos ‹_›]
    exact hf hj
  · rw [if_neg ‹_›]
    exact hkeys j hj

/-- The floor in force is the last word that verified (R567). -/
theorem State.otpFloorNow_eq (s : State) :
    s.otpFloorNow = ((s.otp.floor.filterMap id).getLast?).elim 0 BitVec.toNat := by
  rw [List.getLast?_filterMap]
  rfl

/-- No word that verified lies above a number that the last of them does not exceed. -/
theorem toNat_le_of_getLast?_le {l : List Word} (h : l.Pairwise (fun a b => a.toNat ≤ b.toNat)) {n : Nat}
    (hn : l.getLast?.elim 0 BitVec.toNat ≤ n) : ∀ a ∈ l, a.toNat ≤ n := by
  intro a ha
  obtain rfl | ⟨l, b, rfl⟩ := List.eq_nil_or_concat' l
  · cases ha
  · rw [List.getLast?_concat] at hn
    obtain hl | hb := List.mem_append.mp ha
    · exact ((List.pairwise_append.mp h).2.2 a hl b (List.mem_singleton_self b)).trans hn
    · rwa [List.mem_singleton.mp hb]

/-- A floor word no lower than the floor in force keeps the memory well formed while one of the 16 is left (R567). -/
theorem OtpBlock.ok_addFloor {s : State} {version : Word} (hs : s.otp.ok) (hlow : s.otpFloorNow ≤ version.toNat)
    (hroom : s.otp.floor.length < 16) : OtpBlock.ok { s.otp with floor := s.otp.floor ++ [some version] } := by
  obtain ⟨hkeys, -, hfloor, htrim⟩ := hs
  refine ⟨hkeys, by simpa using hroom, ?_, htrim⟩
  have happend : (s.otp.floor ++ [some version]).filterMap id = s.otp.floor.filterMap id ++ [version] := by simp
  rw [happend, List.pairwise_append]
  refine ⟨hfloor, List.pairwise_singleton _ _, fun a ha b hb => ?_⟩
  rw [List.mem_singleton.mp hb]
  exact toNat_le_of_getLast?_le hfloor (s.otpFloorNow_eq ▸ hlow) a ha

/-- A floor word that failed to verify uses a place and changes no floor (R567). -/
theorem OtpBlock.ok_addFloor_failed {o : OtpBlock} (ho : o.ok) (hroom : o.floor.length < 16) :
    OtpBlock.ok { o with floor := o.floor ++ [none] } := by
  obtain ⟨hkeys, -, hfloor, htrim⟩ := ho
  refine ⟨hkeys, by simpa using hroom, ?_, htrim⟩
  simpa using hfloor

/-- A trim group that stands nowhere yet may be added (R568). -/
theorem OtpBlock.ok_addTrim {o : OtpBlock} {group : BitVec 16} {b : Option (List Byte)} (ho : o.ok)
    (hnew : o.trim.any (fun g => decide (g.1 = group)) = false) :
    OtpBlock.ok { o with trim := o.trim ++ [(group, b)] } := by
  obtain ⟨hkeys, hlen, hfloor, htrim⟩ := ho
  refine ⟨hkeys, hlen, hfloor, ?_⟩
  have hmem : group ∉ o.trim.map Prod.fst := fun hm => by
    obtain ⟨g, hg, rfl⟩ := List.mem_map.mp hm
    exact absurd (List.any_eq_false.mp hnew g hg) (by simp)
  rw [List.map_append, List.map_singleton, ← List.concat_eq_append]
  exact htrim.concat hmem

theorem execOtpKeyWrite_ok {s t : State} {h : CmdHdr} {index : BitVec 8} {ptr : BitVec 32} (hs : s.otp.ok)
    (ht : execOtpKeyWrite h index ptr s = .next t) : t.otp.ok := by
  cases ht
  refine serve_otp_ok hs fun u hu => ?_
  split
  · exact hu
  · split
    · exact hu
    · dsimp only
      refine checks_otp_ok hu fun hpass => State.otpBurn_ok (fun n => State.modOtp_ok hu n fun _ => ?_)
        (fun n => State.modOtp_ok hu n fun hw => hu.1 _ hw)
      simp only [List.forall_mem_cons, Bool.not_eq_false'] at hpass
      exact hpass.1

theorem execOtpKeyRevoke_ok {s t : State} {h : CmdHdr} {index : BitVec 8} (hs : s.otp.ok)
    (ht : execOtpKeyRevoke h index s = .next t) : t.otp.ok := by
  cases ht
  refine serve_otp_ok hs fun u hu => ?_
  split
  · exact hu
  · split
    · exact hu
    · exact checks_otp_ok hu fun _ => State.otpBurn_ok (fun n => State.modOtp_ok hu n fun hw => hu.1 _ hw)
        (fun n => State.modOtp_ok hu n fun hw => hu.1 _ hw)

theorem execOtpFloorSet_ok {s t : State} {h : CmdHdr} {version : BitVec 32} (hs : s.otp.ok)
    (ht : execOtpFloorSet h version s = .next t) : t.otp.ok := by
  cases ht
  refine serve_otp_ok hs fun u hu => checks_otp_ok hu fun hpass => ?_
  have hrange := hpass (stBadParam, decide (version.toNat < u.otpFloorNow ∨ u.pup.fwVer.toNat < version.toNat)) (by simp)
  have hused := hpass (stBadParam, decide (16 ≤ u.otp.floor.length)) (by simp)
  simp only [decide_eq_false_iff_not, not_or, not_lt, not_le] at hrange hused
  exact State.otpBurn_ok (fun _ => OtpBlock.ok_addFloor hu hrange.1 hused) (fun _ => OtpBlock.ok_addFloor_failed hu hused)

theorem execOtpTrimWrite_ok {s t : State} {h : CmdHdr} {group length : BitVec 16} {ptr : BitVec 32} (hs : s.otp.ok)
    (ht : execOtpTrimWrite h group length ptr s = .next t) : t.otp.ok := by
  cases ht
  refine serve_otp_ok hs fun u hu => checks_otp_ok hu fun hpass => ?_
  have hnew := hpass (stBadState, u.otp.trim.any (fun g => decide (g.1 = group))) (by simp)
  exact State.otpBurn_ok (fun _ => OtpBlock.ok_addTrim hu hnew) (fun _ => OtpBlock.ok_addTrim hu hnew)

/-- Every command keeps the one-time programmable memory well formed. -/
theorem exec_otp_ok {c : Instr} {s t : State} (hs : s.otp.ok) (ht : exec c s = .next t) : t.otp.ok := by
  cases hw : writesOtp c with
  | false =>
    obtain ⟨u, hu, hk⟩ := exec_keeps_of_not_writesOtp hw s
    cases ht.symm.trans hu
    rwa [(State.kept_iff.mp hk).2]
  | true =>
    cases c with
    | otpKeyWrite h index ptr => exact execOtpKeyWrite_ok hs ht
    | otpKeyRevoke h index => exact execOtpKeyRevoke_ok hs ht
    | otpFloorSet h version => exact execOtpFloorSet_ok hs ht
    | otpTrimWrite h group length ptr => exact execOtpTrimWrite_ok hs ht
    | _ => cases hw

/-- Settles O6: an idle step reaches no OTP memory, a command keeps it well formed. -/
theorem otpInvariantKept : Obligations.OtpInvariantKept := by
  unfold Obligations.OtpInvariantKept
  intro s t hs ht
  unfold step at ht
  split at ht
  · cases ht
    rwa [(State.kept_iff.mp (idleTick_kept s)).2]
  · rename_i c rest _
    exact exec_otp_ok (s := { s with pending := rest }) hs ht

/-- In a memory that is well formed the floor in force is no lower than that of any memory it grew from (R567). -/
theorem State.otpFloorNow_le_of_grows {s t : State} (ht : t.otp.ok) (h : s.otp.Grows t.otp) :
    s.otpFloorNow ≤ t.otpFloorNow := by
  obtain ⟨-, -, hfloor, -⟩ := ht
  obtain ⟨-, ⟨later, hlater⟩, -⟩ := h
  rw [s.otpFloorNow_eq]
  cases hlast : (s.otp.floor.filterMap id).getLast? with
  | none => exact Nat.zero_le _
  | some a =>
    have hmem : a ∈ t.otp.floor.filterMap id := by
      rw [← hlater, List.filterMap_append]
      exact List.mem_append_left _ (List.mem_of_getLast? hlast)
    exact toNat_le_of_getLast?_le hfloor t.otpFloorNow_eq.ge a hmem

/-- Settles O7: the memory grows and stays well formed. -/
theorem rollbackFloorNeverFalls : Obligations.RollbackFloorNeverFalls := by
  unfold Obligations.RollbackFloorNeverFalls
  intro c s t hs ht
  obtain ⟨u, hu, -, hgrows⟩ := exec_burns c s
  cases ht.symm.trans hu
  exact State.otpFloorNow_le_of_grows (exec_otp_ok hs ht) hgrows

end Sys2Proof.Machine
end

section
/-! SUPPORT. A body that refuses its command answers with the state it was given (R524). -/

namespace Sys2Proof.Machine

/-- What a body answers to the state s changes nothing of it when it refuses. -/
def RefusesCleanly (s : State) (x : Reply × State) : Prop := refusedStatus x.1.status = true → x.2 = s

/-- The answer o to the state s is that of a command served by a body which refuses cleanly. -/
def ServesCleanly (x : CmdHdr × CmdSpec) (o : Out) (s : State) : Prop :=
  ∃ body : State → Reply × State, o = .next (serve x.1 x.2 body s) ∧ ∀ u, RefusesCleanly u (body u)

section

variable {s : State} {x : Reply × State}

theorem refuse_clean {st : BitVec 8} : RefusesCleanly s (refuse st s) := fun _ => rfl

/-- DONE and ACCEPTED refuse nothing. -/
theorem clean_of_status (h : refusedStatus x.1.status = false) : RefusesCleanly s x := fun hr => by simp [h] at hr

theorem done_clean {t : State} : RefusesCleanly s (done t) := clean_of_status rfl

theorem doneR_clean {rs : List Byte} {t : State} : RefusesCleanly s (doneR rs t) := clean_of_status rfl

theorem clean_ite {c : Prop} [Decidable c] {y : Reply × State} (hx : RefusesCleanly s x) (hy : RefusesCleanly s y) :
    RefusesCleanly s (if c then x else y) := by
  split
  · exact hx
  · exact hy

theorem checks_clean {cs : List (BitVec 8 × Bool)} {body : Unit → Reply × State} (h : RefusesCleanly s (body ())) :
    RefusesCleanly s (checks cs s body) := by
  unfold checks
  split
  · exact refuse_clean
  · exact h

theorem State.shadowSet_clean {tx : Bool} {f : Bank → Bank} : RefusesCleanly s (s.shadowSet tx f) := by
  unfold State.shadowSet
  split
  · exact refuse_clean
  · exact clean_of_status rfl

theorem State.windowWrite_clean {h : CmdHdr} {a : Nat} {ws : List (BitVec 32)} :
    RefusesCleanly s (s.windowWrite h a ws) := by
  refine checks_clean ?_
  split
  · exact refuse_clean
  · exact clean_of_status rfl

end

/-- Every host command but seven is served by a body that refuses cleanly (R524, log 77). -/
theorem exec_servesCleanly {s : State} {c : Instr} {x : CmdHdr × CmdSpec} (hc : cmdOf c = some x)
    (hop : x.2.opcode ∉ [0x0A02, 0x0A04, 0x0805, 0x0A07, 0x0A08, 0x0A09, 0x0A0A]) :
    ServesCleanly x (exec c s) s := by
  cases c with
  -- The body never refuses.
  | aqBudgetGet | aqDisarm | aqRetainSet | aqSoftTrig | calAbort | ckStatus | fwSlotInfo | hkStatus | lkStart
  | pwStatus | sysInfo | timeGet =>
    cases hc
    exact ⟨_, rfl, fun _ => clean_of_status rfl⟩
  -- The checks of the body are its only refusals.
  | anApply | anDensitySwap | anRefSet | aqArm | beamBankCopy | beamQuery | calFlashCfg | calGapCfg | calHoldupCfg
  | calRun | chKill | chStop | chanFrontSet | chanInfo | ckConvSet | ckFaultAck | ckLockmonSel | ckRefCfg | ckSyncCfg
  | dmStart | femPatternSet | fwRestart | hkBandCfg | hkFilterSet | hkModelCfg | hkRead | hkThrottleCfg
  | journalErase | journalRead | lkCfg | lkInject | lkLoop | lkPrbs | lkPresetSet | lkRelCfg | pathSet | pdCfrSet
  | pdChainSet | pdGateSet | pdLimitSet | pdPathSet | pwPark | pwRetainCfg | pwStateSet | pwWakeCfg | regRead
  | regReadBlock | tileBandSet | tileHomeSet | timeArmSync | timeDiscipline =>
    cases hc
    exact ⟨_, rfl, fun _ => checks_clean (clean_of_status rfl)⟩
  -- An operand that names nothing is refused first.
  | actCancel | anStatus | aqStatus | calStatus | cuStatus | dmStatus | hkResume | lkBerGet | lkBudgetGet | lkStatus
  | pathGet | pdCoefLoad | pdStatus | tdspStatus | tdspStop | tileStateGet | winDelete | winQuery =>
    cases hc
    refine ⟨_, rfl, fun _ => ?_⟩
    split
    · exact refuse_clean
    · exact clean_of_status rfl
  | aqLevelCfg | aqSegmentDefine | aqSegmentFree | aqTrigCfg | aqTriginCfg | aqTrigoutCfg | calRefCfg | calbusDiag
  | ckPllRelock | cuCfg | dmTail | lkBitslip | lkFlowCfg | orxCouplingSet | pdNeighbourSet | pickGroupCfg
  | rffeRetuneSeq | rffeXfer | tdspDoorbell | tdspLoad | tdspUnload =>
    cases hc
    refine ⟨_, rfl, fun _ => ?_⟩
    split
    · exact refuse_clean
    · exact checks_clean (clean_of_status rfl)
  -- A shadow bank or the register window is written once the checks pass.
  | beamWeights | beamDelays | elemCfg =>
    cases hc
    exact ⟨_, rfl, fun _ => checks_clean State.shadowSet_clean⟩
  | beamCfg =>
    cases hc
    refine ⟨_, rfl, fun _ => ?_⟩
    split
    · exact refuse_clean
    · exact checks_clean State.shadowSet_clean
  | regWrite | regWriteBlock =>
    cases hc
    exact ⟨_, rfl, fun _ => checks_clean State.windowWrite_clean⟩
  -- An operand is read in cases, and each case refuses, or answers DONE.
  | actQuery | calSetRead | lkFlowQuery | lkStateSet | sessionOpen =>
    cases hc
    refine ⟨_, rfl, fun _ => ?_⟩
    repeat' split
    all_goals first | exact refuse_clean | exact clean_of_status rfl
  | sessionClose =>
    cases hc
    refine ⟨_, rfl, fun _ => ?_⟩
    split
    · exact refuse_clean
    · split
      · exact clean_ite refuse_clean done_clean
      · exact refuse_clean
  | anMaskLoad | preambleCfg =>
    cases hc
    refine ⟨_, rfl, fun _ => ?_⟩
    dsimp only
    split
    · exact checks_clean (clean_of_status rfl)
    · exact refuse_clean
  | tdspStart =>
    cases hc
    refine ⟨_, rfl, fun _ => ?_⟩
    dsimp only
    split
    · exact refuse_clean
    · split
      · exact refuse_clean
      · exact checks_clean (clean_of_status rfl)
  | winModify =>
    cases hc
    refine ⟨_, rfl, fun _ => ?_⟩
    split
    · exact refuse_clean
    · dsimp only
      refine checks_clean ?_
      split <;> exact clean_of_status rfl
  | fwStage =>
    cases hc
    refine ⟨_, rfl, fun _ => checks_clean ?_⟩
    split <;> exact clean_of_status rfl
  | pdCoefRead =>
    cases hc
    refine ⟨_, rfl, fun _ => ?_⟩
    split
    · exact refuse_clean
    · refine clean_ite (clean_of_status rfl) (clean_ite ?_ refuse_clean)
      split
      · exact clean_of_status rfl
      · exact refuse_clean
  | winDefine =>
    cases hc
    refine ⟨_, rfl, fun _ => ?_⟩
    split
    · split
      · exact refuse_clean
      · rename_i o _ _ _ _ _
        refine checks_clean ?_
        cases o with
        | time t => exact clean_ite doneR_clean doneR_clean
        | _ => exact doneR_clean
    · exact refuse_clean
  | actEnqueue =>
    cases hc
    refine ⟨_, rfl, fun _ => ?_⟩
    split
    · refine checks_clean ?_
      split
      · exact refuse_clean
      · exact doneR_clean
    · exact refuse_clean
  | anOutputCfg =>
    cases hc
    refine ⟨_, rfl, fun _ => ?_⟩
    split
    · exact checks_clean (clean_ite done_clean refuse_clean)
    · exact refuse_clean
  | aqChanCfg =>
    cases hc
    refine ⟨_, rfl, fun _ => ?_⟩
    split
    · exact refuse_clean
    · split
      · exact refuse_clean
      · split
        · split
          · exact refuse_clean
          · exact clean_of_status rfl
        · split
          · exact checks_clean (clean_ite doneR_clean refuse_clean)
          · exact refuse_clean
  | lkAniqCfg =>
    cases hc
    refine ⟨_, rfl, fun _ => ?_⟩
    split
    · exact checks_clean (clean_ite done_clean (clean_ite done_clean refuse_clean))
    · exact refuse_clean
  | dmChanCfg =>
    cases hc
    refine ⟨_, rfl, fun _ => ?_⟩
    split
    · exact refuse_clean
    · exact clean_ite (checks_clean done_clean) (checks_clean done_clean)
  | anLaneCfg =>
    cases hc
    exact ⟨_, rfl, fun _ => checks_clean (clean_ite done_clean refuse_clean)⟩
  | anStitchCfg =>
    cases hc
    exact ⟨_, rfl, fun _ => clean_ite doneR_clean (checks_clean (clean_ite doneR_clean refuse_clean))⟩
  | anDensityCfg =>
    cases hc
    refine ⟨_, rfl, fun _ => ?_⟩
    split
    · exact refuse_clean
    · exact checks_clean (clean_ite done_clean refuse_clean)
  -- The seven, and what is no host command.
  | sessionAuth | keySet | calStore | otpKeyWrite | otpKeyRevoke | otpFloorSet | otpTrimWrite =>
    cases hc
    exact (hop (by simp)).elim
  | _ => cases hc

/-- Settles O10: the body that serves the command refuses cleanly. -/
theorem refusedChangesNothing : Obligations.RefusedChangesNothing := by
  unfold Obligations.RefusedChangesNothing
  intro c s x hc hacc hop
  obtain ⟨body, hserve, hclean⟩ := exec_servesCleanly (s := s) hc hop
  exact ⟨(body s.enter).1, (body s.enter).2, by rw [hserve, serve_accepted hacc], hclean s.enter⟩

end Sys2Proof.Machine
end

section
/-! SUPPORT. When a mailbox command has an effect (R503, R504). -/

namespace Sys2Proof.Machine

/-- A host command does nothing while its mailbox is not served. -/
theorem exec_unserved {c : Instr} {s : State} {x : CmdHdr × CmdSpec} (hc : cmdOf c = some x)
    (hs : s.canServe x.1.mb = false) : exec c s = .next s := by
  obtain ⟨body, hserve⟩ := exec_eq_serve_of_cmdOf hc s
  rw [hserve, serve_unserved hs]

/-- Settles O8: the one pipeline of all host commands asks first whether the mailbox is served, then checks the slot. -/
theorem mailboxGate : Obligations.MailboxGate := by
  unfold Obligations.MailboxGate
  exact ⟨fun c s x hc hs => exec_unserved hc hs, fun c s x st hc ht => exec_turned hc ht⟩

end Sys2Proof.Machine
end

section
/-! SUPPORT. The reliable class towards the baseband: what is held, and what waits (R361). -/

namespace Sys2Proof.Machine

/-- The reliable packet that the next SEQ goes to. -/
def State.relPacket (s : State) (type flow flags : Nat) (payload : List Byte) : Packet :=
  { type := BitVec.ofNat 8 type, flow := BitVec.ofNat 8 flow, flags := BitVec.ofNat 16 flags, seq := s.link.relSeq,
    time := BitVec.ofNat 48 s.time.ticks, aper := 0, fmt := 0x7F, payload := payload }

section

variable {s : State} {type flow flags : Nat} {payload : List Byte}

/-- While fewer than 128 are held, a packet takes the next SEQ and is held. -/
theorem State.sendRel_of_lt (h : s.link.held.length < 128) :
    s.sendRel type flow flags payload =
      { s with link := { s.link with
          relSeq := s.link.relSeq + 1
          held := s.link.held ++
            [{ pkt := s.relPacket type flow flags payload, sent := s.time.ticks, first := s.time.ticks }]
          out := if s.link.up then s.link.out ++ [s.relPacket type flow flags payload] else s.link.out } } :=
  if_pos h

/-- With 128 held it waits. -/
theorem State.sendRel_of_ge (h : 128 ≤ s.link.held.length) :
    s.sendRel type flow flags payload =
      { s with link := { s.link with waiting := s.link.waiting ++ [s.relPacket type flow flags payload] } } :=
  if_neg (Nat.not_lt.mpr h)

theorem State.sendRel_held_le (h : s.link.held.length ≤ 128) :
    (s.sendRel type flow flags payload).link.held.length ≤ 128 := by
  obtain hlt | heq := Nat.lt_or_eq_of_le h
  · rw [s.sendRel_of_lt hlt]
    simpa using hlt
  · rw [s.sendRel_of_ge heq.ge]
    exact h

end

/-- Packets for which there is room are all held, and none more waits. -/
theorem State.foldl_sendRel_lengths (l : List Packet) (s : State) (h : s.link.held.length + l.length ≤ 128) :
    let t := l.foldl (fun (s : State) p => s.sendRel p.type.toNat p.flow.toNat p.flags.toNat p.payload) s
    t.link.held.length = s.link.held.length + l.length ∧ t.link.waiting = s.link.waiting := by
  induction l generalizing s with
  | nil => exact ⟨rfl, rfl⟩
  | cons p l ih =>
    rw [List.length_cons] at h
    have hroom : s.link.held.length < 128 := by omega
    have hsend : (s.sendRel p.type.toNat p.flow.toNat p.flags.toNat p.payload).link.held.length =
        s.link.held.length + 1 := by rw [State.sendRel_of_lt hroom]; simp
    obtain ⟨hheld, hwait⟩ := ih (s.sendRel p.type.toNat p.flow.toNat p.flags.toNat p.payload) (by omega)
    refine ⟨?_, ?_⟩
    · rw [List.foldl_cons, hheld, hsend, List.length_cons, Nat.add_assoc, Nat.add_comm 1]
    · rw [List.foldl_cons, hwait, State.sendRel_of_lt hroom]

/-- As many of the waiting packets go as there is room for. -/
theorem State.sendWaiting_lengths {s : State} (h : s.link.held.length ≤ 128) :
    let n := min s.link.waiting.length (128 - s.link.held.length)
    s.sendWaiting.link.held.length = s.link.held.length + n ∧
      s.sendWaiting.link.waiting.length = s.link.waiting.length - n := by
  intro n
  have hn : (s.link.waiting.take n).length = n := by rw [List.length_take]; omega
  obtain ⟨hheld, hwait⟩ := State.foldl_sendRel_lengths (s.link.waiting.take n)
    { s with link := { s.link with waiting := s.link.waiting.drop n } } (by simp only; omega)
  exact ⟨hheld.trans (by simp only; omega), (congrArg List.length hwait).trans (List.length_drop ..)⟩

/-- Settles O15, by whether a place among the 128 is free. -/
theorem reliableHeldBound : Obligations.ReliableHeldBound := by
  unfold Obligations.ReliableHeldBound
  refine ⟨fun s type flow flags payload h => ?_, fun s type flow flags payload h => ?_,
    fun s type flow flags payload h => State.sendRel_held_le h, fun s h => ?_⟩
  · rw [State.sendRel_of_lt h]
    exact ⟨rfl, rfl, by simp [State.relPacket]⟩
  · rw [State.sendRel_of_ge h]
    exact ⟨rfl, rfl, by simp⟩
  · obtain ⟨hheld, hwait⟩ := State.sendWaiting_lengths h
    rw [hheld, hwait]
    omega

end Sys2Proof.Machine
end

section
/-! SUPPORT. What answering a command leaves as it was (R504, R505, R507). -/

namespace Sys2Proof.Machine

/-- s with what events and reliable packets change taken from a. -/
def State.withRing (s a : State) : State :=
  { s with
    time.windows := a.time.windows
    pup := { s.pup with
      mbRam := a.pup.mbRam, irq := a.pup.irq, evtWr := a.pup.evtWr, evtRd := a.pup.evtRd, evtLost := a.pup.evtLost,
      evtUnrep := a.pup.evtUnrep }
    link := { s.link with
      relSeq := a.link.relSeq, held := a.link.held, out := a.link.out, waiting := a.link.waiting } }

/-- u differs from t by events placed in the ring and reliable packets sent, and by nothing else. -/
structure RingFrame (t u : State) : Prop where
  rest : ∀ a, u.withRing a = t.withRing a
  windows : ∀ n, u.time.windows.get n = { t.time.windows.get n with tagged := (u.time.windows.get n).tagged }
  ram : Memory.wf 0 t.pup.mbRam = true → Memory.wf 0 u.pup.mbRam = true ∧
    ∀ a, ¬(0x3000 ≤ a ∧ a < 0x5000) → memGet 0 u.pup.mbRam a = memGet 0 t.pup.mbRam a

theorem RingFrame.refl (t : State) : RingFrame t t := ⟨fun _ => rfl, fun _ => rfl, fun h => ⟨h, fun _ _ => rfl⟩⟩

theorem RingFrame.trans {t u v : State} (h : RingFrame t u) (k : RingFrame u v) : RingFrame t v := by
  refine ⟨fun a => (k.rest a).trans (h.rest a), fun n => ?_, fun hwf => ?_⟩
  · rw [k.windows n, h.windows n]
  · obtain ⟨huwf, hu⟩ := h.ram hwf
    obtain ⟨hvwf, hv⟩ := k.ram huwf
    exact ⟨hvwf, fun a ha => (hv a ha).trans (hu a ha)⟩

/-- What u shares with t: all but the ring, the tags and the reliable packets. -/
theorem RingFrame.eq_withRing {t u : State} (h : RingFrame t u) : u = t.withRing u := h.rest u

theorem RingFrame.chead_busy {t u : State} (h : RingFrame t u) : u.pup.chead = t.pup.chead ∧ u.pup.busy = t.pup.busy :=
  ⟨(congrArg (fun s : State => s.pup.chead) h.eq_withRing :), (congrArg (fun s : State => s.pup.busy) h.eq_withRing :)⟩

theorem State.tagWindows_ringFrame (s : State) (set : Nat) : RingFrame s (s.tagWindows set) := by
  refine ⟨fun a => by unfold State.withRing State.tagWindows; rfl, fun n => ?_, fun h => ⟨h, fun _ _ => rfl⟩⟩
  simp only [State.tagWindows, vmap_get]
  split <;> rfl

/-- A slot of the ring lies within 0x3000 to 0x4FFF. -/
theorem PupBlock.putEvt_mbRam {p : PupBlock} (e : EvtSlot) (h : Memory.wf 0 p.mbRam = true) :
    Memory.wf 0 (p.putEvt e).mbRam = true ∧
      ∀ a, ¬(0x3000 ≤ a ∧ a < 0x5000) → memGet 0 (p.putEvt e).mbRam a = memGet 0 p.mbRam a := by
  refine ⟨memWrite_wf h _ _, fun a ha => ?_⟩
  simp only [PupBlock.putEvt]
  rw [memGet_memWrite h, if_neg (by rw [e.bytes_length]; omega)]

/-- Writing an event changes the ring only. -/
theorem State.putEvt_ringFrame (s : State) (p : PupBlock) (e : EvtSlot) :
    RingFrame { s with pup := p } { s with pup := p.putEvt e } :=
  ⟨fun a => by simp only [State.withRing, PupBlock.putEvt], fun _ => rfl, PupBlock.putEvt_mbRam e⟩

/-- Dropping an event changes its counters only. -/
theorem State.loseEvt_ringFrame (s : State) (p : PupBlock) : RingFrame { s with pup := p } { s with pup := p.loseEvt } :=
  ⟨fun a => by simp only [State.withRing, PupBlock.loseEvt], fun _ => rfl, fun h => ⟨h, fun _ _ => rfl⟩⟩

/-- Making room for an event changes the counters only. -/
theorem State.overwriteEvt_ringFrame (s : State) :
    RingFrame s { s with pup := PupBlock.loseEvt { s.pup with evtRd := s.pup.evtRd + 1 } } :=
  ⟨fun a => by simp only [State.withRing, PupBlock.loseEvt], fun _ => rfl, fun h => ⟨h, fun _ _ => rfl⟩⟩

theorem State.lossReported_mbRam {s : State} (h : Memory.wf 0 s.pup.mbRam = true) :
    Memory.wf 0 s.lossReported.mbRam = true ∧
      ∀ a, ¬(0x3000 ≤ a ∧ a < 0x5000) → memGet 0 s.lossReported.mbRam a = memGet 0 s.pup.mbRam a := by
  simp only [State.lossReported]
  exact PupBlock.putEvt_mbRam _ h

/-- The report of a loss changes the ring and the tags only. -/
theorem State.lossReported_ringFrame (s : State) (set : Nat) :
    RingFrame s { s.tagWindows set with pup := s.lossReported } := by
  refine ⟨fun a => ?_, (s.tagWindows_ringFrame set).windows, State.lossReported_mbRam⟩
  simp only [State.withRing, State.lossReported, PupBlock.putEvt, State.tagWindows]

theorem State.placeEvt_ringFrame (s : State) (e : EvtSlot) : RingFrame s (s.placeEvt e) := by
  cases hr : evtReserved e.code.toNat with
  | true =>
    obtain hroom | hfull := Nat.lt_or_ge s.pup.evtUsed 256
    · rw [State.placeEvt_reserved_room hr hroom]
      exact s.putEvt_ringFrame s.pup e
    · rw [State.placeEvt_reserved_full hr hfull]
      exact s.overwriteEvt_ringFrame.trans (s.putEvt_ringFrame _ e)
  | false =>
    obtain hfew | hroom := Nat.lt_or_ge (256 - s.pup.evtUsed) 9
    · rw [State.placeEvt_ordinary_drop hr hfew]
      exact s.loseEvt_ringFrame s.pup
    · by_cases hlost : s.pup.evtUnrep = 0
      · rw [State.placeEvt_ordinary_put hr (by omega) hlost]
        exact s.putEvt_ringFrame s.pup e
      · rw [State.placeEvt_ordinary_after_loss hr (by omega) hlost]
        refine (s.lossReported_ringFrame (s.windowSet s.nowT)).trans ?_
        split
        · exact State.putEvt_ringFrame (s.tagWindows (s.windowSet s.nowT)) s.lossReported e
        · exact State.loseEvt_ringFrame (s.tagWindows (s.windowSet s.nowT)) s.lossReported

theorem State.placeAll_ringFrame (s : State) (es : List EvtSlot) : RingFrame s (s.placeAll es) := by
  induction es generalizing s with
  | nil => exact RingFrame.refl s
  | cons e es ih => exact (s.placeEvt_ringFrame e).trans (ih (s.placeEvt e))

theorem State.sendRel_ringFrame (s : State) (type flow flags : Nat) (payload : List Byte) :
    RingFrame s (s.sendRel type flow flags payload) := by
  unfold State.sendRel
  simp only
  split <;> exact ⟨fun a => by unfold State.withRing; rfl, fun _ => rfl, fun h => ⟨h, fun _ _ => rfl⟩⟩

/-- The state once the response and its extension stand in their slots, CHEAD has moved on and HP_IRQ.RSP is set. -/
def State.responded (s : State) (m : Fin 4) (p : InProgress) : State :=
  let k := (s.pup.chead.get m).toNat % 32
  { s with pup := { s.pup with
    mbRam := memWrite 0 (memWrite 0 s.pup.mbRam (0x2000 + m.val * 0x400 + k * 32) p.slot) (m.val * 0x800 + k * 64)
      ((p.results.drop 24).take 64)
    chead := vmod s.pup.chead m (fun c => c + 1)
    busy := s.pup.busy.set m.val none m.isLt
    irq := if p.irq then s.pup.irq ||| (1#8 <<< m.val) else s.pup.irq } }

/-- After the response come its CTRL_RSP and the events of the command. -/
theorem State.answer_eq (s : State) (m : Fin 4) (p : InProgress) :
    s.answer m p =
      State.placeAll
        (if (s.responded m p).pup.mbCfg.getLsbD m.val then
          match (s.responded m p).rspData m ((s.pup.chead.get m).toNat % 32) p with
          | none => (s.responded m p).sendRel 0x11 m.val 0 p.slot
          | some (a, bs) =>
            (s.responded m p).sendRel 0x11 m.val 0x100 (p.slot ++ le 4 a ++ le 2 bs.length ++ [0, 0] ++ bs)
        else s.responded m p) p.events := by
  unfold State.answer State.responded
  rfl

theorem State.answer_ringFrame (s : State) (m : Fin 4) (p : InProgress) : RingFrame (s.responded m p) (s.answer m p) := by
  rw [State.answer_eq]
  refine RingFrame.trans ?_ (State.placeAll_ringFrame _ p.events)
  split
  · split
    · exact State.sendRel_ringFrame _ ..
    · exact State.sendRel_ringFrame _ ..
  · exact RingFrame.refl _

@[simp] theorem InProgress.slot_length (p : InProgress) : p.slot.length = 32 := by
  simp [InProgress.slot]

/-- A response reaches its response slot and its command slot. -/
theorem State.responded_mbRam {s : State} (m : Fin 4) (p : InProgress) (h : Memory.wf 0 s.pup.mbRam = true) :
    Memory.wf 0 (s.responded m p).pup.mbRam = true ∧
      let k := (s.pup.chead.get m).toNat % 32
      ∀ a,
        ¬(0x2000 + m.val * 0x400 + k * 32 ≤ a ∧ a < 0x2000 + m.val * 0x400 + k * 32 + 32) →
        ¬(m.val * 0x800 + k * 64 ≤ a ∧ a < m.val * 0x800 + k * 64 + 64) →
        memGet 0 (s.responded m p).pup.mbRam a = memGet 0 s.pup.mbRam a := by
  refine ⟨memWrite_wf (memWrite_wf h _ _) _ _, fun a hrsp hcmd => ?_⟩
  simp only [State.responded]
  rw [memGet_memWrite (memWrite_wf h _ _), if_neg (by rw [List.length_take]; omega), memGet_memWrite h,
    if_neg (by rwa [p.slot_length])]

/-- What every answer leaves of the state t: its command slots apart, it differs from the response by the ring. -/
theorem State.answer_frame {t : State} (m : Fin 4) (p : InProgress) :
    let u := t.answer m p
    let k := (t.pup.chead.get m).toNat % 32
    u = { t with
      time.windows := u.time.windows
      pup := { t.pup with
        mbRam := u.pup.mbRam, chead := u.pup.chead, busy := u.pup.busy, irq := u.pup.irq, evtWr := u.pup.evtWr
        evtRd := u.pup.evtRd, evtLost := u.pup.evtLost, evtUnrep := u.pup.evtUnrep }
      link := { t.link with
        relSeq := u.link.relSeq, held := u.link.held, out := u.link.out, waiting := u.link.waiting } } ∧
    (∀ n, u.time.windows.get n = { t.time.windows.get n with tagged := (u.time.windows.get n).tagged }) ∧
    (∀ j, j ≠ m → u.pup.chead.get j = t.pup.chead.get j ∧ u.pup.busy.get j = t.pup.busy.get j) ∧
    (Memory.wf 0 t.pup.mbRam = true →
      Memory.wf 0 u.pup.mbRam = true ∧
      ∀ a, ¬(0x2000 + m.val * 0x400 + k * 32 ≤ a ∧ a < 0x2000 + m.val * 0x400 + k * 32 + 32) →
        ¬(m.val * 0x800 + k * 64 ≤ a ∧ a < m.val * 0x800 + k * 64 + 64) → ¬(0x3000 ≤ a ∧ a < 0x5000) →
        memGet 0 u.pup.mbRam a = memGet 0 t.pup.mbRam a) := by
  intro u k
  have hframe : RingFrame (t.responded m p) u := t.answer_ringFrame m p
  clear_value u
  obtain ⟨hchead, hbusy⟩ := hframe.chead_busy
  refine ⟨?_, hframe.windows, fun j hj => ?_, fun hwf => ?_⟩
  · rw [hchead, hbusy]
    exact hframe.eq_withRing
  · rw [hchead, hbusy]
    exact ⟨vmod_get_ne _ _ _ _ hj, vmod_get_ne _ _ _ (fun _ => none) hj⟩
  · obtain ⟨hrwf, hresp⟩ := State.responded_mbRam m p hwf
    obtain ⟨huwf, hring⟩ := hframe.ram hrwf
    exact ⟨huwf, fun a hrsp hcmd hevt => (hring a hevt).trans (hresp a hrsp hcmd)⟩

/-- Settles O11: what is answered now differs from the response by events and packets; what waits is marked so. -/
theorem answerFrame : Obligations.AnswerFrame := by
  unfold Obligations.AnswerFrame
  intro h c role r t
  unfold State.settle State.finish
  split
  · exact ⟨rfl, fun _ => rfl, fun m hm => ⟨rfl, vmod_get_ne t.pup.busy _ _ (fun _ => some _) hm⟩,
      fun hwf => ⟨hwf, fun _ _ _ _ => rfl⟩⟩
  · split
    · exact ⟨rfl, fun _ => rfl, fun m hm => ⟨rfl, vmod_get_ne t.pup.busy _ _ (fun _ => some _) hm⟩,
        fun hwf => ⟨hwf, fun _ _ _ _ => rfl⟩⟩
    · exact State.answer_frame (t := t.leave) h.mb (t.progress h c role r)

end Sys2Proof.Machine
end

section
/-! SUPPORT. The lockout that wrong MACs lead to (R558). -/

namespace Sys2Proof.Machine

section

variable {s : State} {r : Role}

/-- A wrong MAC that is not the eighth in a row is counted. -/
theorem State.countWrong_of_ne (h : s.pup.wrongMac.get (Fin.ofNat 3 r.rank) ≠ 7) :
    s.countWrong r = { s with pup.wrongMac := vmod s.pup.wrongMac (Fin.ofNat 3 r.rank) (fun n => n + 1) } :=
  if_neg (by simpa using h)

/-- The eighth clears the count and locks the role out for 60 s. -/
theorem State.countWrong_of_eq (h : s.pup.wrongMac.get (Fin.ofNat 3 r.rank) = 7) :
    s.countWrong r =
      { s with pup := { s.pup with
          wrongMac := vmod s.pup.wrongMac (Fin.ofNat 3 r.rank) (fun _ => 0)
          lockout := vmod s.pup.lockout (Fin.ofNat 3 r.rank) (fun _ => some (s.time.ticks + 60 * secTicks)) } } :=
  if_pos (by simpa using h)

theorem State.lockedOut_of_get {t : Nat} (h : s.pup.lockout.get (Fin.ofNat 3 r.rank) = some t) :
    s.lockedOut r = true ↔ s.time.ticks < t := by
  simp only [State.lockedOut, h, decide_eq_true_eq]

/-- SESSION_OPEN for a role that is locked out is refused. -/
theorem execSessionOpen_lockedOut {h : CmdHdr} {role : BitVec 8}
    (ha : s.accepts h { opcode := 0x0A01, role := none, params := pb role } = true) (hr : role? role.toNat = some r)
    (hl : s.lockedOut r = true) :
    execSessionOpen h role s =
      .next (s.answered h { opcode := 0x0A01, role := none, params := pb role } { status := stNoResource } s.enter) := by
  have hl' : s.enter.lockedOut r = true := hl
  exact congrArg Host.Outcome.next (serve_body ha (by simp only [hr, hl', if_true, refuse]))

end

/-- Settles O16, one branch of each operation at a time. -/
theorem lockoutRules : Obligations.LockoutRules := by
  unfold Obligations.LockoutRules
  refine ⟨fun s r h => State.countWrong_of_ne h, fun s r h => ?_, fun s h role r ha hr hl =>
    execSessionOpen_lockedOut ha hr hl, fun s hr hv hd => ⟨s.cold, execResetNAssert_powered hr hv hd, rfl⟩⟩
  rw [State.countWrong_of_eq h]
  refine ⟨vmod_get_same .., fun n => ?_⟩
  rw [State.lockedOut_of_get (t := s.time.ticks + 60 * secTicks) (vmod_get_same ..)]
  exact Nat.add_lt_add_iff_left

end Sys2Proof.Machine
end

section
/-! SUPPORT. The state of reset: its memories, its queue, its registers. -/

namespace Sys2Proof.Machine

/-- Settles O3: what nothing has written is the empty list of cells (log 7, 8 and 9). -/
theorem resetHolds : Obligations.ResetHolds := by
  unfold Obligations.ResetHolds
  refine ⟨rfl, ⟨fun i hi => ?_, Nat.zero_le _, List.Pairwise.nil, List.nodup_nil⟩, rfl, rfl, rfl, rfl, fun t => ?_⟩
  · have hkey : (State.reset.otp.keys.get i).written = false := by
      simp [State.reset, Reset.otp, Vector.get_eq_getElem]
    exact absurd hi (by rw [hkey]; decide)
  · have hkernel : State.reset.tdsp.get t = Reset.tdsp := by simp [State.reset, Vector.get_eq_getElem]
    rw [hkernel]
    exact ⟨rfl, rfl, rfl⟩

/-- Settles O2, reading each register of the state of reset. -/
theorem registersAtReset : Obligations.RegistersAtReset := by
  unfold Obligations.RegistersAtReset
  exact ⟨by decide +kernel, by decide +kernel, by decide +kernel⟩

end Sys2Proof.Machine
end

section
/-! SUPPORT. What a step comes to: the command at the front, or device time that goes on (R36, R40, log 1). -/

namespace Sys2Proof.Machine

theorem step_cons {s : State} {c : Instr} {rest : List Instr} (h : s.pending = c :: rest) :
    step s = exec c { s with pending := rest } := by
  simp only [step, h]

theorem step_nil {s : State} (h : s.pending = []) : step s = .next (idleTick s) := by
  simp only [step, h]

/-- Without reset, supply or power no time passes. -/
theorem idleTick_stopped {s : State} (h : s.resetN = false ∨ s.pw.vddio = false ∨ s.pw.dev = .off) : idleTick s = s :=
  if_pos h

/-- While the DSP domain runs an idle step is one tick, 8 on the safe clock (R40). -/
theorem idleTick_runs {s : State} (hr : s.resetN = true) (hv : s.pw.vddio = true) (ho : s.pw.dev ≠ .off)
    (hret : s.pw.dev ≠ .retain) (hd : s.time.dspRuns = true) :
    idleTick s = State.run (if s.clk.dspSafe then 8 else 1) s := by
  unfold idleTick
  rw [if_neg (by simp [hr, hv, ho]), if_neg hret, if_pos hd]

/-- A vector none of whose elements a map changes is as it was. -/
theorem vmap_eq_self {α : Type} {n : Nat} {v : Vector α n} {f : Fin n → α → α} (h : ∀ i, f i (v.get i) = v.get i) :
    vmap v f = v := by
  apply Vector.ext
  intro i hi
  have hget : (vmap v f).get ⟨i, hi⟩ = v.get ⟨i, hi⟩ := by rw [vmap_get, h]
  simpa only [Vector.get_eq_getElem] using hget

/-- A quiet path whose port and attenuation have come to rest takes no sample. -/
theorem State.rxFill_quiet {s : State} {p : Fin 64} (hq : s.rxQuiet p = true)
    (hc : (s.chan.rx.get p).portFor = 0 ∧ (s.chan.rx.get p).attFor = 0 ∧ (s.chan.rx.get p).portWas = s.portB p ∧
      (s.chan.rx.get p).attWas = (s.paths.get p).atten) : s.rxFill p = s := by
  simp only [State.rxFill]
  rw [if_pos hq, if_pos hc]

/-- With every path quiet, off the grid of the beams, a tick brings no receive sample. -/
theorem State.rxTick_quiet {s : State} (h : ∀ p, s.rxFill p = s) (hgrid : s.rxLabel % 4 ≠ 0) : s.rxTick = s := by
  unfold State.rxTick
  simp only [List.foldl_fixed' h]
  rw [if_pos (.inl hgrid)]

/-- With no path letting samples out, off the grid of the beams, a tick brings no transmit sample. -/
theorem State.txTick_quiet {s : State} (h : ∀ p, s.txGate p = none ∧ (s.chan.tx.get p).live = [])
    (hgrid : (Int.ofNat s.time.ticks - Int.ofNat s.clk.loadedV - Int.ofNat txDelay) % 4 ≠ 0) : s.txTick = s := by
  have hmarks : vmap s.chan.tx (fun p c =>
      let g := s.txGate p
      if g.isNone && c.live.isEmpty then c else c.mark g) = s.chan.tx :=
    vmap_eq_self fun p => by simp [h p]
  unfold State.txTick
  rw [hmarks]
  exact if_pos (.inl hgrid)

/-- Below 2^64 a tick adds 1 to device time (R36). -/
theorem State.advance_of_lt {s : State} (h : s.time.ticks + 1 < 2 ^ 64) :
    s.advance = { s with time.ticks := s.time.ticks + 1 } :=
  if_pos h

/-! ### What new phases leave of device time -/

theorem foldl_keeps {α β σ : Type} (g : σ → β) {f : σ → α → σ} (h : ∀ s a, g (f s a) = g s) (l : List α) (s : σ) :
    g (l.foldl f s) = g s := by
  induction l generalizing s with
  | nil => rfl
  | cons a l ih => rw [List.foldl_cons, ih, h]

theorem State.closePend_time (s : State) (f : Fin 64) (sub : List Byte) : (s.closePend f sub).time = s.time := by
  unfold State.closePend
  split <;> rfl

/-- Phases that start anew leave device time. -/
theorem State.rephase_time (s : State) (v : Nat) : (s.rephase v).time = s.time := by
  unfold State.rephase
  dsimp only
  refine (foldl_keeps (fun s : State => s.time) (fun s a => ?_) (List.finRange 9) _).trans ?_
  · rfl
  · dsimp only
    refine foldl_keeps (fun s : State => s.time) (fun s f => ?_) (List.finRange 64) s
    split
    · exact State.closePend_time ..
    · rfl

/-- Past 2^64 - 1 device time starts at 0 (log 1). -/
theorem State.advance_wraps {s : State} (h : 2 ^ 64 ≤ s.time.ticks + 1) :
    s.advance.time.ticks = s.time.ticks + 1 - 2 ^ 64 := by
  unfold State.advance
  rw [if_neg (Nat.not_lt.mpr h), State.rephase_time]

/-- Settles O1: the queue decides what a step is, and an idle step is ticks. -/
theorem stepRunsFront : Obligations.StepRunsFront := by
  unfold Obligations.StepRunsFront
  refine ⟨fun c rest s h => step_cons h, fun s h hr hv ho hret hd => ?_, fun s h hstop => ?_,
    fun s hrx htx hrxgrid htxgrid hlt => ?_, fun s h => State.advance_wraps h⟩
  · rw [step_nil h, idleTick_runs hr hv ho hret hd]
  · rw [step_nil h, idleTick_stopped hstop]
  · unfold State.tick
    rw [State.rxTick_quiet (fun p => State.rxFill_quiet (hrx p).1 (hrx p).2) hrxgrid,
      State.txTick_quiet htx htxgrid, State.advance_of_lt hlt]

end Sys2Proof.Machine
end

section
/-! SUPPORT. A command that its checks let through. -/

namespace Sys2Proof.Machine

/-- A command that reaches its body is answered with what the body answers. -/
theorem next_answered {s t : State} {h : CmdHdr} {c : CmdSpec} {body : State → Reply × State} {r : Reply}
    (ha : s.accepts h c = true) (hbody : body s.enter = (r, t)) :
    (.next (serve h c body s) : Out) = .next (s.answered h c r t) :=
  congrArg Host.Outcome.next (serve_body ha hbody)

/-- Checks that all pass come to what stands behind them. -/
theorem checks_eq {cs : List (BitVec 8 × Bool)} {s : State} {body : Unit → Reply × State} {x : Reply × State}
    (hpass : ∀ c ∈ cs, c.2 = false) (hbody : body () = x) : checks cs s body = x :=
  (checks_pass hpass).trans hbody

end Sys2Proof.Machine
end

section
/-! SUPPORT. Commands and events of device time and TIME_IN (R42 to R45, R601). -/

namespace Sys2Proof.Machine

/-- Settles O18: each command passes its checks. -/
theorem timeCommandsRun : Obligations.TimeCommandsRun := by
  unfold Obligations.TimeCommandsRun
  refine ⟨fun h value timeout s ha hsecs harmed hacts hwindows hchans => next_answered ha (checks_eq ?_ rfl),
    fun h s ha => next_answered ha rfl,
    fun h mode epoch polarity s ha hmode hpol => next_answered ha (checks_eq ?_ rfl)⟩
  · simp only [State.enter_time, State.enter_aq, harmed, hacts, hwindows, hchans]
    simpa using hsecs
  · simp [hmode, hpol]

/-- Without an accepted edge, or once the loss is reported, no edge counts as missing. -/
theorem State.ppsMiss_eq_self {s : State} (t : Time) (h : s.time.ppsLast = none ∨ s.time.ppsReported = true) :
    s.ppsMiss t = s := by
  unfold State.ppsMiss
  split
  · rfl
  · rename_i l hl
    rw [hl] at h
    exact if_pos (.inl (h.resolve_left (by simp)))

/-- Two expected edges passed without one are reported (R601). -/
theorem State.ppsMiss_due {s : State} {t l : Time} (hl : s.time.ppsLast = some l) (hr : s.time.ppsReported = false)
    (ht : l + 2 * secFrac + 98304 * 256 ≤ t) :
    s.ppsMiss t = State.emitNow { s with time.ppsLost := true, time.ppsReported := true } 0x0203 0x02FF (le 8 l) := by
  unfold State.ppsMiss
  simp only [hl, hr]
  exact if_neg (by simpa using ht)

/-- The first edge after TIME_DISCIPLINE gives no frequency. -/
theorem State.ppsAccept_first {s : State} {t : Time} (hl : s.time.ppsLast = none) :
    s.ppsAccept t =
      let phase : BitVec 32 := if s.time.measure then phaseWord (Int.ofNat t - Int.ofNat s.time.epoch -
        nearSecs (Int.ofNat t - Int.ofNat s.time.epoch) * Int.ofNat secFrac) else 0x80000000
      let u : State :=
        { s with
          time :=
            { s.time with
              ppsAccepted := satAdd s.time.ppsAccepted 1
              ppsPhase := if s.time.measure then phase else s.time.ppsPhase
              ppsLast := some t
              ppsReported := false } }
      if s.time.edgeEvt then u.emit 0x0202 0x02FF t (pb phase) else u := by
  unfold State.ppsAccept
  cases hm : s.time.measure <;> simp only [hl, hm]

section

variable {s : State} {stamp : BitVec 72} {falling : Bool}

/-- The first edge of the selected polarity while device time runs is accepted. -/
theorem execTimeInPulseEdge_first (hf : falling = s.time.polFalling) (hr : s.resetN = true)
    (hd : s.time.dspRuns = true) (hl : s.time.ppsLast = none) :
    execTimeInPulseEdge stamp falling s = .next (s.ppsAccept stamp.toNat) := by
  refine congrArg Host.Outcome.next ((if_neg (by simp [hf, hr, hd])).trans ?_)
  simp only [State.ppsMiss_eq_self s.nowT (.inl hl), hl]

/-- An edge too far from a whole number of seconds is counted and leaves the history (R44). -/
theorem execTimeInPulseEdge_rejected {l : Time} (hf : falling = s.time.polFalling) (hr : s.resetN = true)
    (hd : s.time.dspRuns = true) (hl : s.time.ppsLast = some l) (hrep : s.time.ppsReported = true)
    (hfar : 98304 * 256 < (Int.ofNat stamp.toNat - Int.ofNat l - (max 1 (nearSecs (Int.ofNat stamp.toNat - Int.ofNat l))) *
      Int.ofNat secFrac).natAbs) :
    execTimeInPulseEdge stamp falling s = .next { s with time.ppsRejected := satAdd s.time.ppsRejected 1 } := by
  refine congrArg Host.Outcome.next ((if_neg (by simp [hf, hr, hd])).trans ?_)
  simp only [State.ppsMiss_eq_self s.nowT (.inr hrep), hl]
  exact if_neg (Nat.not_le.mpr hfar)

end

/-- Settles O19, by the history of accepted edges. -/
theorem timeRowsRun : Obligations.TimeRowsRun := by
  unfold Obligations.TimeRowsRun
  refine ⟨fun s a harmed hlapse => ?_, fun stamp falling s hf hr hd hl => ?_, fun stamp falling s hf => ?_,
    fun stamp falling s l hf hr hd hl hrep hfar => execTimeInPulseEdge_rejected hf hr hd hl hrep hfar,
    fun s l hl hrep hdue => congrArg Host.Outcome.next (State.ppsMiss_due hl hrep hdue)⟩
  · refine congrArg Host.Outcome.next ?_
    simp only [harmed, hlapse, if_true]
  · exact (execTimeInPulseEdge_first hf hr hd hl).trans (congrArg Host.Outcome.next (State.ppsAccept_first hl))
  · exact congrArg Host.Outcome.next (if_pos (.inl hf))

end Sys2Proof.Machine
end

section
/-! SUPPORT. Pass windows and the edges of TRIG_IN (R55 to R63, R241, R242). -/

namespace Sys2Proof.Machine

/-- A window that is not deleted closes with its own mark of deletion kept. -/
theorem State.winClose_not_deleted (s : State) (w : Fin 64) (t : Time) :
    s.winClose w t false =
      let u : State := s.modWin w (fun y =>
        { y with state := .closing, closeT := some t, freeAt := cdiv t 256 + s.time.horizon })
      ((u.fire 0x09 w.val t (u.windowSet t)).dropBound w).closeBound w t := by
  simp only [State.winClose, Bool.or_false]

@[simp] theorem State.modWin_get (s : State) (w : Fin 64) (f : Window → Window) :
    (s.modWin w f).time.windows.get w = f (s.time.windows.get w) :=
  vmod_get_same ..

/-- Settles O20, by the state of the window and the instants that are known of it. -/
theorem windowRowsRun : Obligations.WindowRowsRun := by
  unfold Obligations.WindowRowsRun
  refine ⟨?_, ?_, ?_, ?_, ?_, ?_, ?_, ?_, ?_, ?_, ?_, ?_, ?_, ?_⟩
  · -- WIN_DEFINE of a window that its values do not make empty
    intro h window openMode openVal closeMode closeVal tag maxLen s w o x c ml opened y u ha hw ho hx hfree hclose hopen
    refine next_answered ha ?_
    simp only [hw, ho, hx]
    refine checks_eq ?_ ?_
    · refine List.forall_mem_cons.mpr ⟨by simp [hfree], List.forall_mem_singleton.mpr ?_⟩
      dsimp only
      split
      · exact decide_eq_false (Nat.not_le.mpr (hclose _ ‹_›))
      · rfl
    · cases o with
      | time v =>
        have hafter : ((givenClose (.time v) x ml).any fun e => decide (e ≤ v)) = false := by
          cases hg : givenClose (.time v) x ml with
          | none => rfl
          | some e => simpa [hg] using hopen
        exact if_neg (by rw [hafter]; decide)
      | length n => rfl
      | edge i f off => rfl
  · intro h window openMode openVal closeMode closeVal tag maxLen s w x e c ml y u ha hw hopen hx hfree hclose hlate hempty
    refine next_answered ha ?_
    have ho : winOpenMode? openMode openVal = some (.time openVal.toNat) := if_pos hopen
    simp only [hw, ho, hx]
    change givenClose (.time openVal.toNat) x (if maxLen = 0 then 9830400000 else maxLen.toNat) = some e at hclose
    rw [hclose]
    refine checks_eq ?_ (if_pos (by simp [hempty]))
    exact List.forall_mem_cons.mpr
      ⟨by simp [hfree], List.forall_mem_singleton.mpr (decide_eq_false (Nat.not_le.mpr hlate))⟩
  · -- WIN_MODIFY of the open
    intro h window edge time s w c ha hw hedge hpending hlate
    refine next_answered ha ?_
    simp only [hw]
    exact checks_eq (by simp [hedge, hpending, hlate]) (by simp only [hedge]; rfl)
  · -- WIN_MODIFY of the close
    intro h window edge time s w c u ha hw hedge hstate hlate
    refine next_answered ha ?_
    simp only [hw]
    refine checks_eq ?_ ?_
    · obtain hpending | hopen := hstate
      · simp [hedge, hpending, hlate.le, hlate.ne']
      · simp [hedge, hopen, hlate.le, hlate.ne']
    · rw [State.modWin_get, hedge]
      rfl
  · -- WIN_DELETE, by the state of the window
    intro h window s w c ha hw hopen
    refine next_answered ha ?_
    simp only [hw, State.enter_time, hopen]
    rfl
  · intro h window s w c ha hw hpending
    refine next_answered ha ?_
    simp only [hw, State.enter_time, hpending]
    rfl
  · intro h window s w c ha hw hstate
    refine next_answered ha ?_
    obtain hfree | hclosing := hstate
    · simp only [hw, State.enter_time, hfree]
      rfl
    · simp only [hw, State.enter_time, hclosing]
      rfl
  · -- WIN_QUERY
    intro h window s w c x ha hw
    refine next_answered ha ?_
    simp only [hw]
    rfl
  · intro w s o u x v hpending ho hdue
    refine congrArg Host.Outcome.next ?_
    simp only [hpending, ho]
    exact if_pos hdue
  · intro w s x u hopen hx hdue
    refine congrArg Host.Outcome.next ?_
    simp only [hopen, hx]
    exact (if_pos hdue).trans (State.winClose_not_deleted ..)
  · intro w s x u hpending ho hx hdue
    refine congrArg Host.Outcome.next ?_
    simp only [hpending, hx]
    exact if_pos ⟨by rw [ho]; rfl, hdue⟩
  · intro w s x hclosing hdue
    exact congrArg Host.Outcome.next (if_pos ⟨hclosing, hdue⟩)
  · intro input stamp falling s l hl hclose
    refine congrArg Host.Outcome.next ?_
    simp only [hl]
    exact if_pos (decide_eq_true hclose)
  · intro input stamp falling s x u hfar
    refine congrArg Host.Outcome.next (if_neg ?_)
    cases hl : (s.aq.trigIn.get input).last with
    | none => simp
    | some l => simpa using hfar l hl

end Sys2Proof.Machine
end

section
/-! SUPPORT. The commands of the action queues, and the times at which a head is taken or lapses (R46 to R54). -/

namespace Sys2Proof.Machine

/-- A late head whose swap does not wait, with no device action before it, is discarded with LATE (R50). -/
theorem State.judge_late {s : State} {q : Fin 9} {a : QAct} (hhead : s.headOf q = some a)
    (hdev : (decide (q.val < 8) && s.deviceDue) = false) (hlate : s.isLate q a = true) (hwait : s.swapWaits a = false) :
    s.judge q = s.discard q a stLate := by
  unfold State.judge
  simp only [hhead, hdev, hlate, hwait, Bool.false_eq_true, if_false]
  have hstart : ¬ Int.ofNat s.nowT < s.startOf q a := by
    have hpast : s.startOf q a + Int.ofNat (a.tol * 256) < Int.ofNat s.nowT := of_decide_eq_true hlate
    have htol : 0 ≤ Int.ofNat (a.tol * 256) := Int.natCast_nonneg _
    omega
  rw [if_neg hstart]
  rfl

/-- Settles O21: each command by its operands, each time by the head of the queue. -/
theorem actionCommandsRun : Obligations.ActionCommandsRun := by
  unfold Obligations.ActionCommandsRun
  refine ⟨?_, ?_, ?_, ?_, ?_, ?_, ?_, ?_⟩
  · intro h queue kind time tol window params s q a c n u v ha hq hact hwindow hdevice hhalt hroom hnone
    refine next_answered ha ?_
    simp only [hq, hact]
    refine checks_eq ?_ ?_
    · have hslot : ¬(63 < window.toNat ∧ window ≠ 0xFF) := fun ⟨hlt, hne⟩ => hwindow.elim (Nat.not_le.mpr hlt) hne
      have hfull : ¬ 256 ≤ (s.time.queues.get q).acts.length := Nat.not_le.mpr hroom
      simp only [List.forall_mem_cons, State.enter_hk, State.enter_time, hslot, hdevice, hhalt, hfull, bne_self_eq_false,
        decide_false, true_and]
      nofun
    · simp only [hnone, State.enter_time]
      cases a <;> rfl
  · intro h handle s q a c u ha hfind
    have hfind' : s.enter.findAct handle = some (q, a) := hfind
    refine next_answered ha ?_
    simp only [hfind']
    rfl
  · intro h handle queue s c ha hall hq
    refine next_answered ha ?_
    simp only [hall, if_true]
    exact if_neg (Nat.not_lt.mpr hq)
  · intro h handle queue s c ha hone
    refine next_answered ha ((if_neg hone).trans ?_)
    cases hf : s.findAct handle with
    | some x =>
      have hf' : s.enter.findAct handle = some x := hf
      simp only [hf']
      rfl
    | none =>
      have hf' : s.enter.findAct handle = none := hf
      simp only [hf', State.enter_time]
      cases s.time.outcomes.find? (fun o => decide (o.handle = handle)) <;> rfl
  · intro q s a hhead hdev hlate hwait
    refine congrArg Host.Outcome.next ?_
    simp only [hhead, hlate, if_true]
    exact State.judge_late hhead hdev hlate hwait
  · intro q s hnot
    refine congrArg Host.Outcome.next ?_
    cases hhead : s.headOf q with
    | none => rfl
    | some a => exact if_neg (by simp [hnot a hhead])
  · intro q s a hhead hheld
    refine congrArg Host.Outcome.next ?_
    simp only [hhead]
    exact if_neg hheld
  · intro q s hnot
    refine congrArg Host.Outcome.next ?_
    cases hhead : s.headOf q with
    | none => rfl
    | some a => exact if_pos (hnot a hhead)

end Sys2Proof.Machine
end

section
/-! SUPPORT. Timed actions taken at the head of their queue (R91, R105, R112 to R128, R173, R236, R437). -/

namespace Sys2Proof.Machine

section

variable {s u : State} {a : QAct} {k : Nat}

/-- A ripe action of a tile that nothing holds or refuses has its effect. -/
theorem State.judgeKind_tile {t : Fin 8} (hripe : s.ripe (tileQ t) a = true) (hkind : a.act.code = k)
    (htake : s.takeTile t a = .took u) : s.judgeKind (tileQ t) k = u := by
  rw [State.judgeKind_ripe hripe hkind, State.judge_ripe hripe, fin?_tileQ]
  simp only [htake]

/-- A ripe action of the device queue that nothing holds or refuses has its effect. -/
theorem State.judgeKind_device (hripe : s.ripe 8 a = true) (hkind : a.act.code = k)
    (htake : s.takeDevice a = .took u ∨ s.takeDevice a = .waits u) : s.judgeKind 8 k = u := by
  have hqueue : fin? 8 (8 : Fin 9).val = none := rfl
  rw [State.judgeKind_ripe hripe hkind, State.judge_ripe hripe, hqueue]
  obtain htake | htake := htake
  · simp only [htake]
  · simp only [htake]

end

/-- RADIO_STATE to a state that the tile may enter is taken. -/
theorem State.takeRadioState_took {s : State} {t : Fin 8} {a : QAct} {tgt : RState} {dwell : Nat}
    (htransit : (s.radio.get t).transit = none) (huse : useAllows (s.radio.get t).use tgt = true)
    (htgt : tgt ≠ .tx ∧ tgt ≠ .cal)
    (hclock : (s.radio.get t).state ≠ .off ∨ tgt = .off ∨ (s.clk.conv.get t).en = true) :
    s.takeRadioState t a tgt dwell =
      let now := s.time.ticks
      let d := transTicks (s.radio.get t).state tgt
      let u := ((s.cutBurst t now).takeAct (tileQ t) a).startTransit t now tgt (now + d) (some
        { handle := a.handle, kind := 1, time := a.time })
      let v := u.modRadio t (fun r =>
        { r with
          burst := if dwell = 0 then none else some
            { kind := .dwell, handle := a.handle, startT := now + d, endT := now + d + dwell, muted := false } })
      .took (if d = 0 then v.arrive t else v) := by
  have hstart : ¬((s.radio.get t).state = .off ∧ tgt ≠ .off ∧ (s.clk.conv.get t).en = false) := by
    rintro ⟨hoff, hon, hen⟩
    simp [hoff, hon, hen] at hclock
  unfold State.takeRadioState
  simp only [htransit, huse, htgt.1, htgt.2, hstart, Option.isSome_none, Bool.true_eq_false, Bool.false_eq_true, or_self,
    if_false]

/-- Settles O22: what holds or refuses each action is ruled out, so that it is taken. -/
theorem tileActionsTaken : Obligations.TileActionsTaken := by
  unfold Obligations.TileActionsTaken
  refine ⟨?_, ?_, ?_, ?_, ?_, ?_, ?_⟩
  · intro t s a tgt dwell r now d u v w hripe hact hparked htransit huse htgt hclock
    refine congrArg Host.Outcome.next (State.judgeKind_tile hripe (by rw [hact]; rfl) ?_)
    have hfree : ¬(tgt ≠ .off ∧ s.pw.parked.getLsbD t.val = true) := by
      rintro ⟨hon, hpark⟩
      exact hparked.elim hon fun hfree => Bool.noConfusion (hpark.symm.trans hfree)
    simp only [State.takeTile, hact, State.takeState]
    rw [if_neg hfree, State.takeRadioState_took htransit huse htgt hclock]
  · intro t s a fc mode r hripe hact htransit hstate
    refine congrArg Host.Outcome.next (State.judgeKind_tile hripe (by rw [hact]; rfl) ?_)
    simp only [State.takeTile, hact, State.takeRetune]
    rw [if_neg (by simp [r, htransit]), if_neg (by obtain h | h := hstate <;> simp [r, h]), if_pos hstate]
  · intro t s a fc mode r u hripe hact htransit hstate hretune
    refine congrArg Host.Outcome.next (State.judgeKind_tile hripe (by rw [hact]; rfl) ?_)
    obtain ⟨htx, hoff, hsleep⟩ := hstate
    simp only [State.takeTile, hact, State.takeRetune]
    rw [if_neg (by simp [r, htransit]), if_neg htx, if_neg (not_or.mpr ⟨hoff, hsleep⟩)]
    change (s.radio.get t).retune = .none at hretune
    simp only [hretune]
    rw [apply_ite Take.took, apply_ite Take.took]
  · intro t s a len r now d m u v hripe hact hheld huse hcap
    refine congrArg Host.Outcome.next (State.judgeKind_tile hripe (by rw [hact]; rfl) ?_)
    simp only [State.takeTile, hact, State.takeTxBurst]
    rw [if_neg (by simp [hheld]), if_neg (by simp [r, huse]), if_neg (by rw [hcap]; decide)]
  · intro t s a g m hripe hact htransit
    refine congrArg Host.Outcome.next (State.judgeKind_tile hripe (by rw [hact]; rfl) ?_)
    simp only [State.takeTile, hact, State.takePick]
    exact if_neg (by simp [htransit])
  · intro t s a index level hripe hact htransit
    refine congrArg Host.Outcome.next (State.judgeKind_tile hripe (by rw [hact]; rfl) ?_)
    simp only [State.takeTile, hact, State.takeFem]
    exact if_neg (by simp [htransit])
  · intro t s a len r now d u hripe hact htransit huse hhome hburst
    refine congrArg Host.Outcome.next (State.judgeKind_tile hripe (by rw [hact]; rfl) ?_)
    simp only [State.takeTile, hact, State.takeCalSlot]
    rw [if_neg (by simp [r, htransit]), if_neg (by simp [r, huse, hhome, hburst])]

/-- Settles O23, one kind of action at a time. -/
theorem deviceActionsTaken : Obligations.DeviceActionsTaken := by
  unfold Obligations.DeviceActionsTaken
  refine ⟨?_, ?_, ?_, ?_, ?_, ?_, ?_, ?_⟩
  · intro s a dirs ch us w hripe hact hswap hready
    refine congrArg Host.Outcome.next (State.judgeKind_device hripe (by rw [hact]; rfl) (.inl ?_))
    simp only [State.takeDevice, hact, State.takeSwap, hswap]
    obtain hbegun | ⟨hheld, hjoins⟩ := hready
    · simp only [hbegun, if_true]
    · simp [hheld, hjoins]
  · intro s a dirs ch us w hripe hact hswap hbegun hheld hjoins
    refine congrArg Host.Outcome.next (State.judgeKind_device hripe (by rw [hact]; rfl) (.inr ?_))
    simp only [State.takeDevice, hact, State.takeSwap, hswap]
    simp [hbegun, hheld, hjoins]
  · intro s a m w hripe hact harm
    refine congrArg Host.Outcome.next (State.judgeKind_device hripe (by rw [hact]; rfl) (.inl ?_))
    simp only [State.takeDevice, hact, harm, if_true]
  · intro s a m hripe hact
    refine congrArg Host.Outcome.next (State.judgeKind_device hripe (by rw [hact]; rfl) (.inl ?_))
    simp only [State.takeDevice, hact]
  · intro s a p level u hripe hact hroute
    refine congrArg Host.Outcome.next (State.judgeKind_device hripe (by rw [hact]; rfl) (.inl ?_))
    simp only [State.takeDevice, hact, hroute]
    rfl
  · intro s a m tgt hripe hact
    refine congrArg Host.Outcome.next (State.judgeKind_device hripe (by rw [hact]; rfl) (.inl ?_))
    simp only [State.takeDevice, hact]
  · intro s a m op hripe hact hop
    refine congrArg Host.Outcome.next (State.judgeKind_device hripe (by rw [hact]; rfl) (.inl ?_))
    have hfree : ¬(op = .densitySwap ∧ s.swapBusy (lanesOf m) = true) := by
      rintro ⟨hswap, hbusy⟩
      simp [hswap, hbusy] at hop
    simp only [State.takeDevice, hact]
    exact if_neg hfree
  · intro s w e hfind heff
    refine congrArg Host.Outcome.next ?_
    split
    · rename_i hnone
      cases hfind.symm.trans hnone
    · rename_i w' hsome
      cases hfind.symm.trans hsome
      simp only [heff]

end Sys2Proof.Machine
end

section
/-! SUPPORT. Rows of the tile radio states (R79, R90, R112 to R128). -/

namespace Sys2Proof.Machine

/-- A change of a tile's radio is told by what it makes of the radio as it stands. -/
theorem State.modRadio_congr {s : State} {t : Fin 8} {f g : Radio → Radio} (h : f (s.radio.get t) = g (s.radio.get t)) :
    s.modRadio t f = s.modRadio t g := by
  simp only [State.modRadio, vmod, h]

/-- Checks of a list that every element passes. -/
theorem any_not_eq_false {α : Type} {l : List α} {p : α → Bool} (h : l.all p = true) : (l.any fun x => !p x) = false := by
  rw [← List.not_all_eq_any_not, h]
  rfl

/-- Settles O24, each row by what its tile has under way. -/
theorem radioStateRowsRun : Obligations.RadioStateRowsRun := by
  unfold Obligations.RadioStateRowsRun
  refine ⟨?_, ?_, ?_, ?_, ?_, ?_, ?_, ?_, ?_, ?_, ?_, ?_, ?_⟩
  · intro t s x htransit htill
    refine congrArg Host.Outcome.next ?_
    simp only [htransit, htill]
    rfl
  · intro t s b u v htransit hburst hdue
    refine congrArg Host.Outcome.next ?_
    simp only [hburst]
    exact if_neg (by simp [htransit, Nat.not_lt.mpr hdue])
  · intro t s x hleadAt hx
    refine congrArg Host.Outcome.next ?_
    simp only [hleadAt, hx]
    rfl
  · intro t s x hlag hdue hlater
    refine congrArg Host.Outcome.next ?_
    simp only [hlag]
    refine (if_neg (Nat.not_lt.mpr hdue)).trans (State.modRadio_congr ?_)
    cases hburst : (s.radio.get t).burst with
    | none => simp only [Bool.false_or]
    | some b =>
      have hagain : (decide (b.kind = .tx) && (s.radio.get t).leadAt.isNone &&
          decide (b.startT ≤ s.time.ticks + s.txLead t)) = false := by
        have hstart := hlater b hburst
        by_cases hkind : b.kind = .tx
        · simp [Nat.not_le.mpr (hstart hkind)]
        · simp [hkind]
      simp only [hagain, Bool.false_or]
  · intro t s base tgt left at_ start late u hretune hleft
    refine congrArg Host.Outcome.next ?_
    simp only [hretune, hleft]
    rfl
  · intro t s base tgt left at_ start late hretune hleft
    refine congrArg Host.Outcome.next ?_
    simp only [hretune]
    exact if_neg (Nat.not_le.mpr hleft)
  · intro t s base tgt left at_ start hretune hat_
    refine congrArg Host.Outcome.next ?_
    simp only [hretune, hat_]
    rfl
  · intro t s base tgt left at_ start late hretune hat_
    refine congrArg Host.Outcome.next ?_
    simp only [hretune, hat_]
    rfl
  · intro t s fc start till u v hretune htill
    refine congrArg Host.Outcome.next ?_
    simp only [hretune, htill]
    rfl
  · intro t s start till u v hretune
    refine congrArg Host.Outcome.next ?_
    simp only [hretune]
    rfl
  · intro h tiles home s c ha hhome
    refine next_answered ha (checks_eq ?_ rfl)
    obtain h | h := hhome <;> simp [h]
  · intro h tile s t c ha htile
    refine next_answered ha ?_
    simp only [htile]
    rfl
  · intro h tiles band s c ha hband hok
    refine next_answered ha (checks_eq ?_ rfl)
    simp only [List.forall_mem_cons]
    exact ⟨decide_eq_false (by omega), any_not_eq_false hok, nofun⟩

end Sys2Proof.Machine
end

section
/-! SUPPORT. Commands and events of the transceiver paths, RFFE masters, preamble detectors and pick groups
(R67 to R112). -/

namespace Sys2Proof.Machine

/-- No element has the second property where each has the first, which shuts it out. -/
theorem any_false_of_all {α : Type} {l : List α} {p q : α → Bool} (hall : l.all p = true)
    (hpq : ∀ x, p x = true → q x = false) : l.any q = false :=
  List.any_eq_false.mpr (fun x hx => by simp [hpq x (List.all_eq_true.mp hall x hx)])

/-- A list that takes the bus or waits changes the RFFE master of its tile alone. -/
theorem TileRes.rffe_take (r : TileRes) (x : RffeRun) :
    { r with rffe := r.rffe.take x } =
      if r.rffe.run.isNone then { r with rffe.run := some x, rffe.listOp := false }
      else { r with rffe.queue := r.rffe.queue ++ [x] } := by
  unfold Rffe.take
  split <;> rfl

/-- Settles O25: each command passes its checks. -/
theorem pathCommandsRun : Obligations.PathCommandsRun := by
  unfold Obligations.PathCommandsRun
  refine ⟨?_, ?_, ?_, ?_, ?_, ?_, ?_, ?_⟩
  · intro h paths atten gain port s c ha hatten hgain hport hfree
    refine next_answered ha (checks_eq (List.forall_mem_cons.mpr ⟨?_, List.forall_mem_singleton.mpr ?_⟩) rfl)
    · refine decide_eq_false ?_
      rintro (⟨hlt, hne⟩ | ⟨hlt, hne⟩ | ⟨hlt, hne⟩)
      · exact hatten.elim (Nat.not_le.mpr hlt) hne
      · exact hgain.elim (Nat.not_le.mpr hlt) hne
      · exact hport.elim (Nat.not_le.mpr hlt) hne
    · rcases hfree with hkeep | hnone
      · simp [hkeep]
      · have hany : (maskBits 64 paths.toNat).any (fun p => (s.groupOf (tileOf p)).isSome) = false := by
          simpa using hnone
        exact (congrArg _ hany).trans (Bool.and_false _)
  · intro h path s p c x ha hpath
    refine next_answered ha ?_
    simp only [hpath]
    rfl
  · intro h tiles pats od lead lag sel0 sel1 sel2 s c ha hops hsels hstates
    refine next_answered ha (checks_eq ?_ rfl)
    simp only [List.forall_mem_cons]
    refine ⟨?_, any_false_of_all hsels ?_, any_false_of_all hstates ?_, nofun⟩
    · simpa using hops
    · intro v hv
      simpa [or_iff_not_imp_left] using hv
    · intro t hstate
      exact (decide_eq_false (of_decide_eq_true hstate))
  · intro h tile count ops s t reads c list ha htile hcount hops
    refine next_answered ha ?_
    simp only [htile]
    refine checks_eq ?_ (congrArg (Prod.mk _ ∘ s.enter.modRes t) (funext fun r => ?_))
    · simp_all
    · exact TileRes.rffe_take r list
  · intro h tile count divWr divRd ops s t c ha htile hcount hops hfits
    refine next_answered ha ?_
    simp only [htile]
    refine checks_eq ?_ rfl
    simp_all
  · intro h det beam ptr half thr evt s t b c ws set ha hdet hbeam hhalf hthr hfits
    refine next_answered ha ?_
    simp only [hdet, hbeam]
    refine checks_eq ?_ rfl
    simp only [List.forall_mem_cons]
    refine ⟨?_, ?_, congrArg not hfits.1, congrArg not hfits.2, nofun⟩
    · refine decide_eq_false (fun hbad => ?_)
      rcases hhalf with hzero | hrange
      · exact hbad.1 hzero
      · omega
    · refine decide_eq_false (not_or.mpr ⟨hthr.1, Nat.not_lt.mpr hthr.2⟩)
  · intro h group tiles home bias hold enable s g c set u v w ha hgroup hops hothers hfits
    refine next_answered ha ?_
    simp only [hgroup]
    refine checks_eq ?_ rfl
    simp only [List.forall_mem_cons]
    refine ⟨?_, any_false_of_all hothers (fun k hk => ?_), ?_, nofun⟩
    · obtain ⟨hhome, hbias, hpos, hhold, hswitch⟩ := hops
      exact decide_eq_false (by simpa [Nat.not_lt.mpr, *] using hpos)
    · simp only [ne_eq, decide_not, ← Bool.not_or]
      exact congrArg not hk
    · by_cases hon : enable = 1
      · exact Bool.and_eq_false_iff.mpr (.inr (congrArg not (hfits hon)))
      · exact Bool.and_eq_false_iff.mpr (.inl (decide_eq_false hon))
  · intro h path coupling delay atten settle s p c u ha hpath hops
    refine next_answered ha ?_
    simp only [hpath]
    refine checks_eq ?_ rfl
    simp [hops]

/-- Where no step of a retune sequence is on the bus, the operation that ends is one of a list. -/
theorem not_seqOp {x : Rffe} (hbus : x.seqLeft = 0 ∨ x.listOp = true) : ¬ (0 < x.seqLeft ∧ x.listOp = false) := by
  rintro ⟨hleft, hlist⟩
  rcases hbus with hnone | hop
  · exact Nat.ne_of_gt hleft hnone
  · exact Bool.false_ne_true (hlist.symm.trans hop)

/-- Settles O26, by what the bus, the detector or the group is doing. -/
theorem pathEventsRun : Obligations.PathEventsRun := by
  unfold Obligations.PathEventsRun
  refine ⟨?_, ?_, ?_, ?_, ?_, ?_, ?_, ?_, ?_, ?_⟩
  · intro t parity data s hleft hlist
    exact congrArg Host.Outcome.next (if_pos ⟨hleft, hlist⟩)
  · intro t parity data s r at_ reads u hbus hrun hclean
    refine congrArg Host.Outcome.next ((if_neg (not_seqOp hbus)).trans ?_)
    simp only [hrun]
    exact if_neg (Bool.eq_false_iff.mp hclean)
  · intro t parity data s r hbus hrun hread hparity
    refine congrArg Host.Outcome.next ((if_neg (not_seqOp hbus)).trans ?_)
    simp only [hrun]
    exact if_pos (by simpa [hparity] using hread)
  · intro t s start x hstart hover hleft hlong
    refine congrArg Host.Outcome.next ?_
    simp only [show (s.res.get t).rffe.seqStart = some start from hstart]
    refine if_neg ?_
    rintro (hdone | hnone | hshort)
    · exact Bool.false_ne_true (hover.symm.trans hdone)
    · exact hleft hnone
    · exact Nat.not_le.mpr hlong hshort
  · intro t s first before after c d period st set run u henabled hruns hpeak
    refine congrArg Host.Outcome.next ((if_neg ?_).trans ?_)
    · simp only [d] at henabled hruns
      simp [henabled, hruns]
    · simp only [d, period] at hpeak
      simp only [hpeak]
      rfl
  · intro g s r sw hphase hdue
    refine congrArg Host.Outcome.next ?_
    simp only [hphase]
    exact if_neg (Nat.not_lt.mpr hdue)
  · intro g s r sw x xs c hphase hdone hfew
    refine congrArg Host.Outcome.next ?_
    simp only [show (s.pick.get g).phase = .second r sw from hphase]
    exact (if_neg (by simp [hdone])).trans (if_pos hfew)
  · intro g s r sw x xs c other u v hphase hdone henough
    refine congrArg Host.Outcome.next ?_
    simp only [show (s.pick.get g).phase = .second r sw from hphase]
    exact (if_neg (by simp [hdone])).trans (if_neg (Nat.not_lt.mpr henough))
  · intro g s r hphase hdue
    refine congrArg Host.Outcome.next ?_
    simp only [hphase]
    exact if_neg (Nat.not_lt.mpr hdue)
  · intro g s till hphase hends
    refine congrArg Host.Outcome.next ?_
    simp only [hphase]
    refine if_neg ?_
    rcases hends with hlapsed | hleadless | ⟨t, hlead, hstate⟩
    · simp [decide_eq_false (Nat.not_lt.mpr hlapsed)]
    · simp [hleadless]
    · simp [hlead, hstate]

end Sys2Proof.Machine
end

section
/-! SUPPORT. Commands and events of the clocks (R412 to R429). -/

namespace Sys2Proof.Machine

/-- An operand in its range, or the code that leaves the setting unchanged, passes its check. -/
theorem keep_or_inRange {w n : Nat} {v keep : BitVec w} (hv : v.toNat ≤ n ∨ v = keep) :
    decide (n < v.toNat ∧ v ≠ keep) = false :=
  decide_eq_false (fun ⟨hlt, hne⟩ => hv.elim (Nat.not_le.mpr hlt) hne)

/-- Settles O27: each command passes its checks. -/
theorem clockCommandsRun : Obligations.ClockCommandsRun := by
  unfold Obligations.ClockCommandsRun
  refine ⟨?_, ?_, ?_, ?_, ?_, ?_, ?_⟩
  · intro h tiles en delay trim1 trim2 trim3 trim4 s c ha hen hdelay hoff
    refine next_answered ha (checks_eq ?_ rfl)
    simp only [List.forall_mem_cons]
    refine ⟨keep_or_inRange hen, decide_eq_false ?_, Bool.and_eq_false_iff.mpr ?_, nofun⟩
    · rintro ⟨hset, hfar⟩
      rcases hdelay with hkeep | hnear
      · exact hset hkeep
      · omega
    · exact hoff.imp decide_eq_false (fun hall => any_false_of_all hall (fun t ht =>
        decide_eq_false (not_not.mpr (of_decide_eq_true ht))))
  · intro h period limit s c ha hperiod
    refine next_answered ha (checks_eq ?_ rfl)
    simp_all
  · intro h sel s c ha hsel
    refine next_answered ha (checks_eq ?_ rfl)
    simp [hsel]
  · intro h plls s c u ha hlocked
    refine next_answered ha (checks_eq (List.forall_mem_singleton.mpr ?_) rfl)
    exact any_false_of_all hlocked (fun p hp => by simpa [or_iff_not_imp_left] using hp)
  · intro h pll s p c u ha hpll hused hready
    refine next_answered ha ?_
    simp only [hpll]
    refine checks_eq ?_ rfl
    simp only [List.forall_mem_cons]
    exact ⟨congrArg not hused, hready, nofun⟩
  · intro h s c ha
    exact next_answered ha rfl
  · intro h source s c ha hsource hlanes
    refine next_answered ha (checks_eq ?_ rfl)
    simp only [List.forall_mem_cons]
    exact ⟨decide_eq_false (Nat.not_lt.mpr hsource), Bool.or_eq_false_iff.mpr hlanes, nofun⟩

/-- Settles O28, by what the clock or the edge is doing. -/
theorem clockEventsRun : Obligations.ClockEventsRun := by
  unfold Obligations.ClockEventsRun
  refine ⟨?_, ?_, ?_, ?_, ?_, ?_, ?_, ?_, ?_, ?_⟩
  · intro s u href
    refine congrArg Host.Outcome.next (if_neg ?_)
    simp [href]
  · intro s u v href
    refine congrArg Host.Outcome.next (if_neg ?_)
    simp [href]
  · intro pll s hlocked
    exact congrArg Host.Outcome.next (if_pos hlocked)
  · intro pll s x p hretry hbusy hdue href
    refine congrArg Host.Outcome.next ?_
    simp only [show (s.clk.plls.get pll).retryAt = some x from hretry]
    exact if_pos ⟨hbusy, hdue, href⟩
  · intro pll s href hbusy
    exact congrArg Host.Outcome.next ((if_neg (by simp [href])).trans (if_pos hbusy))
  · intro pll s href hbusy hlane hunlocked hon
    refine congrArg Host.Outcome.next ((if_neg (by simp [href])).trans ((if_neg (by simp [hbusy])).trans ?_))
    exact if_pos ⟨hlane, hunlocked, hon⟩
  · intro t s
    exact congrArg Host.Outcome.next rfl
  · intro frac lowBefore s href
    exact congrArg Host.Outcome.next (if_pos href)
  · intro highAfter comp s e hedge hdue hlevel
    refine congrArg Host.Outcome.next ?_
    simp only [hedge]
    refine (if_neg (Nat.not_lt.mpr hdue)).trans (if_pos ?_)
    simpa using hlevel
  · intro highAfter comp s e u hedge hdue hlevel
    refine congrArg Host.Outcome.next ?_
    simp only [hedge]
    refine (if_neg (Nat.not_lt.mpr hdue)).trans (if_neg ?_)
    simp [hlevel]

end Sys2Proof.Machine
end

section
/-! SUPPORT. Commands of the channelisers and the beam banks (R147 to R183). -/

namespace Sys2Proof.Machine

/-- Settles O29: each command passes its checks, and the shadow bank of its direction is free. -/
theorem beamCommandsRun : Obligations.BeamCommandsRun := by
  unfold Obligations.BeamCommandsRun
  refine ⟨?_, ?_, ?_, ?_, ?_, ?_, ?_, ?_, ?_⟩
  · intro h dirs rx tx s c ha hops hrx htx
    refine next_answered ha (checks_eq ?_ rfl)
    simp only [List.forall_mem_cons]
    refine ⟨by simp [hops], Bool.or_eq_false_iff.mpr ⟨?_, ?_⟩, nofun⟩
    · exact Bool.and_eq_false_iff.mpr (hrx.imp_right Bool.or_eq_false_iff.mpr)
    · exact Bool.and_eq_false_iff.mpr (htx.imp_right Bool.or_eq_false_iff.mpr)
  · intro h dir front narrow rate s c half p ha hops
    refine next_answered ha (checks_eq ?_ rfl)
    simp [hops]
  · intro h cls preset s c ha hops
    refine next_answered ha (checks_eq ?_ rfl)
    simp [hops]
  · intro h dir beam enable rate preset format flow freq shift s b c ha hbeam hfirst hlast hfree
    refine next_answered ha ?_
    simp only [hbeam]
    refine checks_eq ?_ (State.shadowSet_free hfree)
    simp only [List.forall_mem_cons]
    exact ⟨by simp [hfirst], by simpa [hlast.1, hlast.2.1] using hlast.2.2, nofun⟩
  · intro h dir beam port first count ptr s c ws ha hwhere hcount hfree
    refine next_answered ha (checks_eq ?_ (State.shadowSet_free hfree))
    simp only [List.forall_mem_cons]
    exact ⟨by simpa [hwhere.1, hwhere.2.1] using hwhere.2.2, by simpa [hcount.2] using hcount.1, nofun⟩
  · intro h dir first count form delays ptr s c ds ha hops hinline hrange hfree
    refine next_answered ha (checks_eq ?_ (State.shadowSet_free hfree))
    simp only [List.forall_mem_cons]
    refine ⟨?_, ?_, any_false_of_all hrange ?_, nofun⟩
    · simpa [hops.1, hops.2.1, hops.2.2.2] using hops.2.2.1
    · simpa using hinline
    · intro d hd
      simpa using hd
  · intro h dir mode rate preset format flows txShift s c ha hops hlast hflows hfree
    refine next_answered ha (checks_eq ?_ (State.shadowSet_free hfree))
    simp only [List.forall_mem_cons]
    refine ⟨by simp [hops], Bool.or_eq_false_iff.mpr ⟨by simp [hlast], any_false_of_all hflows ?_⟩, nofun⟩
    intro f hf
    simpa using hf
  · intro h dirs s c ha hops hfree
    refine next_answered ha (checks_eq ?_ rfl)
    simp_all
  · intro h dir bank beam s c k ha hops
    refine next_answered ha (checks_eq (List.forall_mem_singleton.mpr ?_) rfl)
    obtain ⟨hdir, hbank, hbeam⟩ := hops
    refine decide_eq_false ?_
    rintro (hlt | hlt | hlt)
    · exact Nat.not_le.mpr hlt hdir
    · exact Nat.not_le.mpr hlt hbank
    · exact of_decide_eq_false (keep_or_inRange hbeam) hlt

end Sys2Proof.Machine
end

section
/-! SUPPORT. The compute slot, the move slot and the I/O of the TDSP (R279 to R304). -/

namespace Sys2Proof.Machine

/-- A compute instruction that issues in its PM range opens the bundle with its results in flight. -/
theorem State.next_compute {s : State} {t : Fin 8} {f : Tdsp → Option (List InFlight)} {rs : List InFlight}
    (hruns : s.kRuns t = true)
    (hrange : (s.tdsp.get t).atStart.inRange (s.tdsp.get t).atStart.pc.toNat = true)
    (hresults : f (s.tdsp.get t).atStart = some rs) :
    (.next (s.compute t f) : Out) =
      .next (s.modK t (fun _ => { (s.tdsp.get t).atStart with issuedC := true, curC := rs })) := by
  rw [State.compute_runs hruns hrange hresults]
  exact congrArg Host.Outcome.next (State.modK_const s t (fun k => { k.atStart with issuedC := true, curC := rs })).symm

/-- Settles O30: every compute instruction but MVDA always has results. -/
theorem tdspComputeRuns : Obligations.TdspComputeRuns := by
  unfold Obligations.TdspComputeRuns
  refine ⟨?_, ?_, ?_, ?_, ?_, ?_, ?_, ?_, ?_, ?_, ?_, ?_, ?_, ?_, ?_, ?_, ?_, ?_, ?_, ?_, ?_, ?_, ?_⟩
  case refine_1 =>
    intro t moveSlot s u hruns hrange hslot
    subst hslot
    exact State.next_compute hruns hrange rfl
  case refine_19 =>
    intro t a d sh s u hruns hrange hshift
    exact State.next_compute hruns hrange (if_neg (Nat.not_lt.mpr hshift))
  case refine_20 =>
    intro t a d sh s u hruns hrange hshift
    refine congrArg Host.Outcome.next ((State.compute_bad hruns hrange (if_pos hshift)).trans ?_)
    exact congrArg (State.kFault · t 1) (State.modK_const s t Tdsp.atStart).symm
  all_goals
    intros
    exact State.next_compute ‹_› ‹_› rfl

section

variable {s : State} {t : Fin 8} {f : State → Tdsp → Move} {after : State → State} {k : Tdsp} {m : Move}

/-- A move slot without a fault ends its bundle, then has its effect. -/
theorem State.next_move (hk : k = if (s.tdsp.get t).issuedC then s.tdsp.get t else (s.tdsp.get t).loopReturn)
    (hruns : s.kRuns t = true) (hrange : k.inRange k.pc.toNat = true)
    (hmove : f (s.modK t (fun _ => k)) k = m) (hfault : m.fault = 0) :
    (.next (s.move t f after) : Out) = .next (after (s.modK t (fun _ => k.endBundle m))) :=
  congrArg Host.Outcome.next (State.move_runs hk hruns hrange hmove hfault)

/-- A move slot that only moves. -/
theorem State.next_mov (hk : k = if (s.tdsp.get t).issuedC then s.tdsp.get t else (s.tdsp.get t).loopReturn)
    (hruns : s.kRuns t = true) (hrange : k.inRange k.pc.toNat = true)
    (hmove : f (s.modK t (fun _ => k)) k = m) (hfault : m.fault = 0) :
    (.next (s.move t f id) : Out) = .next (s.modK t (fun _ => k.endBundle m)) :=
  State.next_move (after := id) hk hruns hrange hmove hfault

/-- A move slot that faults stops its kernel with the cause. -/
theorem State.next_moveFault (hk : k = if (s.tdsp.get t).issuedC then s.tdsp.get t else (s.tdsp.get t).loopReturn)
    (hruns : s.kRuns t = true) (hrange : k.inRange k.pc.toNat = true)
    {cause : Nat} (hmove : f (s.modK t (fun _ => k)) k = { fault := cause }) (hcause : cause ≠ 0) :
    (.next (s.move t f after) : Out) = .next ((s.modK t (fun _ => k)).kFault t cause) :=
  congrArg Host.Outcome.next (State.move_bad (m := { fault := cause }) hk hruns hrange hmove hcause)

end

section

variable {s : State} {t : Fin 8} {k : Tdsp} {f : Tdsp → Tdsp} {inY : Bool} {am : AddrMode}

/-- A load outside the reserved regions. -/
theorem loadMove_free {d : Fin 16} (hfree : wordReserved (s.estReg t) inY (wordOf (k.address am).1) = false) :
    loadMove t inY d am (s.modK t f) k =
      { res := dRes d (k.loadWord inY (wordOf (k.address am).1)) 3 :: k.addressRes am, loadX := !inY, loadY := inY } :=
  if_neg (Bool.eq_false_iff.mp hfree)

/-- A load from a reserved region faults (R285). -/
theorem loadMove_reserved {d : Fin 16} (hreserved : wordReserved (s.estReg t) inY (wordOf (k.address am).1) = true) :
    loadMove t inY d am (s.modK t f) k = { fault := 4 } :=
  if_pos hreserved

/-- A store outside the reserved regions. -/
theorem storeMove_free {d : Fin 16} (hfree : wordReserved (s.estReg t) inY (wordOf (k.address am).1) = false) :
    storeMove t inY d am (s.modK t f) k =
      { res := k.addressRes am, stores := [{ inY := inY, addr := wordOf (k.address am).1, val := k.d.get d }] } :=
  if_neg (Bool.eq_false_iff.mp hfree)

/-- A store to a reserved region faults (R285). -/
theorem storeMove_reserved {d : Fin 16} (hreserved : wordReserved (s.estReg t) inY (wordOf (k.address am).1) = true) :
    storeMove t inY d am (s.modK t f) k = { fault := 4 } :=
  if_pos hreserved

end

/-- Settles O31: a move slot faults by its operands alone. -/
theorem tdspMoveRuns : Obligations.TdspMoveRuns := by
  unfold Obligations.TdspMoveRuns
  refine ⟨?_, ?_, ?_, ?_, ?_, ?_, ?_, ?_, ?_, ?_, ?_, ?_, ?_, ?_, ?_, ?_, ?_, ?_, ?_, ?_⟩
  · intro t moveSlot s u hruns hrange hslot
    subst hslot
    exact State.next_mov rfl hruns hrange rfl rfl
  · intro t d am s u w hruns hrange hfree
    exact State.next_mov rfl hruns hrange (loadMove_free hfree) rfl
  · intro t d am s u w hruns hrange hreserved
    exact State.next_moveFault rfl hruns hrange (loadMove_reserved hreserved) (by decide)
  · intro t d am s u w hruns hrange hfree
    exact State.next_mov rfl hruns hrange (loadMove_free hfree) rfl
  · intro t d am s u w hruns hrange hreserved
    exact State.next_moveFault rfl hruns hrange (loadMove_reserved hreserved) (by decide)
  · intro t a b px mx ux py my uy s u hruns hrange hfree
    exact State.next_mov rfl hruns hrange (if_neg (Bool.eq_false_iff.mp hfree)) rfl
  · intro t a b px mx ux py my uy s u hruns hrange hreserved
    exact State.next_moveFault rfl hruns hrange (if_pos hreserved) (by decide)
  · intro t src am s u w hruns hrange hfree
    exact State.next_mov rfl hruns hrange (storeMove_free hfree) rfl
  · intro t src am s u w hruns hrange hreserved
    exact State.next_moveFault rfl hruns hrange (storeMove_reserved hreserved) (by decide)
  · intro t src am s u w hruns hrange hfree
    exact State.next_mov rfl hruns hrange (storeMove_free hfree) rfl
  · intro t src am s u w hruns hrange hreserved
    exact State.next_moveFault rfl hruns hrange (storeMove_reserved hreserved) (by decide)
  · intro t code imm s r u hruns hrange hcode
    exact State.next_mov rfl hruns hrange (by simp only [hcode]) rfl
  · intro t code imm s u hruns hrange hcode
    exact State.next_moveFault rfl hruns hrange (by simp only [hcode]) (by decide)
  · intro t d imm s u hruns hrange
    exact State.next_mov rfl hruns hrange rfl rfl
  · intro t dst src s r v u hruns hrange hdst hsrc
    refine State.next_mov rfl hruns hrange ?_ rfl
    have hvalue : u.readCode ((s.modK t (fun _ => u)).estReg t) src = some v := hsrc
    simp only [hdst, hvalue]
  · intro t dst src s u hruns hrange hcodes
    refine State.next_moveFault rfl hruns hrange ?_ (by decide)
    split
    · rename_i r v hdst hsrc
      rcases hcodes with hnone | hnone
      · cases hnone.symm.trans hdst
      · cases hnone.symm.trans hsrc
    · rfl
  · intro t p form m imm s u hruns hrange
    exact State.next_mov rfl hruns hrange rfl rfl
  · intro t lv restore inY p s u a w hruns hrange hform hfree
    subst hform
    exact State.next_mov rfl hruns hrange (if_neg (Bool.eq_false_iff.mp hfree)) rfl
  · intro t lv restore inY p s u a w hruns hrange hform hfree
    subst hform
    exact State.next_mov rfl hruns hrange (if_neg (Bool.eq_false_iff.mp hfree)) rfl
  · intro t lv restore inY p s u a w hruns hrange hreserved
    exact State.next_moveFault rfl hruns hrange (if_pos hreserved) (by decide)

/-- The value of an IOR reads the kernel of its tile. -/
theorem State.ior_runs {s : State} {t : Fin 8} {d : Fin 16} {addr : Nat} {k : Tdsp} {v : BitVec 32}
    (hk : k = if (s.tdsp.get t).issuedC then s.tdsp.get t else (s.tdsp.get t).loopReturn)
    (hruns : s.kRuns t = true) (hrange : k.inRange k.pc.toNat = true)
    (hvalue : (s.modK t (fun _ => k)).iorValue t addr = some v) :
    s.ior t d addr = .next ((s.modK t (fun _ => k.endBundle { res := [dRes d v 3] })).iorEffect t addr) := by
  refine State.next_move (m := { res := [dRes d v 3] }) (after := fun s => s.iorEffect t addr) hk hruns hrange ?_ rfl
  simp only [hvalue]

/-- An IOW of a listed address has the effect of its address with the value of its register. -/
theorem State.iow_runs {s : State} {t : Fin 8} {src : Fin 16} {addr : Nat} {k : Tdsp}
    (hk : k = if (s.tdsp.get t).issuedC then s.tdsp.get t else (s.tdsp.get t).loopReturn)
    (hruns : s.kRuns t = true) (hrange : k.inRange k.pc.toNat = true) (hlisted : addr ≤ 8) :
    s.iow t src addr = .next ((s.modK t (fun _ => k.endBundle {})).iowEffect t addr (k.d.get src)) := by
  have hvalue : (if (s.tdsp.get t).issuedC then (s.tdsp.get t).d.get src else (s.tdsp.get t).loopReturn.d.get src) =
      k.d.get src := by
    rw [hk, apply_ite Tdsp.d, apply_ite (Vector.get · src)]
  unfold State.iow
  simp only [hvalue]
  exact State.next_move (after := fun s => s.iowEffect t addr (k.d.get src)) hk hruns hrange (if_pos hlisted) rfl

/-- No address past 8 reads. -/
theorem State.iorValue_unlisted (s : State) (t : Fin 8) {addr : Nat} (haddr : 9 ≤ addr) : s.iorValue t addr = none := by
  obtain ⟨n, rfl⟩ := Nat.exists_eq_add_of_le' haddr
  rfl

/-- Settles O32, by the address of the access. -/
theorem tdspIoRuns : Obligations.TdspIoRuns := by
  unfold Obligations.TdspIoRuns
  refine ⟨?_, ?_, ?_, ?_, ?_, ?_, ?_, ?_, ?_, ?_⟩
  · intro t d s u hruns hrange
    refine State.ior_runs (addr := 0) (v := u.dbell) rfl hruns hrange ?_
    simp only [State.iorValue, State.modK_tdsp, u]
  · intro t d addr s u hruns hrange haddr
    refine (State.ior_runs (addr := addr.toNat) (v := BitVec.ofNat 32 s.time.ticks) rfl hruns hrange ?_).trans ?_
    · rw [haddr]
      rfl
    · rw [haddr]
      rfl
  · intro t d addr s v u hruns hrange hvalue
    exact State.ior_runs rfl hruns hrange hvalue
  · intro t d addr s u hruns hrange haddr
    refine State.next_moveFault rfl hruns hrange ?_ Nat.one_ne_zero
    simp only [State.iorValue_unlisted _ t haddr]
  · intro t d k s u hruns hrange
    match k with
    | 0 =>
      refine State.ior_runs (d := d) (addr := 4) (v := u.fill.get 0) rfl hruns hrange ?_
      simp only [State.iorValue, State.modK_tdsp, u]
    | 1 =>
      refine State.ior_runs (d := d) (addr := 5) (v := u.fill.get 1) rfl hruns hrange ?_
      simp only [State.iorValue, State.modK_tdsp, u]
  · intro t src k s u v hruns hrange
    match k with
    | 0 => exact State.iow_runs (addr := 4) rfl hruns hrange (by decide)
    | 1 => exact State.iow_runs (addr := 5) rfl hruns hrange (by decide)
  · intro t src addr s u hruns hrange haddr
    refine (State.iow_runs (addr := addr.toNat) rfl hruns hrange (haddr.trans_le (by decide))).trans ?_
    rw [haddr]
    rfl
  · intro t src addr s u hruns hrange haddr
    exact State.iow_runs (addr := addr.toNat) rfl hruns hrange haddr
  · intro t src addr s u hruns hrange haddr
    exact State.next_moveFault rfl hruns hrange (if_neg (Nat.not_le.mpr haddr)) Nat.one_ne_zero
  · intro t src s u hruns hrange
    exact State.iow_runs (addr := 6) rfl hruns hrange (by decide)

end Sys2Proof.Machine
end

section
/-! SUPPORT. The flow of the TDSP (R279, R282, R292 to R300). -/

namespace Sys2Proof.Machine

section

variable {k : Tdsp} {target : BitVec 15} {kind : Nat} {rs : List InFlight}

/-- A transfer outside a delay slot and a loop's tail enters the results in flight. -/
theorem Tdsp.transfer_free (hfree : (k.inDelay || k.loopTail) = false) :
    k.transfer target kind rs =
      { res := { reg := .pc, val := target.toNat, valQ := kind, left := 3, mac := false } :: rs } :=
  if_neg (Bool.eq_false_iff.mp hfree)

/-- A transfer in a delay slot or in a loop's tail faults (R293). -/
theorem Tdsp.transfer_slot (hslot : (k.inDelay || k.loopTail) = true) : k.transfer target kind rs = { fault := 2 } :=
  if_pos hslot

end

/-- Settles O33: transfers fault by their place, and every other row by its own operands. -/
theorem tdspFlowRuns : Obligations.TdspFlowRuns := by
  unfold Obligations.TdspFlowRuns
  refine ⟨?_, ?_, ?_, ?_, ?_, ?_, ?_, ?_, ?_, ?_, ?_, ?_, ?_, ?_, ?_, ?_, ?_, ?_, ?_⟩
  · intro t e s u hruns hrange
    exact State.next_mov rfl hruns hrange rfl rfl
  · intro t cond target s b u hruns hrange hcond hfree
    refine State.next_mov rfl hruns hrange ?_ rfl
    simp only [hcond]
    cases b <;> exact Tdsp.transfer_free hfree
  · intro t cond target s u hruns hrange hcond
    refine State.next_moveFault (k := u) rfl hruns hrange ?_ (by decide)
    simp only [hcond]
  · intro t cond target s b u hruns hrange hcond hslot
    refine State.next_moveFault (k := u) rfl hruns hrange ?_ (by decide)
    simp only [hcond]
    exact Tdsp.transfer_slot hslot
  · intro t d target s u hruns hrange hfree
    exact State.next_mov rfl hruns hrange (Tdsp.transfer_free hfree) rfl
  · intro t src s u hruns hrange hfree
    exact State.next_mov rfl hruns hrange (Tdsp.transfer_free hfree) rfl
  · intro t s u hruns hrange hfree
    exact State.next_mov rfl hruns hrange (Tdsp.transfer_free hfree) rfl
  · intro t d target s u hruns hrange hslot
    exact State.next_moveFault rfl hruns hrange (Tdsp.transfer_slot hslot) (by decide)
  · intro t src s u hruns hrange hslot
    exact State.next_moveFault rfl hruns hrange (Tdsp.transfer_slot hslot) (by decide)
  · intro t s u hruns hrange hslot
    exact State.next_moveFault rfl hruns hrange (Tdsp.transfer_slot hslot) (by decide)
  · intro t lv form start stop count s u r n hruns hrange hstart hstop hcount
    refine State.next_mov rfl hruns hrange (if_neg ?_) rfl
    rintro (hzero | hbefore | ⟨hform, hwide⟩)
    · exact hstart hzero
    · exact Nat.not_le.mpr hbefore hstop
    · exact Nat.not_le.mpr (hcount hform) hwide
  · intro t lv form start stop count s u hruns hrange hillegal
    exact State.next_moveFault rfl hruns hrange (if_pos hillegal) (by decide)
  · intro t s hruns
    exact congrArg Host.Outcome.next (if_pos hruns)
  · intro t s u hruns hrange
    exact State.next_move (after := fun s => s.modK t _) rfl hruns hrange rfl rfl
  · intro t s hstall hpower hhalt
    exact congrArg Host.Outcome.next (if_pos ⟨hstall, hpower, hhalt⟩)
  · intro t s u hruns hrange
    exact State.next_move (after := fun s => s.modK t _) rfl hruns hrange rfl rfl
  · intro t src code s u hruns hrange
    exact State.next_move (after := fun s => s.kernelMsg t code _ _) rfl hruns hrange rfl rfl
  · intro t s x g u y2 y hstate hpower hhalt hstall hdelay htail henabled hsource himage
    refine congrArg Host.Outcome.next ((if_neg ?_).trans ?_)
    · have hissues : decide (u.state ≠ .running ∧ u.state ≠ .idle) = false :=
        decide_eq_false (fun hneither => hstate.elim hneither.1 hneither.2)
      simp only [u] at hissues hstall hdelay htail henabled
      simp [hissues, hpower, hhalt, hstall, hdelay, htail, henabled]
    · simp only [u] at hsource himage
      simp only [hsource, himage]
      rfl
  · intro t s k hpower htimer hdue
    exact congrArg Host.Outcome.next (if_pos (by simpa [hpower] using And.intro htimer hdue))

end Sys2Proof.Machine
end

section
/-! SUPPORT. Loading, starting and stopping the kernels of the TDSP (R305 to R311). -/

namespace Sys2Proof.Machine

/-- Settles O34: each command passes its checks. -/
theorem tdspCommandsRun : Obligations.TdspCommandsRun := by
  unfold Obligations.TdspCommandsRun
  refine ⟨?_, ?_, ?_, ?_, ?_, ?_, ?_⟩
  · intro h tile addr start s t c ha htile hstart himage hout hfree hloads hdram
    refine next_answered ha ?_
    simp only [htile]
    refine checks_eq ?_ rfl
    simp only [List.forall_mem_cons]
    exact ⟨decide_eq_false (Nat.not_lt.mpr hstart), congrArg not himage, decide_eq_false (not_not.mpr hout), hfree,
      hloads, hdram, nofun⟩
  · intro t s l f base u v w hload hdramDown hready
    refine congrArg Host.Outcome.next ?_
    simp only [hload, hdramDown, hready]
    rfl
  · intro h tile entry s t g c e ha htile himage hentry hready
    refine next_answered ha ?_
    simp only [htile, State.enter_tdsp, himage]
    refine checks_eq ?_ rfl
    simp only [List.forall_mem_cons]
    exact ⟨congrArg not hentry, congrArg not hready, nofun⟩
  · intro h tile s t c ha htile
    refine next_answered ha ?_
    simp only [htile]
    rfl
  · intro h tile value s t c ha htile hdbPend
    refine next_answered ha ?_
    simp only [htile]
    refine checks_eq ?_ rfl
    simp [hdbPend]
  · intro h tile s t c ha htile
    refine next_answered ha ?_
    simp only [htile]
    rfl
  · intro h tile s t c ha htile hloading
    refine next_answered ha ?_
    simp only [htile]
    refine checks_eq ?_ rfl
    simp [hloading]

end Sys2Proof.Machine
end

section
/-! SUPPORT. Commands and events of predistortion (R184 to R212). -/

namespace Sys2Proof.Machine

/-- Settles O35: each command passes its checks. -/
theorem predistortionCommandsRun : Obligations.PredistortionCommandsRun := by
  unfold Obligations.PredistortionCommandsRun
  refine ⟨?_, ?_, ?_, ?_, ?_, ?_, ?_, ?_, ?_⟩
  · intro h inserted s c ha hinserted hidle
    refine next_answered ha (checks_eq ?_ rfl)
    simp only [List.forall_mem_cons]
    exact ⟨decide_eq_false (Nat.not_lt.mpr hinserted), hidle, nofun⟩
  · intro h paths pdEn cfrEn adaptEn evtSwap s c ha hflags
    refine next_answered ha (checks_eq ?_ rfl)
    simp [hflags]
  · intro h path q1 q2 s p c ha hpath hneighbours hadaptEn
    refine next_answered ha ?_
    simp only [hpath, hneighbours]
    refine checks_eq ?_ rfl
    simp [hadaptEn]
  · intro h tiles gate cfMin cfMax margin capSkip freeze clear lambda s c ha hgate
    refine next_answered ha (checks_eq ?_ rfl)
    simp_all
  · intro h tiles gain phase nmse peak rejectMax s c ha hgain hnmse
    refine next_answered ha (checks_eq ?_ rfl)
    simp_all
  · intro h tiles thr ptr s keep clear c pulse ha hthr
    refine next_answered ha (checks_eq ?_ rfl)
    simp [hthr]
  · intro h path ptr s p c ha hpath
    refine next_answered ha ?_
    simp only [hpath]
    rfl
  · intro h path set ptr s p ws c ha hpath hset
    refine next_answered ha ?_
    simp only [hpath]
    rcases hset with ⟨hactive, hws⟩ | ⟨hpending, hws⟩
    · subst hws
      exact if_pos hactive
    · refine (if_neg (by simp [hpending])).trans ((if_pos hpending).trans ?_)
      simp only [show (s.enter.pd.paths.get p).pending = some ws from hws]
      rfl
  · intro h path s p c x ha hpath
    refine next_answered ha ?_
    simp only [hpath]
    rfl

/-- A capture in progress whose end, where it has one, has passed is due to end. -/
theorem capture_due {o : Orx} {after now : Nat} (hbusy : o.busy = true)
    (hdue : ∀ e, o.endAt = some e → e + after ≤ now) :
    (o.busy && match o.endAt with
      | some e => decide (e + after ≤ now)
      | none => true) = true := by
  refine Bool.and_eq_true_iff.mpr ⟨hbusy, ?_⟩
  split
  · rename_i e hend
    exact decide_eq_true (hdue e hend)
  · rfl

/-- Settles O36, by the user of the receiver and by what the estimate comes to. -/
theorem predistortionEventsRun : Obligations.PredistortionEventsRun := by
  unfold Obligations.PredistortionEventsRun
  refine ⟨?_, ?_, ?_, ?_, ?_, ?_, ?_, ?_, ?_⟩
  · intro t s u o v hbusy hready
    exact congrArg Host.Outcome.next (if_pos (Bool.and_eq_true_iff.mpr ⟨congrArg not hbusy, hready⟩))
  · intro t words s o v hbusy hdue huser
    refine congrArg Host.Outcome.next ((if_pos (capture_due hbusy hdue)).trans ?_)
    simp only [o] at huser
    simp only [v, o, huser]
  · intro t words s o v hbusy hdue huser
    refine congrArg Host.Outcome.next ((if_pos (capture_due hbusy hdue)).trans ?_)
    simp only [o] at huser
    simp only [v, o, huser]
  · intro t words s o v hbusy hdue huser
    refine congrArg Host.Outcome.next ((if_pos (capture_due hbusy hdue)).trans ?_)
    simp only [o] at huser
    simp only [v, o, huser]
  · intro t dGain dPhase nmse peak words s j x p u hbusy hstale
    refine congrArg Host.Outcome.next ?_
    simp only [show (s.pd.tiles.get t).estBusy = some j from hbusy]
    exact if_pos hstale
  · intro t dGain dPhase nmse peak words s j x p u hbusy hstale hplausible
    refine congrArg Host.Outcome.next ?_
    simp only [show (s.pd.tiles.get t).estBusy = some j from hbusy]
    refine (if_neg (Bool.eq_false_iff.mp hstale)).trans ?_
    exact congrArg (State.orxServe · t) (if_pos hplausible)
  · intro t dGain dPhase nmse peak words s j x p u f w hbusy hstale hfails
    refine congrArg Host.Outcome.next ?_
    simp only [show (s.pd.tiles.get t).estBusy = some j from hbusy]
    refine (if_neg (Bool.eq_false_iff.mp hstale)).trans ?_
    exact congrArg (State.orxServe · t) (if_neg hfails)
  · intro p s hadapting
    exact congrArg Host.Outcome.next (if_pos hadapting)
  · intro p s x hfrozen hdue
    exact congrArg Host.Outcome.next (if_pos ⟨hfrozen, hdue⟩)

end Sys2Proof.Machine
end

section
/-! SUPPORT. Commands of triggers, channels and the store (R239 to R270). -/

namespace Sys2Proof.Machine

/-- Settles O37: each command passes its checks. -/
theorem acquisitionCommandsRun : Obligations.AcquisitionCommandsRun := by
  unfold Obligations.AcquisitionCommandsRun
  refine ⟨?_, ?_, ?_, ?_, ?_, ?_, ?_, ?_, ?_, ?_, ?_, ?_, ?_, ?_⟩
  · intro h segment base length slots s g c ha hsegment hplace hslots hothers hunused
    refine next_answered ha ?_
    simp only [hsegment]
    refine checks_eq ?_ rfl
    simp only [List.forall_mem_cons]
    obtain ⟨hbase, hlength, hsome, hlow, hhigh⟩ := hplace
    have hpos : length.toNat ≠ 0 := fun hzero => hsome (BitVec.eq_of_toNat_eq hzero)
    refine ⟨decide_eq_false ?_, decide_eq_false ?_, hothers, hunused, nofun⟩
    · omega
    · exact not_or.mpr ⟨hslots.1, Nat.not_lt.mpr hslots.2⟩
  · intro h segment s g c ha hsegment hunused
    refine next_answered ha ?_
    simp only [hsegment]
    refine checks_eq ?_ rfl
    simp only [List.forall_mem_cons]
    exact ⟨hunused, nofun⟩
  · intro h channel op kind index segment unit pre post format mode reductions bt flow s k c ha hchannel hop hidle
    refine next_answered ha ?_
    simp only [hchannel]
    refine (if_neg (by simp [hop])).trans ((if_pos hop).trans ?_)
    exact if_neg (Bool.eq_false_iff.mp hidle)
  · intro h channel op kind index segment unit pre post format mode reductions bt flow s k g u q c strm f12b env per capN grd w v
      ha hchannel hop hsegment hunit hsource hsamples hbt hflow hfits hidle hstore hallowed
    refine next_answered ha ?_
    obtain ⟨hindex, hseg⟩ := hsource
    simp only [hchannel]
    refine (if_neg (by simp [hop])).trans ((if_neg (by simp [hop])).trans ?_)
    simp only [hsegment, hunit, State.enter_aq, hseg]
    refine checks_eq ?_ (if_pos ?_)
    · simp only [List.forall_mem_cons]
      obtain ⟨hpre, hpost, hformat, hmode, hreductions⟩ := hsamples
      refine ⟨?_, decide_eq_false ?_, ?_, decide_eq_false ?_, ?_, ?_, congrArg not hfits, hidle, nofun⟩
      · simp [hindex]
      · exact not_or.mpr ⟨Nat.not_le.mpr hpre, hpost⟩
      · simp [hformat, hmode, hreductions]
      · exact not_or.mpr ⟨hbt.1, Nat.not_lt.mpr hbt.2⟩
      · exact Bool.and_eq_false_iff.mpr (hflow.symm.imp (fun h => decide_eq_false (Nat.not_lt.mpr h.1)) id)
      · exact Bool.and_eq_false_iff.mpr (hflow.imp id (fun h => congrArg not h.2))
    · refine Bool.and_eq_true_iff.mpr ⟨hstore, ?_⟩
      exact (Bool.or_eq_true _ _).mpr (hallowed.imp (congrArg not) id)
  · intro h unit aCode aIdx bCode bIdx op limit holdoff evt s u c v ha hunit hfirst hsecond hops hfit
    refine next_answered ha ?_
    simp only [hunit]
    refine checks_eq ?_ rfl
    simp only [List.forall_mem_cons]
    refine ⟨?_, ?_, congrArg not hfit, nofun⟩
    · refine Bool.or_eq_false_iff.mpr ⟨congrArg not hfirst, Bool.and_eq_false_iff.mpr ?_⟩
      exact hsecond.imp (fun h => decide_eq_false (not_not.mpr h)) (congrArg not)
    · obtain ⟨hop, hlimit, hevt⟩ := hops
      simpa [hop, hevt] using hlimit
  · intro h det kind index w thr hys dir dwell s d c v ha hdet hsource hops hlevels hfit
    refine next_answered ha ?_
    simp only [hdet]
    refine checks_eq ?_ rfl
    simp only [List.forall_mem_cons]
    refine ⟨congrArg not hsource, ?_, ?_, congrArg not hfit, nofun⟩
    · obtain ⟨hw, hdir, hdwell⟩ := hops
      simpa [hw, hdir] using hdwell
    · exact decide_eq_false (by omega)
  · intro h input edges s j c ha hinput hedges
    refine next_answered ha ?_
    simp only [hinput]
    refine checks_eq ?_ rfl
    simp [hedges]
  · intro h pin owner kind index polarity width s j c ha hpin howner hindex
    refine next_answered ha ?_
    simp only [hpin, howner]
    refine checks_eq ?_ rfl
    simp_all
  · intro h chans window s c ha hwindow harm
    refine next_answered ha (checks_eq ?_ rfl)
    simp only [List.forall_mem_cons]
    exact ⟨hwindow, congrArg not harm, nofun⟩
  · intro h chans s c ha
    exact next_answered ha rfl
  · intro h units s c ha
    exact next_answered ha rfl
  · intro h units s c ha
    exact next_answered ha rfl
  · intro h s c ha
    exact next_answered ha rfl
  · intro h channel s k c x ha hchannel
    refine next_answered ha ?_
    simp only [hchannel]
    rfl

end Sys2Proof.Machine
end

section
/-! SUPPORT. Level detectors, trigger units and the ends of records (R243 to R264). -/

namespace Sys2Proof.Machine

/-- A firing that is not before the end of the holdoff, where there is one, is not ignored. -/
theorem firing_not_held {ignore : Option Time} {t : Time} :
    (∀ y, ignore = some y → y ≤ t) → ¬ (match ignore with
      | some y => decide (t < y)
      | none => false) = true := by
  intro hheld
  cases ignore with
  | none => exact Bool.false_ne_true
  | some y => exact fun hearly => Nat.not_lt.mpr (hheld y rfl) (of_decide_eq_true hearly)

/-- Settles O38, by the queue, the unit or the channel that the event is of. -/
theorem triggerEventsRun : Obligations.TriggerEventsRun := by
  unfold Obligations.TriggerEventsRun
  refine ⟨?_, ?_, ?_, ?_, ?_, ?_, ?_, ?_, ?_⟩
  · intro lv s p q rest d v x hdue
    refine congrArg Host.Outcome.next ?_
    simp only [show (s.aq.levels.get lv).due = (p, q) :: rest from hdue]
    rfl
  · intro u s f fs y x v hinbox hignore hearly
    simp only [x] at hinbox hignore
    refine congrArg Host.Outcome.next ?_
    simp only [hinbox, hignore]
    exact if_pos (decide_eq_true hearly)
  · intro u s f fs x v hinbox hheld hop hsource
    simp only [x] at hinbox hheld hop
    refine congrArg Host.Outcome.next ?_
    simp only [hinbox]
    refine (if_neg (firing_not_held hheld)).trans ?_
    exact (if_pos hop).trans (if_pos (decide_eq_true hsource))
  · intro u s f fs x v hinbox hheld hop
    simp only [x] at hinbox hheld hop
    refine congrArg Host.Outcome.next ?_
    simp only [hinbox]
    refine (if_neg (firing_not_held hheld)).trans ?_
    exact (if_neg (by simp [hop])).trans (if_pos hop)
  · intro u s f fs x v a b hinbox hheld hop
    simp only [x] at hinbox hheld hop
    refine congrArg Host.Outcome.next ?_
    simp only [hinbox]
    refine (if_neg (firing_not_held hheld)).trans ?_
    exact (if_neg hop.1).trans (if_neg hop.2)
  · intro u s x v keep hop
    exact congrArg Host.Outcome.next (if_neg (Nat.not_lt.mpr hop))
  · intro pin s e hpulse hdue
    refine congrArg Host.Outcome.next ?_
    simp only [hpulse]
    exact if_pos hdue
  · intro c s r x st total streamed u w addr v hstate hrecord hended
    simp only [x] at hstate hrecord
    refine congrArg Host.Outcome.next ?_
    simp only [hstate, hrecord]
    exact if_neg (by simpa using hended)
  · intro c s r x dead d16 last w v hstate hrecord
    simp only [x] at hstate hrecord
    refine congrArg Host.Outcome.next ?_
    simp only [hstate, hrecord]
    rfl

end Sys2Proof.Machine
end

section
/-! SUPPORT. Commands and events of calibration (R432 to R451). -/

namespace Sys2Proof.Machine

/-- Settles O39: each command passes its checks. -/
theorem calibrationCommandsRun : Obligations.CalibrationCommandsRun := by
  unfold Obligations.CalibrationCommandsRun
  refine ⟨?_, ?_, ?_, ?_, ?_, ?_, ?_, ?_, ?_, ?_⟩
  · intro h kinds tiles deadline count fcs s c due ha hops hfreqs hnone
    refine next_answered ha (checks_eq ?_ rfl)
    obtain ⟨hcount, hlength, hkinds, htiles⟩ := hops
    simp only [List.forall_mem_cons]
    refine ⟨decide_eq_false ?_, any_false_of_all hfreqs (fun f hf => decide_eq_false ?_), hnone, nofun⟩
    · exact not_or.mpr ⟨Nat.not_lt.mpr hcount, not_or.mpr ⟨not_not.mpr hlength, not_or.mpr ⟨hkinds, htiles⟩⟩⟩
    · have hrange := of_decide_eq_true hf
      omega
  · intro h kinds tiles s c ha
    exact next_answered ha rfl
  · intro h windows limit s c ha hlimit
    refine next_answered ha (checks_eq (List.forall_mem_singleton.mpr (decide_eq_false ?_)) rfl)
    rintro ⟨hpos, hshort⟩
    rcases hlimit with hzero | hlong
    · exact Nat.ne_of_gt hpos (congrArg BitVec.toNat hzero)
    · exact Nat.not_le.mpr hshort hlong
  · intro h path level s p c ha hpath htoInt
    refine next_answered ha ?_
    simp only [hpath]
    refine checks_eq ?_ rfl
    simp [htoInt]
  · intro h s c v va vb toB other run w ha hfree htemp hholds
    have hready : (s.cal.store.isSome || s.flashBusy || s.pup.restarting) = false := by
      simp only [hfree.1, hfree.2.1, hfree.2.2]
      rfl
    refine next_answered ha ((if_neg (Bool.eq_false_iff.mp hready)).trans ((if_neg (Bool.eq_false_iff.mp htemp)).trans ?_))
    exact if_neg (by simp [hholds])
  · intro h s c ha hfree htemp hholds
    have hready : (s.cal.store.isSome || s.flashBusy || s.pup.restarting) = false := by
      simp only [hfree.1, hfree.2.1, hfree.2.2]
      rfl
    refine next_answered ha ((if_neg (Bool.eq_false_iff.mp hready)).trans ((if_neg (Bool.eq_false_iff.mp htemp)).trans ?_))
    exact if_pos hholds
  · intro h cap vmin divider ePage eErase s c ha hePage
    refine next_answered ha (checks_eq ?_ rfl)
    simp_all
  · intro h offA offB rmin rmax ren s c a b meets ha hapart hclear hlimits hidle
    refine next_answered ha (checks_eq ?_ rfl)
    obtain ⟨himages, hkeys, hjournal⟩ := hclear
    simp only [List.forall_mem_cons]
    refine ⟨decide_eq_false hapart, ?_, ?_, congrArg Option.isSome hidle, nofun⟩
    · exact Bool.or_eq_false_iff.mpr ⟨Bool.or_eq_false_iff.mpr ⟨himages, hkeys⟩, hjournal⟩
    · exact decide_eq_false (not_or.mpr ⟨Int.not_lt.mpr hlimits.1, Nat.not_lt.mpr hlimits.2⟩)
  · intro h tile s t c x ha htile
    refine next_answered ha ?_
    simp only [htile]
    rfl
  · intro h kind object point ptr s ws c bs ha hpoint hwords
    refine next_answered ha ((if_neg (Nat.not_lt.mpr hpoint)).trans ?_)
    simp only [show s.enter.calSetWords kind object point.toNat = some ws from hwords]
    rfl

/-- Settles O40, by the claim or the calibration of the tile. -/
theorem calibrationEventsRun : Obligations.CalibrationEventsRun := by
  unfold Obligations.CalibrationEventsRun
  refine ⟨?_, ?_, ?_, ?_, ?_⟩
  · intro t s ps hworks
    refine congrArg Host.Outcome.next (if_neg ?_)
    simp [hworks]
  · intro t s c n orx portB u v w hclaim hdue hbus
    refine congrArg Host.Outcome.next ?_
    simp only [hclaim]
    refine if_neg ?_
    have hstarted : decide (s.time.ticks < c.start) = false := decide_eq_false (Nat.not_lt.mpr hdue.2)
    rcases hbus with hfree | hown
    · simp [hdue.1, hstarted, hfree]
    · simp [hdue.1, hstarted, hown]
  · intro t s c u hclaim hdue
    refine congrArg Host.Outcome.next ?_
    simp only [hclaim]
    have hended : decide (s.time.ticks < c.start + c.len) = false := decide_eq_false (Nat.not_lt.mpr hdue.2)
    exact if_neg (by simp [hdue.1, hended])
  · intro t kind failing tm results s c k hpending hdone hfails
    refine congrArg Host.Outcome.next ?_
    simp only [k] at hpending
    simp only [hpending]
    exact (if_neg (by simp [hdone])).trans (if_pos hfails)
  · intro t kind failing tm results s c k u v hpending hdone hpasses
    refine congrArg Host.Outcome.next ?_
    simp only [k] at hpending
    simp only [hpending]
    exact (if_neg (by simp [hdone])).trans (if_neg (not_not.mpr hpasses))

end Sys2Proof.Machine
end

section
/-! SUPPORT. Commands and events of the analyser (R211 to R236). -/

namespace Sys2Proof.Machine

/-- A segment whose slots hold enough is not too short. -/
theorem slot_not_short {x : Option Segment} {n : Nat} :
    (match x with
      | none => false
      | some r => decide (n ≤ slotSize r.len r.slots)) = true →
    (match x with
      | none => true
      | some r => decide (slotSize r.len r.slots < n)) = false := by
  cases x with
  | none => exact fun hfalse => absurd hfalse Bool.false_ne_true
  | some r => exact fun hroom => decide_eq_false (Nat.not_lt.mpr (of_decide_eq_true hroom))

/-- Settles O41: each command passes its checks and its rates are allowed. -/
theorem analyserCommandsRun : Obligations.AnalyserCommandsRun := by
  unfold Obligations.AnalyserCommandsRun
  refine ⟨?_, ?_, ?_, ?_, ?_, ?_, ?_, ?_, ?_, ?_⟩
  · intro h lanes mode path port z window overlap units s c touches k u v ha hlanes htap hsettings hstitch hmode hallowed
    refine next_answered ha (checks_eq ?_ (if_pos hallowed))
    simp only [List.forall_mem_cons]
    refine ⟨decide_eq_false (Nat.not_le.mpr hlanes), by simp [htap], by simp [hsettings], Bool.and_eq_false_iff.mpr ?_,
      Bool.and_eq_false_iff.mpr ?_, nofun⟩
    · exact hstitch.imp id (fun h => decide_eq_false (not_or.mpr ⟨not_not.mpr h.1, not_not.mpr h.2⟩))
    · refine hmode.imp (fun h => ?_) (fun h => any_false_of_all h (fun l hl => decide_eq_false (not_not.mpr (of_decide_eq_true hl))))
      simp [h]
  · intro h tiles f0 z s c ha htiles
    refine next_answered ha ?_
    simp only [htiles]
    rfl
  · intro h tiles f0 z s c ms zz fcs fcOf j k u v ha hsome hops hfreqs hallowed
    refine next_answered ha ((if_neg hsome).trans (checks_eq ?_ (if_pos hallowed)))
    simp only [List.forall_mem_cons]
    refine ⟨decide_eq_false ?_, any_false_of_all hfreqs (fun x hx => decide_eq_false ?_), nofun⟩
    · exact not_or.mpr ⟨Nat.not_lt.mpr hops.1, Nat.not_lt.mpr hops.2⟩
    · have hrange := of_decide_eq_true hx
      omega
  · intro h source output first count period k avgMode inclBlanked maskOvl flow segment s a o c q lo hi x v
      ha hsource houtput hset hbins hframes hflags hflow hsegment hallowed
    refine next_answered ha ?_
    simp only [hsource, houtput]
    refine checks_eq ?_ (if_pos hallowed)
    simp only [List.forall_mem_cons]
    obtain ⟨hcount, hlo, hhi⟩ := hbins
    refine ⟨decide_eq_false ?_, decide_eq_false ?_, ?_, by simp [hflags], Bool.and_eq_false_iff.mpr ?_, ?_, nofun⟩
    · exact fun ⟨hstitch, hempty⟩ => hset.elim (· hstitch) (· hempty)
    · exact not_or.mpr ⟨hcount, not_or.mpr ⟨Int.not_lt.mpr hlo, Int.not_lt.mpr hhi⟩⟩
    · simpa [hframes.2.2] using And.intro hframes.1 hframes.2.1
    · exact hflow.imp (fun h => decide_eq_false (not_not.mpr h)) (congrArg not)
    · by_cases hnone : segment = 0xFF
      · exact Bool.and_eq_false_iff.mpr (.inl (decide_eq_false (not_not.mpr hnone)))
      · have hroom := hsegment.resolve_left hnone
        refine Bool.and_eq_false_iff.mpr (.inr ?_)
        rw [if_neg hnone]
        exact slot_not_short hroom
  · intro h source mask polarity enterD leaveD evt count ptr s a m ps c z lo hi x put u v
      ha hsource hmask hset hops hpoints hrange hslices hfit
    refine next_answered ha ?_
    obtain ⟨hread, hrise, huntaken⟩ := hpoints
    have hread' : readPoints (memRead 0 s.enter.pup.mbRam ptr.toNat (8 * count.toNat)) count.toNat = some ps := hread
    simp only [hsource, hmask, hread', Option.getD_some]
    refine checks_eq ?_ rfl
    simp only [List.forall_mem_cons]
    obtain ⟨hpolarity, henter, hleave, hevt, hcount⟩ := hops
    refine ⟨decide_eq_false ?_, ?_, ?_, any_false_of_all hrange (fun p hp => decide_eq_false ?_),
      Bool.and_eq_false_iff.mpr ?_, congrArg not hfit, nofun⟩
    · exact fun ⟨hstitch, hempty⟩ => hset.elim (· hstitch) (· hempty)
    · simpa [hpolarity, hevt, hcount] using And.intro henter hleave
    · simp only [hrise, Option.isNone_some]
      exact huntaken
    · have hbetween := of_decide_eq_true hp
      exact not_or.mpr ⟨Int.not_lt.mpr hbetween.1, Int.not_lt.mpr hbetween.2⟩
    · refine hslices.imp decide_eq_false (fun h => any_false_of_all h (fun l hl => decide_eq_false ?_))
      exact Nat.not_lt.mpr (of_decide_eq_true hl)
  · intro h lane b0 c top step flow s l cs vb v ha hlane hops hflow hallowed
    refine next_answered ha ?_
    simp only [hlane]
    refine checks_eq ?_ (if_pos hallowed)
    simp only [List.forall_mem_cons]
    obtain ⟨hcount, hlo, hhi, hstep⟩ := hops
    refine ⟨decide_eq_false ?_, Bool.and_eq_false_iff.mpr ?_, nofun⟩
    · exact not_or.mpr ⟨hcount, not_or.mpr ⟨Int.not_lt.mpr hlo, not_or.mpr ⟨Int.not_lt.mpr hhi, hstep⟩⟩⟩
    · exact hflow.imp (fun h => decide_eq_false (not_not.mpr h)) (congrArg not)
  · intro h lanes s c ha hlanes hfree
    refine next_answered ha (checks_eq ?_ rfl)
    simp only [List.forall_mem_cons]
    exact ⟨decide_eq_false (Nat.not_le.mpr hlanes), hfree, nofun⟩
  · intro h lanes s c ha hlanes
    refine next_answered ha (checks_eq ?_ rfl)
    simp [hlanes]
  · intro h lanes offset s c ha hlanes htoInt
    refine next_answered ha (checks_eq ?_ rfl)
    simp [hlanes, htoInt]
  · intro h lane s l c q ha hlane
    refine next_answered ha ?_
    simp only [hlane]
    rfl

/-- Settles O42, by the source, the output or the swap of the event. -/
theorem analyserEventsRun : Obligations.AnalyserEventsRun := by
  unfold Obligations.AnalyserEventsRun
  refine ⟨?_, ?_, ?_, ?_, ?_⟩
  · intro src s l hlane
    refine congrArg Host.Outcome.next ?_
    simp only [hlane]
  · intro src s hstitch hmembers
    subst hstitch
    exact congrArg Host.Outcome.next (if_neg hmembers)
  · intro src out s x hout hfull
    refine congrArg Host.Outcome.next ?_
    simp only [hout]
    exact if_pos hfull
  · intro src s b q hswap hdue
    simp only [q] at hswap hdue
    refine congrArg Host.Outcome.next ?_
    simp only [hswap]
    exact if_pos (by simpa using hdue)
  · intro src s
    exact congrArg Host.Outcome.next rfl

end Sys2Proof.Machine
end

section
/-! SUPPORT. Commands and events of the lanes (R314 to R340). -/

namespace Sys2Proof.Machine

/-- A lane that LK_START names starts where it is OFFLINE, DOWN or HELD (R317). -/
theorem Lane.start_if_idle (now : Nat) (x : Lane) :
    (match x.role with
      | .offline | .down | .held => x.start now
      | _ => x) =
      if x.role = .offline ∨ x.role = .down ∨ x.role = .held then x.start now else x := by
  cases hrole : x.role <;> simp

/-- Settles O43: each command passes its checks. -/
theorem laneCommandsRun : Obligations.LaneCommandsRun := by
  unfold Obligations.LaneCommandsRun
  refine ⟨?_, ?_, ?_, ?_, ?_, ?_, ?_, ?_, ?_, ?_⟩
  · intro h rate minLanes auto manual timeout swing s c u ha hrate hminLanes hauto hmanual htimeout hswing hlanes
    refine next_answered ha (checks_eq ?_ rfl)
    simp only [List.forall_mem_cons]
    refine ⟨keep_or_inRange hrate, decide_eq_false ?_, keep_or_inRange hauto, keep_or_inRange hmanual, decide_eq_false ?_,
      decide_eq_false ?_, Bool.and_eq_false_iff.mpr ?_, nofun⟩
    · rintro ⟨hout, hset⟩
      have hrange := hminLanes.resolve_left hset
      rcases hout with hzero | hmany
      · exact Nat.ne_of_gt hrange.1 (congrArg BitVec.toNat hzero)
      · omega
    · rintro ⟨hout, hset⟩
      have hrange := htimeout.resolve_left hset
      omega
    · rintro ⟨hout, hset⟩
      have hrange := hswing.resolve_left hset
      omega
    · rcases hlanes with hkeep | hsame | hidle
      · exact .inl (decide_eq_false (fun h => h.1 hkeep))
      · exact .inl (decide_eq_false (fun h => h.2 hsame))
      · exact .inr (any_false_of_all hidle (fun x hx => decide_eq_false (not_not.mpr (of_decide_eq_true hx))))
  · intro h lanes s c u ha
    refine next_answered ha ?_
    refine congrArg (fun f => accepted (State.checkStart
      { s.enter with
        link :=
          { s.link with
            start := s.link.start ++ [{ mask := lanes, till := s.time.ticks + s.link.timeout.toNat * 983040 }]
            lanes := vmap s.link.lanes f } } false)) (funext fun j => funext fun x => ?_)
    exact congrArg (fun y => if lanes.getLsbD j.val then y else x)
      (Lane.start_if_idle s.time.ticks { x with fails := 0, downAt := [], failRep := false })
  · intro h lane count s l c ha hlane hops hmanual
    refine next_answered ha ?_
    simp only [hlane]
    refine checks_eq ?_ ?_
    · simp only [List.forall_mem_cons]
      exact ⟨decide_eq_false (not_or.mpr ⟨hops.1, Nat.not_lt.mpr hops.2⟩), congrArg not hmanual, nofun⟩
    · simp only [State.modLane, vmod_get_same]
      rfl
  · intro h lanes state s t c ha htarget hpower
    refine next_answered ha ?_
    simp only [htarget]
    exact if_pos hpower
  · intro h lanes loop s c k ha hloop hactive
    refine next_answered ha (checks_eq ?_ rfl)
    simp [hloop, hactive]
  · intro h lanes gen chk s c ha hgen hchk hinactive
    refine next_answered ha (checks_eq ?_ rfl)
    simp only [List.forall_mem_cons]
    exact ⟨keep_or_inRange hgen, keep_or_inRange hchk, decide_eq_false (not_not.mpr hinactive), nofun⟩
  · intro h lanes burst rep s c ha hburst hrep hgen
    refine next_answered ha (checks_eq ?_ rfl)
    simp only [List.forall_mem_cons]
    refine ⟨decide_eq_false hburst, decide_eq_false ?_, any_false_of_all hgen (fun l hl => congrArg not hl), nofun⟩
    rintro ⟨hrepeats, hout⟩
    have hrange := hrep.resolve_left hrepeats
    omega
  · intro h lane s l c p ha hlane
    refine next_answered ha ?_
    simp only [hlane]
    rfl
  · intro h lane s l c x ha hlane
    refine next_answered ha ?_
    simp only [hlane]
    rfl
  · intro h lanes p1 p2 p3 p4 s c ha hp1
    refine next_answered ha (checks_eq ?_ rfl)
    simp [hp1]

/-- What a lane becomes depends on the lane alone. -/
theorem State.modLane_congr {s : State} {l : Fin 16} {f g : Lane → Lane}
    (hfg : f (s.link.lanes.get l) = g (s.link.lanes.get l)) : s.modLane l f = s.modLane l g :=
  congrArg (fun x => { s with link.lanes := s.link.lanes.set l.val x l.isLt }) hfg

/-- Settles O44, by what the lane is in. -/
theorem laneEventsRun : Obligations.LaneEventsRun := by
  unfold Obligations.LaneEventsRun
  refine ⟨?_, ?_, ?_, ?_, ?_, ?_, ?_, ?_, ?_, ?_, ?_, ?_, ?_⟩
  · intro s r rs u v hstart hdue
    refine congrArg Host.Outcome.next ?_
    simp only [hstart]
    exact if_neg (Nat.not_lt.mpr hdue)
  · intro l s e hexit hdue
    refine congrArg Host.Outcome.next ?_
    simp only [hexit]
    exact if_neg (Nat.not_lt.mpr hdue)
  · intro l s hon
    exact congrArg Host.Outcome.next (if_pos hon)
  · intro l s x hrole hcdr hdue
    exact congrArg Host.Outcome.next (if_pos ⟨hrole, hcdr, hdue⟩)
  · intro l hdr s x hon hcdr
    exact congrArg Host.Outcome.next (State.modLane_congr (if_pos ⟨hon, hcdr⟩))
  · intro l s x u hrole hlock hslip hmanual hready
    exact congrArg Host.Outcome.next (if_pos ⟨hrole, hlock, hslip, hmanual, hready⟩)
  · intro l s t x ds y u hlost hdue hlock hrole
    refine congrArg Host.Outcome.next ?_
    simp only [x] at hlost hlock hrole
    simp only [hlost]
    refine if_neg ?_
    rintro (hearly | hlocked | hout)
    · exact Nat.not_le.mpr hearly hdue
    · exact Bool.false_ne_true (hlock.symm.trans hlocked)
    · rcases hout with htest | hheld | hoffline
      · exact hrole.1 htest
      · exact hrole.2.1 hheld
      · exact hrole.2.2 hoffline
  · intro l transitions s low hon
    exact congrArg Host.Outcome.next (if_pos hon)
  · intro l payload skew complemented s x b u w hlane htype hcheck
    refine congrArg Host.Outcome.next ((if_neg ?_).trans ((if_neg (not_not.mpr htype)).trans 
      (if_neg (fun h => Bool.false_ne_true (h.symm.trans hcheck)))))
    rintro (hunlocked | hoff)
    · exact Bool.false_ne_true (hunlocked.symm.trans hlane.1)
    · exact Bool.false_ne_true (hoff.symm.trans hlane.2)
  · intro s near u act hreset
    exact congrArg Host.Outcome.next (if_neg (by simp [hreset]))
  · intro s hup
    exact congrArg Host.Outcome.next (if_pos hup)
  · intro l bits s hcheck
    exact congrArg Host.Outcome.next (State.modLane_congr (if_pos hcheck))
  · intro l s hgen hrepeat
    exact congrArg Host.Outcome.next (State.modLane_congr (if_pos ⟨hgen, hrepeat⟩))

end Sys2Proof.Machine
end

section
/-! SUPPORT. Commands and packets of the Zenfa Link (R340 to R378). -/

namespace Sys2Proof.Machine

/-- Settles O45: each command passes its checks. -/
theorem linkCommandsRun : Obligations.LinkCommandsRun := by
  unfold Obligations.LinkCommandsRun
  refine ⟨?_, ?_, ?_, ?_, ?_, ?_, ?_⟩
  · intro h dir flow prio lenMax s f c ha hflow hops hlen hunbound
    refine next_answered ha ?_
    simp only [hflow]
    refine checks_eq ?_ rfl
    simp only [List.forall_mem_cons]
    refine ⟨by simp [hops], decide_eq_false (by omega), hunbound, nofun⟩
  · intro h lane flow format s j l c u ha hlane hformat hnone
    refine next_answered ha ?_
    simp only [hlane.1, hlane.2]
    refine checks_eq ?_ ?_
    · simp only [List.forall_mem_cons]
      exact ⟨decide_eq_false (Nat.not_lt.mpr hformat), keep_or_inRange (.inr hnone),
        Bool.and_eq_false_iff.mpr (.inl (decide_eq_false (not_not.mpr hnone))), nofun⟩
    · simp only [if_pos hnone, done, u]
  · intro h lane flow format s j l c u v ha hlane hformat hflow hfree hallowed
    have hbinds : flow ≠ 0xFF := fun hnone => by simp [hnone] at hflow
    refine next_answered ha ?_
    simp only [hlane.1, hlane.2]
    refine checks_eq ?_ ((if_neg hbinds).trans (if_pos hallowed))
    simp only [List.forall_mem_cons]
    exact ⟨decide_eq_false (Nat.not_lt.mpr hformat), keep_or_inRange (.inl hflow),
      Bool.and_eq_false_iff.mpr (.inr (congrArg not hfree)), nofun⟩
  · intro h dir flow s f c x ha hflow hdir
    refine next_answered ha ?_
    simp only [hflow]
    exact if_pos hdir
  · intro h dir flow s f c x ha hflow hdir
    refine next_answered ha ?_
    simp only [hflow]
    exact (if_neg (by simp [hdir])).trans (if_pos hdir)
  · intro h dir s c tx ha hdir
    exact next_answered ha (if_neg (Nat.not_lt.mpr hdir))
  · intro h replayT holdMs memTo route s c ha hreplayT hholdMs hmemTo hroute
    refine next_answered ha (checks_eq ?_ rfl)
    simp [hreplayT, hholdMs, hmemTo, hroute]

/-- A reliable packet with the SEQ expected is accepted, and an ACK is due (R362). -/
theorem State.relAccept_next {s : State} {seq : BitVec 16} (hseq : seq = s.link.relRx) :
    s.relAccept seq =
      ({ s with
          link :=
            { s.link with
              relRx := s.link.relRx + 1
              nakFor := none
              unacked := s.link.unacked + 1
              ackDue := some (s.link.ackDue.getD (s.time.ticks + 1967)) } }, true) := by
  unfold State.relAccept
  rw [if_pos hseq]
  cases s.link.ackDue <;> rfl

/-- A command without data enters the ring of a mailbox that is enabled and has room (R366). -/
theorem State.placeCmd_slot {s : State} {m : Fin 4} {p : RxPkt} (hserved : s.pup.mbCfg.getLsbD m.val = true)
    (hplain : p.flags.getLsbD 8 = false) (hroom : (s.pup.ctail.get m - s.pup.chead.get m).toNat < 32) :
    s.placeCmd m p =
      { s with
        pup :=
          { s.pup with
            mbRam := memWrite 0 s.pup.mbRam (m.val * 0x800 + ((s.pup.ctail.get m).toNat % 32) * 64)
              (padTo 64 (p.payload.take 64))
            ctail := s.pup.ctail.set m.val (s.pup.ctail.get m + 1) m.isLt } } := by
  unfold State.placeCmd
  simp only [hserved, hplain, Bool.false_eq_true, Bool.true_eq_false, false_and, if_false]
  exact if_neg (Nat.not_le.mpr hroom)

/-- Settles O46: a packet in SEQ order is accepted, and each row runs where it is due. -/
theorem linkPacketsRun : Obligations.LinkPacketsRun := by
  unfold Obligations.LinkPacketsRun
  refine ⟨?_, ?_, ?_, ?_, ?_, ?_, ?_, ?_, ?_, ?_⟩
  · intro pkt s m u t hscreen hseq hflow hserved hplain hroom
    refine congrArg Host.Outcome.next ?_
    simp only [hscreen, State.relAccept_next hseq, if_true, hflow]
    exact State.placeCmd_slot hserved hplain hroom
  · intro pkt s m u hscreen hseq hflow
    refine congrArg Host.Outcome.next ?_
    simp only [hscreen, State.relAccept_next hseq, if_true, hflow]
    rfl
  · intro pkt s u hscreen hseq hflow
    have hnone : fin? 4 pkt.flow.toNat = none := dif_neg (Nat.not_lt.mpr hflow)
    refine congrArg Host.Outcome.next ?_
    simp only [hscreen, State.relAccept_next hseq, if_true, hnone]
    rfl
  · intro pkt s ack old u v1 v w hscreen
    refine congrArg Host.Outcome.next ?_
    simp only [hscreen]
    rfl
  · intro s hunacked
    exact congrArg Host.Outcome.next (if_neg hunacked)
  · intro s x xs hheld hdue
    refine congrArg Host.Outcome.next ?_
    simp only [hheld]
    exact if_pos hdue
  · intro s x xs u hheld hdue
    refine congrArg Host.Outcome.next ?_
    simp only [u, hheld]
    exact if_neg (Nat.not_lt.mpr hdue)
  · intro f s x lim p hbound hdue
    simp only [x] at hbound hdue
    refine congrArg Host.Outcome.next (if_pos ?_)
    simpa [hbound, or_assoc] using hdue
  · intro f s p ps hready hruns
    refine congrArg Host.Outcome.next ?_
    simp only [hready]
    exact if_pos hruns
  · intro s a n u hroute hsome
    refine congrArg Host.Outcome.next (if_pos ?_)
    simp only [hroute.1, hroute.2.1, Bool.true_and, Bool.and_eq_true, decide_eq_true_eq]
    exact ⟨hsome, hroute.2.2⟩

end Sys2Proof.Machine
end

section
/-! SUPPORT. Commands, descriptors and bursts of the DMA engine and the check units (R379 to R411). -/

namespace Sys2Proof.Machine

/-- What a channel becomes depends on the channel alone. -/
theorem State.modDm_congr {s : State} {c : Fin 64} {f g : DmChan → DmChan}
    (hfg : f (s.dma.chans.get c) = g (s.dma.chans.get c)) : s.modDm c f = s.modDm c g :=
  congrArg (fun x => { s with dma.chans := s.dma.chans.set c.val x c.isLt }) hfg

/-- Settles O47: each command passes its checks. -/
theorem dmaCommandsRun : Obligations.DmaCommandsRun := by
  unfold Obligations.DmaCommandsRun
  refine ⟨?_, ?_, ?_, ?_, ?_, ?_, ?_, ?_, ?_, ?_, ?_⟩
  · intro h channel op mode base len burst uses rate paceTile paceQ high low bound evt s k c x ha hchannel hop hidle
    refine next_answered ha ?_
    simp only [hchannel]
    exact (if_pos hop).trans (checks_eq (List.forall_mem_singleton.mpr hidle) rfl)
  · intro h channel op mode base len burst uses rate paceTile paceQ high low bound evt s k c x b paced q pt u
      ha hchannel hop hidle hops hbound htile hring hlevels htaken hfits
    refine next_answered ha ?_
    simp only [hchannel]
    refine (if_neg (by simp [hop])).trans (checks_eq ?_ rfl)
    simp only [List.forall_mem_cons]
    refine ⟨?_, ?_, hidle, congrArg not hfits, nofun⟩
    · obtain ⟨hmode, hburst, hburstMax, huses, hrate, hrateMax, hevt⟩ := hops
      simp only [Bool.or_eq_false_iff]
      refine ⟨⟨⟨⟨decide_eq_false ?_, keep_or_inRange hbound⟩, keep_or_inRange htile⟩, Bool.and_eq_false_iff.mpr ?_⟩,
        Bool.and_eq_false_iff.mpr ?_⟩
      · have hset : ¬ 1 < op.toNat := by simp [hop]
        simp only [not_or]
        exact ⟨hset, Nat.not_lt.mpr hmode, hburst, Nat.not_lt.mpr hburstMax, Nat.not_le.mpr huses, hrate,
          Nat.not_lt.mpr hrateMax, Nat.not_lt.mpr hevt⟩
      · refine hring.imp decide_eq_false (fun ⟨halign, hlen, hlenMax⟩ => decide_eq_false ?_)
        exact not_or.mpr ⟨not_not.mpr halign, not_or.mpr ⟨hlen, Nat.not_lt.mpr hlenMax⟩⟩
      · refine hlevels.imp (fun hnone => decide_eq_false (not_not.mpr hnone)) (fun hpace => decide_eq_false ?_)
        simp only [b] at hpace
        omega
    · refine Bool.and_eq_false_iff.mpr (htaken.imp (fun hnone => decide_eq_false (not_not.mpr hnone)) ?_)
      simp only [pt, q]
      rintro (hfree | hown)
      · simp only [show s.enter.pacedBy _ _ = none from hfree]
      · simp only [show s.enter.pacedBy _ _ = some k from hown, ne_eq, not_true_eq_false, decide_false]
  · intro h chans addr s c cs ha hhost haddr hready
    refine next_answered ha (checks_eq ?_ rfl)
    simp only [List.forall_mem_cons]
    exact ⟨hhost, decide_eq_false (Nat.not_lt.mpr haddr), hready, nofun⟩
  · intro h channel tail s k c ha hchannel htail
    refine next_answered ha ?_
    simp only [hchannel]
    exact checks_eq (List.forall_mem_singleton.mpr (decide_eq_false (Nat.not_le.mpr htail))) rfl
  · intro h chans s c ha hhost
    exact next_answered ha (checks_eq (List.forall_mem_singleton.mpr hhost) rfl)
  · intro h chans s c ha hhost
    exact next_answered ha (checks_eq (List.forall_mem_singleton.mpr hhost) rfl)
  · intro h channel s k c x ha hchannel
    refine next_answered ha ?_
    simp only [hchannel]
    rfl
  · intro h unit crc s u c ha hunit hcrc howner
    refine next_answered ha ?_
    simp only [hunit]
    refine checks_eq ?_ rfl
    simp [hcrc, howner]
  · intro h unit s u c x ha hunit
    refine next_answered ha ?_
    simp only [hunit]
    rfl
  · intro ch data s n hmgmt hstopped hlength
    refine congrArg Host.Outcome.next ((if_pos hmgmt).trans ?_)
    exact State.modDm_congr (if_pos (by simp [hstopped, n, hlength]))
  · intro ch data s hmgmt hinside
    exact congrArg Host.Outcome.next ((if_pos hmgmt).trans (if_pos hinside))

/-- Sampling a request does not touch the engine's power. -/
theorem State.sampleReq_dmOn (s : State) (c : Fin 64) : (s.sampleReq c).dmOn = s.dmOn := by
  unfold State.sampleReq
  simp only
  split <;> rfl

/-- Settles O48, by the descriptor in progress of the channel. -/
theorem dmaEventsRun : Obligations.DmaEventsRun := by
  unfold Obligations.DmaEventsRun
  refine ⟨?_, ?_, ?_, ?_, ?_, ?_, ?_, ?_⟩
  · intro c s x d hruns hmore hlocal hvalid
    refine congrArg Host.Outcome.next ((if_neg ?_).trans ((if_neg ?_).trans ((if_neg ?_).trans (if_neg ?_))))
    · simp only [x] at hruns
      simp [hruns]
    · simp only [x] at hmore
      rcases hmore with hlist | hhead
      · simp [hlist]
      · simp [hhead]
    · exact Bool.eq_false_iff.mp hlocal
    · exact not_not.mpr hvalid
  · intro c s r v n data w hrun hburst hon hready hlocal
    refine congrArg Host.Outcome.next ?_
    simp only [v] at hready
    simp only [hrun, hburst, Option.isNone_none, if_true]
    refine (if_neg ?_).trans ?_
    · simp [State.sampleReq_dmOn, hon, hready]
    exact if_pos hlocal
  · intro c s r tag v n sp q w hrun hburst hon hready hhost htag
    refine congrArg Host.Outcome.next ?_
    simp only [v] at hready htag
    simp only [hrun, hburst, Option.isNone_none, if_true]
    refine (if_neg ?_).trans ?_
    · simp [State.sampleReq_dmOn, hon, hready]
    refine (if_neg hhost).trans ?_
    simp only [htag]
    rfl
  · intro pkt s m f u got others v w hscreen hseq hread hclean
    refine congrArg Host.Outcome.next ?_
    simp only [f] at hread hclean
    simp only [hscreen, State.relAccept_next hseq, Bool.not_true, Bool.false_eq_true, if_false, hread]
    exact if_neg (by simp [hclean])
  · intro tag s m hread hdue
    refine congrArg Host.Outcome.next ?_
    simp only [hread]
    exact if_neg (Nat.not_lt.mpr hdue)
  · intro c s r n u v w hrun hburst hends
    refine congrArg Host.Outcome.next ?_
    simp only [hrun, hburst]
    refine (if_neg (by simp [hends])).trans ?_
    rfl
  · intro c s r since hrun hends hfence hacked
    refine congrArg Host.Outcome.next ?_
    simp only [hrun]
    refine (if_neg (by simp [hends])).trans ?_
    simp only [hfence]
    exact if_pos hacked
  · intro c s r hrun hends hfence hplain
    refine congrArg Host.Outcome.next ?_
    simp only [hrun]
    refine (if_neg (by simp [hends])).trans ?_
    simp only [hfence, hplain, Bool.not_false, if_true, Bool.and_eq_true, decide_eq_true_eq]

end Sys2Proof.Machine
end

section
/-! SUPPORT. Commands and events of the power states (R478 to R495). -/

namespace Sys2Proof.Machine

/-- Settles O49: each command passes its checks. -/
theorem powerCommandsRun : Obligations.PowerCommandsRun := by
  unfold Obligations.PowerCommandsRun
  refine ⟨?_, ?_, ?_, ?_, ?_, ?_⟩
  · intro h target lane s c ha htarget hdoze
    refine next_answered ha (checks_eq ?_ ?_)
    · simp [htarget]
    · exact congrArg accepted ((if_pos htarget).trans (if_pos hdoze))
  · intro h target lane s c ha htarget hlane hidle
    refine next_answered ha (checks_eq ?_ ?_)
    · simp only [List.forall_mem_cons]
      refine ⟨?_, decide_eq_false ?_, nofun⟩
      · rcases htarget with hdoze | hretain
        · simp [hdoze]
        · simp [hretain]
      · rintro ⟨hdoze, hnotStandby, hnotRagdoll⟩
        rcases hlane with hretain | hstandby | hragdoll
        · exact absurd (hdoze.symm.trans hretain) (by decide)
        · exact hnotStandby hstandby
        · exact hnotRagdoll hragdoll
    · obtain ⟨hentry, hwake, hdev⟩ := hidle
      refine congrArg accepted ((if_neg ?_).trans (if_neg ?_))
      · rintro rfl
        exact htarget.elim (by decide) (by decide)
      · have hawake : decide (s.pw.dev = .doze ∧ target = 1) = false :=
          decide_eq_false (fun ⟨hdoze, hone⟩ => hdev.elim (· hdoze) (fun h => absurd (hone.symm.trans h) (by decide)))
        simp only [State.enter_pw, hentry, hwake, Option.isSome_none, Bool.false_or]
        exact Bool.eq_false_iff.mp hawake
  · intro h tiles s c new u ha hoff
    exact next_answered ha (checks_eq (List.forall_mem_singleton.mpr hoff) rfl)
  · intro h banks s c ha hbanks
    refine next_answered ha (checks_eq ?_ rfl)
    simp [hbanks]
  · intro h pinEn timerEn timer s c ha hpinEn
    refine next_answered ha (checks_eq ?_ rfl)
    simp [hpinEn]
  · intro h s c ha
    exact next_answered ha rfl

/-- Settles O50, by the entry or the wake that the event is of. -/
theorem powerEventsRun : Obligations.PowerEventsRun := by
  unfold Obligations.PowerEventsRun
  refine ⟨?_, ?_, ?_, ?_, ?_, ?_, ?_, ?_, ?_, ?_, ?_⟩
  · intro block ok s e hok hentry hasked hreason
    subst hok
    refine congrArg Host.Outcome.next ?_
    simp only [hentry]
    refine (if_neg (by simp [hasked])).trans ?_
    simp only [hreason]
    rfl
  · intro s e hentry hlate hreason
    refine congrArg Host.Outcome.next ?_
    simp only [hentry]
    refine (if_neg ?_).trans (if_neg hreason)
    have hpassed : decide (s.time.ticks < e.since + msTicks) = false := decide_eq_false (Nat.not_lt.mpr hlate.2)
    simp [hlate.1, hpassed]
  · intro s e since u hentry hphase hacked
    refine congrArg Host.Outcome.next ?_
    simp only [hentry, hphase]
    exact if_pos hacked
  · intro t s u v hmgmt hunparking
    refine congrArg Host.Outcome.next ((if_pos ?_).trans rfl)
    simp [hmgmt, hunparking]
  · intro heldTwo s hheld hpowered
    exact congrArg Host.Outcome.next (if_pos (by simp [hheld, hpowered]))
  · intro s hdue
    exact congrArg Host.Outcome.next (if_pos hdue)
  · intro s w on u hwake hdoze
    refine congrArg Host.Outcome.next ?_
    simp only [hwake]
    exact if_neg (not_not.mpr hdoze)
  · intro s w hwake hretain hstep
    refine congrArg Host.Outcome.next ?_
    simp only [hwake]
    exact (if_neg (not_not.mpr hretain)).trans (if_pos hstep)
  · intro s w hwake hretain hstep
    refine congrArg Host.Outcome.next ?_
    simp only [hwake]
    exact (if_neg (not_not.mpr hretain)).trans (if_neg (Nat.not_lt.mpr hstep))
  · intro s w hwake hretain hretry
    refine congrArg Host.Outcome.next ?_
    simp only [hwake]
    exact (if_neg (not_not.mpr hretain)).trans (if_pos (congrArg not hretry))
  · intro s w hwake hretain hretry
    refine congrArg Host.Outcome.next ?_
    simp only [hwake]
    exact (if_neg (not_not.mpr hretain)).trans (if_neg (by simp [hretry]))

end Sys2Proof.Machine
end

section
/-! SUPPORT. Supplies, RESET_N, boot and restart (R481, R497 to R519, R585). -/

namespace Sys2Proof.Machine

/-- While firmware runs, a fault restarts it; the third within 60 s halts it (R513, R515). -/
theorem State.faultRestart_runs {s : State} {cause : BootCause} (hmgmt : s.mgmtOn = true)
    (hruns : s.pup.halted = false) :
    s.faultRestart cause =
      let times := s.pup.faultTimes.filter (fun t => decide (s.time.ticks < t + 60 * secTicks))
      let u := s.restart cause (s.pup.slotB :: s.bootOrder.filter (fun b => b != s.pup.slotB))
      let v : State := { u with pup.faultTimes := s.time.ticks :: times }
      let y := v.cutWork
      if 2 ≤ times.length then { y with pup := { y.pup with halted := true, restarting := false, boot := none } }
      else y := by
  unfold State.faultRestart
  rw [if_neg (by simp [hmgmt, hruns])]

/-- Settles O51, by the supply, the reset or the boot that the event is of. -/
theorem supplyAndBootEventsRun : Obligations.SupplyAndBootEventsRun := by
  unfold Obligations.SupplyAndBootEventsRun
  refine ⟨?_, ?_, ?_, ?_, ?_, ?_, ?_, ?_⟩
  · intro s hoff
    exact congrArg Host.Outcome.next (if_neg (Bool.eq_false_iff.mp hoff))
  · intro rail s io hneeded
    refine congrArg Host.Outcome.next (if_neg ?_)
    rcases hneeded with hpowered | hrail
    · simp [hpowered]
    · simp [hrail]
  · intro s hpowered
    exact execResetNAssert_powered hpowered.1 hpowered.2.1 hpowered.2.2
  · intro bootmode refclk s u v hlow
    exact execResetNRelease_low hlow.1 hlow.2 bootmode refclk
  · intro s b t u v w x z y hboot hready
    refine congrArg Host.Outcome.next ?_
    simp only [hboot]
    exact if_neg (by simp [hready])
  · intro s b hboot hlate
    refine congrArg Host.Outcome.next ?_
    simp only [hboot]
    have hpassed : decide (s.time.ticks < b.start + 294912000) = false := decide_eq_false (Nat.not_lt.mpr hlate.2.2)
    exact if_neg (by simp [hlate.1, hlate.2.1, hpassed])
  · intro s times u v y hruns
    refine congrArg Host.Outcome.next ?_
    rw [State.faultRestart_runs hruns.1 hruns.2]
  · intro s times u v y hruns
    refine congrArg Host.Outcome.next ?_
    rw [State.faultRestart_runs hruns.1 hruns.2]

/-- Settles O52: each command passes its checks, and each register of the port answers. -/
theorem puppeteerCommandsRun : Obligations.PuppeteerCommandsRun := by
  unfold Obligations.PuppeteerCommandsRun
  refine ⟨?_, ?_, ?_, ?_, ?_, ?_, ?_, ?_, ?_, ?_⟩
  · intro h s c ha
    exact next_answered ha rfl
  · intro h s c ha
    exact next_answered ha rfl
  · intro h offset length ptr final s n c b ha hrun hchunk hfree hfirst
    have hzero : offset.toNat = 0 := congrArg BitVec.toNat hfirst
    refine next_answered ha (checks_eq ?_ ?_)
    · simp only [List.forall_mem_cons]
      refine ⟨hrun.1, decide_eq_false (by omega), ?_, ?_, hrun.2, nofun⟩
      · simp [hzero]
      · simp [hfree, show s.enter.journalBusy = false from hfree.2.1]
    · exact if_pos hzero
  · intro h offset length ptr final s x n c ha hrun hchunk hfree hnext
    obtain ⟨hlater, hstage, hwant⟩ := hnext
    have hnonzero : offset.toNat ≠ 0 := fun hzero => hlater (BitVec.eq_of_toNat_eq hzero)
    refine next_answered ha (checks_eq ?_ ?_)
    · simp only [List.forall_mem_cons]
      refine ⟨hrun.1, decide_eq_false (by omega), ?_, ?_, hrun.2, nofun⟩
      · simp [hstage, hwant]
      · simp [hfree, show s.enter.journalBusy = false from hfree.2.1]
    · refine (if_neg hnonzero).trans ?_
      simp only [State.enter_pup_stage, hstage, Option.map_some]
      rfl
  · intro h slot s c b ha hslot himage
    refine next_answered ha (checks_eq ?_ rfl)
    simp only [List.forall_mem_cons]
    exact ⟨decide_eq_false (Nat.not_lt.mpr hslot), decide_eq_false (not_not.mpr himage), nofun⟩
  · intro mb data s c hopen hring
    refine congrArg Host.Outcome.next ((if_pos hopen).trans (if_neg ?_))
    have hroom : decide (32 < (c - s.pup.chead.get mb).toNat) = false := decide_eq_false (Nat.not_lt.mpr hring.2)
    simp only [hring.1, Bool.false_or]
    exact Bool.eq_false_iff.mp hroom
  · intro data s hopen hempty
    exact congrArg Host.Outcome.next ((if_pos hopen).trans (if_neg (Bool.eq_false_iff.mp hempty)))
  · intro data s hopen hbehind
    exact congrArg Host.Outcome.next ((if_pos hopen).trans (if_pos hbehind))
  · intro data s u hon
    exact congrArg Host.Outcome.next (if_pos hon)
  · intro data s hon
    exact congrArg Host.Outcome.next (if_pos hon)

end Sys2Proof.Machine
end

section
/-! SUPPORT. Flash work, the journal, accesses to registers and the JTAG TAP: each row runs to the state its rule gives. -/

namespace Sys2Proof.Machine

/-- Settles O53: each row takes the branch of the job that is under way; the order in which FLASH_ERASE_DONE serves
the jobs is the model's reading (log 71). -/
theorem flashAndJournalEventsRun : Obligations.FlashAndJournalEventsRun := by
  unfold Obligations.FlashAndJournalEventsRun
  refine ⟨?_, ?_, ?_, ?_, ?_, ?_, ?_, ?_, ?_, ?_, ?_, ?_, ?_⟩
  · intro s r v hmgmtOn hjob hstore herased
    refine congrArg Host.Outcome.next ?_
    simp only [hmgmtOn, hjob, hstore]
    exact (if_neg Bool.false_ne_true).trans (if_neg (Nat.not_lt.mpr herased))
  · intro s b bytes r code hmgmtOn hjob
    refine congrArg Host.Outcome.next ?_
    simp only [hmgmtOn, hjob]
    rfl
  · intro s b bytes r code hmgmtOn hjob
    refine congrArg Host.Outcome.next ?_
    simp only [hmgmtOn, hjob]
    rfl
  · intro s hmgmtOn hstageWrite
    refine congrArg Host.Outcome.next ?_
    simp only [hmgmtOn, hstageWrite]
    rfl
  · intro s r hmgmtOn hcalStore hstore herased
    refine congrArg Host.Outcome.next ?_
    simp only [hmgmtOn, hcalStore, hstore, herased]
    rfl
  · intro s b bytes r code hmgmtOn hjob
    refine congrArg Host.Outcome.next ?_
    simp only [hmgmtOn, hjob]
    rfl
  · intro s n u hmgmtOn hjob
    refine congrArg Host.Outcome.next ?_
    simp only [hmgmtOn, hjob]
    rfl
  · intro s n x u hmgmtOn hjob hstage
    refine congrArg Host.Outcome.next ?_
    simp only [hmgmtOn, hjob, hstage]
    rfl
  · intro s k hmgmtOn hnone hjSector
    refine congrArg Host.Outcome.next ?_
    simp only [hmgmtOn, hnone, hjSector]
    rfl
  · intro mb s p hmb hwaits hentry
    refine congrArg Host.Outcome.next ?_
    simp only [hmb, hwaits, hentry]
    rfl
  · intro mb s p e hmb hwaits hentry htempForbidden
    refine congrArg Host.Outcome.next ?_
    simp only [hmb, hwaits, hentry, htempForbidden]
    rfl
  · intro mb s p e u hmb hwaits hentry htempForbidden
    refine congrArg Host.Outcome.next ?_
    simp only [hmb, hwaits, hentry, htempForbidden]
    rfl
  · intro s e es hwritesJournal hjBuf
    refine congrArg Host.Outcome.next ?_
    simp only [hwritesJournal, hjBuf]
    rfl

/-- Settles O59: with power and TRST_N high each instruction enters the register; the cells captured and their order are
the model's (log 46 and 58). -/
theorem jtagCommandsRun : Obligations.JtagCommandsRun := by
  unfold Obligations.JtagCommandsRun
  refine ⟨?_, ?_, ?_, ?_, ?_, ?_, ?_, ?_, ?_, ?_⟩
  · intro low s hlow
    refine congrArg Host.Outcome.next ?_
    simp only [hlow]
    rfl
  · intro low s hlow
    refine congrArg Host.Outcome.next ?_
    simp only [hlow]
    rfl
  · intro cells s hon
    refine congrArg Host.Outcome.next (if_pos ?_)
    simp [hon.1, hon.2]
  · intro cells s hon
    refine congrArg Host.Outcome.next (if_pos ?_)
    simp [hon.1, hon.2]
  · intro cells s hon
    refine congrArg Host.Outcome.next (if_pos ?_)
    simp [hon.1, hon.2]
  · intro cells s hon
    refine congrArg Host.Outcome.next (if_pos ?_)
    simp [hon.1, hon.2]
  · intro s hon
    refine congrArg Host.Outcome.next (if_pos ?_)
    simp [hon.1, hon.2]
  · intro s hon
    refine congrArg Host.Outcome.next (if_pos ?_)
    simp [hon.1, hon.2]
  · intro s hon
    refine congrArg Host.Outcome.next (if_pos ?_)
    simp [hon.1, hon.2]
  · intro code s hon
    obtain ⟨hjtagOn, htrst, hcode⟩ := hon
    refine congrArg Host.Outcome.next ((if_neg (Nat.not_lt.mpr hcode)).trans (if_pos ?_))
    simp [hjtagOn, htrst]

/-- An open port reads the register of the map (R517). -/
theorem State.portRead_open {s : State} {a : Nat} (hopen : s.portOpen = true) :
    s.portRead a =
      { (s.regRead (a / 4 * 4)).2 with pup.rdata := BitVec.ofNat 32 (s.regRead (a / 4 * 4)).1 } := by
  simp only [State.portRead, if_pos hopen]

/-- The header of an SPI frame is taken when its clock and its reserved bits are right and its offset is a word's. -/
theorem spiHeader_accepted {slow : Bool} {reserved high offset : Nat}
    (h : slow = false ∧ reserved = 0 ∧ high = 0 ∧ offset % 4 = 0) :
    ¬(slow = true ∨ reserved ≠ 0 ∨ high ≠ 0 ∨ offset % 4 ≠ 0) := by
  simp [h]

/-- The checks of a window access within one row of the map, by a role that may. -/
theorem State.readChecks_pass {s : State} {h : CmdHdr} {a n : Nat} (hwindow : windowOk a n = true)
    (hmay : s.windowLacks h a n = false ∧ s.windowDown a = false) : ∀ c ∈ s.readChecks h a n, c.2 = false := by
  simp only [State.readChecks, List.forall_mem_cons]
  exact ⟨congrArg not hwindow, hmay.1, hmay.2, nofun⟩

/-- A window write that no check and no word refuses writes every word. -/
theorem State.windowWrite_runs {s : State} {h : CmdHdr} {a : Nat} {ws : List (BitVec 32)}
    (hwindow : windowOk a ws.length = true)
    (hmay : s.windowLacks h a ws.length = false ∧ s.windowDown a = false)
    (hfree : (wordsAt a ws.length).findSome? (fun x => s.wordRefuses x) = none) :
    s.windowWrite h a ws = done (s.regWrites a ws) := by
  refine checks_eq (State.readChecks_pass hwindow hmay) ?_
  simp only [hfree]

/-- Settles O54: open ports, SPI frames and the window commands, each where its checks pass. That a frame ends early at a
word boundary without an error is log 52, the rights of the window log 53, the levels and sinks of CALBUS_DIAG log 57. -/
theorem registerCommandsRun : Obligations.RegisterCommandsRun := by
  unfold Obligations.RegisterCommandsRun
  refine ⟨?_, ?_, ?_, ?_, ?_, ?_, ?_, ?_, ?_, ?_, ?_⟩
  · intro addr data s hopen hfree
    refine congrArg Host.Outcome.next ((if_pos hopen).trans (if_neg ?_))
    simp [hfree]
  · intro addr s r hopen
    exact congrArg Host.Outcome.next (State.portRead_open hopen)
  · intro addr s r hopen
    exact congrArg Host.Outcome.next (State.portRead_open hopen)
  · intro khz bytes bits s hd n o data r bad hon hheader hread
    obtain ⟨hread, hdata⟩ := hread
    refine congrArg Host.Outcome.next ((if_neg (by simp [hon.1])).trans ?_)
    refine (if_neg (Nat.not_lt.mpr hon.2)).trans ((if_neg (spiHeader_accepted hheader)).trans ((if_pos hread).trans ?_))
    simp only [if_neg (Nat.not_lt.mpr hdata)]
    rfl
  · intro khz bytes bits s hd n o data r bad hon hheader hwrite
    refine congrArg Host.Outcome.next ((if_neg (by simp [hon.1])).trans ?_)
    exact (if_neg (Nat.not_lt.mpr hon.2)).trans
      ((if_neg (spiHeader_accepted hheader)).trans (if_neg (Bool.eq_false_iff.mp hwrite)))
  · intro h addr count s n c r ha hcount hwindow hmay
    refine next_answered ha (checks_eq ?_ rfl)
    exact List.forall_mem_cons.mpr
      ⟨decide_eq_false (by omega), State.readChecks_pass (s := s.enter) hwindow hmay⟩
  · intro h addr count words s n c ha hcount hwindow hmay hfree
    refine next_answered ha (checks_eq ?_ (State.windowWrite_runs (s := s.enter) hwindow hmay hfree))
    exact List.forall_mem_singleton.mpr (decide_eq_false (by omega))
  · intro h addr bytes ptr s n c r ha hbytes hwindow hmay
    refine next_answered ha (checks_eq ?_ rfl)
    exact List.forall_mem_cons.mpr
      ⟨decide_eq_false (by omega), State.readChecks_pass (s := s.enter) hwindow hmay⟩
  · intro h addr bytes ptr s n ws c ha hbytes hwindow hmay hfree
    refine next_answered ha (checks_eq ?_ (State.windowWrite_runs (s := s.enter) hwindow hmay hfree))
    exact List.forall_mem_singleton.mpr (decide_eq_false (by omega))
  · intro h path mode offset level sinks orx duration s p till a b c t u ha hfin hoperands hbus hidle
    refine next_answered ha ?_
    simp only [hfin]
    refine checks_eq ?_ rfl
    simp only [List.forall_mem_cons]
    exact ⟨decide_eq_false (by omega),
      Bool.or_eq_false_iff.mpr ⟨decide_eq_false (not_not.mpr hbus.1), congrArg not hbus.2⟩, hidle, nofun⟩
  · intro s m till hbus hdue
    refine congrArg Host.Outcome.next ?_
    simp only [hbus]
    exact if_neg (Nat.not_lt.mpr hdue)

end Sys2Proof.Machine
end

section
/-! SUPPORT. Sessions, keys, the change journal and the one-time programmable memory: each command runs to the state its rule gives. -/

namespace Sys2Proof.Machine

/-- Settles O55: a command answers what the state of its handle gives. The nonce as a value of the environment is log 41, a
handle that lapses at exactly 10 s log 56. -/
theorem sessionCommandsRun : Obligations.SessionCommandsRun := by
  unfold Obligations.SessionCommandsRun
  refine ⟨?_, ?_, ?_, ?_, ?_, ?_, ?_⟩
  · intro h role s r k c n t ha hrole hlocked hhandle
    refine next_answered ha ?_
    simp only [hrole]
    refine (if_neg (Bool.eq_false_iff.mp hlocked)).trans ?_
    simp only [show s.enter.freeHandle = some k from hhandle]
    rfl
  · intro h handle mac s k r n since c t ha hhandle hlength hawaiting hintime hmac
    refine next_answered ha ?_
    simp only [hhandle]
    refine (if_neg (not_not.mpr hlength)).trans ?_
    simp only [State.enter_pup_sessions, hawaiting]
    refine (if_neg (Nat.not_le.mpr hintime)).trans ?_
    exact if_pos hmac
  · intro h handle mac s k r n since c ha hhandle hlength hawaiting hintime hmac
    refine next_answered ha ?_
    simp only [hhandle]
    refine (if_neg (not_not.mpr hlength)).trans ?_
    simp only [State.enter_pup_sessions, hawaiting]
    refine (if_neg (Nat.not_le.mpr hintime)).trans ?_
    exact if_neg hmac
  · intro h handle s k r n till c ha hhandle hopened hmay
    refine next_answered ha ?_
    simp only [hhandle, State.enter_pup_sessions, hopened]
    exact if_neg (fun hother => hmay.elim hother.1 (Nat.not_le.mpr hother.2))
  · intro src s r n since hsrc hsince
    refine congrArg Host.Outcome.next ?_
    simp only [hsrc, hsince]
    rfl
  · intro src s r n till hsrc htill
    refine congrArg Host.Outcome.next ?_
    simp only [hsrc, htill]
    rfl
  · intro r s t hr ht
    refine congrArg Host.Outcome.next ?_
    simp only [hr, ht]
    rfl

/-! ### Taking a command leaves the key records as they are -/

theorem State.enter_keySlot (s : State) : s.enter.keySlot = s.keySlot := rfl

theorem State.enter_keySeq (s : State) (b : Bool) : s.enter.keySeq b = s.keySeq b := rfl

theorem State.enter_roleKey (s : State) (r : Nat) : s.enter.roleKey r = s.roleKey r := by
  simp only [State.roleKey, State.enter_keySlot]
  rfl

theorem State.enter_newKey (s : State) (i : Fin 8) (issuer : Role) (nonce : BitVec 128) (r : Nat) (b : List Byte) :
    s.enter.newKey i issuer nonce r b = s.newKey i issuer nonce r b := by
  simp only [State.newKey, State.enter_roleKey]

theorem State.enter_keyRecord (s : State) (b : Bool) (seq : BitVec 32) (r : Nat) (key : List Byte) :
    s.enter.keyRecord b seq r key = s.keyRecord b seq r key := by
  simp only [State.keyRecord, State.enter_roleKey]

/-- An OTP write: the value that the environment gives decides whether it verified (R568). -/
theorem State.otpBurn_eq (s : State) (good bad : State → State) :
    s.otpBurn good bad =
      ({ status := if Config.otpFails s.free = true then stInternal else stDone },
       if Config.otpFails s.free = true then bad { s with free := s.free + 1 }
       else good { s with free := s.free + 1 }) := by
  simp only [State.otpBurn]
  split <;> rfl

/-- Settles O56: a key block that is right starts the record of its key, the journal gives what exists, and an OTP write
sets what it names where it verifies. The value that decides it is log 42, the first key record log 56, the wrapping of
a key log 40. -/
theorem keyJournalAndOtpCommandsRun : Obligations.KeyJournalAndOtpCommandsRun := by
  unfold Obligations.KeyJournalAndOtpCommandsRun
  refine ⟨?_, ?_, ?_, ?_, ?_, ?_, ?_⟩
  · intro h role ptr s k issuer n till key c t slotB seq ha hrole hfree hsession hopened hkey
    obtain ⟨hrange, hrank⟩ := hrole
    refine next_answered ha (checks_eq ?_ ?_)
    · simp only [List.forall_mem_cons]
      refine ⟨decide_eq_false (Nat.not_lt.mpr hrange), decide_eq_false ?_, ?_, hfree.2.2, nofun⟩
      · rintro ⟨hmaker, hbelow⟩
        exact hrank.elim (fun hother => hother (BitVec.eq_of_toNat_eq hmaker)) (Nat.not_le.mpr hbelow)
      · exact Bool.or_eq_false_iff.mpr ⟨congrArg Option.isSome hfree.1, hfree.2.1⟩
    · have hopened' : s.enter.pup.sessions.get k = .opened issuer n till := hopened
      simp only [hsession, hopened', State.enter_newKey, State.enter_pup_mbRam, hkey, State.enter_keySlot,
        State.enter_keySeq, State.enter_keyRecord, slotB, seq, t]
      cases s.keySlot with
      | none => rfl
      | some b => rfl
  · intro h first count ptr s c next old n ha hcount
    refine next_answered ha (checks_eq ?_ rfl)
    exact List.forall_mem_singleton.mpr (decide_eq_false (by omega))
  · intro h confirm s c ha hmay hfree
    refine next_answered ha (checks_eq ?_ rfl)
    simp only [List.forall_mem_cons]
    exact ⟨hmay.1, decide_eq_false (not_not.mpr hmay.2),
      Bool.or_eq_false_iff.mpr ⟨congrArg Option.isSome hfree.1, hfree.2.1⟩, hfree.2.2, nofun⟩
  · intro h index ptr s k c t b ha hwired hfin hkey
    refine next_answered ha ((if_neg (Bool.eq_false_iff.mp hwired)).trans ?_)
    simp only [hfin]
    refine checks_eq ?_ (State.otpBurn_eq _ _ _)
    simp only [List.forall_mem_cons]
    exact ⟨congrArg not hkey.1, Bool.or_eq_false_iff.mpr hkey.2, nofun⟩
  · intro h index s k c t ha hwired hfin hother
    refine next_answered ha ((if_neg (Bool.eq_false_iff.mp hwired)).trans ?_)
    simp only [hfin]
    refine checks_eq ?_ (State.otpBurn_eq _ _ _)
    exact List.forall_mem_singleton.mpr (congrArg not hother)
  · intro h version s c t ha hwired hversion
    refine next_answered ha (checks_eq ?_ (State.otpBurn_eq _ _ _))
    obtain ⟨hfloor, hfirmware, hroom⟩ := hversion
    simp only [List.forall_mem_cons]
    refine ⟨hwired, decide_eq_false ?_, decide_eq_false (Nat.not_le.mpr hroom), nofun⟩
    exact not_or.mpr ⟨Nat.not_lt.mpr hfloor, Nat.not_lt.mpr hfirmware⟩
  · intro h group length ptr s c t ha hwired hnew
    refine next_answered ha (checks_eq ?_ (State.otpBurn_eq _ _ _))
    simp only [List.forall_mem_cons]
    exact ⟨hwired, hnew, nofun⟩

end Sys2Proof.Machine
end

section
/-! SUPPORT. Temperature monitoring and the samples of the paths: each row runs to the state its rule gives. -/

namespace Sys2Proof.Machine

/-- Settles O57: each command passes its checks where its operands are in range. -/
theorem thermalCommandsRun : Obligations.ThermalCommandsRun := by
  unfold Obligations.ThermalCommandsRun
  refine ⟨?_, ?_, ?_, ?_, ?_, ?_, ?_⟩
  · intro h rha ch ta s c ha hrha hch hta
    refine next_answered ha (checks_eq ?_ rfl)
    simp only [List.forall_mem_cons]
    exact ⟨decide_eq_false (by omega), decide_eq_false (by omega), decide_eq_false (by omega), nofun⟩
  · intro h steps interval duty s l c ha hinterval hduty horder hthrottle
    refine next_answered ha (checks_eq ?_ ?_)
    · simp only [List.forall_mem_cons, horder.1]
      exact ⟨decide_eq_false (by omega), decide_eq_false (by omega), congrArg not horder.2, hthrottle, nofun⟩
    · simp only [horder.1]
      rfl
  · intro h enable s c ha henable
    refine next_answered ha ?_
    simp only [henable]
    rfl
  · intro h enable s c u ha henable
    have hzero : ¬enable = 1 := by simp [henable]
    refine next_answered ha (checks_eq ?_ (congrArg done (if_neg hzero)))
    exact List.forall_mem_singleton.mpr (by simp [henable])
  · intro h s c u ha hhalt hcool
    refine next_answered ha (if_neg ?_)
    exact Bool.eq_false_iff.mp (Bool.or_eq_false_iff.mpr ⟨congrArg not hhalt, hcool⟩)
  · intro h s c ha
    exact next_answered ha rfl
  · intro h cls s c rs ha hcls
    refine next_answered ha (checks_eq ?_ rfl)
    exact List.forall_mem_singleton.mpr (decide_eq_false (Nat.not_lt.mpr hcls))

/-- Settles O58: each event runs where it is due. The model's nodes and the estimate are values of the environment (log 38),
as the measures of a slow round are (log 97); the readings of the throttle and of the halt are log 69. -/
theorem thermalEventsRun : Obligations.ThermalEventsRun := by
  unfold Obligations.ThermalEventsRun
  refine ⟨?_, ?_, ?_, ?_, ?_⟩
  · intro r est powers s x e f power nodes u v trip w hdue
    simp only [x] at hdue
    exact congrArg Host.Outcome.next (if_pos (by simp [hdue]))
  · intro s hdue
    exact congrArg Host.Outcome.next (if_pos (by simp [hdue]))
  · intro s hdue
    exact congrArg Host.Outcome.next (if_pos (by simp [hdue]))
  · intro s hdue
    exact congrArg Host.Outcome.next (if_pos (by simp [hdue]))
  · intro diodes volts counts devs vhold s q u v hdue
    exact congrArg Host.Outcome.next (if_pos (by simp [hdue]))

/-- Settles O60: a sample runs where its chain is live, a packet where the screening and its flow allow it. The order of
samples and the reach of the transmit queue are the model's reading (log 49). -/
theorem samplesRun : Obligations.SamplesRun := by
  unfold Obligations.SamplesRun
  refine ⟨?_, ?_, ?_, ?_⟩
  · intro p code q s full v hlive
    refine congrArg Host.Outcome.next (if_neg ?_)
    simp [hlive.1, Nat.not_le.mpr hlive.2]
  · intro b s front bank aper rate preset g t flow r x v u cut w hdue
    obtain ⟨hruns, hsource, hneeded⟩ := hdue
    show execBeamTxGridSample b s = _
    unfold execBeamTxGridSample
    extract_lets loaded
    have hbank : s.txBankAt (Int.ofNat (s.time.ticks + front) - Int.ofNat loaded) = (bank, aper) := rfl
    have hnb : bank.nbOf b = (rate, preset) := rfl
    rw [hbank]
    simp -zeta only [hnb]
    refine congrArg Host.Outcome.next (if_neg ?_)
    simp only [hruns, hsource, Bool.not_true, Bool.false_or, decide_eq_true_eq]
    exact Nat.not_lt.mpr hneeded
  · intro pkt s f elem b rate preset fmt fmtOk x n u hscreen hfin hsrc hfmt hroom
    simp only [fmtOk, x] at hscreen hsrc
    refine congrArg Host.Outcome.next ?_
    simp only [hscreen, hfin, hsrc]
    refine (if_neg ?_).trans ((if_neg (Nat.not_le.mpr hroom)).trans ?_)
    · exact not_or.mpr ⟨not_not.mpr hfmt.1, not_not.mpr hfmt.2⟩
    · simp only [decide_eq_true_eq]
      rfl
  · intro pkt s f elem b rate preset fmt fmtOk x n u hscreen hfin hsrc hfmt hfull
    simp only [fmtOk, x] at hscreen hsrc
    refine congrArg Host.Outcome.next ?_
    simp only [hscreen, hfin, hsrc]
    refine (if_neg ?_).trans ((if_pos hfull).trans ?_)
    · exact not_or.mpr ⟨not_not.mpr hfmt.1, not_not.mpr hfmt.2⟩
    · cases hseen : x.ovrSeen with
      | true => exact if_neg (by simp)
      | false => exact if_pos (by simp)

end Sys2Proof.Machine
end
